-- ==== Sys2Proof/Word.lean ====
section
/-! DEFINITION. The bit-level words of the 7300's links: what the manual itself treats as bits.
Numbers that are only counted, compared or stored (columns, rows, urgencies, fees) are plain naturals elsewhere. -/

namespace Sys2Proof

/-- One byte of a frame body or of a console line (section 10.7). -/
abbrev Byte := BitVec 8

/-- The host's 16-bit request correlator (R3). -/
abbrev Corr := BitVec 16

/-- The 2-byte tag that a management frame carries and its REPLY echoes (R182). -/
abbrev Tag := BitVec 16

/-- The seconds counter of the time base, which wraps from 4,294,967,295 to 0 (R165). -/
abbrev Seconds := BitVec 32

end Sys2Proof
end

