-- ==== Sys2Proof/Syntax.lean ====
section
/-! DEFINITION. The commands of the 7300: one constructor of `Instr` for each row of spec/opcode_table.json,
with the operands the row's rule gives it. Operands that a frame carries as a number of its own (a drive number, a code, a
duration) are naturals as sent, so that an out-of-range value can be refused or clamped by the rule that says so. -/

namespace Sys2Proof

/-- The two accessors (section 4 of the manual). -/
inductive Acc where
  | a | b
deriving DecidableEq, Repr

/-- The six panel inputs, in the order of R162's table. -/
inductive PanelInput where
  | station | guardWest | guardMiddle | guardEast | quiesce | attention
deriving DecidableEq, Repr

/-- A storage cell address, as written: a pair that may name no existing cell (section 4). -/
structure Cell where
  col : Nat
  row : Nat
deriving DecidableEq, Repr

/-- The six bytes of a serial field, as received (section 5.3); `Serial.valid` says whether they are A–Z or 0–9. -/
structure Serial where
  c1 : Byte
  c2 : Byte
  c3 : Byte
  c4 : Byte
  c5 : Byte
  c6 : Byte
deriving DecidableEq, Repr

/-- The body of a REQUEST frame after its length has been judged (R182): either it has the length of its sub-kind and
spells its fields, or it does not, and then it may still hold a correlator at bytes 1..2. -/
inductive Body (α : Type) where
  | wrongLength (corr : Option Corr)
  | fields (x : α)
deriving DecidableEq, Repr

/-- The fields of a MOUNT, EJECT or ENTER body (section 10.7), before R7 treats them. -/
structure ReqFields where
  corr : Corr
  serial : Serial
  path : Fin 8
  system : Fin 16
  jobClass : Fin 16
  urgency : Nat
  writeIntent : Bool
  pool : Option Nat
  drive : Option Nat
  hint : Option Nat
deriving DecidableEq, Repr

/-- The fields of a DISMOUNT body (section 10.7). -/
structure DismountFields where
  corr : Corr
  drive : Nat
deriving DecidableEq, Repr

/-- Why a received frame is discarded with CHECK_ERROR (R181). -/
inductive DiscardCause where
  | framing | check | frameClass | receiveWithheld
deriving DecidableEq, Repr

/-- The five key kinds (R29). -/
inductive KeyKind where
  | basic | volume | full | route | routeWide
deriving DecidableEq, Repr

/-- A value word and a care word for one key field (R30, section 10.7). -/
structure FieldPat where
  value : BitVec 32
  care : BitVec 32
deriving DecidableEq, Repr

/-- The serial field of a VOLUME or FULL entry: six characters and their care marks, bits 0..5 (section 10.7). -/
structure SerialPat where
  chars : Serial
  care : Byte
deriving DecidableEq, Repr

/-- A pass-1 action as written, in the codes of section 10.7 (R45). -/
structure Pass1 where
  acctSrc : Nat
  n : Nat
  groupSrc : Nat
  k : Nat
  urgMode : Nat
  v : Nat
  next : Nat
deriving DecidableEq, Repr

/-- A pass-2 action as written, in the codes of section 10.7 (R46). -/
structure Pass2 where
  disp : Nat
  pool : Nat
  useReq : Bool
  prio : Nat
  template : Nat
  exempt : Bool
deriving DecidableEq, Repr

inductive Action where
  | pass1 (a : Pass1)
  | pass2 (a : Pass2)
deriving DecidableEq, Repr

/-- A rule entry as written (R30). -/
structure RuleEntry where
  kind : KeyKind
  fields : List FieldPat
  serial : Option SerialPat
  action : Action
deriving DecidableEq, Repr

/-- The entry operand of RULE_WRITE: a key-kind code outside the five, or a whole entry. -/
inductive RuleOperand where
  | unknownKind (code : Byte)
  | entry (e : RuleEntry)
deriving DecidableEq, Repr

/-- The operand of DEFAULTS_SET (R47): it names pass 1, pass 2 or neither. -/
inductive DefaultsOperand where
  | neither
  | pass1 (a : Pass1)
  | pass2 (a : Pass2)
deriving DecidableEq, Repr

/-- The operands of DIR_PUT (R65); `loc` and `ring` are codes (section 10.7). -/
structure DirPutArgs where
  serial : Serial
  home : Cell
  loc : Nat
  ring : Nat
  account : Nat
  group : Nat
deriving DecidableEq, Repr

/-- DIR_GET names a serial or a cell (R68). -/
inductive DirQuery where
  | bySerial (s : Serial)
  | byCell (c : Cell)
deriving DecidableEq, Repr

/-- The whole rate table (R167): three entries for each drive class, eight mount fees, three fees, four multipliers. -/
structure Rates where
  grace : Vector Nat 3
  rate : Vector Nat 3
  interval : Vector Nat 3
  mountFee : Vector Nat 8
  legFee : Nat
  promptFee : Nat
  writeFee : Nat
  mult : Vector Nat 4
deriving DecidableEq, Repr

/-- The five operands of ACCESSOR_SET (R117). -/
structure AccessorArgs where
  gather : Nat
  pick : Nat
  place : Nat
  scan : Nat
  recover : Nat
deriving DecidableEq, Repr

/-- The operands of TEMPLATE_SET (R149); `kind` and `action` are codes. -/
structure TemplateArgs where
  kind : Nat
  urgency : Nat
  reply : Nat
  steps : Nat
  action : Nat
deriving DecidableEq, Repr

/-- What a SCAN completion carries (chapter 5, opening). -/
inductive ScanResult where
  | label (s : Serial)
  | empty
  | unreadable
deriving DecidableEq, Repr

/-- The two searches of allocation (R73): a drive for a record, or a record for a drive. -/
inductive Search where
  | forRecord (slot : Nat)
  | forDrive (d : Fin 16)
deriving DecidableEq, Repr

/-- The commands: one constructor for each row of spec/opcode_table.json. -/
inductive Instr where
  | powerOn
  | linkReset
  | frameDiscarded (cause : DiscardCause)
  | requestMalformed (corr : Option Corr) (subKind : Byte)
  | unknownOperation (header : Option (Byte × Tag))
  | mount (body : Body ReqFields)
  | eject (body : Body ReqFields)
  | enter (body : Body ReqFields)
  | dismount (body : Body DismountFields)
  | cancel (body : Body Corr)
  | queryByCorrelator (body : Body Corr)
  | queryBySerial (body : Body Serial)
  | libraryOnline (tag : Tag)
  | libraryOffline (tag : Tag)
  | noticeEnable (tag : Tag) (enables : BitVec 9)
  | noticeSummaryClear (tag : Tag)
  | identify (tag : Tag)
  | ruleWrite (tag : Tag) (slot : Nat) (entry : RuleOperand)
  | ruleRead (tag : Tag) (slot : Nat)
  | ruleClear (tag : Tag) (slot : Nat)
  | rangeSet (tag : Tag) (checker source low high : Nat)
  | selectorSet (tag : Tag) (mount eject enter : Nat)
  | defaultsSet (tag : Tag) (action : DefaultsOperand)
  | dirPut (tag : Tag) (args : DirPutArgs)
  | dirDelete (tag : Tag) (serial : Serial)
  | dirGet (tag : Tag) (query : DirQuery)
  | cleanListSet (tag : Tag) (list : Vector (Option (Serial × Nat)) 4)
  | driveSet (tag : Tag) (drive cls : Nat) (pools : BitVec 8)
  | driveOffline (tag : Tag) (drive : Nat)
  | driveOnline (tag : Tag) (drive : Nat)
  | driveGet (tag : Tag) (drive : Nat)
  | accessorSet (tag : Tag) (accessor : Nat) (args : AccessorArgs)
  | accessorOffline (tag : Tag) (accessor : Nat)
  | accessorOnline (tag : Tag) (accessor : Nat)
  | accessorRecover (tag : Tag) (accessor : Nat)
  | accessorGet (tag : Tag) (accessor : Nat)
  | auditStart (tag : Tag) (accessor : Nat) (first last : Cell) (yieldClass : Nat)
  | auditAbort (tag : Tag) (accessor : Nat)
  | auditGet (tag : Tag) (accessor : Nat)
  | templateSet (tag : Tag) (template : Nat) (args : TemplateArgs)
  | inputSet (tag : Tag) (input polarity code : Nat)
  | promptList (tag : Tag)
  | accountSet (tag : Tag) (account warn limit : Nat)
  | accountRead (tag : Tag) (account : Nat)
  | accountReadClear (tag : Tag) (account : Nat)
  | rateSet (tag : Tag) (rates : Rates)
  | classification
  | tenthTick
  | secondTick
  | gatherWindowExpiry (acc : Acc)
  | motionLimitExpiry (acc : Acc)
  | driveStatusTimeout (drive : Fin 16)
  | accessorStatusTimeout (acc : Acc)
  | replyTimerExpiry (prompt : Nat)
  | panelInputChange (input : PanelInput) (high : Bool)
  | debouncePeriodEnd (input : PanelInput)
  | pickCompletion (acc : Acc) (label : Option Serial)
  | placeCompletion (acc : Acc)
  | cellOccupied (acc : Acc)
  | scanCompletion (acc : Acc) (result : ScanResult)
  | recoverCompletion (acc : Acc) (column : Nat)
  | parkCompletion (acc : Acc) (column : Nat)
  | accessorStatusAnswer (acc : Acc) (column : Nat) (occupied : Vector Bool 3)
  | driveStatusAnswer (drive : Fin 16) (reelPresent : Bool)
  | loaded (drive : Fin 16) (ring : Bool)
  | unloaded (drive : Fin 16)
  | fault (drive : Fin 16)
  | answerLine (line : List Byte)
  | frameSent
  | replyBacklogServed
  | postingServed
  | mountedEndingServed
  | owedPromptRaise
  | cleaningAttempt (drive : Fin 16)
  | returnRecordOpen (drive : Fin 16)
  | libraryDrained
  | driveReservation (search : Search)
  | tripOpen (acc : Acc)
  | legJoinsTrip (acc : Acc)
  | tripStart (acc : Acc)
  | orderSend (acc : Acc)
  | zoneLockGrant
  | shelfPositionClaim
  | stationPositionClaim
  | stationScanTaken (acc : Acc)
  | auditScanSend (acc : Acc)
  | auditResume (acc : Acc)
  | consoleLineSent
deriving DecidableEq, Repr

end Sys2Proof
end

