-- ==== Sys2Proof/Machine/State.lean ====
section
/-! DEFINITION. The state of the 7300 as plain data, block by block in the manual's order, the value it has after power-on
(`State.reset`), and the reasons a step can stop. Tables of a fixed number of like things are vectors; the request table is the
list of its open records in age order (R2), the rule table the list of its valid entries by starting slot (R29), and the
directory the list of its entries (R53). A field marked MODEL'S OWN is named by no rule; its assumption-log entry is cited. -/

namespace Sys2Proof

namespace Machine

/-! ## Values shared by the blocks -/

/-- A value for each accessor. -/
structure PerAcc (α : Type) where
  a : α
  b : α
deriving DecidableEq, Repr

/-- The library's four states (section 10.4). -/
inductive LibState where
  | offline | goingOnline | online | draining
deriving DecidableEq, Repr

/-- The nine notice kinds, in the order of R187. -/
inductive NoticeKind where
  | budgetWarn | budgetLimit | accountSaturated | accessorStalled | auditDone
  | cleaningDue | promptExpired | driveFault | checkError
deriving DecidableEq, Repr

/-- What a NOTICE frame names (R187). -/
inductive NoticeSubject where
  | account (n : Fin 128)
  | accessor (acc : Acc)
  | drive (d : Fin 16)
  | prompt (n : Nat)
  | nothing
deriving DecidableEq, Repr

structure Notice where
  kind : NoticeKind
  subject : NoticeSubject
deriving DecidableEq, Repr

/-- Where a record comes from (R3). -/
inductive Origin where
  | channel | internal
deriving DecidableEq, Repr

/-- The kinds of a request record (R3). -/
inductive ReqKind where
  | mount | eject | enter | clean | ret
deriving DecidableEq, Repr

/-- The dispositions (R46). -/
inductive Disposition where
  | robot | manual | stationFirst | hold | refuse
deriving DecidableEq, Repr

/-- The states of a request record, in the order of section 1.4. -/
inductive RecState where
  | admitted | held | supply | queued | staged | ring | loading | mounted
  | unloading | stowing | returning | faultwait | collect | posting
deriving DecidableEq, Repr

/-- The final outcomes of a record (R5). -/
inductive FinalOutcome where
  | dismounted | ejected | entered | cleaned | returned | cancelled | driveFault | operatorDeclined
  | operatorTimeout | notSupplied | wrongVolume | motionFault | unknownVolume | volumeMissing | volumeOutside
deriving DecidableEq, Repr

/-- Drive classes (R71). -/
inductive DriveClass where
  | k1 | k2 | k3
deriving DecidableEq, Repr

/-- Budget states (R175). -/
inductive Budget where
  | normal | warned | limited
deriving DecidableEq, Repr

/-- A raising block's hold on a prompt: none, raised under a number, or owed because the queue was full (R147, R152). -/
inductive PromptRef where
  | none
  | up (num : Nat)
  | owed
deriving DecidableEq, Repr

/-! ## Directory (chapter 3) -/

/-- A volume's location (R54). -/
inductive Location where
  | home
  | inTransit (acc : Acc) (holder : Fin 3)
  | onShelf (pos : Fin 4)
  | atStation (pos : Fin 8)
  | inDrive (drive : Fin 16)
  | outside
  | missing
  | misplaced (cell : Cell)
deriving DecidableEq, Repr

inductive Verification where
  | verified | unverified | auditPending
deriving DecidableEq, Repr

inductive Ring where
  | present | absent | unknown
deriving DecidableEq, Repr

/-- A directory entry (R54). -/
structure Entry where
  serial : Serial
  home : Option Cell
  loc : Location
  verif : Verification
  ring : Ring
  account : Fin 128
  group : Nat
  foreign : Bool
  mounts : Nat
deriving DecidableEq, Repr

/-- One entry of the cleaning-reel list (R69). -/
structure CleanReel where
  serial : Serial
  uses : Nat
deriving DecidableEq, Repr

/-! ## Legs (chapter 5) -/

/-- A place a leg runs from or to; a shelf or station end names its position once it is reserved (R94). -/
inductive Place where
  | cell (c : Cell)
  | drive (d : Fin 16)
  | shelf (pos : Option (Fin 4))
  | station (pos : Option (Fin 8))
deriving DecidableEq, Repr

/-- READY, ASSIGNED or ABOARD; a DONE leg leaves the rail scheduler at that event (R94). -/
inductive LegState where
  | ready | assigned | aboard
deriving DecidableEq, Repr

/-- A leg (R94). `diverted` and `refused` are what R15 and R107 ask the part to remember of it (assumption log 6). -/
structure Leg where
  acc : Acc
  src : Place
  dst : Place
  expected : Option Serial
  prio : Fin 4
  state : LegState
  inHand : Bool
  front : Bool
  holder : Option (Fin 3)
  diverted : Bool
  refused : List Cell
deriving DecidableEq, Repr

/-- Who holds a reservation or owns a stop: the leg of the record in a slot, or a put-back reel (R105). -/
inductive LegRef where
  | record (slot : Nat)
  | putBack (acc : Acc) (holder : Fin 3)
deriving DecidableEq, Repr

/-! ## Usage records (R174) -/

structure Usage where
  slot : Nat
  origin : Origin
  corr : Option Corr
  kind : ReqKind
  serial : Option Serial
  account : Fin 128
  outcome : FinalOutcome
  driveClass : Option DriveClass
  pool : Fin 8
  prio : Fin 4
  loaded : Bool
  w : Bool
  h : Nat
  m : Nat
  l : Nat
  p : Nat
  base : Nat
  charge : Nat
  clamped : Bool
  accAfter : Nat
  budgetAfter : Budget
deriving DecidableEq, Repr

/-! ## Request table (chapter 1) -/

/-- A request record (R3, R4). `approve` is the block's hold on its APPROVE prompt (R152), `ringAbsent` and
`mountedDrive` what an owed MOUNTED ending carries (R11), `usage` the built usage record (R174) and `notices` those the build raised (R176). -/
structure Rec where
  slot : Nat
  origin : Origin
  corr : Option Corr
  kind : ReqKind
  serial : Option Serial
  path : Fin 8
  system : Fin 16
  jobClass : Fin 16
  urgency : Fin 8
  writeIntent : Bool
  reqPool : Option (Fin 8)
  reqDrive : Option (Fin 16)
  hint : Option (Fin 128)
  clsUrgency : Fin 8
  account : Fin 128
  group : Nat
  disposition : Option Disposition
  heldDisp : Option Disposition
  pool : Fin 8
  prio : Fin 4
  template : Fin 16
  exempt : Bool
  budgetHeld : Bool
  state : RecState
  drive : Option (Fin 16)
  driveClass : Option DriveClass
  leg : Option Leg
  nextLeg : Option Leg
  legs : Nat
  prompts : Nat
  holdStart : Seconds
  holdSecs : Nat
  loaded : Bool
  dismountPending : Bool
  mountedOwed : Bool
  ringAbsent : Bool
  mountedDrive : Option (Fin 16)
  outcome : Option FinalOutcome
  approve : PromptRef
  usage : Option Usage
  notices : List Notice
deriving DecidableEq, Repr

/-! ## Drive table (chapter 4) -/

inductive DriveState where
  | unpolled | free | reserved | loading | mounted | unloading | awaitingStow | faulted | offline
deriving DecidableEq, Repr

/-- A drive record (R71). `status` counts the STATUS order of the online poll (R92, R165). -/
structure Drive where
  cls : DriveClass
  pools : BitVec 8
  state : DriveState
  due : Bool
  mounts : Nat
  holding : Option Nat
  reel : Bool
  cleanWait : Bool
  returnWait : Bool
  status : Option Nat
deriving DecidableEq, Repr

/-! ## Rail scheduler (chapter 5) -/

inductive AccState where
  | idle | gathering | running | waitingZone | stalled | offline
deriving DecidableEq, Repr

/-- A reel holder: empty, holding the serial read, or occupied with no serial after a STATUS answer (R93). -/
inductive Holder where
  | empty
  | reel (s : Serial)
  | unknown
deriving DecidableEq, Repr

inductive StopOp where
  | pick | place
deriving DecidableEq, Repr

/-- A stop of a trip: one PICK or one PLACE of a leg (R102). Its place is the leg's. -/
structure Stop where
  op : StopOp
  ref : LegRef
deriving DecidableEq, Repr

/-- A wrong reel on its way back to the cell it was picked from, or to the station (R105). -/
structure PutBack where
  holder : Fin 3
  serial : Serial
  dst : Place
deriving DecidableEq, Repr

/-- A trip (R99): its legs by owning slot, its put-back reels, the stops still to be made in order, the tenths left of
the gather window and the run-out mark. -/
structure Trip where
  legs : List Nat
  putBacks : List PutBack
  stops : List Stop
  window : Nat
  runOut : Bool
deriving DecidableEq, Repr

inductive ScanKind where
  | supply | collect
deriving DecidableEq, Repr

/-- The scan in flight of an accessor: a cell of an audit, or a station position with the kind of its flow and whether the
supply it was for has ended (R141). -/
inductive ScanTarget where
  | cell (c : Cell)
  | station (pos : Fin 8) (kind : ScanKind) (late : Bool)
deriving DecidableEq, Repr

/-- The six kinds of order, the stop orders with the leg they serve. -/
inductive OrderOp where
  | pick (slot : Nat)
  | place (ref : LegRef)
  | scan
  | recover
  | park
  | status
deriving DecidableEq, Repr

/-- An order in flight: what it is, the column and place it named, the holder of a PICK or PLACE, and the seconds its
motion-limit timer has left (R111). -/
structure Order where
  op : OrderOp
  col : Nat
  place : Option Place
  holder : Option (Fin 3)
  timer : Nat
deriving DecidableEq, Repr

/-- The order whose limit expired first in the run, with the state the accessor was in (R113, R114). -/
structure Failed where
  op : OrderOp
  was : AccState
deriving DecidableEq, Repr

/-- The rail scheduler's hold on a FAULT prompt; an owed one keeps the urgency asked in place of the template's (R115). -/
inductive FaultPrompt where
  | none
  | up (num : Nat)
  | owed (urgency : Option Nat)
deriving DecidableEq, Repr

/-- An accessor record (R93). `order` is the order in flight and `todo` one to be sent outside the stops of the trip. -/
structure AccRec where
  state : AccState
  column : Nat
  holders : Vector Holder 3
  gather : Nat
  limPick : Nat
  limPlace : Nat
  limScan : Nat
  limRecover : Nat
  faults : Nat
  trip : Option Trip
  scan : Option ScanTarget
  failed : Option Failed
  prompt : FaultPrompt
  order : Option Order
  todo : Option OrderOp
deriving DecidableEq, Repr

/-- An exchange-shelf position (R97); `by` is the accessor that placed the reel there (R77). -/
inductive ShelfPos where
  | empty
  | reserved (ref : LegRef)
  | holding (s : Serial) (placedBy : Acc)
deriving DecidableEq, Repr

/-- A station-scan request (R98). -/
structure ScanReq where
  pos : Fin 8
  kind : ScanKind
deriving DecidableEq, Repr

structure Rail where
  accs : PerAcc AccRec
  queues : PerAcc (List Nat)
  scanReqs : List ScanReq
  zone : Option Acc
  zoneWait : List Acc
  shelf : Vector ShelfPos 4
  shelfWait : List LegRef
  westOpen : Bool
  middleOpen : Bool
  eastOpen : Bool
  quiesce : Bool
deriving DecidableEq, Repr

/-! ## Audit unit (chapter 6) -/

inductive AuditState where
  | scanning | suspending | suspended | done
deriving DecidableEq, Repr

inductive EndedBy where
  | lastCell | abort
deriving DecidableEq, Repr

/-- An audit context that holds an audit (R121). -/
structure Audit where
  state : AuditState
  first : Cell
  last : Cell
  yieldClass : Nat
  cursor : Option Cell
  inFlight : Bool
  abortPending : Bool
  endedBy : Option EndedBy
  skip : List (Cell × Serial)
  scanned : Nat
  verified : Nat
  missing : Nat
  misplaced : Nat
  unreadable : Nat
deriving DecidableEq, Repr

/-! ## Station unit (chapter 7) -/

inductive PosState where
  | empty
  | reserved (ref : LegRef)
  | holding (s : Serial)
  | expecting (slot : Nat)
deriving DecidableEq, Repr

inductive Flow where
  | pickup | ring | collect | supply
deriving DecidableEq, Repr

inductive PosScan where
  | none
  | requested (kind : ScanKind)
  | inFlight (kind : ScanKind)
deriving DecidableEq, Repr

/-- A station position record (R134). -/
structure StationPos where
  state : PosState
  owner : Option Nat
  flow : Option Flow
  misses : Nat
  scan : PosScan
  prompt : PromptRef
deriving DecidableEq, Repr

structure Station where
  pos : Vector StationPos 8
  supplyWait : List Nat
  resWait : List LegRef
  latchOpen : Bool
deriving DecidableEq, Repr

/-! ## Console unit (chapter 8) -/

inductive PromptKind where
  | approve | supply | ring | collect | fault | cleanSupply
deriving DecidableEq, Repr

inductive ExpiryAction where
  | fail | rearm
deriving DecidableEq, Repr

structure Template where
  kind : PromptKind
  urgency : Nat
  reply : Nat
  steps : Nat
  action : ExpiryAction
deriving DecidableEq, Repr

inductive RaisingBlock where
  | requestTable | stationUnit | railScheduler | driveTable
deriving DecidableEq, Repr

inductive PromptSubject where
  | slot (n : Nat)
  | position (p : Fin 8)
  | accessor (acc : Acc)
  | drive (d : Fin 16)
deriving DecidableEq, Repr

/-- The display fields of a prompt, each optional (R150). -/
structure DisplayFields where
  serial : Option Serial
  drive : Option (Fin 16)
  position : Option (Fin 8)
  account : Option (Fin 128)
deriving DecidableEq, Repr

/-- A queued prompt (R150). Its raise order is its place in the queue, and it is SHOWING when the display choice of R153
names it. `override` is the urgency the raising block gave in place of the template's, if any (R151, R159). -/
structure Prompt where
  num : Nat
  kind : PromptKind
  template : Fin 16
  block : RaisingBlock
  subject : PromptSubject
  fields : DisplayFields
  override : Option Nat
  initial : Nat
  urgency : Nat
  left : Nat
  steps : Nat
  reply : Nat
  action : ExpiryAction
  timer : Nat
deriving DecidableEq, Repr

/-- The reply lines of R155. -/
inductive ReplyLine where
  | invalidAnswer | unknownPrompt | tooLate
  | taken (num : Nat)
deriving DecidableEq, Repr

/-- A line on the console line (R154). -/
inductive ConsoleLine where
  | display (num : Nat) (kind : PromptKind) (urgency : Nat) (subject : PromptSubject) (fields : DisplayFields)
  | noPrompts
  | reply (r : ReplyLine)
deriving DecidableEq, Repr

/-- A panel input: polarity, debounce code, settled state, raw level, and whether a debounce period is running (R161). -/
structure Input where
  activeHigh : Bool
  code : Nat
  settled : Bool
  raw : Bool
  period : Bool
deriving DecidableEq, Repr

structure Console where
  queue : List Prompt
  nextNum : Nat
  expired : List Nat
  templates : Vector Template 16
  shown : Option (Nat × Nat)
  lines : List ConsoleLine
  inputs : Vector Input 6
deriving DecidableEq, Repr

/-! ## Accounting unit (chapter 9) -/

structure Account where
  acc : Nat
  saturated : Bool
  mounts : Nat
  hold : Nat
  prompts : Nat
  warn : Nat
  limit : Nat
  budget : Budget
  last : Nat
deriving DecidableEq, Repr

structure Accounting where
  tenths : Nat
  seconds : Seconds
  rates : Rates
  accounts : Vector Account 128
deriving DecidableEq, Repr

/-! ## Classifier (chapter 2) -/

/-- The sources of a range checker (R37). -/
inductive RangeSource where
  | suffix | jobClass | urgency | hint | off
deriving DecidableEq, Repr

structure RangeChecker where
  source : RangeSource
  low : Nat
  high : Nat
deriving DecidableEq, Repr

/-- A valid entry of the rule table with its starting slot (R29). -/
structure StoredRule where
  start : Nat
  entry : RuleEntry
deriving DecidableEq, Repr

structure Classifier where
  intake : List Nat
  rules : List StoredRule
  checkers : Vector RangeChecker 8
  selMount : KeyKind
  selEject : KeyKind
  selEnter : KeyKind
  default1 : Pass1
  default2 : Pass2
deriving DecidableEq, Repr

/-! ## Link unit (chapter 10) -/

/-- The codes of an ENDING body (section 10.7). -/
inductive EndingCode where
  | accepted | mounted | taken | notCancellable | noSuchRequest
  | notReady | malformed | duplicateCorrelator | tableFull | volumeBusy
  | refusedByRule | unknownVolume | volumeMissing | volumeOutside | directoryFull
  | final (o : FinalOutcome)
  | queryRecord | queryVolume
deriving DecidableEq, Repr

/-- The tail of a QUERY answer (section 10.7). -/
inductive QueryTail where
  | none
  | record (state : RecState) (prio urgency : Nat) (leg : Option LegState) (acc : Option Acc) (queuePos : Option Nat)
  | volume (loc : Location) (verif : Verification) (ring : Ring) (holder : Option RecState)
deriving DecidableEq, Repr

/-- An ENDING frame (section 10.7); `kind` is the kind byte. -/
structure Ending where
  isFinal : Bool
  corr : Option Corr
  internal : Bool
  ringAbsent : Bool
  kind : Byte
  code : EndingCode
  slot : Option Nat
  disposition : Option Disposition
  pool : Option (Fin 8)
  drive : Option Nat
  driveClass : Option DriveClass
  h : Nat
  serial : Option Serial
  tail : QueryTail
deriving DecidableEq, Repr

/-- The reply codes (R182). -/
inductive ReplyCode where
  | done | busy | badArgument | cellTaken | directoryFull
deriving DecidableEq, Repr

/-- An accessor's place at the zone lock, as ACCESSOR_GET reports it (R120). -/
inductive ZoneStanding where
  | holds
  | waits (place : Nat)
  | neither
deriving DecidableEq, Repr

/-- A leg of a trip with the stop it stands at, as ACCESSOR_GET reports it (R120). -/
structure TripLegReport where
  stop : StopOp
  slot : Option Nat
  legState : Option LegState
  place : Option Place
deriving DecidableEq, Repr

/-- A queued prompt as PROMPT_LIST reports it, with every field of R150: `raised` is its place among the raises of the queue, 0
for the earliest, and `showing` its state. -/
structure PromptReport where
  num : Nat
  kind : PromptKind
  template : Fin 16
  block : RaisingBlock
  subject : PromptSubject
  fields : DisplayFields
  initial : Nat
  urgency : Nat
  left : Nat
  reply : Nat
  action : ExpiryAction
  timer : Nat
  raised : Nat
  showing : Bool
deriving DecidableEq, Repr

/-- A panel input as PROMPT_LIST reports it (R164). -/
structure InputReport where
  activeHigh : Bool
  code : Nat
  settled : Bool
deriving DecidableEq, Repr

/-- What follows the reply code of a REPLY: the results its operation's rule names. -/
inductive Result where
  | nothing
  | enables (bits : BitVec 9)
  | flags (bits : BitVec 9)
  | identity (vendor : Byte × Byte) (part : Nat) (revision : Byte) (lib : LibState) (capacities : List Nat)
  | displaced (slots : List Nat)
  | ruleEntry (start : Nat) (entry : RuleEntry)
  | noEntry
  | cleared (start : Nat)
  | dirPut (serial : Serial) (created : Bool)
  | dirEntry (e : Entry)
  | dirCell (homed misplaced : Option Entry)
  | drive (number : Fin 16) (d : Drive) (holdsPrompt : Bool)
  | accessor (r : AccRec) (queued : Nat) (legs : List TripLegReport) (zone : ZoneStanding) (shelf : Vector ShelfPos 4)
  | auditStarted (cells marked : Nat)
  | noAudit
  | passed (cells : Nat)
  | audit (a : Audit) (pairs cells : Nat)
  | template (number : Fin 16) (t : Template)
  | input (i : PanelInput) (activeHigh : Bool) (code : Nat)
  | prompts (next count : Nat) (queue : List PromptReport) (expired : List Nat) (templates : Vector Template 16)
      (inputs : Vector InputReport 6)
  | accountSet (account : Fin 128) (warn limit acc : Nat) (budget : Budget)
  | account (number : Fin 128) (a : Account) (seconds : Seconds)
  | accountCleared (number : Fin 128) (before : Account) (seconds : Seconds) (budget : Budget)
  | rates (r : Rates)
deriving DecidableEq, Repr

structure Reply where
  op : Byte
  tag : Tag
  code : ReplyCode
  result : Result
deriving DecidableEq, Repr

/-- An outbound frame (section 10.7). -/
inductive Frame where
  | ending (e : Ending)
  | usage (u : Usage)
  | notice (n : Notice)
  | reply (r : Reply)
deriving DecidableEq, Repr

/-- A frame in the outbound queue with the kind of entry that holds it (R184). -/
structure OutFrame where
  kept : Bool
  frame : Frame
deriving DecidableEq, Repr

/-- A device of the online poll (R189). -/
inductive Device where
  | accessor (acc : Acc)
  | drive (d : Fin 16)
deriving DecidableEq, Repr

/-- A received byte with whether receive-ready was given when it arrived (R181). -/
structure RxByte where
  byte : Byte
  ready : Bool
deriving DecidableEq, Repr

/-- The link unit. `rx` holds the partly received frame from its start mark on, and is empty while hunting (R181). `poll`
holds the polled devices not yet settled (R189). `lateTaken` says that the one frame already being received when
receive-ready was withheld has been taken (R185, assumption log 4). -/
structure Link where
  rx : List RxByte
  outq : List OutFrame
  backlog : List Frame
  flags : BitVec 9
  enables : BitVec 9
  lib : LibState
  poll : List Device
  lateTaken : Bool
deriving DecidableEq, Repr

/-- An order sent on the mechanism link. -/
inductive MechOrder where
  | accessor (acc : Acc) (o : Order)
  | unload (d : Fin 16)
  | driveStatus (d : Fin 16)
deriving DecidableEq, Repr

/-! ## The whole state -/

structure State where
  link : Link
  recs : List Rec
  cls : Classifier
  dir : List Entry
  cleanList : Vector (Option CleanReel) 4
  drives : Vector Drive 16
  cleanPrompt : PromptRef
  rail : Rail
  audits : PerAcc (Option Audit)
  station : Station
  console : Console
  acct : Accounting
  /-- MODEL'S OWN: the orders sent on the mechanism link by the last command, oldest first (assumption log 2). -/
  sent : List MechOrder
  /-- MODEL'S OWN: the notices raised at the event being taken, not yet offered to the outbound queue; empty between
  commands (assumption log 3). -/
  raised : List Notice
  /-- MODEL'S OWN: the commands waiting, first in first out (assumption log 1). -/
  pending : List Instr
deriving DecidableEq, Repr

/-! ## Power-on values -/

def Drive.initial : Drive :=
  { cls := .k1, pools := 0, state := .unpolled, due := false, mounts := 0, holding := none, reel := false,
    cleanWait := false, returnWait := false, status := none }

/-- R93: OFFLINE, holders empty, gather window 10, limits 60 each, nothing in hand. -/
def AccRec.initial (column : Nat) : AccRec :=
  { state := .offline, column := column, holders := Vector.replicate 3 .empty, gather := 10, limPick := 60,
    limPlace := 60, limScan := 60, limRecover := 60, faults := 0, trip := none, scan := none, failed := none,
    prompt := .none, order := none, todo := none }

/-- An EMPTY station position (R134). -/
def StationPos.initial : StationPos :=
  { state := .empty, owner := none, flow := none, misses := 0, scan := .none, prompt := .none }

/-- The power-on templates of R148. -/
def Template.standard (kind : PromptKind) (action : ExpiryAction) : Template :=
  { kind := kind, urgency := 3, reply := 300, steps := 2, action := action }

def Template.initial : Vector Template 16 :=
  ((((Vector.replicate 16 (Template.standard .approve .fail)).set 12 (Template.standard .collect .rearm)).set 13
    (Template.standard .fault .rearm)).set 14 (Template.standard .cleanSupply .rearm))

/-- R161: active high, code 2, settled inactive. The raw level of a pin comes from outside; here low (assumption log 5). -/
def Input.initial : Input :=
  { activeHigh := true, code := 2, settled := false, raw := false, period := false }

/-- R169: every count 0, thresholds 0, NORMAL. -/
def Account.initial : Account :=
  { acc := 0, saturated := false, mounts := 0, hold := 0, prompts := 0, warn := 0, limit := 0, budget := .normal, last := 0 }

/-- R167: every entry 0 but the multipliers, which are 8. -/
def ratesInitial : Rates :=
  { grace := Vector.replicate 3 0, rate := Vector.replicate 3 0, interval := Vector.replicate 3 0,
    mountFee := Vector.replicate 8 0, legFee := 0, promptFee := 0, writeFee := 0, mult := Vector.replicate 4 8 }

/-- R47: CONSTANT(0), CONSTANT(0), KEEP, ROUTE. -/
def pass1Initial : Pass1 := { acctSrc := 0, n := 0, groupSrc := 0, k := 0, urgMode := 0, v := 0, next := 3 }

/-- R47: REFUSE, pool 0, marks clear, class 0, template 0. -/
def pass2Initial : Pass2 := { disp := 4, pool := 0, useReq := false, prio := 0, template := 0, exempt := false }

/-- The machine right after power-on: every block at the value its chapter gives, the library OFFLINE (R189). -/
def State.reset : State :=
  { link := { rx := [], outq := [], backlog := [], flags := 0, enables := 0, lib := .offline, poll := [], lateTaken := false },
    recs := [],
    cls := { intake := [], rules := [], checkers := Vector.replicate 8 { source := .off, low := 0, high := 0 },
             selMount := .basic, selEject := .basic, selEnter := .basic, default1 := pass1Initial, default2 := pass2Initial },
    dir := [],
    cleanList := Vector.replicate 4 none,
    drives := Vector.replicate 16 Drive.initial,
    cleanPrompt := .none,
    rail := { accs := { a := AccRec.initial 0, b := AccRec.initial 199 }, queues := { a := [], b := [] }, scanReqs := [],
              zone := none, zoneWait := [], shelf := Vector.replicate 4 .empty, shelfWait := [],
              westOpen := false, middleOpen := false, eastOpen := false, quiesce := false },
    audits := { a := none, b := none },
    station := { pos := Vector.replicate 8 StationPos.initial, supplyWait := [], resWait := [], latchOpen := false },
    console := { queue := [], nextNum := 0, expired := [], templates := Template.initial, shown := none, lines := [],
                 inputs := Vector.replicate 6 Input.initial },
    acct := { tenths := 0, seconds := 0, rates := ratesInitial, accounts := Vector.replicate 128 Account.initial },
    sent := [], raised := [], pending := [] }

/-! ## Stops -/

/-- The reasons the machine stops with a fault. There is none: the manual gives every command an effect in every state, and
discards or refuses by a reply what it does not take. Nothing raises a fault, which is safe. -/
inductive Fault where
deriving DecidableEq, Repr

/-- The reasons a command is refused a meaning. -/
inductive Refusal where
  /-- Raised by `exec` alone, for a command that has no meaning in the model yet; safe, since nothing is claimed of it. -/
  | notModelled (mnemonic : String)
deriving DecidableEq, Repr

end Machine

end Sys2Proof
end

