-- ==== Sys2Proof/Config.lean ====
section
/-! DEFINITION. The free values of the model: what the manual leaves without a value. Each is a constant with no body, so
nothing can be proved of what it answers, and a claim holds whatever it is. Their log entries are 20 and 21. -/

namespace Sys2Proof

namespace Config

/-- The cell, as a number in scan order taken modulo 4,704, at which the reel of an entry that has no home cell is sought when
its location names no place (R77 seeks it at a home cell that a FOREIGN entry does not have). Applied to the serial. -/
opaque pickupWithoutHome : Option Serial → Nat

/-- The command that the body of a MANAGEMENT frame spells after its operation code and tag, for the operations whose body
layout the manual does not give (section 10.7 gives RULE_WRITE's alone). `none`: the body has not the operation's length. -/
opaque managementCommand : Byte → Tag → List Byte → Option Instr

/-- The bytes that follow the reply code of a REPLY (R182 names the results, no rule gives their layout). -/
opaque replyResultBytes : Machine.Reply → List Byte

/-- The body bytes of a NOTICE frame (R187 names its contents, no rule gives their layout). -/
opaque noticeBytes : Machine.Notice → List Byte

end Config

end Sys2Proof
end

