-- ==== Sys2Proof/Machine/Operands.lean ====
section
/-! DEFINITION. The operand forms: which serials, cells, codes and numbers exist, the geometry of section 4, the scan order of
R124, and how the codes of section 10.7 name values. -/

namespace Sys2Proof

namespace Machine

/-! ## Saturating counts (section 5.7) -/

/-- A saturating sum: it stops at `cap`. -/
def satAdd (cap x y : Nat) : Nat := min cap (x + y)

/-- A value clamped into `lo..hi` (section 5.7). -/
def clamp (lo hi x : Nat) : Nat := max lo (min hi x)

/-- A number as an index below `n`, when it is in range. -/
def toFin? (n x : Nat) : Option (Fin n) := if h : x < n then some ⟨x, h⟩ else none

/-! ## Serials (section 5.3) -/

/-- A–Z are 41h–5Ah and 0–9 are 30h–39h (section 10.7). -/
def serialByteOk (b : Byte) : Bool :=
  (0x41 ≤ b.toNat && b.toNat ≤ 0x5A) || (0x30 ≤ b.toNat && b.toNat ≤ 0x39)

def isDigit (b : Byte) : Bool := 0x30 ≤ b.toNat && b.toNat ≤ 0x39

def serialBytes (s : Serial) : List Byte := [s.c1, s.c2, s.c3, s.c4, s.c5, s.c6]

/-- Every character is one of A–Z and 0–9. -/
def serialOk (s : Serial) : Bool := (serialBytes s).all serialByteOk

/-- The value of a run of decimal digits. -/
def digitsValue (l : List Byte) : Nat := l.foldl (fun n b => 10 * n + (b.toNat - 0x30)) 0

/-- The value of the last four characters when all four are digits (section 5.3, R53's table). -/
def numericSuffix (s : Serial) : Option Nat :=
  let l := [s.c3, s.c4, s.c5, s.c6]
  if l.all isDigit then some (digitsValue l) else none

/-! ## Cells, columns and segments (section 4) -/

/-- Storage cells stand at columns 1..98 and 101..198, rows 0..23. -/
def cellOk (c : Cell) : Bool :=
  ((1 ≤ c.col && c.col ≤ 98) || (101 ≤ c.col && c.col ≤ 198)) && c.row ≤ 23

inductive Segment where
  | west | middle | east
deriving DecidableEq, Repr

/-- West is columns 0..79, Middle 80..119, East 120..199. -/
def segmentOf (col : Nat) : Segment :=
  if col < 80 then .west else if col < 120 then .middle else .east

def inMiddle (col : Nat) : Bool := segmentOf col = .middle

/-- R77: a leg with no drive end goes by its cell's column, 1..98 to A and 101..198 to B. -/
def accOfColumn (col : Nat) : Acc := if col ≤ 98 then .a else .b

/-- The side of a drive: West for 0..7, East for 8..15 (R71). -/
def driveSide (d : Fin 16) : Segment := if d.val < 8 then .west else .east

/-- The accessor that serves a drive's side (section 4). -/
def driveAcc (d : Fin 16) : Acc := if d.val < 8 then .a else .b

/-- The West bay is column 0, the East bay column 199. -/
def driveColumn (d : Fin 16) : Nat := if d.val < 8 then 0 else 199

def shelfColumn : Nat := 99

def stationColumn : Nat := 100

/-- A reaches columns 0..119, B columns 80..199. -/
def inReach (acc : Acc) (col : Nat) : Bool :=
  match acc with
  | .a => col ≤ 119
  | .b => 80 ≤ col && col ≤ 199

/-- The column just outside the Middle segment on an accessor's own side (R108). -/
def parkColumn : Acc → Nat
  | .a => 79
  | .b => 120

def otherAcc : Acc → Acc
  | .a => .b
  | .b => .a

/-- The column of a place. -/
def placeColumn : Place → Nat
  | .cell c => c.col
  | .drive d => driveColumn d
  | .shelf _ => shelfColumn
  | .station _ => stationColumn

/-- The row of a cell, or the number of a drive or position, for the ties of R102. -/
def placeNumber : Place → Nat
  | .cell c => c.row
  | .drive d => d.val
  | .shelf p => (p.map Fin.val).getD 0
  | .station p => (p.map Fin.val).getD 0

/-! ## Scan order (R124) -/

/-- By column, lowest first, and within a column by row. -/
def cellLe (x y : Cell) : Bool := x.col < y.col || (x.col = y.col && x.row ≤ y.row)

/-- The cell after an existing cell in scan order; columns 99 and 100 are passed over. -/
def nextCell (c : Cell) : Cell :=
  if c.row < 23 then { c with row := c.row + 1 }
  else if c.col = 98 then { col := 101, row := 0 }
  else { col := c.col + 1, row := 0 }

/-- An existing cell of the range from `first` to `last`, both included. -/
def inRange (first last c : Cell) : Bool := cellOk c && cellLe first c && cellLe c last

/-- The place of an existing cell in the scan order of the whole library. -/
def cellRank (c : Cell) : Nat := (if c.col ≤ 98 then c.col - 1 else c.col - 3) * 24 + c.row

/-- The existing cell at a number of the scan order, taken modulo the 4,704 cells. -/
def cellOfRank (n : Nat) : Cell :=
  let c := n % 4704 / 24
  { col := if c < 98 then c + 1 else c + 3, row := n % 24 }

/-- How many cells a range holds (R124). -/
def rangeSize (first last : Cell) : Nat := cellRank last + 1 - cellRank first

/-! ## Codes (section 10.7) -/

/-- Accessor names: A 00h, B 01h; any other name is neither. -/
def accOfCode : Nat → Option Acc
  | 0 => some .a
  | 1 => some .b
  | _ => none

def keyKindOfCode : Nat → Option KeyKind
  | 0 => some .basic
  | 1 => some .volume
  | 2 => some .full
  | 3 => some .route
  | 4 => some .routeWide
  | _ => none

def dispositionOfCode : Nat → Option Disposition
  | 0 => some .robot
  | 1 => some .manual
  | 2 => some .stationFirst
  | 3 => some .hold
  | 4 => some .refuse
  | _ => none

/-- The sources in the order R37 lists them. -/
def rangeSourceOfCode : Nat → Option RangeSource
  | 0 => some .suffix
  | 1 => some .jobClass
  | 2 => some .urgency
  | 3 => some .hint
  | 4 => some .off
  | _ => none

/-- The two locations DIR_PUT may give, by their codes among the locations of R54. -/
def putLocationOfCode : Nat → Option Location
  | 0 => some .home
  | 5 => some .outside
  | _ => none

def ringOfCode : Nat → Option Ring
  | 0 => some .present
  | 1 => some .absent
  | 2 => some .unknown
  | _ => none

/-- Drive classes in the codes of the ENDING body: K1 01h, K2 02h, K3 03h. -/
def driveClassOfCode : Nat → Option DriveClass
  | 1 => some .k1
  | 2 => some .k2
  | 3 => some .k3
  | _ => none

/-- The kinds a template of 0..11 may take, in the order R148 lists them. -/
def templateKindOfCode : Nat → Option PromptKind
  | 0 => some .approve
  | 1 => some .supply
  | 2 => some .ring
  | _ => none

def expiryActionOfCode : Nat → Option ExpiryAction
  | 0 => some .fail
  | 1 => some .rearm
  | _ => none

/-- The inputs by their places in R162's table. -/
def inputOfCode : Nat → Option PanelInput
  | 0 => some .station
  | 1 => some .guardWest
  | 2 => some .guardMiddle
  | 3 => some .guardEast
  | 4 => some .quiesce
  | 5 => some .attention
  | _ => none

def inputIndex : PanelInput → Fin 6
  | .station => 0
  | .guardWest => 1
  | .guardMiddle => 2
  | .guardEast => 3
  | .quiesce => 4
  | .attention => 5

/-- ACTIVE_HIGH 00h, ACTIVE_LOW 01h, in the order R163 names them. -/
def polarityOfCode : Nat → Option Bool
  | 0 => some true
  | 1 => some false
  | _ => none

def driveClassIndex : DriveClass → Fin 3
  | .k1 => 0
  | .k2 => 1
  | .k3 => 2

/-! ## Per-accessor values and fields of the state -/

def PerAcc.get {α : Type} (p : PerAcc α) : Acc → α
  | .a => p.a
  | .b => p.b

def PerAcc.set {α : Type} (p : PerAcc α) (acc : Acc) (x : α) : PerAcc α :=
  match acc with
  | .a => { p with a := x }
  | .b => { p with b := x }

/-- The list of the accessors, A before B (R98). -/
def bothAccs : List Acc := [.a, .b]

/-! ## Records of the request table -/

/-- The open record in a slot. -/
def State.rec? (s : State) (slot : Nat) : Option Rec := s.recs.find? (fun r => r.slot = slot)

/-- A list with its first member that passes a test changed. -/
def updFirst {α : Type} (p : α → Bool) (f : α → α) : List α → List α
  | [] => []
  | x :: rest => if p x then f x :: rest else x :: updFirst p f rest

/-- Change the open record in a slot: the one `State.rec?` finds. -/
def State.updRec (s : State) (slot : Nat) (f : Rec → Rec) : State :=
  { s with recs := updFirst (fun r => r.slot = slot) f s.recs }

/-- The lowest-numbered free slot (R1). -/
def State.freeSlot (s : State) : Option Nat :=
  (List.range 64).find? (fun n => !(s.recs.any (fun r => r.slot = n)))

/-- An open record that holds a serial; of two, the older in the age order (assumption log 54). -/
def State.holderOf (s : State) (ser : Serial) : Option Rec := s.recs.find? (fun r => r.serial = some ser)

/-- Whether an open record other than the one in `slot` holds a serial. -/
def State.heldByOther (s : State) (slot : Nat) (ser : Serial) : Bool :=
  s.recs.any (fun r => r.serial = some ser && r.slot ≠ slot)

/-- The open CHANNEL record with a correlator (R6 check 3, R21, R25). -/
def State.byCorrelator (s : State) (c : Corr) : Option Rec :=
  s.recs.find? (fun r => r.origin = .channel && r.corr = some c)

/-- The leg in play of the record in a slot. -/
def State.leg? (s : State) (slot : Nat) : Option Leg := (s.rec? slot).bind (·.leg)

/-- Change the leg in play of the record in a slot. -/
def State.updLeg (s : State) (slot : Nat) (f : Leg → Leg) : State :=
  s.updRec slot (fun r => { r with leg := r.leg.map f })

/-! ## Fields of the blocks -/

def State.acc (s : State) (acc : Acc) : AccRec := s.rail.accs.get acc

def State.updAcc (s : State) (acc : Acc) (f : AccRec → AccRec) : State :=
  { s with rail := { s.rail with accs := s.rail.accs.set acc (f (s.rail.accs.get acc)) } }

def State.setQueue (s : State) (acc : Acc) (q : List Nat) : State :=
  { s with rail := { s.rail with queues := s.rail.queues.set acc q } }

def State.updDrive (s : State) (d : Fin 16) (f : Drive → Drive) : State :=
  { s with drives := s.drives.set d (f s.drives[d]) }

def State.updPos (s : State) (p : Fin 8) (f : StationPos → StationPos) : State :=
  { s with station := { s.station with pos := s.station.pos.set p (f s.station.pos[p]) } }

def State.setShelf (s : State) (p : Fin 4) (x : ShelfPos) : State :=
  { s with rail := { s.rail with shelf := s.rail.shelf.set p x } }

def State.updAudit (s : State) (acc : Acc) (f : Audit → Audit) : State :=
  { s with audits := s.audits.set acc ((s.audits.get acc).map f) }

def State.updAccount (s : State) (n : Fin 128) (f : Account → Account) : State :=
  { s with acct := { s.acct with accounts := s.acct.accounts.set n (f s.acct.accounts[n]) } }

/-- An order leaves on the mechanism link. -/
def State.send (s : State) (o : MechOrder) : State := { s with sent := s.sent ++ [o] }

/-- A command begins: no order has been sent by it yet. -/
def State.start (s : State) : State := { s with sent := [] }

end Machine

end Sys2Proof
end

