-- ==== Sys2Proof/Machine/Flags.lean ====
section
/-! DEFINITION. The notice flags and enables of the link unit (R187). A notice sets its flag at the event that raises it; its
NOTICE frame is offered to the outbound queue at the end of that event, after the waiting records (R186), by `offerNotices`
of Machine/Outbound.lean. -/

namespace Sys2Proof

namespace Machine

/-- The bit of a notice kind among the nine flags and enables, in the order of R187. -/
def noticeBit : NoticeKind → Nat
  | .budgetWarn => 0
  | .budgetLimit => 1
  | .accountSaturated => 2
  | .accessorStalled => 3
  | .auditDone => 4
  | .cleaningDue => 5
  | .promptExpired => 6
  | .driveFault => 7
  | .checkError => 8

def noticeMask (k : NoticeKind) : BitVec 9 := (1#9) <<< noticeBit k

/-- Whether a notice's flag is set. -/
def State.flagSet (s : State) (k : NoticeKind) : Bool := s.link.flags.getLsbD (noticeBit k)

/-- Whether a notice is enabled. -/
def State.enabled (s : State) (k : NoticeKind) : Bool := s.link.enables.getLsbD (noticeBit k)

/-- Set the flag of a notice, whatever its enable holds (R187 step 1). -/
def State.setFlag (s : State) (k : NoticeKind) : State :=
  { s with link := { s.link with flags := s.link.flags ||| noticeMask k } }

/-- Raise a notice: its flag is set now, and its frame waits for the end of the event. -/
def State.raise (s : State) (k : NoticeKind) (subject : NoticeSubject) : State :=
  { s.setFlag k with raised := s.raised ++ [{ kind := k, subject := subject }] }

end Machine

end Sys2Proof
end

