-- ==== Sys2Proof/Machine/Outbound.lean ====
section
/-! DEFINITION. The outbound queue of the link unit: its kept and ordinary entries (R184), the reply backlog and receive-ready
(R185), immediate endings and replies, the availability of ordinary entries (R186) and the offering of notices (R187). -/

namespace Sys2Proof

namespace Machine

/-! ## Entries -/

def Link.keptUsed (l : Link) : Nat := (l.outq.filter (·.kept)).length

def Link.ordUsed (l : Link) : Nat := (l.outq.filter (fun f => !f.kept)).length

/-- Four of the 32 entries are kept for immediate replies (R184). -/
def Link.keptFree (l : Link) : Bool := l.keptUsed < 4

/-- Receive-ready is withheld while no kept entry is free or while the backlog is not empty (R185). -/
def Link.receiveReady (l : Link) : Bool := l.keptFree && l.backlog.isEmpty

/-- Ordinary entries available to a new claim: unoccupied, and the backlog empty (R186). -/
def Link.available (l : Link) : Nat := if l.backlog.isEmpty then 28 - l.ordUsed else 0

/-- Queue a frame at the tail of the outbound queue in an entry of the given kind. -/
def State.enqueue (s : State) (kept : Bool) (f : Frame) : State :=
  { s with link := { s.link with outq := s.link.outq ++ [{ kept := kept, frame := f }] } }

/-- An immediate reply takes a free kept entry, or joins the tail of the backlog (R185). -/
def State.immediate (s : State) (f : Frame) : State :=
  if s.link.keptFree then s.enqueue true f
  else { s with link := { s.link with backlog := s.link.backlog ++ [f] } }

/-- A freed kept entry takes the reply at the head of the backlog, and receive-ready is given again when a kept entry is then
free and the backlog empty (R185). -/
def State.serveBacklog (s : State) : State :=
  let s :=
    match s.link.backlog with
    | [] => s
    | f :: rest =>
      if s.link.keptFree then { s with link := { s.link with backlog := rest } }.enqueue true f else s
  if s.link.receiveReady then { s with link := { s.link with lateTaken := false } } else s

/-! ## Endings and replies -/

/-- The kind byte of a record's endings and of its usage record (section 10.7). -/
def kindByte : ReqKind → Byte
  | .mount => 0x01
  | .eject => 0x02
  | .enter => 0x03
  | .clean => 0x07
  | .ret => 0x08

/-- An ending with every optional field absent. -/
def endingOf (code : EndingCode) (kind : Byte) (corr : Option Corr) : Ending :=
  { isFinal := false, corr := corr, internal := false, ringAbsent := false, kind := kind, code := code, slot := none,
    disposition := none, pool := none, drive := none, driveClass := none, h := 0, serial := none, tail := .none }

/-- Queue an immediate ending. -/
def State.answer (s : State) (e : Ending) : State := s.immediate (.ending e)

/-- Queue a REPLY, which echoes the operation code and tag (R182). -/
def State.reply (s : State) (op : Byte) (tag : Tag) (code : ReplyCode) (result : Result) : State :=
  s.immediate (.reply { op := op, tag := tag, code := code, result := result })

/-- REPLY DONE with the results its rule names. -/
def State.done (s : State) (op : Byte) (tag : Tag) (result : Result) : State := s.reply op tag .done result

/-- REPLY BAD_ARGUMENT. -/
def State.bad (s : State) (op : Byte) (tag : Tag) : State := s.reply op tag .badArgument .nothing

/-- REPLY BUSY. -/
def State.busy (s : State) (op : Byte) (tag : Tag) : State := s.reply op tag .busy .nothing

/-! ## Notices -/

/-- Offer one raised notice: its frame is queued when it is enabled and an ordinary entry is available, and dropped otherwise
(R187 steps 2 and 3). -/
def State.offerNotice (s : State) (n : Notice) : State :=
  if s.enabled n.kind && 0 < s.link.available then s.enqueue false (.notice n) else s

/-- Offer the notices raised at this event, in the order their owners raised them. -/
def State.offerNotices (s : State) : State :=
  s.raised.foldl State.offerNotice { s with raised := [] }

/-! ## Arrival of a frame -/

/-- A frame arrives (R181). While receive-ready is withheld one frame, the one already being received, is taken; later ones
are discarded with CHECK_ERROR raised (R181, R185, assumption log 4). -/
def State.arrive (s : State) (take : State → State) : State :=
  if s.link.receiveReady then take s.start
  else if s.link.lateTaken then (s.start.raise .checkError .nothing).offerNotices
  else take { s.start with link := { s.link with lateTaken := true } }

end Machine

end Sys2Proof
end

