-- ==== Sys2Proof/Machine/Accounting.lean ====
section
/-! DEFINITION. The accounting unit: the time base (R165), hold time (R166), the charge (R170, R171), the usage-record build
(R172 to R174) and the budget state of an account (R175, R176). -/

namespace Sys2Proof

namespace Machine

/-- The largest hold time, about 12 days (R166). -/
def maxHold : Nat := 1048575

/-- The largest charge (R171). -/
def maxCharge : Nat := 16777215

/-- The largest value of a 32-bit count (R169). -/
def maxCount32 : Nat := 4294967295

/-- The largest value of a 16-bit count (R169). -/
def maxCount16 : Nat := 65535

/-! ## Hold time (R166) -/

/-- The seconds between two readings of the counter, taken modulo 4,294,967,296 and clamped. -/
def holdBetween (start now : Seconds) : Nat := min (now - start).toNat maxHold

/-- LOADED writes the seconds counter into the record's hold start. -/
def State.startHold (s : State) (slot : Nat) : State :=
  s.updRec slot (fun r => { r with holdStart := s.acct.seconds })

/-- Hold stops: H is fixed. -/
def State.stopHold (s : State) (slot : Nat) : State :=
  s.updRec slot (fun r => { r with holdSecs := holdBetween r.holdStart s.acct.seconds })

/-! ## The charge (R170, R171) -/

/-- The inputs of the charge. -/
structure ChargeInputs where
  h : Nat
  grace : Nat
  rate : Nat
  mountFee : Nat
  legs : Nat
  legFee : Nat
  prompts : Nat
  promptFee : Nat
  w : Nat
  writeFee : Nat
  mult : Nat
deriving DecidableEq, Repr

/-- The inputs as the record and the rate table stand at the build (R170). -/
def chargeInputs (t : Rates) (r : Rec) : ChargeInputs :=
  { h := r.holdSecs,
    grace := (r.driveClass.map (fun c => t.grace[driveClassIndex c])).getD 0,
    rate := (r.driveClass.map (fun c => t.rate[driveClassIndex c])).getD 0,
    mountFee := if r.loaded then t.mountFee[r.pool] else 0,
    legs := r.legs, legFee := t.legFee, prompts := r.prompts, promptFee := t.promptFee,
    w := if r.writeIntent && r.loaded then 1 else 0, writeFee := t.writeFee, mult := t.mult[r.prio] }

/-- Billable minutes (R171 step 1). -/
def billableMinutes (h grace : Nat) : Nat := if h ≤ grace then 0 else (h - grace + 59) / 60

/-- The base B (R171 step 2). -/
def ChargeInputs.base (c : ChargeInputs) : Nat :=
  c.mountFee + billableMinutes c.h c.grace * c.rate + c.legs * c.legFee + c.prompts * c.promptFee + c.w * c.writeFee

/-- The weighted charge Q (R171 step 3). -/
def ChargeInputs.weighted (c : ChargeInputs) : Nat := (c.base * c.mult + 4) / 8

/-- The charge (R171 step 4). -/
def ChargeInputs.charge (c : ChargeInputs) : Nat := min c.weighted maxCharge

def ChargeInputs.clamped (c : ChargeInputs) : Bool := maxCharge < c.weighted

/-! ## Budget state (R175, R176) -/

/-- LIMITED, WARNED or NORMAL from the accumulator and the two thresholds. -/
def Account.budgetNow (a : Account) : Budget :=
  if a.limit ≠ 0 ∧ a.limit ≤ a.acc then .limited
  else if a.warn ≠ 0 ∧ a.warn ≤ a.acc then .warned
  else .normal

/-- Recompute the budget state. -/
def Account.recompute (a : Account) : Account := { a with budget := a.budgetNow }

/-- The notices of a change of budget state (R176). -/
def budgetNotices (n : Fin 128) (old new : Budget) : List Notice :=
  if old = new then []
  else
    match new with
    | .warned => [{ kind := .budgetWarn, subject := .account n }]
    | .limited => [{ kind := .budgetLimit, subject := .account n }]
    | .normal => []

/-! ## The build (R172 to R174) -/

/-- The account after a charge (R172, R173): accumulator, saturated mark, mounts, hold seconds, last charge, budget state. -/
def Account.charged (a : Account) (charge h : Nat) (loaded : Bool) : Account :=
  Account.recompute
    { a with
      acc := satAdd maxCount32 a.acc charge,
      saturated := a.saturated || maxCount32 < a.acc + charge,
      mounts := if loaded then satAdd maxCount16 a.mounts 1 else a.mounts,
      hold := satAdd maxCount32 a.hold h,
      last := charge }

/-- The notices a build raises: ACCOUNT_SATURATED first, then the budget notice (R172, R176). -/
def buildNotices (n : Fin 128) (before after : Account) : List Notice :=
  (if !before.saturated && after.saturated then [{ kind := .accountSaturated, subject := .account n }] else [])
    ++ budgetNotices n before.budget after.budget

/-- The usage record of a record whose outcome is fixed (R174). -/
def usageOf (r : Rec) (o : FinalOutcome) (c : ChargeInputs) (after : Account) : Usage :=
  { slot := r.slot, origin := r.origin, corr := r.corr, kind := r.kind, serial := r.serial, account := r.account,
    outcome := o, driveClass := r.driveClass, pool := r.pool, prio := r.prio, loaded := r.loaded,
    w := r.writeIntent && r.loaded, h := r.holdSecs, m := billableMinutes c.h c.grace, l := r.legs, p := r.prompts,
    base := c.base, charge := c.charge, clamped := c.clamped, accAfter := after.acc, budgetAfter := after.budget }

/-- The outcome a record takes from its kind when it enters POSTING with none (R5). -/
def kindOutcome : ReqKind → FinalOutcome
  | .mount => .dismounted
  | .eject => .ejected
  | .enter => .entered
  | .clean => .cleaned
  | .ret => .returned

/-- A record enters POSTING (R20): its outcome is fixed, it holds no drive, leg or prompt any more, and its usage record is
built at this event. The build's notices set their flags now and wait in the record for its frames (R176). -/
def State.enterPosting (s : State) (slot : Nat) : State :=
  match s.rec? slot with
  | none => s
  | some r =>
    let o := r.outcome.getD (kindOutcome r.kind)
    let c := chargeInputs s.acct.rates r
    let before := s.acct.accounts[r.account]
    let after := before.charged c.charge r.holdSecs r.loaded
    let ns := buildNotices r.account before after
    let s := s.updAccount r.account (fun _ => after)
    let s := ns.foldl (fun s n => s.setFlag n.kind) s
    s.updRec slot (fun r =>
      { r with state := .posting, outcome := some o, drive := none, leg := none, nextLeg := none, approve := .none,
               usage := some (usageOf r o c after), notices := ns })

/-- Set a record's final outcome; a later setting replaces an earlier one (R5). -/
def State.setOutcome (s : State) (slot : Nat) (o : FinalOutcome) : State :=
  s.updRec slot (fun r => { r with outcome := some o })

/-- Set a record's state. -/
def State.setRecState (s : State) (slot : Nat) (st : RecState) : State :=
  s.updRec slot (fun r => { r with state := st })

/-- A final outcome and POSTING. -/
def State.postWith (s : State) (slot : Nat) (o : FinalOutcome) : State := (s.setOutcome slot o).enterPosting slot

end Machine

end Sys2Proof
end

