-- ==== Sys2Proof/Machine/Directory.lean ====
section
/-! DEFINITION. The volume directory (chapter 3): the updates other blocks hand it, each at one event, the law that no place is
the location of two entries (R55), the audits' claim on cells (R61, R124, R130) and the cleaning-reel list (R69, R70). -/

namespace Sys2Proof

namespace Machine

/-! ## Entries -/

def State.entry? (s : State) (ser : Serial) : Option Entry := s.dir.find? (fun e => e.serial = ser)

def State.updEntry (s : State) (ser : Serial) (f : Entry → Entry) : State :=
  { s with dir := s.dir.map (fun e => if e.serial = ser then f e else e) }

def State.deleteEntry (s : State) (ser : Serial) : State :=
  { s with dir := s.dir.filter (fun e => e.serial ≠ ser) }

/-- The home cell of a serial's entry. -/
def State.homeOf (s : State) (ser : Serial) : Option Cell := (s.entry? ser).bind (·.home)

/-- Expected at a cell: HOME there, or MISPLACED there (R54). -/
def Entry.expectedAt (e : Entry) (c : Cell) : Bool :=
  (e.loc = .home && e.home = some c) || e.loc = .misplaced c

/-- A location that names an accessor holder, a shelf or station position or a drive (R54). -/
def Location.mechanism : Location → Bool
  | .inTransit _ _ => true
  | .onShelf _ => true
  | .atStation _ => true
  | .inDrive _ => true
  | _ => false

/-- An entry at rest: not in a mechanism place (R54). -/
def Entry.atRest (e : Entry) : Bool := !e.loc.mechanism

/-! ## Giving an entry a place (R55) -/

/-- The cell a location puts an entry in, if it puts it in one. -/
def Entry.cellAt (e : Entry) : Location → Option Cell
  | .home => e.home
  | .misplaced c => some c
  | _ => none

/-- Whether another entry claims the mechanism place or the cell now given to an entry. -/
def Entry.claims (e : Entry) (loc : Location) (cell : Option Cell) : Bool :=
  (loc.mechanism && e.loc = loc) || (cell.map e.expectedAt).getD false

/-- Every other entry that claims the place becomes MISSING; its other fields are left as they are (R55). -/
def State.displace (s : State) (ser : Serial) (loc : Location) (cell : Option Cell) : State :=
  { s with dir := s.dir.map (fun e =>
      if e.serial ≠ ser && e.claims loc cell then { e with loc := .missing } else e) }

/-- An update that gives the entry of a serial a location, with the displacement it brings; a serial with no entry takes no
update. -/
def State.setLocation (s : State) (ser : Serial) (loc : Location) : State :=
  match s.entry? ser with
  | none => s
  | some e => (s.displace ser loc (e.cellAt loc)).updEntry ser (fun e => { e with loc := loc })

def State.setVerif (s : State) (ser : Serial) (v : Verification) : State :=
  s.updEntry ser (fun e => { e with verif := v })

/-- The entry of a serial becomes MISSING and keeps every other field. -/
def State.setMissing (s : State) (ser : Serial) : State := s.updEntry ser (fun e => { e with loc := .missing })

/-! ## The audits' claim (R61, R124, R130) -/

/-- An audit is active while it is not DONE (R121). -/
def Audit.active (a : Audit) : Bool := a.state ≠ .done

/-- A cell an active audit has still to pass: from the cursor to the last cell (R124). -/
def Audit.unpassed (a : Audit) (c : Cell) : Bool :=
  a.active && (a.cursor.map (fun k => inRange k a.last c)).getD false

/-- The active audit of an accessor. -/
def State.activeAudit (s : State) (acc : Acc) : Option Audit :=
  (s.audits.get acc).filter (·.active)

/-- A cell that an active audit of either accessor has not yet passed. -/
def State.auditAhead (s : State) (c : Cell) : Bool :=
  bothAccs.any (fun acc => ((s.audits.get acc).map (fun a => a.unpassed c)).getD false)

/-- A PICK has verified an AUDIT_PENDING entry: each active audit with the home cell ahead of it adds the pair (R130). The list holds at
most one pair for a cell (R121): the pair of another serial for that cell gives way to the new one (assumption log 61). -/
def Audit.addSkip (a : Audit) (home : Cell) (ser : Serial) : Audit :=
  if a.unpassed home && !(a.skip.contains (home, ser)) then
    { a with skip := a.skip.filter (fun p => p.1 ≠ home) ++ [(home, ser)] }
  else a

def State.addSkips (s : State) (e : Entry) : State :=
  match e.home with
  | none => s
  | some h => (s.updAudit .a (fun x => x.addSkip h e.serial)).updAudit .b (fun x => x.addSkip h e.serial)

/-! ## Updates at a PICK and a PLACE (R56 to R59) -/

/-- A PICK took the reel of a serial into a holder: IN_TRANSIT and VERIFIED (R56), and a skip pair when the entry was
AUDIT_PENDING (R130). -/
def State.pickedUp (s : State) (ser : Serial) (acc : Acc) (h : Fin 3) : State :=
  match s.entry? ser with
  | none => s
  | some e =>
    let s := if e.verif = .auditPending then s.addSkips e else s
    (s.setLocation ser (.inTransit acc h)).setVerif ser .verified

/-- A serial is found at a cell (R57): an at-rest entry becomes HOME or MISPLACED there and VERIFIED. -/
def State.foundAt (s : State) (y : Serial) (c : Cell) : State :=
  match s.entry? y with
  | none => s
  | some e =>
    if e.atRest then
      (s.setLocation y (if e.home = some c then .home else .misplaced c)).setVerif y .verified
    else s

/-- A PICK at a drive, shelf or station position read another serial: the expected entry becomes MISSING, and the entry of the
serial read is IN_TRANSIT when no other open record holds it (R56). -/
def State.pickedOther (s : State) (slot : Nat) (expected : Option Serial) (y : Serial) (acc : Acc) (h : Fin 3) : State :=
  let s := match expected with
    | some x => s.setMissing x
    | none => s
  if s.heldByOther slot y then s else s.pickedUp y acc h

/-- The location of an entry placed at a place (R58). -/
def Entry.placedAt (e : Entry) : Place → Location
  | .drive d => .inDrive d
  | .shelf (some p) => .onShelf p
  | .station (some p) => .atStation p
  | .cell c => if e.home = some c then .home else .misplaced c
  | .shelf none => e.loc
  | .station none => e.loc

/-- A PLACE has completed at a place (R58); its verification is left as the PICK made it. -/
def State.placedAt (s : State) (ser : Serial) (p : Place) : State :=
  match s.entry? ser with
  | none => s
  | some e => s.setLocation ser (e.placedAt p)

/-! ## Scans (R60 to R62) -/

/-- A supply scan read the serial at a station position (R60). -/
def State.suppliedAt (s : State) (ser : Serial) (p : Fin 8) : State :=
  (s.setLocation ser (.atStation p)).setVerif ser .verified

/-- A collect scan found the position empty (R60): a FOREIGN entry is deleted, any other is OUTSIDE, UNVERIFIED, ring
UNKNOWN. -/
def State.collected (s : State) (ser : Serial) : State :=
  match s.entry? ser with
  | none => s
  | some e =>
    if e.foreign then s.deleteEntry ser
    else s.updEntry ser (fun e => { e with loc := .outside, verif := .unverified, ring := .unknown })

/-- Every entry of the range still marked becomes UNVERIFIED (R61). -/
def unmark (p : Cell → Bool) (e : Entry) : Entry :=
  if e.verif = .auditPending && (e.home.map p).getD false then { e with verif := .unverified } else e

/-- The cell-passed update (R61). -/
def State.cellPassed (s : State) (c : Cell) : State :=
  { s with dir := s.dir.map (unmark (fun h => h = c)) }

/-- The abort update (R61). -/
def State.auditAborted (s : State) (first last : Cell) : State :=
  { s with dir := s.dir.map (unmark (inRange first last)) }

/-- An entry whose home cell lies in a range. -/
def Entry.homeIn (e : Entry) (first last : Cell) : Bool := (e.home.map (inRange first last)).getD false

/-- The marking update of AUDIT_START (R61). -/
def State.markRange (s : State) (first last : Cell) : State :=
  { s with dir := s.dir.map (fun e => if e.homeIn first last then { e with verif := .auditPending } else e) }

/-- How many entries a marking update marks. -/
def State.countIn (s : State) (first last : Cell) : Nat := (s.dir.filter (fun e => e.homeIn first last)).length

/-- The entry expected at a cell. -/
def State.expectedAt (s : State) (c : Cell) : Option Entry := s.dir.find? (fun e => e.expectedAt c)

/-- The entry expected at a cell, if any, becomes MISSING. -/
def State.missingAt (s : State) (c : Cell) : State :=
  match s.expectedAt c with
  | some w => s.setMissing w.serial
  | none => s

/-- Whether the entry of a serial is expected at a cell. -/
def State.isExpectedAt (s : State) (x : Serial) (c : Cell) : Bool :=
  ((s.entry? x).map (fun e => e.expectedAt c)).getD false

/-- The result of an audit SCAN of a cell is applied, before the cell-passed update (R62). -/
def State.scanApplied (s : State) (c : Cell) : ScanResult → State
  | .label x => if s.isExpectedAt x c then s.setVerif x .verified else (s.missingAt c).foundAt x c
  | .empty => s.missingAt c
  | .unreadable =>
    match s.expectedAt c with
    | some w => s.setVerif w.serial .unverified
    | none => s

/-! ## Ring and mount count (R63) -/

def State.setRing (s : State) (ser : Serial) (x : Ring) : State := s.updEntry ser (fun e => { e with ring := x })

/-- LOADED hands the directory the serial and the ring sense (R63, R81 step 2). -/
def State.loadedUpdate (s : State) (ser : Serial) (sense : Bool) : State :=
  s.updEntry ser (fun e =>
    { e with ring := if sense then .present else .absent, mounts := satAdd maxCount16 e.mounts 1 })

/-! ## The cleaning-reel list (R69, R70) -/

/-- A list entry that may be chosen: uses left, its reel HOME or MISPLACED, and held by no open record (R70). -/
def State.cleanUsable (s : State) (x : CleanReel) : Bool :=
  decide (1 ≤ x.uses)
    && ((s.entry? x.serial).map (fun e =>
          match e.loc with
          | .home => true
          | .misplaced _ => true
          | _ => false)).getD false
    && (s.holderOf x.serial).isNone

/-- The better of two choices: the one with more uses, and of equals the earlier. -/
def betterReel (best : Option CleanReel) (x : CleanReel) : Option CleanReel :=
  match best with
  | none => some x
  | some y => if y.uses < x.uses then some x else some y

/-- The directory's choice of a cleaning reel (R70). -/
def State.cleanChoice (s : State) : Option CleanReel :=
  (s.cleanList.toList.filterMap id).foldl
    (fun best x => if s.cleanUsable x then betterReel best x else best) none

/-- Whether some list entry has uses remaining of 1 or more (R70). -/
def State.cleanUsesLeft (s : State) : Bool :=
  s.cleanList.toList.any (fun x => (x.map (fun y => decide (1 ≤ y.uses))).getD false)

/-- Whether a serial stands in the cleaning-reel list. -/
def State.inCleanList (s : State) (ser : Serial) : Bool :=
  s.cleanList.toList.any (fun x => (x.map (fun y => decide (y.serial = ser))).getD false)

/-- LOADED of a CLEAN record's reel takes one use from the list entry that holds its serial (R70). -/
def State.takeCleanUse (s : State) (ser : Serial) : State :=
  { s with cleanList := s.cleanList.map (fun x =>
      x.map (fun y => if y.serial = ser then { y with uses := y.uses - 1 } else y)) }

/-- A DONE answer to a CLEAN_SUPPLY prompt restores every exhausted list entry to 50 uses (R70). -/
def State.restoreCleanUses (s : State) : State :=
  { s with cleanList := s.cleanList.map (fun x =>
      x.map (fun y => if y.uses = 0 then { y with uses := 50 } else y)) }

end Machine

end Sys2Proof
end

