-- ==== Sys2Proof/Machine/Classifier.lean ====
section
/-! DEFINITION. The classifier (chapter 2): the rule table and its checks, the range checkers, the five keys and their matching,
the two passes and the five overrides. A key field and an entry's field are both held as a word of positions, laid out as
section 10.7 lays them out, so that matching is agreement at the positions the care word selects (R35). -/

namespace Sys2Proof

namespace Machine

/-! ## The rule table (R29 to R33) -/

/-- How many slots an entry of a key kind covers, which is also its alignment (R29). -/
def kindSize : KeyKind → Nat
  | .basic => 1
  | .volume => 2
  | .full => 4
  | .route => 1
  | .routeWide => 2

/-- The pass that consults a key kind (R29). -/
def kindPass : KeyKind → Nat
  | .basic => 1
  | .volume => 1
  | .full => 1
  | .route => 2
  | .routeWide => 2

/-- The positions of each word field of a key kind, in the order of the tables of R38 to R42, the serial field left out. -/
def kindWidths : KeyKind → List Nat
  | .basic => [3, 16, 7, 1, 8, 8, 1]
  | .volume => [3, 16, 7, 1, 8, 8, 1, 9, 4, 4, 8, 1, 1]
  | .full => [3, 16, 7, 1, 8, 8, 1, 9, 4, 4, 8, 1, 1, 16, 17, 9, 7, 1]
  | .route => [12, 7, 3, 8, 1, 3]
  | .routeWide => [12, 7, 3, 8, 1, 3, 9, 4, 4, 4, 8]

/-- VOLUME and FULL entries hold a serial field (R30). -/
def kindHasSerial : KeyKind → Bool
  | .volume => true
  | .full => true
  | _ => false

/-- Whether an entry has the fields of its key kind and an action of its pass: the body length of its kind (R182). -/
def ruleShapeOk (e : RuleEntry) : Bool :=
  (e.fields.length = (kindWidths e.kind).length) && (e.serial.isSome = kindHasSerial e.kind)
    && (match e.action with
        | .pass1 _ => kindPass e.kind = 1
        | .pass2 _ => kindPass e.kind = 2)

/-- Whether a valid entry covers a slot. -/
def StoredRule.covers (r : StoredRule) (slot : Nat) : Bool :=
  decide (r.start ≤ slot) && decide (slot < r.start + kindSize r.entry.kind)

/-- Whether two runs of slots overlap. -/
def StoredRule.overlaps (r : StoredRule) (start size : Nat) : Bool :=
  decide (r.start < start + size) && decide (start < r.start + kindSize r.entry.kind)

/-- A value of a pass-1 action lies outside its range, or a code outside those listed (R31 check 4, section 10.7). -/
def pass1Ok (a : Pass1) : Bool :=
  decide (a.acctSrc ≤ 2) && decide (a.n ≤ 127) && decide (a.groupSrc ≤ 2)
    && (decide (a.groupSrc ≠ 0) || decide (a.k ≤ 4095)) && decide (a.urgMode ≤ 1)
    && (decide (a.urgMode ≠ 1) || decide (a.v ≤ 7)) && (decide (a.next = 3) || decide (a.next = 4))

def pass2Ok (a : Pass2) : Bool :=
  decide (a.disp ≤ 4) && decide (a.pool ≤ 7) && decide (a.prio ≤ 3) && decide (a.template ≤ 11)

def actionOk : Action → Bool
  | .pass1 a => pass1Ok a
  | .pass2 a => pass2Ok a

/-- The checks of RULE_WRITE after the length (R31). -/
def ruleWriteOk (slot : Nat) (e : RuleEntry) : Bool :=
  decide (slot ≤ 511) && decide (slot % kindSize e.kind = 0) && actionOk e.action

/-- Insert an entry by its starting slot. -/
def insertRule (r : StoredRule) : List StoredRule → List StoredRule
  | [] => [r]
  | x :: rest => if r.start < x.start then r :: x :: rest else x :: insertRule r rest

/-- The table after a RULE_WRITE: every overlapped entry invalidated whole, the new one stored (R31). -/
def writeRule (rules : List StoredRule) (slot : Nat) (e : RuleEntry) : List StoredRule :=
  insertRule { start := slot, entry := e } (rules.filter (fun r => !(r.overlaps slot (kindSize e.kind))))

/-- The starting slots a RULE_WRITE invalidates, in ascending order (R31). -/
def displacedBy (rules : List StoredRule) (slot : Nat) (e : RuleEntry) : List Nat :=
  (rules.filter (fun r => r.overlaps slot (kindSize e.kind))).map (·.start)

/-- The valid entry that covers a slot. -/
def ruleAt (rules : List StoredRule) (slot : Nat) : Option StoredRule := rules.find? (fun r => r.covers slot)

/-! ## Key fields (R35, R36) -/

/-- The positions of a word of the given width. -/
def positionsMask (width : Nat) : BitVec 32 := BitVec.ofNat 32 (2 ^ width - 1)

/-- A choice field: exactly the position of the value set. -/
def choiceBits (v : Nat) : BitVec 32 := BitVec.ofNat 32 (2 ^ v)

/-- A flag field. -/
def flagBits (b : Bool) : BitVec 32 := if b then 1 else 0

/-- A ladder: positions 1..u set, position p at bit p − 1 (R36). -/
def ladderBits (u : Nat) : BitVec 32 := BitVec.ofNat 32 (2 ^ u - 1)

/-- A number field. -/
def numberBits (n : Nat) : BitVec 32 := BitVec.ofNat 32 n

/-- An entry's field agrees with a key's field at every position its care mask selects; bits above the field's positions are
ignored (R35, section 10.7). -/
def fieldMatches (width : Nat) (key : BitVec 32) (p : FieldPat) : Bool :=
  ((p.value ^^^ key) &&& p.care &&& positionsMask width) = 0

/-- Every word field matches; lists of different lengths do not. -/
def fieldsMatch : List Nat → List (BitVec 32) → List FieldPat → Bool
  | [], [], [] => true
  | w :: ws, k :: ks, p :: ps => fieldMatches w k p && fieldsMatch ws ks ps
  | _, _, _ => false

/-- A character matches when its care mark is clear, or set and the characters are equal (R35). -/
def charMatches (care : Byte) (i : Nat) (x y : Byte) : Bool := !(care.getLsbD i) || x = y

def serialMatches (p : SerialPat) (s : Serial) : Bool :=
  charMatches p.care 0 p.chars.c1 s.c1 && charMatches p.care 1 p.chars.c2 s.c2 && charMatches p.care 2 p.chars.c3 s.c3
    && charMatches p.care 3 p.chars.c4 s.c4 && charMatches p.care 4 p.chars.c5 s.c5 && charMatches p.care 5 p.chars.c6 s.c6

/-! ## Range checkers (R37) -/

/-- The value of a checker's source for a record, when it exists. -/
def sourceValue (r : Rec) : RangeSource → Option Nat
  | .suffix => r.serial.bind numericSuffix
  | .jobClass => some r.jobClass.val
  | .urgency => some r.urgency.val
  | .hint => r.hint.map Fin.val
  | .off => none

def checkerHits (c : RangeChecker) (r : Rec) : Bool :=
  ((sourceValue r c.source).map (fun v => decide (c.low ≤ v) && decide (v ≤ c.high))).getD false

/-- The set of the members for which a test holds, member m at bit m. -/
def setBits (p : Nat → Bool) : Nat → BitVec 32
  | 0 => 0
  | n + 1 => setBits p n ||| (if p n then choiceBits n else 0)

/-- The record's range-hit set. -/
def rangeHits (cs : Vector RangeChecker 8) (r : Rec) : BitVec 32 :=
  setBits (fun i => (cs[i]?.map (fun c => checkerHits c r)).getD false) 8

/-! ## Codes of key values -/

def requestKindCode : ReqKind → Nat
  | .mount => 0
  | .eject => 1
  | .enter => 2
  | .clean => 3
  | .ret => 4

/-- The locations in the order of R54. -/
def locationCode : Location → Nat
  | .home => 0
  | .inTransit _ _ => 1
  | .onShelf _ => 2
  | .atStation _ => 3
  | .inDrive _ => 4
  | .outside => 5
  | .missing => 6
  | .misplaced _ => 7

def verifCode : Verification → Nat
  | .verified => 0
  | .unverified => 1
  | .auditPending => 2

def ringCode : Ring → Nat
  | .present => 0
  | .absent => 1
  | .unknown => 2

/-- Budget states in the order of R41 and R169, in the ROUTE key and in the USAGE body (assumption log 39). -/
def budgetCode : Budget → Nat
  | .normal => 0
  | .warned => 1
  | .limited => 2

/-- The home segment's position: WEST, MIDDLE, EAST, NONE (R42). -/
def homeSegmentCode (home : Option Cell) : Nat :=
  match home with
  | none => 3
  | some c =>
    match segmentOf c.col with
    | .west => 0
    | .middle => 1
    | .east => 2

/-! ## The keys (R38 to R42) -/

def basicKey (r : Rec) (hits : BitVec 32) : List (BitVec 32) :=
  [choiceBits (requestKindCode r.kind), choiceBits r.jobClass.val, ladderBits r.urgency.val, flagBits r.writeIntent,
   choiceBits r.path.val, hits, flagBits r.reqPool.isSome]

/-- The directory fields of the VOLUME key; NO_ENTRY is the position after the entry's own values (R39). -/
def volumeFields (e : Option Entry) : List (BitVec 32) :=
  [choiceBits ((e.map (fun x => locationCode x.loc)).getD 8), choiceBits ((e.map (fun x => verifCode x.verif)).getD 3),
   choiceBits ((e.map (fun x => ringCode x.ring)).getD 3), numberBits ((e.map (·.group)).getD 0),
   flagBits ((e.map (·.foreign)).getD false), flagBits e.isSome]

/-- The record fields that FULL adds; ABSENT is position 16 for the drive and 8 for the pool (R40). -/
def fullFields (r : Rec) : List (BitVec 32) :=
  [choiceBits r.system.val, choiceBits ((r.reqDrive.map Fin.val).getD 16), choiceBits ((r.reqPool.map Fin.val).getD 8),
   numberBits ((r.hint.map Fin.val).getD 0), flagBits r.hint.isSome]

/-- The key of a pass-1 kind. -/
def pass1Key (kind : KeyKind) (r : Rec) (e : Option Entry) (hits : BitVec 32) : List (BitVec 32) :=
  match kind with
  | .volume => basicKey r hits ++ volumeFields e
  | .full => basicKey r hits ++ volumeFields e ++ fullFields r
  | _ => basicKey r hits

/-- What pass 1 decides (R45). -/
structure Pass1Result where
  account : Fin 128
  group : Nat
  urgency : Fin 8
  next : KeyKind
deriving DecidableEq, Repr

def routeKey (r : Rec) (p : Pass1Result) (budget : Budget) (freePools : BitVec 8) : List (BitVec 32) :=
  [numberBits p.group, ladderBits p.urgency.val, choiceBits (budgetCode budget), freePools.setWidth 32,
   flagBits r.writeIntent, choiceBits (requestKindCode r.kind)]

def routeWideFields (e : Option Entry) (hits : BitVec 32) : List (BitVec 32) :=
  [choiceBits ((e.map (fun x => locationCode x.loc)).getD 8), choiceBits ((e.map (fun x => ringCode x.ring)).getD 3),
   choiceBits (homeSegmentCode (e.bind (·.home))), choiceBits ((e.map (fun x => verifCode x.verif)).getD 3), hits]

/-- The key of a pass-2 kind. -/
def pass2Key (r : Rec) (e : Option Entry) (hits : BitVec 32) (p : Pass1Result) (budget : Budget) (freePools : BitVec 8) :
    List (BitVec 32) :=
  match p.next with
  | .routeWide => routeKey r p budget freePools ++ routeWideFields e hits
  | _ => routeKey r p budget freePools

/-- Whether a stored entry is a candidate of a kind and matches a key (R35, R43). -/
def entryMatches (kind : KeyKind) (key : List (BitVec 32)) (ser : Option Serial) (e : RuleEntry) : Bool :=
  e.kind = kind && fieldsMatch (kindWidths kind) key e.fields
    && (match e.serial, ser with
        | some p, some s => serialMatches p s
        | some _, none => false
        | none, _ => true)

/-- The winning entry: of the candidates that match, the one with the lowest starting slot (R43). -/
def winner (rules : List StoredRule) (kind : KeyKind) (key : List (BitVec 32)) (ser : Option Serial) : Option RuleEntry :=
  (rules.find? (fun r => entryMatches kind key ser r.entry)).map (·.entry)

/-- The action of a pass-1 winner, or the default. -/
def pass1Action (d : Pass1) (w : Option RuleEntry) : Pass1 :=
  match w with
  | some e =>
    match e.action with
    | .pass1 a => a
    | .pass2 _ => d
  | none => d

def pass2Action (d : Pass2) (w : Option RuleEntry) : Pass2 :=
  match w with
  | some e =>
    match e.action with
    | .pass2 a => a
    | .pass1 _ => d
  | none => d

/-! ## Applying the actions (R45, R46) -/

def constAccount (n : Nat) : Fin 128 := Fin.ofNat 128 n

/-- The values a pass-1 action yields (R45). -/
def applyPass1 (a : Pass1) (r : Rec) (e : Option Entry) : Pass1Result :=
  { account :=
      match a.acctSrc with
      | 1 => (e.map (·.account)).getD (constAccount a.n)
      | 2 => r.hint.getD (constAccount a.n)
      | _ => constAccount a.n,
    group :=
      match a.groupSrc with
      | 1 => (e.map (·.group)).getD 0
      | 2 => r.system.val
      | _ => a.k,
    urgency := if a.urgMode = 1 then Fin.ofNat 8 a.v else r.urgency,
    next := if a.next = 4 then .routeWide else .route }

/-- The disposition of a pass-2 action. -/
def pass2Disposition (a : Pass2) : Disposition := (dispositionOfCode a.disp).getD .refuse

/-- The pool: the requested one when the mark is set and the record carries one (R46). -/
def pass2Pool (a : Pass2) (r : Rec) : Fin 8 :=
  if a.useReq then r.reqPool.getD (Fin.ofNat 8 a.pool) else Fin.ofNat 8 a.pool

/-! ## The overrides (R48 to R52) -/

/-- The refusals of a classification (R10, R28). -/
inductive Refused where
  | byRule | unknownVolume | volumeMissing | volumeOutside | directoryFull | volumeBusy
deriving DecidableEq, Repr

/-- A classification goes on with a disposition and whether a FOREIGN entry is to be created, or ends in refusal. -/
inductive Verdict where
  | refuse (r : Refused)
  | go (d : Disposition) (foreign : Bool)
deriving DecidableEq, Repr

/-- Overrides 1 and 2 (R48, R49): REFUSE, and a volume the directory does not know. -/
def override12 (kind : ReqKind) (known full : Bool) (d : Disposition) : Verdict :=
  match d with
  | .refuse => .refuse .byRule
  | _ =>
    if known then .go d false
    else
      match kind with
      | .mount =>
        match d with
        | .manual => if full then .refuse .directoryFull else .go d true
        | .hold => .go d false
        | _ => .refuse .unknownVolume
      | _ => .refuse .unknownVolume

/-- Override 3 applies to a MOUNT of disposition ROBOT or STATION_FIRST and to an EJECT not HOLD (R50). -/
def override3Applies (kind : ReqKind) (d : Disposition) : Bool :=
  match kind, d with
  | .mount, .robot => true
  | .mount, .stationFirst => true
  | .eject, .robot => true
  | .eject, .manual => true
  | .eject, .stationFirst => true
  | _, _ => false

/-- Override 3 (R50): where a known volume stands. -/
def override3 (kind : ReqKind) (loc : Option Location) (d : Disposition) : Option Refused :=
  if override3Applies kind d then
    match loc with
    | some .missing => some .volumeMissing
    | some .outside => some .volumeOutside
    | _ => none
  else none

/-- Override 4 (R51) for an ENTER: the volume must be OUTSIDE and not FOREIGN. A FOREIGN volume that is not OUTSIDE is refused with
VOLUME_BUSY, by the order of R51's table (assumption log 57). -/
def override4Enter (e : Option Entry) : Option Refused :=
  match e with
  | none => none
  | some e => if e.loc ≠ .outside then some .volumeBusy else if e.foreign then some .unknownVolume else none

/-- Override 4 (R51) for an EJECT: MANUAL and STATION_FIRST become ROBOT. -/
def override4Eject (d : Disposition) : Disposition :=
  match d with
  | .manual => .robot
  | .stationFirst => .robot
  | d => d

/-- Overrides 1 to 4 in order. -/
def overrides (kind : ReqKind) (e : Option Entry) (full : Bool) (d : Disposition) : Verdict :=
  match override12 kind e.isSome full d with
  | .refuse r => .refuse r
  | .go d foreign =>
    match override3 kind (e.map (·.loc)) d with
    | some r => .refuse r
    | none =>
      match kind with
      | .eject => .go (override4Eject d) foreign
      | .enter =>
        match override4Enter e with
        | some r => .refuse r
        | none => .go d foreign
      | _ => .go d foreign

/-- Override 5 applies (R52): LIMITED, not HOLD or REFUSE, and not exempt. -/
def override5 (budget : Budget) (d : Disposition) (exempt : Bool) : Bool :=
  budget = .limited && d ≠ .hold && d ≠ .refuse && !exempt

/-! ## Readings of other blocks -/

/-- The pools of the FREE drives without the cleaning-due mark (R41, R72). -/
def State.freePools (s : State) : BitVec 8 :=
  s.drives.toList.foldl (fun p d => if d.state = .free && !d.due then p ||| d.pools else p) 0

/-- The FOREIGN entry of R49. -/
def foreignEntry (ser : Serial) (account : Fin 128) : Entry :=
  { serial := ser, home := none, loc := .outside, verif := .unverified, ring := .unknown, account := account, group := 0,
    foreign := true, mounts := 0 }

/-- The largest number of directory entries (R53). -/
def dirCapacity : Nat := 8192

/-- The result of the two passes and the overrides for a record, read from the state as it stands (R27). -/
structure Classified where
  pass1 : Pass1Result
  action : Pass2
  verdict : Verdict
  budget : Budget
deriving DecidableEq, Repr

def State.selectorFor (s : State) : ReqKind → KeyKind
  | .eject => s.cls.selEject
  | .enter => s.cls.selEnter
  | _ => s.cls.selMount

/-- Steps 1 to 6 of the classification event (R27). -/
def State.classify (s : State) (r : Rec) : Classified :=
  let hits := rangeHits s.cls.checkers r
  let e := r.serial.bind s.entry?
  let kind1 := s.selectorFor r.kind
  let a1 := pass1Action s.cls.default1 (winner s.cls.rules kind1 (pass1Key kind1 r e hits) r.serial)
  let p1 := applyPass1 a1 r e
  let budget := s.acct.accounts[p1.account].budget
  let a2 := pass2Action s.cls.default2
    (winner s.cls.rules p1.next (pass2Key r e hits p1 budget s.freePools) r.serial)
  { pass1 := p1, action := a2, verdict := overrides r.kind e (decide (dirCapacity ≤ s.dir.length)) (pass2Disposition a2),
    budget := budget }

/-- The classified fields of the record on acceptance (R28), override 5 included (R52). -/
def acceptFields (c : Classified) (d : Disposition) (r : Rec) : Rec :=
  let limited := override5 c.budget d c.action.exempt
  { r with
    account := c.pass1.account, group := c.pass1.group, clsUrgency := c.pass1.urgency,
    disposition := some (if limited then .hold else d), heldDisp := if limited then some d else none,
    pool := pass2Pool c.action r, prio := Fin.ofNat 4 c.action.prio, template := Fin.ofNat 16 c.action.template,
    exempt := c.action.exempt, budgetHeld := limited }

end Machine

end Sys2Proof
end

