-- ==== Sys2Proof/Machine/Prompts.lean ====
section
/-! DEFINITION. The prompt queue of the console unit: raises (R151), the display choice and its lines (R153, R154), the debts of
the raising blocks and the space report (R152), and withdrawals (R160). -/

namespace Sys2Proof

namespace Machine

/-! ## The display (R153, R154) -/

/-- The prompt to show: the highest urgency now, the earliest raised among equals. -/
def shownOf (queue : List Prompt) : Option Prompt :=
  queue.foldl
    (fun best p =>
      match best with
      | none => some p
      | some b => if b.urgency < p.urgency then some p else some b) none

def ConsoleLine.isDisplay : ConsoleLine → Bool
  | .display _ _ _ _ _ => true
  | .noPrompts => true
  | .reply _ => false

/-- A new display line replaces an unsent older one. -/
def pushDisplay (lines : List ConsoleLine) (l : ConsoleLine) : List ConsoleLine :=
  lines.filter (fun x => !x.isDisplay) ++ [l]

/-- A reply line is dropped when 16 are unsent. -/
def pushReply (lines : List ConsoleLine) (r : ReplyLine) : List ConsoleLine :=
  if 16 ≤ (lines.filter (fun x => !x.isDisplay)).length then lines else lines ++ [.reply r]

/-- The display line of a prompt. -/
def displayLine (p : Prompt) : ConsoleLine := .display p.num p.kind p.urgency p.subject p.fields

/-- Make the display choice again; a display line is sent when the shown prompt or its urgency changes, or the queue becomes
empty. -/
def State.redisplay (s : State) : State :=
  let p := shownOf s.console.queue
  let now := p.map (fun p => (p.num, p.urgency))
  if now = s.console.shown then s
  else
    let line := match p with
      | some p => displayLine p
      | none => .noPrompts
    { s with console := { s.console with shown := now, lines := pushDisplay s.console.lines line } }

/-- A reply line is sent (R155). -/
def State.replyLine (s : State) (r : ReplyLine) : State :=
  { s with console := { s.console with lines := pushReply s.console.lines r } }

/-! ## Raising (R148, R151) -/

/-- What a raising block asks for. -/
structure Ask where
  kind : PromptKind
  template : Fin 16
  block : RaisingBlock
  subject : PromptSubject
  fields : DisplayFields
  override : Option Nat
deriving DecidableEq, Repr

/-- The values a prompt copies: its template's when the kinds agree, the standard values otherwise (R148). -/
def copiedValues (t : Template) (kind : PromptKind) : Template :=
  if t.kind = kind then t else Template.standard kind .fail

/-- The first number, counting up from the next number and wrapping from 255 to 0, that no queued prompt holds. -/
def freeNumber (queue : List Prompt) (next : Nat) : Nat :=
  (((List.range 256).map (fun i => (next + i) % 256)).find? (fun n => !(queue.any (fun p => p.num = n)))).getD next

/-- The queue has room for 16 prompts (R150). -/
def Console.full (c : Console) : Bool := 16 ≤ c.queue.length

def promptOf (t : Template) (a : Ask) (num : Nat) : Prompt :=
  let v := copiedValues t a.kind
  let u := a.override.getD v.urgency
  { num := num, kind := a.kind, template := a.template, block := a.block, subject := a.subject, fields := a.fields,
    override := a.override, initial := u, urgency := u, left := v.steps, steps := v.steps, reply := v.reply,
    action := v.action, timer := v.reply }

/-- Raise a prompt when the queue has room (R151 steps 1 to 4). -/
def State.pushPrompt (s : State) (a : Ask) : State :=
  let n := freeNumber s.console.queue s.console.nextNum
  let p := promptOf s.console.templates[a.template] a n
  { s with console := { s.console with
      queue := s.console.queue ++ [p], nextNum := (n + 1) % 256,
      expired := s.console.expired.filter (fun x => x ≠ n) } }.redisplay

/-- Ask for a prompt: the state after, and the block's hold on it, UP with the number or OWED when the queue is full. -/
def State.ask (s : State) (a : Ask) : State × PromptRef :=
  if s.console.full then (s, .owed)
  else (s.pushPrompt a, .up (freeNumber s.console.queue s.console.nextNum))

def noFields : DisplayFields := { serial := none, drive := none, position := none, account := none }

/-- The rail scheduler asks for a FAULT prompt with template 13 (R113, R115). -/
def State.askFault (s : State) (acc : Acc) (urgency : Option Nat) : State :=
  let (s, r) := s.ask { kind := .fault, template := 13, block := .railScheduler, subject := .accessor acc,
                        fields := noFields, override := urgency }
  s.updAcc acc (fun x => { x with prompt :=
    match r with
    | .up n => .up n
    | _ => .owed urgency })

/-- The lowest-numbered drive in cleaning wait. -/
def State.firstCleanWait (s : State) : Option (Fin 16) := (List.finRange 16).find? (fun d => s.drives[d].cleanWait)

/-- The drive table asks for its CLEAN_SUPPLY prompt with template 14, whose subject is the lowest-numbered drive in cleaning
wait (R87). -/
def State.askCleanSupply (s : State) : State :=
  match s.firstCleanWait with
  | none => { s with cleanPrompt := .none }
  | some d =>
    let (s, r) := s.ask { kind := .cleanSupply, template := 14, block := .driveTable, subject := .drive d,
                          fields := { noFields with drive := some d }, override := none }
    { s with cleanPrompt := r }

/-- The request table asks for the APPROVE prompt of a HELD record, with template 15 when it is budget-held (R10). -/
def State.askApprove (s : State) (slot : Nat) : State :=
  match s.rec? slot with
  | none => s
  | some r =>
    let (s, ref) := s.ask { kind := .approve, template := if r.budgetHeld then 15 else r.template, block := .requestTable,
                            subject := .slot slot, fields := { noFields with serial := r.serial, account := some r.account },
                            override := none }
    s.updRec slot (fun r => { r with approve := ref })

/-- What the station unit asks for at a position: SUPPLY for an EXPECTING one, RING or COLLECT for a HOLDING one by its flow
(R138, R142, R143, R146). -/
def State.stationAsk (s : State) (p : Fin 8) : Option Ask :=
  let x := s.station.pos[p]
  match x.state with
  | .expecting slot =>
    (s.rec? slot).map (fun r =>
      { kind := .supply, template := r.template, block := .stationUnit, subject := .slot slot,
        fields := { noFields with serial := r.serial, position := some p, account := some r.account }, override := none })
  | .holding ser =>
    match x.flow with
    | some .ring =>
      (x.owner.bind s.rec?).map (fun r =>
        { kind := .ring, template := r.template, block := .stationUnit, subject := .slot r.slot,
          fields := { noFields with serial := r.serial, position := some p, account := some r.account }, override := none })
    | some .collect =>
      let owner := x.owner.bind s.rec?
      some
        { kind := .collect, template := 12, block := .stationUnit,
          subject := (owner.map (fun r => PromptSubject.slot r.slot)).getD (.position p),
          fields := { noFields with serial := some ser, position := some p, account := owner.map (·.account) },
          override := none }
    | _ => none
  | _ => none

/-- The station unit asks for the prompt of a position; it becomes UP, or OWED (R147). -/
def State.askStation (s : State) (p : Fin 8) : State :=
  match s.stationAsk p with
  | none => s
  | some a =>
    let (s, r) := s.ask a
    s.updPos p (fun x => { x with prompt := r })

/-! ## The space report (R152) -/

/-- The rail scheduler raises an owed FAULT prompt. -/
def State.raiseOwedFault (s : State) (acc : Acc) : State :=
  match (s.acc acc).prompt with
  | .owed u => s.askFault acc u
  | _ => s

/-- The drive table raises its owed CLEAN_SUPPLY prompt. -/
def State.raiseOwedClean (s : State) : State :=
  match s.cleanPrompt with
  | .owed => s.askCleanSupply
  | _ => s

/-- The request table raises the owed APPROVE prompt of a HELD record. -/
def State.raiseOwedApprove (s : State) (slot : Nat) : State :=
  match s.rec? slot with
  | some r => if r.state = .held ∧ r.approve = .owed then s.askApprove slot else s
  | none => s

/-- The station unit raises the owed prompt of a position. -/
def State.raiseOwedStation (s : State) (p : Fin 8) : State :=
  match s.station.pos[p].prompt with
  | .owed => s.askStation p
  | _ => s

/-- The raising blocks are told that space is free, in the order of R152, and raise what they owe until the queue is full. -/
def State.spaceReport (s : State) : State :=
  let s := bothAccs.foldl State.raiseOwedFault s
  let s := s.raiseOwedClean
  let s := (s.recs.map (·.slot)).foldl State.raiseOwedApprove s
  (List.finRange 8).foldl State.raiseOwedStation s

/-! ## Leaving the queue -/

/-- A prompt leaves the queue and the display choice is made again. -/
def State.removePrompt (s : State) (num : Nat) : State :=
  { s with console := { s.console with queue := s.console.queue.filter (fun p => p.num ≠ num) } }.redisplay

def State.prompt? (s : State) (num : Nat) : Option Prompt := s.console.queue.find? (fun p => p.num = num)

/-- A raising block withdraws a prompt (R160): when a queued prompt holds the number and the block raised it, it leaves the
queue and the space report is handed on at once; otherwise nothing changes. Where one event withdraws several prompts, or raises
one after, each withdrawal hands on its own report (assumption log 63). -/
def State.withdraw (s : State) (num : Nat) (block : RaisingBlock) : State :=
  match s.prompt? num with
  | some p => if p.block = block then (s.removePrompt num).spaceReport else s
  | none => s

/-- A block gives up its hold on a prompt: a raised one is withdrawn, an owed one forgotten (R152). -/
def State.dropPrompt (s : State) (ref : PromptRef) (block : RaisingBlock) : State :=
  match ref with
  | .up n => s.withdraw n block
  | _ => s

/-- The request table drops the APPROVE prompt of a record. -/
def State.dropApprove (s : State) (slot : Nat) : State :=
  match s.rec? slot with
  | none => s
  | some r => (s.updRec slot (fun r => { r with approve := .none })).dropPrompt r.approve .requestTable

/-- The station unit drops the prompt of a position. -/
def State.dropStation (s : State) (p : Fin 8) : State :=
  (s.updPos p (fun x => { x with prompt := .none })).dropPrompt s.station.pos[p].prompt .stationUnit

/-- The rail scheduler drops the FAULT prompt of an accessor. -/
def State.dropFault (s : State) (acc : Acc) : State :=
  let old := (s.acc acc).prompt
  let s := s.updAcc acc (fun x => { x with prompt := .none })
  match old with
  | .up n => s.withdraw n .railScheduler
  | _ => s

/-- The drive table drops its CLEAN_SUPPLY prompt at an event that leaves no drive in cleaning wait (R87). -/
def State.tidyCleanSupply (s : State) : State :=
  match s.firstCleanWait with
  | some _ => s
  | none => ({ s with cleanPrompt := .none } : State).dropPrompt s.cleanPrompt .driveTable

end Machine

end Sys2Proof
end

