-- ==== Sys2Proof/Machine/Positions.lean ====
section
/-! DEFINITION. The positions of the exchange shelf (R97) and of the transfer station (R134, R136, R137): reserving the lowest
EMPTY one, freeing a reservation, the claims on a position that becomes EMPTY, and station-scan requests (R98). -/

namespace Sys2Proof

namespace Machine

/-! ## The destination of a leg or put-back reel -/

/-- Name the to-place of a leg, or of a put-back reel aboard an accessor. -/
def State.setDst (s : State) (ref : LegRef) (dst : Place) : State :=
  match ref with
  | .record slot => s.updLeg slot (fun l => { l with dst := dst })
  | .putBack acc h =>
    s.updAcc acc (fun x => { x with trip := x.trip.map (fun t =>
      { t with putBacks := t.putBacks.map (fun b => if b.holder = h then { b with dst := dst } else b) }) })

/-- The to-place of a leg or put-back reel. -/
def State.dstOf (s : State) (ref : LegRef) : Option Place :=
  match ref with
  | .record slot => (s.leg? slot).map (·.dst)
  | .putBack acc h =>
    ((s.acc acc).trip.bind (fun t => t.putBacks.find? (fun b => b.holder = h))).map (·.dst)

/-! ## The exchange shelf (R97) -/

def State.emptyShelf (s : State) : Option (Fin 4) := (List.finRange 4).find? (fun p => s.rail.shelf[p] = .empty)

/-- The lowest EMPTY shelf position becomes RESERVED for a leg and is named to it. -/
def State.reserveShelf (s : State) (ref : LegRef) : Option State :=
  s.emptyShelf.map (fun p => (s.setShelf p (.reserved ref)).setDst ref (.shelf (some p)))

/-- An EMPTY shelf position goes to the stop that has waited longest for one, if any. -/
def State.claimShelf (s : State) (p : Fin 4) : State :=
  match s.rail.shelfWait with
  | [] => s
  | ref :: rest =>
    if s.rail.shelf[p] = .empty then
      (({ s with rail := { s.rail with shelfWait := rest } }.setShelf p (.reserved ref)).setDst ref (.shelf (some p)))
    else s

/-- A shelf position becomes EMPTY. -/
def State.freeShelf (s : State) (p : Fin 4) : State := (s.setShelf p .empty).claimShelf p

/-! ## Station-scan requests (R98) -/

/-- Hand the rail scheduler a station-scan request; one for a position already in the list is not added again. -/
def State.requestScan (s : State) (p : Fin 8) (kind : ScanKind) : State :=
  let s := s.updPos p (fun x => { x with scan := .requested kind })
  if s.rail.scanReqs.any (fun q => q.pos = p) then s
  else { s with rail := { s.rail with scanReqs := s.rail.scanReqs ++ [{ pos := p, kind := kind }] } }

/-- Withdraw the station-scan request of a position. -/
def State.withdrawScan (s : State) (p : Fin 8) : State :=
  { s with rail := { s.rail with scanReqs := s.rail.scanReqs.filter (fun q => q.pos ≠ p) } }

/-! ## The transfer station (R136 to R138) -/

def State.emptyStation (s : State) : Option (Fin 8) :=
  (List.finRange 8).find? (fun p => s.station.pos[p].state = .empty)

/-- The lowest EMPTY station position becomes RESERVED for a leg and is named to it (R136). -/
def State.reserveStation (s : State) (ref : LegRef) : Option State :=
  s.emptyStation.map (fun p =>
    (s.updPos p (fun _ => { StationPos.initial with state := .reserved ref })).setDst ref (.station (some p)))

/-- A record in SUPPLY takes an EMPTY position: EXPECTING, misses 0, and the SUPPLY prompt is asked for (R138). -/
def State.supplyAt (s : State) (slot : Nat) (p : Fin 8) : State :=
  (s.updPos p (fun _ => { StationPos.initial with state := .expecting slot, flow := some .supply })).askStation p

/-- A station position that is EMPTY goes to the first claimant: the reservation wait list, then the supply wait list (R137).
With no claimant it stays EMPTY, and the rail scheduler's search for work at the end of the event finds it. -/
def State.claimStation (s : State) (p : Fin 8) : State :=
  if s.station.pos[p].state = .empty then
    match s.station.resWait with
    | ref :: rest =>
      (({ s with station := { s.station with resWait := rest } }.updPos p
        (fun _ => { StationPos.initial with state := .reserved ref })).setDst ref (.station (some p)))
    | [] =>
      match s.station.supplyWait with
      | slot :: rest => ({ s with station := { s.station with supplyWait := rest } } : State).supplyAt slot p
      | [] => s
  else s

/-- A station position becomes EMPTY and goes to its claimant (R137). Its scan field reads NONE from here on, also while the scan of a
supply that has ended runs on: R134 and R141 do not say what it reads then (assumption log 64). -/
def State.freeStation (s : State) (p : Fin 8) : State :=
  (s.updPos p (fun _ => StationPos.initial)).claimStation p

/-- The station position a leg has reserved. -/
def State.stationReserved (s : State) (ref : LegRef) : Option (Fin 8) :=
  (List.finRange 8).find? (fun p => s.station.pos[p].state = .reserved ref)

/-- The shelf position a leg has reserved. -/
def State.shelfReserved (s : State) (ref : LegRef) : Option (Fin 4) :=
  (List.finRange 4).find? (fun p => s.rail.shelf[p] = .reserved ref)

/-- The reservation of a leg, and its place in a waiting list, end (R97, R136). -/
def State.freeReservation (s : State) (ref : LegRef) : State :=
  let s := { s with
    rail := { s.rail with shelfWait := s.rail.shelfWait.filter (fun x => x ≠ ref) },
    station := { s.station with resWait := s.station.resWait.filter (fun x => x ≠ ref) } }
  let s := match s.shelfReserved ref with
    | some p => s.freeShelf p
    | none => s
  match s.stationReserved ref with
  | some p => s.freeStation p
  | none => s

/-- A reservation for a shelf or station to-place whose position is not yet named; other to-places need none. -/
def State.reserveFor (s : State) (ref : LegRef) : Option State :=
  match s.dstOf ref with
  | some (.shelf none) => s.reserveShelf ref
  | some (.station none) => s.reserveStation ref
  | _ => some s

/-- The leg is sent to the station: a position is reserved for it, or its stop will wait for one (R103). -/
def State.sendToStation (s : State) (ref : LegRef) : State :=
  let s := s.setDst ref (.station none)
  (s.reserveStation ref).getD s

/-- A record in SUPPLY takes the lowest EMPTY position, or stands in the supply wait list, which then reads `waiting` (R138 step 1). -/
def State.supplyOrWait (s : State) (slot : Nat) (waiting : List Nat) : State :=
  match s.emptyStation with
  | some p => s.supplyAt slot p
  | none => { s with station := { s.station with supplyWait := waiting } }

/-- The supply flow of a record starts (R138). -/
def State.startSupply (s : State) (slot : Nat) : State := s.supplyOrWait slot (s.station.supplyWait ++ [slot])

/-- The station position that expects the reel of a record. -/
def State.expecting (s : State) (slot : Nat) : Option (Fin 8) :=
  (List.finRange 8).find? (fun p => s.station.pos[p].state = .expecting slot)

/-- The station position that holds a record's reel. -/
def State.heldAt (s : State) (slot : Nat) : Option (Fin 8) :=
  (List.finRange 8).find? (fun p =>
    match s.station.pos[p].state with
    | .holding _ => s.station.pos[p].owner = some slot
    | _ => false)

/-- The shelf position that holds a reel, with the accessor that placed it. -/
def State.onShelf (s : State) (ser : Serial) : Option (Fin 4 × Acc) :=
  (List.finRange 4).findSome? (fun p =>
    match s.rail.shelf[p] with
    | .holding x by' => if x = ser then some (p, by') else none
    | _ => none)

/-- Mark the supply scan in flight at a position as late: the supply it was for has ended (R141). The mark is kept in the accessor's scan
alone, and in no field of the position (assumption log 64). -/
def State.markScanLate (s : State) (p : Fin 8) : State :=
  bothAccs.foldl (fun s acc => s.updAcc acc (fun x => { x with scan := x.scan.map (fun t =>
    match t with
    | .station q .supply _ => if q = p then .station q .supply true else t
    | _ => t) })) s

/-- A supply ends: its prompt is dropped, its scan request withdrawn or its scan in flight marked late, and the position
becomes EMPTY (R21, R139 to R141). A record with no position leaves the supply wait list. -/
def State.endSupply (s : State) (slot : Nat) : State :=
  let s := { s with station := { s.station with supplyWait := s.station.supplyWait.filter (fun x => x ≠ slot) } }
  match s.expecting slot with
  | none => s
  | some p => (((s.dropStation p).withdrawScan p).markScanLate p).freeStation p

end Machine

end Sys2Proof
end

