-- ==== Sys2Proof/Machine/Rail.lean ====
section
/-! DEFINITION. The rail scheduler at work (chapter 5): order queues (R95), looking for work (R98, R99, R125, R129), trips and
their stops (R99 to R102), the gates of an order and its sending (R103, R110, R111), withdrawals (R96), and the end of a trip
(R108). `State.railSettle` does, once, everything the rules let follow at the end of an event, accessor A before B. -/

namespace Sys2Proof

namespace Machine

/-! ## Order queues (R95) -/

/-- The place of a slot's record in the age order. -/
def State.agePlace (s : State) (slot : Nat) : Nat := s.recs.findIdx (fun r => r.slot = slot)

/-- Whether a queued leg stays ahead of one that joins: the higher class first, then the front mark in order of return, then
age. -/
def State.aheadOf (s : State) (queued joining : Nat) : Bool :=
  match s.leg? queued, s.leg? joining with
  | some p, some q =>
    decide (q.prio < p.prio)
      || (decide (p.prio = q.prio) && (p.front || (!q.front && decide (s.agePlace queued < s.agePlace joining))))
  | _, _ => true

/-- A queue with a leg inserted at its place. -/
def State.insertLeg (s : State) (slot : Nat) : List Nat → List Nat
  | [] => [slot]
  | x :: rest => if s.aheadOf x slot then x :: s.insertLeg slot rest else slot :: x :: rest

/-- A yielding leg: a READY leg of the accessor's queue at or above the yield class (section 6.1). -/
def State.hasYielding (s : State) (acc : Acc) (yieldClass : Nat) : Bool :=
  (s.rail.queues.get acc).any (fun slot => ((s.leg? slot).map (fun l => decide (yieldClass ≤ l.prio.val))).getD false)

/-- R127: a yielding leg has become READY. -/
def State.yieldAudit (s : State) (acc : Acc) (prio : Fin 4) : State :=
  s.updAudit acc (fun x =>
    if x.state = .scanning ∧ x.yieldClass ≤ prio.val then
      { x with state := if x.inFlight then .suspending else .suspended }
    else x)

/-! ## Trips (R99 to R102) -/

/-- Free: IDLE, no scan in flight, and QUIESCE not active (R98). -/
def State.free (s : State) (acc : Acc) : Bool :=
  (s.acc acc).state = .idle && (s.acc acc).scan.isNone && !s.rail.quiesce

/-- An audit on the accessor that is not DONE holds back the legs below its yield class (R99). -/
def State.heldBack (s : State) (acc : Acc) (prio : Fin 4) : Bool :=
  ((s.activeAudit acc).map (fun x => decide (prio.val < x.yieldClass))).getD false

def Place.atStation : Place → Bool
  | .station _ => true
  | _ => false

/-- Whether a to-place that needs a position can have one reserved now. -/
def State.canReserve (s : State) : Place → Bool
  | .shelf none => s.emptyShelf.isSome
  | .station none => s.emptyStation.isSome
  | _ => true

/-- R99: a READY leg that may join a trip now. -/
def State.eligible (s : State) (acc : Acc) (slot : Nat) : Bool :=
  ((s.leg? slot).map (fun l =>
    !s.heldBack acc l.prio && !(s.station.latchOpen && (l.src.atStation || l.dst.atStation)) && s.canReserve l.dst)).getD false

/-- A leg joins the trip: ASSIGNED, out of the queue, without its front mark, its position reserved (R99). -/
def State.tripJoin (s : State) (acc : Acc) (slot : Nat) : State :=
  let s := s.setQueue acc ((s.rail.queues.get acc).filter (fun x => x ≠ slot))
  let s := s.updLeg slot (fun l => { l with state := .assigned, front := false })
  let s := s.updAcc acc (fun x => { x with trip := x.trip.map (fun t => { t with legs := t.legs ++ [slot] }) })
  (s.reserveFor (.record slot)).getD s

/-- How many legs an accessor's trip holds. -/
def State.tripSize (s : State) (acc : Acc) : Nat := ((s.acc acc).trip.map (fun t => t.legs.length)).getD 0

/-- The eligible legs of the queue join in queue order until the trip holds three (R99, R100). -/
def State.tripFill (s : State) (acc : Acc) : State :=
  (s.rail.queues.get acc).foldl
    (fun s slot => if s.tripSize acc < 3 && s.eligible acc slot then s.tripJoin acc slot else s) s

def State.anyEligible (s : State) (acc : Acc) : Bool := (s.rail.queues.get acc).any (s.eligible acc)

/-- An empty trip with its gather window counting; a window of 0 has run out at the opening (R101). -/
def Trip.opened (gather : Nat) : Trip :=
  { legs := [], putBacks := [], stops := [], window := gather, runOut := gather = 0 }

/-- A free accessor with an eligible leg opens a trip and enters GATHERING (R99). -/
def State.tripOpen (s : State) (acc : Acc) : State :=
  if s.free acc && s.anyEligible acc then
    (s.updAcc acc (fun x => { x with state := .gathering, trip := some (Trip.opened x.gather) })).tripFill acc
  else s

/-- The start condition of a GATHERING trip (R101). -/
def State.startDue (s : State) (acc : Acc) : Bool :=
  (s.acc acc).state = .gathering && !s.rail.quiesce
    && ((s.acc acc).trip.map (fun t =>
          t.runOut || decide (3 ≤ t.legs.length)
            || t.legs.any (fun slot => ((s.leg? slot).map (fun l => decide (l.prio = 3))).getD false))).getD false

/-- The number of columns between two columns (R102). -/
def distance (x y : Nat) : Nat := (x - y) + (y - x)

/-- Nearest first; at equal distance the lower column, then the lower row or number (R102). -/
def nearer (base : Nat) (x y : Place) : Bool :=
  let dx := distance (placeColumn x) base
  let dy := distance (placeColumn y) base
  decide (dx < dy)
    || (decide (dx = dy)
        && (decide (placeColumn x < placeColumn y)
            || (decide (placeColumn x = placeColumn y) && decide (placeNumber x ≤ placeNumber y))))

def insertStop (base : Nat) (x : Place × Stop) : List (Place × Stop) → List (Place × Stop)
  | [] => [x]
  | y :: rest => if nearer base y.1 x.1 then y :: insertStop base x rest else x :: y :: rest

/-- Stops in the order of R102 measured from a column. -/
def orderStops (base : Nat) (l : List (Place × Stop)) : List (Place × Stop) :=
  l.foldl (fun out x => insertStop base x out) []

/-- The PICK stops of legs with their places. -/
def State.pickStops (s : State) (legs : List Nat) : List (Place × Stop) :=
  legs.filterMap (fun slot => (s.leg? slot).map (fun l => (l.src, { op := .pick, ref := .record slot })))

/-- The PLACE stops of legs with their places. -/
def State.placeStops (s : State) (legs : List Nat) : List (Place × Stop) :=
  legs.filterMap (fun slot => (s.leg? slot).map (fun l => (l.dst, { op := .place, ref := .record slot })))

/-- All pickups from the accessor's present column, then all drops from the column of the last pickup (R102). -/
def State.stopsOf (s : State) (column : Nat) (legs : List Nat) : List Stop :=
  let picks := orderStops column (s.pickStops legs)
  let base := (picks.getLast?.map (fun x => placeColumn x.1)).getD column
  (picks ++ orderStops base (s.placeStops legs)).map (·.2)

/-- The trip starts: the window stops, the stops are put in order, RUNNING (R101). -/
def State.tripStart (s : State) (acc : Acc) : State :=
  s.updAcc acc (fun x =>
    { x with state := .running,
             trip := x.trip.map (fun t => { t with window := 0, stops := s.stopsOf x.column t.legs }) })

/-! ## The gates and the sending of an order (R103, R110, R111) -/

/-- The place a stop stands at. -/
def State.stopPlace (s : State) (x : Stop) : Option Place :=
  match x.op, x.ref with
  | .pick, .record slot => (s.leg? slot).map (·.src)
  | .pick, .putBack _ _ => none
  | .place, ref => s.dstOf ref

/-- Whether the stop is a PLACE at the shelf or station whose position is not yet reserved. -/
def State.unreserved (s : State) (x : Stop) : Bool :=
  match x.op, s.dstOf x.ref with
  | .place, some (.shelf none) => true
  | .place, some (.station none) => true
  | _, _ => false

/-- Change the stops of an accessor's trip. -/
def State.updStops (s : State) (acc : Acc) (f : List Stop → List Stop) : State :=
  s.updAcc acc (fun x => { x with trip := x.trip.map (fun t => { t with stops := f t.stops }) })

/-- The stops an accessor has still to make, the one in progress at the head. -/
def State.stops (s : State) (acc : Acc) : List Stop := ((s.acc acc).trip.map (·.stops)).getD []

/-- Whether a stop stands in a wait list for a position. -/
def State.listed (s : State) (x : Stop) : Bool := s.rail.shelfWait.contains x.ref || s.station.resWait.contains x.ref

/-- The stop that waits joins the wait list of what it needs. An accessor waits with one stop only (R134): one with a stop in a list
from an earlier wait waits with that one, and no other of its stops joins (assumption log 14). -/
def State.joinWait (s : State) (acc : Acc) (x : Stop) : State :=
  if s.listed x || (s.stops acc).any s.listed then s
  else
    match s.dstOf x.ref with
    | some (.shelf _) => { s with rail := { s.rail with shelfWait := s.rail.shelfWait ++ [x.ref] } }
    | _ => { s with station := { s.station with resWait := s.station.resWait ++ [x.ref] } }

/-- The accessor waits for a position: its stop stands in the wait list, and an accessor that holds the zone lock as it begins to
wait is first sent a PARK (R103), also when the stop has stood in the list since an earlier wait. -/
def State.awaitPosition (s : State) (acc : Acc) (x : Stop) : State :=
  let s := s.joinWait acc x
  if s.rail.zone = some acc then s.updAcc acc (fun r => { r with todo := some .park }) else s

/-- Bring to the head the first stop that may be tested: a stop whose position cannot be reserved moves behind the others, and
when every stop left is such a one, the head waits (R103). `todoStops` are the stops not yet looked at, `behind` those moved. -/
def State.chooseStop (s : State) (acc : Acc) (behind : List Stop) : List Stop → State
  | [] =>
    match behind with
    | [] => s
    | x :: _ => s.awaitPosition acc x
  | x :: rest =>
    if s.unreserved x then
      match s.reserveFor x.ref with
      | some s => s.updStops acc (fun _ => x :: (rest ++ behind))
      | none => s.chooseStop acc (behind ++ [x]) rest
    else s.updStops acc (fun _ => x :: (rest ++ behind))

/-- What an accessor is to be sent next. -/
structure NextOrder where
  op : OrderOp
  col : Nat
  place : Option Place
  needsLock : Bool
deriving DecidableEq, Repr

/-- The column and place a scan in flight names. -/
def scanPlace : ScanTarget → Place
  | .cell c => .cell c
  | .station p _ _ => .station (some p)

/-- The order of a stop that names its place. -/
def State.stopOrder (s : State) (x : Stop) : Option NextOrder :=
  match s.stopPlace x with
  | none => none
  | some p =>
    some { op := match x.op, x.ref with
             | .pick, .record slot => .pick slot
             | _, ref => .place ref,
           col := placeColumn p, place := some p, needsLock := inMiddle (placeColumn p) }

/-- An order to be sent outside the stops of the trip: a scan, a PARK to the accessor's own side, or a RECOVER or STATUS at its
column. A PARK goes under the zone lock while the accessor stands in the Middle segment (R119). -/
def AccRec.todoOrder (x : AccRec) (acc : Acc) (op : OrderOp) : Option NextOrder :=
  match op with
  | .scan =>
    x.scan.map (fun t => { op := .scan, col := placeColumn (scanPlace t), place := some (scanPlace t),
                           needsLock := inMiddle (placeColumn (scanPlace t)) })
  | .park => some { op := .park, col := parkColumn acc, place := none, needsLock := inMiddle x.column }
  | op => some { op := op, col := x.column, place := none, needsLock := inMiddle x.column }

/-- The next order of an accessor that has none in flight. -/
def State.nextOrder (s : State) (acc : Acc) : Option NextOrder :=
  let x := s.acc acc
  if x.order.isSome then none
  else
    match x.todo with
    | some op => x.todoOrder acc op
    | none =>
      if x.state = .running ∨ x.state = .waitingZone then
        match s.stops acc with
        | [] => none
        | st :: _ => if s.unreserved st then none else s.stopOrder st
      else none

/-- The motion limit of an order (R111). -/
def AccRec.limitOf (x : AccRec) : OrderOp → Nat
  | .pick _ => x.limPick
  | .place _ => x.limPlace
  | .scan => x.limScan
  | .recover => x.limRecover
  | .park => x.limPlace
  | .status => x.limPick

def AccRec.emptyHolder (x : AccRec) : Option (Fin 3) := (List.finRange 3).find? (fun h => x.holders[h] = .empty)

/-- The holder an order names: the lowest empty one for a PICK, the reel's own for a PLACE (R103). -/
def State.holderFor (s : State) (acc : Acc) : OrderOp → Option (Fin 3)
  | .pick _ => (s.acc acc).emptyHolder
  | .place (.record slot) => (s.leg? slot).bind (·.holder)
  | .place (.putBack _ h) => some h
  | _ => none

/-- Whether the guard of a column's segment is OPEN (R112). -/
def State.guardOpen (s : State) (col : Nat) : Bool :=
  match segmentOf col with
  | .west => s.rail.westOpen
  | .middle => s.rail.middleOpen
  | .east => s.rail.eastOpen

/-- The order is sent and its motion-limit timer starts; a PICK's leg is then in hand (R94, R111). -/
def State.sendOrder (s : State) (acc : Acc) (n : NextOrder) : State :=
  let o : Order := { op := n.op, col := n.col, place := n.place, holder := s.holderFor acc n.op,
                     timer := (s.acc acc).limitOf n.op }
  let s := match n.op with
    | .pick slot => s.updLeg slot (fun l => { l with inHand := true })
    | _ => s
  (s.updAcc acc (fun x => { x with order := some o, todo := none })).send (.accessor acc o)

/-- The request for the zone lock (R110): granted at once, or the accessor joins the wait list. -/
def State.askZone (s : State) (acc : Acc) : State :=
  if s.rail.zone = some acc then s
  else if s.rail.zone = none ∧ s.rail.middleOpen = false then
    { s with rail := { s.rail with zone := some acc, zoneWait := s.rail.zoneWait.filter (fun x => x ≠ acc) } }
  else
    let s := if s.rail.zoneWait.contains acc then s
             else { s with rail := { s.rail with zoneWait := s.rail.zoneWait ++ [acc] } }
    s.updAcc acc (fun x => if x.state = .running then { x with state := .waitingZone } else x)

/-- The zone lock is not in the way of an order. -/
def State.zoneOk (s : State) (acc : Acc) (n : NextOrder) : Bool := !n.needsLock || s.rail.zone = some acc

/-- The guard of the order's segment is CLOSED, and at column 100 the latch is CLOSED (R103). -/
def State.gatesOk (s : State) (n : NextOrder) : Bool :=
  !s.guardOpen n.col && !(n.col = stationColumn && s.station.latchOpen)

/-- An accessor that no longer waits for the lock is RUNNING. -/
def AccRec.unwait (x : AccRec) : AccRec := if x.state = .waitingZone then { x with state := .running } else x

/-- An accessor at a stop of its trip, with nothing in flight, brings to the head the stop to be tested (R103). -/
def State.bringStop (s : State) (acc : Acc) : State :=
  let x := s.acc acc
  if x.order.isNone && x.todo.isNone && (x.state = .running || x.state = .waitingZone) then s.chooseStop acc [] (s.stops acc)
  else s

/-- The order of an accessor whose request for the zone lock, if it needs one, has been made: it is sent when the lock and the
gates allow it (R103). -/
def State.passGates (s : State) (acc : Acc) (n : NextOrder) : State :=
  if s.zoneOk acc n then
    let s := s.updAcc acc AccRec.unwait
    if s.gatesOk n then s.sendOrder acc n else s
  else s

/-- Test an order: the zone lock is asked for when it is needed, then the gates (R103, R110). -/
def State.tryOrder (s : State) (acc : Acc) (n : NextOrder) : State :=
  (if n.needsLock then s.askZone acc else s).passGates acc n

/-- Test the next order of an accessor, if it has one. -/
def State.sendNext (s : State) (acc : Acc) : State :=
  match s.nextOrder acc with
  | none => s
  | some n => s.tryOrder acc n

/-- Test the next order of an accessor and send it when its conditions hold (R103). -/
def State.orderSend (s : State) (acc : Acc) : State := (s.bringStop acc).sendNext acc

/-! ## Looking for work (R98) -/

/-- Whether a free accessor can take a station scan. -/
def State.canTakeScan (s : State) (acc : Acc) : Bool :=
  s.free acc && !s.station.latchOpen && !s.rail.scanReqs.isEmpty

/-- A free accessor takes the oldest station-scan request while the latch is CLOSED (R98 item 1). -/
def State.stationScanTaken (s : State) (acc : Acc) : State :=
  if s.canTakeScan acc then
    match s.rail.scanReqs with
    | [] => s
    | q :: rest =>
      let s := { s with rail := { s.rail with scanReqs := rest } }
      let s := s.updPos q.pos (fun x => { x with scan := .inFlight q.kind })
      (s.updAcc acc (fun x => { x with scan := some (.station q.pos q.kind false), todo := some .scan })).orderSend acc
  else s

/-- R129: a SUSPENDED audit whose accessor is free and whose queue holds no yielding leg is SCANNING again. -/
def State.auditResume (s : State) (acc : Acc) : State :=
  match s.audits.get acc with
  | some x =>
    if x.state = .suspended && s.free acc && !s.hasYielding acc x.yieldClass then
      s.updAudit acc (fun x => { x with state := .scanning })
    else s
  | none => s

/-- R125: a SCANNING audit sends the SCAN of its cursor cell when its accessor is free and has nothing before it. -/
def State.auditScanSend (s : State) (acc : Acc) : State :=
  if s.free acc && !s.canTakeScan acc && !s.anyEligible acc then
    match s.audits.get acc with
    | some x =>
      match x.state, x.cursor with
      | .scanning, some c =>
        let s := s.updAudit acc (fun x => { x with inFlight := true })
        (s.updAcc acc (fun x => { x with scan := some (.cell c), todo := some .scan })).orderSend acc
      | _, _ => s
    | none => s
  else s

/-- A GATHERING trip whose start is due starts, and its first order is tested (R101, R103). -/
def State.startIfDue (s : State) (acc : Acc) : State :=
  if s.startDue acc then (s.tripStart acc).orderSend acc else s

/-- R100: legs that have become eligible join a GATHERING trip. -/
def State.gather (s : State) (acc : Acc) : State :=
  if (s.acc acc).state = .gathering then s.tripFill acc else s

/-- The accessor looks for work: a station scan, then a trip, then an audit scan (R98); a GATHERING one takes in the legs that
have become eligible and starts when it is due. -/
def State.look (s : State) (acc : Acc) : State :=
  let s := s.auditResume acc
  let s :=
    if s.canTakeScan acc then s.stationScanTaken acc
    else if s.free acc && s.anyEligible acc then s.tripOpen acc
    else s.auditScanSend acc
  (s.gather acc).startIfDue acc

/-- A leg becomes READY: it joins its accessor's queue, and a yielding one moves the audit (R95, R127). The accessors look for
work at the end of the event, A before B (R98, `State.railSettle`). -/
def State.legReady (s : State) (slot : Nat) : State :=
  match s.leg? slot with
  | none => s
  | some l =>
    let s := s.updLeg slot (fun l => { l with state := .ready })
    (s.setQueue l.acc (s.insertLeg slot (s.rail.queues.get l.acc))).yieldAudit l.acc l.prio

/-! ## Withdrawal (R96) -/

/-- A leg or put-back leaves a trip with its stops. -/
def Trip.without (ref : LegRef) (t : Trip) : Trip :=
  { t with
    legs := t.legs.filter (fun slot => LegRef.record slot ≠ ref),
    putBacks := t.putBacks.filter (fun b => LegRef.putBack .a b.holder ≠ ref && LegRef.putBack .b b.holder ≠ ref),
    stops := t.stops.filter (fun x => x.ref ≠ ref) }

/-- A GATHERING trip that holds no leg ends, and its accessor is IDLE (R96), or is sent a PARK first when it stands in the Middle
segment (R108). -/
def AccRec.endEmptyGather (x : AccRec) : AccRec :=
  if x.state = .gathering ∧ (x.trip.map (·.legs)).getD [] = [] then
    if inMiddle x.column then { x with state := .running, trip := none, todo := some .park }
    else { x with state := .idle, trip := none, faults := 0 }
  else x

/-- A record's leg leaves the rail scheduler: out of its queue or trip, its stops removed, its reservation freed (R96). A trip
left with no stops ends at the close of the event (`State.endTrip`). -/
def State.removeLeg (s : State) (slot : Nat) : State :=
  match s.leg? slot with
  | none => s
  | some l =>
    let s := s.setQueue l.acc ((s.rail.queues.get l.acc).filter (fun x => x ≠ slot))
    let s := s.updAcc l.acc (fun x => AccRec.endEmptyGather { x with trip := x.trip.map (Trip.without (.record slot)) })
    let s := s.updRec slot (fun r => { r with leg := none })
    s.freeReservation (.record slot)

/-- The leg and the next leg of a record are discarded. -/
def State.discardLegs (s : State) (slot : Nat) : State :=
  (s.removeLeg slot).updRec slot (fun r => { r with nextLeg := none })

/-- The to-place of a leg that has lost its reservation. -/
def Place.unnamed : Place → Place
  | .shelf _ => .shelf none
  | .station _ => .station none
  | p => p

/-- An ASSIGNED leg returns to its queue READY with the front mark and frees its reservation (R113, R115, R118). -/
def State.returnToQueue (s : State) (slot : Nat) : State :=
  match s.leg? slot with
  | none => s
  | some l =>
    let s := s.updAcc l.acc (fun x => { x with trip := x.trip.map (Trip.without (.record slot)) })
    let s := s.updLeg slot (fun l => { l with inHand := false, front := true, holder := none, dst := l.dst.unnamed })
    (s.freeReservation (.record slot)).legReady slot

/-! ## The end of an event -/

/-- The holder releases the zone lock (R110). -/
def State.releaseZone (s : State) (acc : Acc) : State :=
  if s.rail.zone = some acc then { s with rail := { s.rail with zone := none } } else s

/-- The accessor becomes IDLE, or is sent a PARK when it stands in the Middle segment (R108). -/
def State.idleOrPark (s : State) (acc : Acc) : State :=
  if inMiddle (s.acc acc).column then s.updAcc acc (fun x => { x with state := .running, todo := some .park })
  else (s.updAcc acc (fun x => { x with state := .idle, faults := 0 })).releaseZone acc

/-- A RUNNING trip with no stop left ends (R108, R96). -/
def State.endTrip (s : State) (acc : Acc) : State :=
  let x := s.acc acc
  if x.state = .running && x.order.isNone && x.todo.isNone && (x.trip.map (·.stops.isEmpty)).getD false then
    (s.updAcc acc (fun x => { x with trip := none })).idleOrPark acc
  else s

/-- An accessor whose next order no longer needs the lock leaves the wait list. -/
def State.pruneZone (s : State) (acc : Acc) : State :=
  if s.rail.zoneWait.contains acc && !((s.nextOrder acc).map (·.needsLock)).getD false then
    { s with rail := { s.rail with zoneWait := s.rail.zoneWait.filter (fun x => x ≠ acc) } }.updAcc acc AccRec.unwait
  else s

/-- The zone lock goes to the head of its wait list when it is free and GUARD_MIDDLE is CLOSED (R110). -/
def State.zoneGrant (s : State) : State :=
  match s.rail.zoneWait with
  | [] => s
  | acc :: rest =>
    if s.rail.zone = none ∧ s.rail.middleOpen = false then
      { s with rail := { s.rail with zone := some acc, zoneWait := rest } }.updAcc acc AccRec.unwait
    else s

/-- An IDLE accessor that stands in the Middle segment after a scan and has found no more work is parked (R98, R108, assumption
log 13). -/
def State.idlePark (s : State) (acc : Acc) : State :=
  let x := s.acc acc
  if x.state = .idle && x.scan.isNone && x.order.isNone && x.todo.isNone && inMiddle x.column then
    (s.idleOrPark acc).orderSend acc
  else s

/-- What the rail scheduler does at the end of an event, A before B: trips with no stop end, the zone lock is granted, waiting
orders are tested again, and free or GATHERING accessors look for work. -/
def State.railSettle (s : State) : State :=
  let s := (s.pruneZone .a).pruneZone .b
  let s := (s.endTrip .a).endTrip .b
  let s := s.zoneGrant
  let s := (s.orderSend .a).orderSend .b
  let s := (s.look .a).look .b
  (s.idlePark .a).idlePark .b

end Machine

end Sys2Proof
end

