-- ==== Sys2Proof/Machine/Drives.lean ====
section
/-! DEFINITION. The drive table at work (chapter 4): pickup places and legs (R77 to R79), allocation (R73 to R76), releases
(R84), cleaning attempts (R86), INTERNAL records (R9, R92), drive faults (R83), and the steps by which a record moves on to
QUEUED, SUPPLY, STAGED or COLLECT (R10, R12 to R14, R143). -/

namespace Sys2Proof

namespace Machine

/-! ## The online poll (R189) -/

/-- A polled device is settled; the library is ONLINE when the last one is. -/
def State.settle (s : State) (dev : Device) : State :=
  let rest := s.link.poll.filter (fun x => x ≠ dev)
  { s with link := { s.link with
      poll := rest,
      lib := if s.link.lib = .goingOnline ∧ rest = [] then .online else s.link.lib } }

/-! ## Legs (R77 to R79, R94) -/

/-- The home cell of a record's volume. -/
def State.recHome (s : State) (r : Rec) : Option Cell := r.serial.bind s.homeOf

/-- The home cell as a pickup place; an entry with none is sought at a free value (R77, assumption log 20). -/
def State.homePickup (s : State) (r : Rec) : Place :=
  match s.recHome r with
  | some c => .cell c
  | none => .cell (cellOfRank (Config.pickupWithoutHome r.serial))

/-- The pickup place of a record's reel (R77). -/
def State.pickup (s : State) (r : Rec) : Place :=
  match (r.serial.bind s.entry?).map Entry.loc with
  | some (.misplaced c) => .cell c
  | some (.atStation p) =>
    if s.heldAt r.slot = some p then .station (some p) else s.homePickup r
  | some (.onShelf p) =>
    if (r.serial.bind s.onShelf).map (·.1) = some p then .shelf (some p) else s.homePickup r
  | _ => s.homePickup r

/-- A leg as it is made (R94). -/
def legOf (r : Rec) (acc : Acc) (src dst : Place) : Leg :=
  { acc := acc, src := src, dst := dst, expected := r.serial, prio := r.prio, state := .ready, inHand := false, front := false,
    holder := none, diverted := false, refused := [] }

/-- The accessor of a leg with no drive end: by the column of the cell at its end (R77). A leg from the shelf or the station to the
station, which no run makes in this way, would go to A (assumption log 20). -/
def legAcc (src dst : Place) : Acc :=
  match src, dst with
  | .cell c, _ => accOfColumn c.col
  | _, .cell c => accOfColumn c.col
  | _, _ => .a

/-- A cell in the Middle segment or on a drive's side (R78, R79). -/
def nearDrive (c : Cell) (d : Fin 16) : Bool := inMiddle c.col || segmentOf c.col = driveSide d

/-- The first leg of a reservation and its next leg (R78). -/
def State.firstLegs (s : State) (r : Rec) (d : Fin 16) : Leg × Option Leg :=
  match s.pickup r with
  | .cell c =>
    if r.disposition = some .stationFirst then (legOf r (accOfColumn c.col) (.cell c) (.station none), none)
    else if nearDrive c d then (legOf r (driveAcc d) (.cell c) (.drive d), none)
    else (legOf r (accOfColumn c.col) (.cell c) (.shelf none), some (legOf r (driveAcc d) (.shelf none) (.drive d)))
  | p => (legOf r (driveAcc d) p (.drive d), none)

/-- The leg of an EJECT (R78). -/
def State.ejectLeg (s : State) (r : Rec) : Leg :=
  let p := s.pickup r
  legOf r (legAcc p (.station none)) p (.station none)

/-- The stow leg and its next leg (R79). -/
def State.stowLegs (s : State) (r : Rec) (d : Fin 16) : Leg × Option Leg :=
  match r.kind with
  | .ret => ({ legOf r (driveAcc d) (.drive d) (.station none) with expected := none }, none)
  | _ =>
    match s.recHome r with
    | some c =>
      if r.disposition = some .manual then (legOf r (driveAcc d) (.drive d) (.station none), none)
      else if nearDrive c d then (legOf r (driveAcc d) (.drive d) (.cell c), none)
      else (legOf r (driveAcc d) (.drive d) (.shelf none), some (legOf r (accOfColumn c.col) (.shelf none) (.cell c)))
    | none => (legOf r (driveAcc d) (.drive d) (.station none), none)

/-- A leg is made for a record, with its next leg, and becomes READY. -/
def State.makeLegs (s : State) (slot : Nat) (l : Leg) (next : Option Leg) : State :=
  (s.updRec slot (fun r => { r with leg := some l, nextLeg := next })).legReady slot

/-! ## A record at the station (R142, R143) -/

/-- A record enters COLLECT at a station position that holds its reel (R143). -/
def State.enterCollect (s : State) (slot : Nat) (p : Fin 8) : State :=
  let s := s.updRec slot (fun r => { r with state := .collect, leg := none, nextLeg := none })
  (s.updPos p (fun x => { x with flow := some .collect, owner := some slot })).askStation p

/-- The leg from a station position to the home cell, with the state the record takes; with no home cell the record enters
COLLECT at the position (R77, R140, R142). -/
def State.stationHome (s : State) (slot : Nat) (p : Fin 8) (st : RecState) : State :=
  match s.rec? slot with
  | none => s
  | some r =>
    match s.recHome r with
    | none => s.enterCollect slot p
    | some c =>
      let s := s.updPos p (fun x => { x with flow := some .pickup })
      (s.setRecState slot st).makeLegs slot (legOf r (accOfColumn c.col) (.station (some p)) (.cell c)) none

/-- The leg from the shelf to the home cell of a RETURNING record, or to the station by the accessor that placed the reel when
there is no home cell (R77, R106, R22). -/
def State.shelfHome (s : State) (slot : Nat) (p : Fin 4) (placedBy : Acc) : State :=
  match s.rec? slot with
  | none => s
  | some r =>
    let s := s.setRecState slot .returning
    match s.recHome r with
    | some c => s.makeLegs slot (legOf r (accOfColumn c.col) (.shelf (some p)) (.cell c)) none
    | none => s.makeLegs slot (legOf r placedBy (.shelf (some p)) (.station none)) none

/-! ## Allocation (R73 to R76) -/

/-- Reserve a drive for a record (R76). -/
def State.reserve (s : State) (slot : Nat) (d : Fin 16) : State :=
  match s.rec? slot with
  | none => s
  | some r =>
    let legs := s.firstLegs r d
    let s := s.updDrive d (fun x => { x with state := .reserved, holding := some slot })
    let s := s.updRec slot (fun r => { r with drive := some d, driveClass := some s.drives[d].cls, state := .staged })
    s.makeLegs slot legs.1 legs.2

/-- A pool is among a drive's pools. -/
def Drive.serves (d : Drive) (pool : Fin 8) : Bool := d.pools.getLsbD pool.val

/-- FREE, without the cleaning-due mark, and serving the pool. -/
def Drive.candidate (d : Drive) (pool : Fin 8) : Bool := d.state = .free && !d.due && d.serves pool

/-- Whether a drive stands on the preferred side of a pickup column (R74 test 1). -/
def preferredSide (col : Nat) (d : Fin 16) : Bool :=
  match segmentOf col with
  | .middle => true
  | seg => seg = driveSide d

/-- Drive `x` is chosen before drive `y` by side and wear; of equals the lower number stands (R74). -/
def State.betterDrive (s : State) (col : Nat) (x y : Fin 16) : Bool :=
  let px := preferredSide col x
  let py := preferredSide col y
  if px = py then decide (s.drives[x].mounts < s.drives[y].mounts) else px

/-- The choice of a drive for a record (R74). -/
def State.chooseDrive (s : State) (r : Rec) : Option (Fin 16) :=
  match r.reqDrive with
  | some d =>
    if (if r.kind = .clean then s.drives[d].state = .free else s.drives[d].candidate r.pool = true) then some d else none
  | none =>
    let col := placeColumn (s.pickup r)
    (List.finRange 16).foldl
      (fun best d =>
        if s.drives[d].candidate r.pool then
          match best with
          | none => some d
          | some y => if s.betterDrive col d y then some d else some y
        else best) none

/-- A record that has entered QUEUED looks for a drive (R74). -/
def State.allocateForRecord (s : State) (slot : Nat) : State :=
  match s.rec? slot with
  | none => s
  | some r =>
    if r.state = .queued then
      match s.chooseDrive r with
      | some d => s.reserve slot d
      | none => s
    else s

/-- A QUEUED CLEAN record pinned to a drive. -/
def Rec.cleanFor (r : Rec) (d : Fin 16) : Bool := r.state = .queued && r.kind = .clean && r.reqDrive = some d

/-- A record that a drive without the cleaning-due mark may serve (R75). -/
def Rec.eligibleFor (r : Rec) (d : Fin 16) (x : Drive) : Bool :=
  r.state = .queued && r.kind ≠ .clean && x.serves r.pool && (r.reqDrive = none || r.reqDrive = some d)

/-- The choice of a record for a drive (R75): the highest class, and of equals the oldest. -/
def State.chooseRecord (s : State) (d : Fin 16) : Option Rec :=
  if s.drives[d].due then s.recs.find? (fun r => r.cleanFor d)
  else
    s.recs.foldl
      (fun best r =>
        if r.eligibleFor d s.drives[d] then
          match best with
          | none => some r
          | some b => if b.prio < r.prio then some r else some b
        else best) none

/-! ## INTERNAL records (R9) -/

/-- An INTERNAL record at its opening (R3, R4, R9). -/
def internalRec (slot : Nat) (kind : ReqKind) (serial : Option Serial) (d : Fin 16) (st : RecState) : Rec :=
  { slot := slot, origin := .internal, corr := none, kind := kind, serial := serial, path := 0, system := 0, jobClass := 0,
    urgency := 0, writeIntent := false, reqPool := none, reqDrive := some d, hint := none, clsUrgency := 0, account := 0,
    group := 0, disposition := some .robot, heldDisp := none, pool := 0, prio := 3, template := 0, exempt := true,
    budgetHeld := false, state := st, drive := none, driveClass := none, leg := none, nextLeg := none, legs := 0, prompts := 0,
    holdStart := 0, holdSecs := 0, loaded := false, dismountPending := false, mountedOwed := false, ringAbsent := false,
    mountedDrive := none, outcome := none, approve := .none, usage := none, notices := [] }

/-- A record joins the tail of the age order (R2). -/
def State.openRec (s : State) (r : Rec) : State := { s with recs := s.recs ++ [r] }

/-- The drive table asks for the RETURN record of a drive (R92, R83): with no free slot the drive keeps return wait set. -/
def State.returnOpen (s : State) (d : Fin 16) : State :=
  match s.freeSlot with
  | none => s.updDrive d (fun x => { x with returnWait := true })
  | some slot =>
    let faulted := decide (s.drives[d].state = .faulted)
    let r := internalRec slot .ret none d (if faulted then .faultwait else .unloading)
    let s := s.openRec { r with drive := some d, outcome := if faulted then some .driveFault else none }
    let s := s.updDrive d (fun x =>
      { x with state := if faulted then .faulted else .unloading, holding := some slot, returnWait := false })
    s.send (.unload d)

/-! ## Cleaning (R86) -/

/-- A due FREE drive with no CLEAN record QUEUED may make a cleaning attempt. -/
def State.attemptDue (s : State) (d : Fin 16) : Bool :=
  s.drives[d].state = .free && s.drives[d].due && !(s.recs.any (fun r => r.cleanFor d))

def State.setCleanWait (s : State) (d : Fin 16) (w : Bool) : State := s.updDrive d (fun x => { x with cleanWait := w })

/-- A cleaning attempt (R86, R87). -/
def State.cleaningAttempt (s : State) (d : Fin 16) : State :=
  if s.attemptDue d then
    match s.cleanChoice with
    | some reel =>
      match s.freeSlot with
      | some slot =>
        let s := s.openRec (internalRec slot .clean (some reel.serial) d .queued)
        (s.setCleanWait d false).tidyCleanSupply.allocateForRecord slot
      | none => s.setCleanWait d true
    | none =>
      let s := s.setCleanWait d true
      if !s.cleanUsesLeft && s.cleanPrompt = .none then s.askCleanSupply else s
  else s

/-- Every drive in cleaning wait makes its attempt, in ascending number (R86). -/
def State.cleaningAttempts (s : State) : State :=
  (List.finRange 16).foldl (fun s d => if s.drives[d].cleanWait then s.cleaningAttempt d else s) s

/-- A record-freed event (R1, R86): drives in return wait ask first, then drives in cleaning wait make their attempts. -/
def State.recordFreed (s : State) : State :=
  ((List.finRange 16).foldl (fun s d => if s.drives[d].returnWait then s.returnOpen d else s) s).cleaningAttempts

/-- A drive that is FREE looks for a record, and a due one that finds none makes its cleaning attempt (R73, R75), at a DRIVE_SET
too (assumption log 59). -/
def State.allocateForDrive (s : State) (d : Fin 16) : State :=
  if s.drives[d].state = .free then
    match s.chooseRecord d with
    | some r => s.reserve r.slot d
    | none => s.cleaningAttempt d
  else s

/-! ## Release (R84) -/

/-- A record's drive is released to FREE and looks for a record; a FAULTED one stays FAULTED. `taken` says that the reel has
left the drive, as at the PICK of a stow leg. -/
def State.releaseDrive (s : State) (slot : Nat) (taken : Bool) : State :=
  match (s.rec? slot).bind (·.drive) with
  | none => s
  | some d =>
    let s := s.updRec slot (fun r => { r with drive := none })
    let s := s.updDrive d (fun x =>
      { x with state := if x.state = .faulted then .faulted else .free, holding := none,
               reel := if taken then false else x.reel })
    s.allocateForDrive d

/-! ## Moving a record on (R10, R12 to R14) -/

def State.enterQueued (s : State) (slot : Nat) : State := (s.setRecState slot .queued).allocateForRecord slot

def State.enterSupply (s : State) (slot : Nat) : State := (s.setRecState slot .supply).startSupply slot

/-- An EJECT enters STAGED with its leg to the station. -/
def State.enterStaged (s : State) (slot : Nat) : State :=
  match s.rec? slot with
  | none => s
  | some r => (s.setRecState slot .staged).makeLegs slot (s.ejectLeg r) none

/-- The record moves by its kind and disposition (the tables of R10 and R12). -/
def State.moveOn (s : State) (slot : Nat) : State :=
  match s.rec? slot with
  | none => s
  | some r =>
    match r.kind with
    | .eject => s.enterStaged slot
    | .enter => s.enterSupply slot
    | _ => if r.disposition = some .manual then s.enterSupply slot else s.enterQueued slot

/-- Whether a record leaving HELD goes toward QUEUED or STAGED and so needs a volume the robot can reach (R14). -/
def Rec.needsReach (r : Rec) : Bool := r.kind ≠ .enter && r.disposition ≠ some .manual

/-- The outcome of the continuation check (R14). -/
def State.continuationFails (s : State) (r : Rec) : Option FinalOutcome :=
  match (r.serial.bind s.entry?).map Entry.loc with
  | none => some .unknownVolume
  | some .missing => some .volumeMissing
  | some .outside => some .volumeOutside
  | some _ => none

/-- The fields of a record that leaves HELD (R12, R13). -/
def Rec.unheld (r : Rec) : Rec :=
  { r with disposition := some (if r.budgetHeld then r.heldDisp.getD .robot else .robot), heldDisp := none,
           budgetHeld := false, approve := .none }

/-- A record leaves HELD by an ACCEPT answer or a budget release (R12 to R14). -/
def State.continueHeld (s : State) (slot : Nat) : State :=
  let s := s.updRec slot Rec.unheld
  match s.rec? slot with
  | none => s
  | some r =>
    if r.needsReach then
      match s.continuationFails r with
      | some o => s.postWith slot o
      | none => s.moveOn slot
    else s.moveOn slot

/-- A budget release reaches one record (R13). -/
def State.releaseHeld (s : State) (account : Fin 128) (slot : Nat) : State :=
  match s.rec? slot with
  | none => s
  | some r =>
    if r.state = .held ∧ r.account = account ∧ r.budgetHeld = true then (s.dropApprove slot).continueHeld slot else s

/-- An account leaves LIMITED: its budget-held records are released in age order (R13, R177). -/
def State.budgetRelease (s : State) (account : Fin 128) : State :=
  (s.recs.map (·.slot)).foldl (fun s slot => s.releaseHeld account slot) s

/-! ## Unmounting (R16, R18, R24) -/

/-- The unload is sent: hold stops and drive and record are UNLOADING (R16, R24). -/
def State.unload (s : State) (slot : Nat) (d : Fin 16) : State :=
  let s := (s.stopHold slot).updRec slot (fun r => { r with state := .unloading, dismountPending := false })
  (s.updDrive d (fun x => { x with state := .unloading })).send (.unload d)

/-- The record is STOWING with its stow leg made (R18, R79). -/
def State.stow (s : State) (slot : Nat) (d : Fin 16) : State :=
  match s.rec? slot with
  | none => s
  | some r =>
    let legs := s.stowLegs r d
    (s.setRecState slot .stowing).makeLegs slot legs.1 legs.2

/-! ## A leg aboard or in hand is diverted (R83, R105, R107, R109) -/

/-- Whether the leg of a record is bound for the station. -/
def State.stationBound (s : State) (slot : Nat) : Bool := ((s.leg? slot).map (fun l => l.dst.atStation)).getD false

/-- The leg's to-place becomes the station, in its place among the stops, its old reservation freed (R105, R109). A leg already
bound for the station keeps the position reserved for it (R136). -/
def State.divert (s : State) (slot : Nat) : State :=
  let s := (s.updRec slot (fun r => { r with nextLeg := none })).updLeg slot (fun l => { l with diverted := true })
  if s.stationBound slot then s else (s.freeReservation (.record slot)).sendToStation (.record slot)

/-- A leg whose reel is aboard or may already be in the gripper (R96). -/
def Leg.onBoard (l : Leg) : Bool := l.inHand || l.state = .aboard

/-- Whether the PLACE of a leg has been sent, in flight or failed and to be retried (R83). -/
def State.placeSent (s : State) (slot : Nat) (acc : Acc) : Bool :=
  (s.acc acc).order.map (·.op) = some (.place (.record slot))
    || (s.acc acc).failed.map (·.op) = some (.place (.record slot))

def Place.isDrive : Place → Bool
  | .drive _ => true
  | _ => false

/-! ## A drive FAULT (R83) -/

/-- The record of a RESERVED drive that faults: a leg aboard is sent to the station, but one whose PLACE into the drive has been
sent is left as it is (R83, R109). -/
def State.reservedFault (s : State) (slot : Nat) : State :=
  match s.rec? slot with
  | none => s
  | some r =>
    let s := s.updRec slot (fun r => { r with drive := none })
    match r.leg with
    | none => s.enterQueued slot
    | some l =>
      if l.onBoard then
        if r.disposition = some .stationFirst && l.dst.atStation && !l.diverted then s
        else
          let s := s.setOutcome slot .driveFault
          if s.placeSent slot l.acc && l.dst.isDrive then s else s.divert slot
      else (s.discardLegs slot).enterQueued slot

/-- The record of a drive that faults with its reel in it. -/
def State.heldFault (s : State) (slot : Nat) (left : DriveState) : State :=
  let s := s.setOutcome slot .driveFault
  match left with
  | .awaitingStow => s
  | .mounted => (s.stopHold slot).setRecState slot .faultwait
  | _ => s.setRecState slot .faultwait

/-- A FAULT report is taken, with its notice (R83); one taken in FAULTED changes nothing. -/
def State.driveFault (s : State) (d : Fin 16) : State :=
  let x := s.drives[d]
  if x.state = .faulted then s
  else
    let s := s.raise .driveFault (.drive d)
    let bare := s.updDrive d (fun x => { x with state := .faulted, holding := none, status := none })
    let held := s.updDrive d (fun x => { x with state := .faulted, reel := true, status := none })
    match x.state with
    | .unpolled =>
      if x.returnWait then
        ((s.updDrive d (fun x => { x with state := .faulted, holding := none, reel := true, status := none })).settle (.drive d))
      else (((bare.updDrive d (fun x => { x with reel := false, cleanWait := false })).tidyCleanSupply).settle (.drive d))
    | .reserved =>
      match x.holding with
      | some slot => bare.reservedFault slot
      | none => bare
    | .loading => (x.holding.map (fun slot => held.heldFault slot x.state)).getD held
    | .mounted => (x.holding.map (fun slot => held.heldFault slot x.state)).getD held
    | .unloading => (x.holding.map (fun slot => held.heldFault slot x.state)).getD held
    | .awaitingStow => (x.holding.map (fun slot => held.heldFault slot x.state)).getD held
    | _ => (bare.updDrive d (fun x => { x with reel := false, cleanWait := false })).tidyCleanSupply

/-! ## A PLACE into a drive (R80) -/

/-- A reel has been placed into a FAULTED drive with no holding record (R80). -/
def State.placedFaulted (s : State) (slot : Nat) (d : Fin 16) : State :=
  let s := s.updDrive d (fun x => { x with holding := some slot, reel := true })
  s.updRec slot (fun r =>
    { r with drive := some d, loaded := true, outcome := some .driveFault, state := .faultwait })

/-- A reel has been placed into a drive that a CANCEL released, or DRIVE_ONLINE brought back, while the PLACE was in flight, and
that no record has taken since: as after a CANCEL in LOADING, the drive unloads it at LOADED (R23, assumption log 30). -/
def State.placedFree (s : State) (slot : Nat) (d : Fin 16) : State :=
  let s := s.updDrive d (fun x => { x with state := .loading, holding := some slot, reel := true, cleanWait := false })
  (s.updRec slot (fun r =>
    { r with drive := some d, loaded := true, state := .loading, dismountPending := true })).tidyCleanSupply

/-- The completion of a PLACE into a drive (R80). A drive that is neither RESERVED for the record nor FREE nor FAULTED is taken as
faulting at this event (assumption log 30). -/
def State.drivePlaced (s : State) (slot : Nat) (d : Fin 16) : State :=
  if s.drives[d].state = .reserved ∧ s.drives[d].holding = some slot then
    let s := s.updDrive d (fun x => { x with state := .loading, reel := true })
    s.updRec slot (fun r => { r with loaded := true, state := .loading })
  else if s.drives[d].state = .free then s.placedFree slot d
  else (s.driveFault d).placedFaulted slot d

end Machine

end Sys2Proof
end

