-- ==== Sys2Proof/Machine/Ops.lean ====
section
/-! DEFINITION. The operations that every family of commands shares: the serving of waiting records (R17, R20, R186), the close
of a record (R1), and `State.commit`, which ends every event that may have given some block work. -/

namespace Sys2Proof

namespace Machine

/-! ## Endings of a record (R11, R20) -/

/-- The MOUNTED ending, with the drive and the ring-absent mark of LOADED, which an owed one keeps (R11, R17). -/
def mountedEnding (r : Rec) : Ending :=
  { endingOf .mounted (kindByte r.kind) r.corr with ringAbsent := r.ringAbsent, drive := r.mountedDrive.map Fin.val }

/-- The final ending. -/
def finalEnding (r : Rec) : Ending :=
  { endingOf (.final (r.outcome.getD (kindOutcome r.kind))) (kindByte r.kind) r.corr with
    isFinal := true, internal := r.origin = .internal, slot := some r.slot, driveClass := r.driveClass, h := r.holdSecs,
    serial := if r.origin = .internal then r.serial else none }

/-! ## Waiting records (R186) -/

/-- A record that waits for ordinary entries. -/
def Rec.waits (r : Rec) : Bool := r.state = .posting || r.mountedOwed

/-- The entries a waiting record needs. -/
def Rec.needs (r : Rec) : Nat :=
  match r.state with
  | .posting => if r.mountedOwed then 3 else 2
  | _ => 1

/-- The oldest waiting record. -/
def State.oldestWaiting (s : State) : Option Rec := s.recs.find? Rec.waits

/-- The MOUNTED ending takes its entry and is no longer owed (R17). -/
def State.queueMounted (s : State) (r : Rec) : State :=
  (s.enqueue false (.ending (mountedEnding r))).updRec r.slot (fun r => { r with mountedOwed := false })

/-- The frames of a POSTING record, in the order of R20. -/
def State.queueFrames (s : State) (r : Rec) : State :=
  let s := if r.mountedOwed then s.queueMounted r else s
  let s := match r.usage with
    | some u => s.enqueue false (.usage u)
    | none => s
  s.enqueue false (.ending (finalEnding r))

/-- A DRAINING library with no open record is OFFLINE (R190). -/
def State.drained (s : State) : State :=
  if s.link.lib = .draining ∧ s.recs = [] then { s with link := { s.link with lib := .offline } } else s

/-- A record's slot is freed (R1): the library may be drained, and the record-freed event goes to the drive table. -/
def State.close (s : State) (slot : Nat) : State :=
  ({ s with recs := s.recs.filter (fun r => r.slot ≠ slot),
            cls := { s.cls with intake := s.cls.intake.filter (fun n => n ≠ slot) } } : State).drained.recordFreed

/-- A POSTING record is served: its frames, the notices of its build, and its close (R20, R176). -/
def State.servePosting (s : State) (r : Rec) : State :=
  (r.notices.foldl State.offerNotice (s.queueFrames r)).close r.slot

/-- Serve the oldest waiting record when the entries it needs are available. -/
def State.serveOldest (s : State) : State :=
  match s.oldestWaiting with
  | none => s
  | some r =>
    if r.needs ≤ s.link.available then
      match r.state with
      | .posting => s.servePosting r
      | _ => s.queueMounted r
    else s

/-- Serve waiting records while the oldest can be served: each is served at most twice, and at most 64 are open. -/
def State.serveUpTo (s : State) : Nat → State
  | 0 => s
  | n + 1 => (s.serveOldest).serveUpTo n

/-- The service of the waiting records at one event (R186). -/
def State.serveWaiting (s : State) : State := s.serveUpTo (2 * s.recs.length)

/-! ## The end of an event -/

/-- The end of an event: the rail scheduler settles, then the link unit serves the waiting records and, after them, offers the
notices raised at the event (R186, R187), and the rail scheduler takes what the service gave it. -/
def State.commit (s : State) : State := s.railSettle.serveWaiting.offerNotices.railSettle

end Machine

end Sys2Proof
end

