-- ==== Sys2Proof/Machine/SystemCommands.lean ====
section
/-! DEFINITION. The commands of the link unit (chapter 10): power-on and link reset, frames discarded or malformed, the library
state, the notice enables and flags, IDENTIFY, and the sending and serving of outbound frames. -/

namespace Sys2Proof

namespace Machine

/-- What every command answers. -/
abbrev Answer := Host.Outcome State Fault Refusal

/-! ## Power-on, link reset, discarded frames -/

/-- A panel input after power-on: the raw level is the pin's, and one that is active begins a debounce period (R161). -/
def Input.powered (x : Input) : Input := { Input.initial with raw := x.raw, period := x.raw }

/-- POWER_ON: every block takes its power-on value; the pins keep the levels they are at. -/
def execPowerOn (s : State) : Answer :=
  .next { State.reset with
    console := { State.reset.console with inputs := s.console.inputs.map Input.powered },
    pending := s.pending }

/-- LINK_RESET (R183): any partly received frame is dropped; nothing else changes. -/
def execLinkReset (s : State) : Answer := .next { s.start with link := { s.link with rx := [] } }

/-- FRAME_DISCARDED (R181): the frame is dropped, whatever the cause, and CHECK_ERROR is raised. -/
def execFrameDiscarded (_cause : DiscardCause) (s : State) : Answer :=
  .next ((s.start.raise .checkError .nothing).offerNotices)

/-- REQUEST_MALFORMED (R182): the immediate ending MALFORMED, with the correlator when the body holds one. -/
def execRequestMalformed (corr : Option Corr) (subKind : Byte) (s : State) : Answer :=
  .next (s.arrive (fun s => s.answer (endingOf .malformed subKind corr)))

/-- UNKNOWN_OPERATION (R182): REPLY BAD_ARGUMENT; a body too short for its operation code and tag is echoed as zeros. -/
def execUnknownOperation (header : Option (Byte × Tag)) (s : State) : Answer :=
  .next (s.arrive (fun s => s.bad (header.getD (0, 0)).1 (header.getD (0, 0)).2))

/-! ## The library state (R189, R190) -/

/-- The devices the online poll asks (R189). -/
def State.pollList (s : State) : List Device :=
  ((bothAccs.filter (fun acc => decide ((s.acc acc).state = .offline))).map .accessor)
    ++ (((List.finRange 16).filter (fun d => decide (s.drives[d].state = .unpolled))).map .drive)

/-- STATUS goes to one polled device; a drive's answer is awaited for the PICK limit of its side's accessor (R92). A STATUS in
flight is that of the poll, one takes the place of a PARK held back, and one follows a PARK in flight (assumption log 17). -/
def State.pollDevice (s : State) : Device → State
  | .accessor acc =>
    if (s.acc acc).order.isNone then s.updAcc acc (fun x => { x with todo := some .status }) else s
  | .drive d => (s.updDrive d (fun x => { x with status := some (s.acc (driveAcc d)).limPick })).send (.driveStatus d)

/-- The online poll starts; with no device to poll the library is ONLINE at once. -/
def State.startPoll (s : State) : State :=
  let devs := s.pollList
  let lib := if devs = [] then LibState.online else .goingOnline
  devs.foldl State.pollDevice { s with link := { s.link with lib := lib, poll := devs } }

def State.setLib (s : State) (l : LibState) : State := { s with link := { s.link with lib := l } }

/-- LIBRARY_ONLINE (R189). -/
def execLibraryOnline (tag : Tag) (s : State) : Answer :=
  .next (s.arrive (fun s =>
    match s.link.lib with
    | .offline => (s.startPoll.done 0x01 tag .nothing).commit
    | .goingOnline => s.busy 0x01 tag
    | .online => s.done 0x01 tag .nothing
    | .draining => (s.setLib .online).done 0x01 tag .nothing))

/-- LIBRARY_OFFLINE (R190). -/
def execLibraryOffline (tag : Tag) (s : State) : Answer :=
  .next (s.arrive (fun s =>
    match s.link.lib with
    | .online => (s.setLib (if s.recs = [] then .offline else .draining)).done 0x02 tag .nothing
    | .goingOnline => s.busy 0x02 tag
    | .draining => s.done 0x02 tag .nothing
    | .offline => s.done 0x02 tag .nothing))

/-- LIBRARY_DRAINED (R190): the table-empty event ends DRAINING. -/
def execLibraryDrained (s : State) : Answer := .next s.start.drained

/-! ## Notices and identity (R188, R191) -/

/-- NOTICE_ENABLE: all nine enables are replaced, and the reply carries them. -/
def execNoticeEnable (tag : Tag) (enables : BitVec 9) (s : State) : Answer :=
  .next (s.arrive (fun s =>
    ({ s with link := { s.link with enables := enables } } : State).done 0x03 tag (.enables enables)))

/-- NOTICE_SUMMARY_CLEAR: the reply carries the flags as they stand, and every flag is cleared. -/
def execNoticeSummaryClear (tag : Tag) (s : State) : Answer :=
  .next (s.arrive (fun s =>
    ({ s with link := { s.link with flags := 0 } } : State).done 0x04 tag (.flags s.link.flags)))

/-- The capacities of the part, in the order of R191's table. -/
def capacities : List Nat := [64, 512, 8, 8192, 4, 16, 8, 128, 16, 16, 8, 4, 32, 4]

/-- IDENTIFY: vendor VR, part 7300, revision A, the library state and the capacities. -/
def execIdentify (tag : Tag) (s : State) : Answer :=
  .next (s.arrive (fun s => s.done 0x05 tag (.identity (0x56, 0x52) 7300 0x41 s.link.lib capacities)))

/-! ## Outbound frames (R184 to R186) -/

/-- FRAME_SENT: the frame at the head has been sent and its entry is free; a freed kept entry takes the head of the backlog, and
the waiting records are served. -/
def execFrameSent (s : State) : Answer :=
  .next
    (match s.link.outq with
     | [] => s.start
     | _ :: rest => ({ s.start with link := { s.link with outq := rest } } : State).serveBacklog.commit)

/-- REPLY_BACKLOG_SERVED: a free kept entry takes the reply at the head of the backlog. -/
def execReplyBacklogServed (s : State) : Answer := .next s.start.serveBacklog.commit

/-- POSTING_SERVED: the oldest waiting record, when it is in POSTING and its entries are available, queues its frames and
closes. -/
def execPostingServed (s : State) : Answer :=
  .next
    (match s.oldestWaiting with
     | some r => if r.state = .posting ∧ r.needs ≤ s.link.available then (s.start.servePosting r).commit else s.start
     | none => s.start)

/-- MOUNTED_ENDING_SERVED: the oldest waiting record, when it owes its MOUNTED ending and an entry is available, queues it. -/
def execMountedEndingServed (s : State) : Answer :=
  .next
    (match s.oldestWaiting with
     | some r => if r.state ≠ .posting ∧ r.needs ≤ s.link.available then s.start.queueMounted r else s.start
     | none => s.start)

end Machine

end Sys2Proof
end

