-- ==== Sys2Proof/Machine/AuditCommands.lean ====
section
/-! DEFINITION. The audit unit (chapter 6): AUDIT_START, AUDIT_ABORT and AUDIT_GET, the result of an audit scan (R126, R128), a
scan handed back as failed (R131), and the unit's own steps of sending a scan and resuming. -/

namespace Sys2Proof

namespace Machine

/-! ## Starting (R122, R123) -/

/-- A cell that exists in an accessor's reach. -/
def reaches (acc : Acc) (c : Cell) : Bool := inReach acc c.col

/-- Check 1 of R122: both cells exist, in scan order, and the yield class is 0..3. -/
def rangeOk (first last : Cell) (yieldClass : Nat) : Bool :=
  cellOk first && cellOk last && cellLe first last && decide (yieldClass ≤ 3)

/-- A new audit context, before its state is set (R123 step 1). -/
def Audit.fresh (first last : Cell) (yieldClass : Nat) : Audit :=
  { state := .scanning, first := first, last := last, yieldClass := yieldClass, cursor := some first, inFlight := false,
    abortPending := false, endedBy := none, skip := [], scanned := 0, verified := 0, missing := 0, misplaced := 0,
    unreadable := 0 }

/-- Steps 1 to 3 of R123. -/
def State.startAudit (s : State) (acc : Acc) (first last : Cell) (yieldClass : Nat) : State :=
  let st := if s.hasYielding acc yieldClass then AuditState.suspended else .scanning
  { s.markRange first last with
    audits := s.audits.set acc (some { Audit.fresh first last yieldClass with state := st }) }

/-- AUDIT_START: the checks of R122 in order, then R123. -/
def execAuditStart (tag : Tag) (accessor : Nat) (first last : Cell) (yieldClass : Nat) (s : State) : Answer :=
  .next (s.arrive (fun s =>
    match accOfCode accessor with
    | none => s.bad 0x50 tag
    | some acc =>
      if rangeOk first last yieldClass = false then s.bad 0x50 tag
      else if (s.activeAudit acc).isSome then s.busy 0x50 tag
      else if (s.acc acc).state = .offline || !(reaches acc first && reaches acc last) then s.bad 0x50 tag
      else
        ((s.startAudit acc first last yieldClass).done 0x50 tag
          (.auditStarted (rangeSize first last) (s.countIn first last))).commit))

/-! ## Ending -/

/-- An audit enters DONE: its skip list is emptied, its cursor is absent, and AUDIT_DONE is raised (R126). That abort pending is
cleared is the model's choice (assumption log 60). -/
def State.endAudit (s : State) (acc : Acc) (by' : EndedBy) : State :=
  (s.updAudit acc (fun x =>
    { x with state := .done, endedBy := some by', cursor := none, skip := [], inFlight := false,
             abortPending := false })).raise .auditDone (.accessor acc)

/-- An audit ends by abort (R132): the abort update, then DONE. -/
def State.abortAudit (s : State) (acc : Acc) : State :=
  match s.audits.get acc with
  | some x => (s.auditAborted x.first x.last).endAudit acc .abort
  | none => s

/-- AUDIT_ABORT (R132): with a scan in flight abort pending is set; with none the audit ends, and the reply follows its
effects. -/
def execAuditAbort (tag : Tag) (accessor : Nat) (s : State) : Answer :=
  .next (s.arrive (fun s =>
    match accOfCode accessor with
    | none => s.bad 0x51 tag
    | some acc =>
      match s.activeAudit acc with
      | none => s.done 0x51 tag .noAudit
      | some x =>
        if x.inFlight then
          (s.updAudit acc (fun x => { x with abortPending := true })).done 0x51 tag (.passed x.scanned)
        else ((s.abortAudit acc).commit).done 0x51 tag (.passed x.scanned)))

/-- AUDIT_GET (R133). -/
def execAuditGet (tag : Tag) (accessor : Nat) (s : State) : Answer :=
  .next (s.arrive (fun s =>
    match accOfCode accessor with
    | none => s.bad 0x52 tag
    | some acc =>
      match s.audits.get acc with
      | none => s.done 0x52 tag .noAudit
      | some x => s.done 0x52 tag (.audit x x.skip.length (rangeSize x.first x.last))))

/-! ## The result of an audit scan (R126, R128) -/

/-- R126 step 1: the result is a label whose pair with the cell stands in the skip list. -/
def Audit.skips (x : Audit) (c : Cell) : ScanResult → Bool
  | .label ser => x.skip.contains (c, ser)
  | _ => false

/-- R128, read before the result is applied. -/
def State.countScan (s : State) (x : Audit) (c : Cell) (r : ScanResult) : Audit :=
  let x := { x with scanned := x.scanned + 1 }
  match r with
  | .label ser =>
    if x.skips c r || s.isExpectedAt ser c || s.homeOf ser = some c then { x with verified := x.verified + 1 }
    else { x with misplaced := x.misplaced + 1 }
  | .empty => if (s.expectedAt c).isSome then { x with missing := x.missing + 1 } else x
  | .unreadable => { x with unreadable := x.unreadable + 1 }

/-- The audit after the skip test, the counts and the cursor (R126 steps 1, 3 and 4). -/
def State.passedAudit (s : State) (x : Audit) (c : Cell) (r : ScanResult) : Audit :=
  let y := s.countScan x c r
  { y with
    skip := match r with
      | .label ser => x.skip.filter (fun p => p ≠ (c, ser))
      | _ => x.skip,
    cursor := if c = x.last then none else some (nextCell c), inFlight := false }

/-- R126 step 5. -/
def State.settleAudit (s : State) (acc : Acc) (x : Audit) (c : Cell) : State :=
  if x.abortPending then s.abortAudit acc
  else if c = x.last then s.endAudit acc .lastCell
  else s.updAudit acc (fun x => if x.state = .suspending then { x with state := .suspended } else x)

/-- The completion of an audit scan of a cell (R126). -/
def State.auditScanned (s : State) (acc : Acc) (c : Cell) (r : ScanResult) : State :=
  match s.activeAudit acc with
  | none => s
  | some x =>
    let y := s.passedAudit x c r
    let s := if x.skips c r then s else s.scanApplied c r
    let s := (s.cellPassed c).updAudit acc (fun _ => y)
    s.settleAudit acc x c

/-- An audit scan handed back as failed (R131). -/
def State.auditScanFailed (s : State) (acc : Acc) : State :=
  match s.activeAudit acc with
  | none => s
  | some x =>
    let s := s.updAudit acc (fun x => { x with inFlight := false })
    if x.abortPending then s.abortAudit acc
    else s.updAudit acc (fun x => if x.state = .suspending then { x with state := .suspended } else x)

/-! ## The unit's own steps -/

/-- AUDIT_SCAN_SEND (R125): taken when the accessor is free and has nothing before the audit. -/
def execAuditScanSend (acc : Acc) (s : State) : Answer := .next (s.start.auditScanSend acc)

/-- AUDIT_RESUME (R129): taken when the accessor is free and no yielding leg is queued. -/
def execAuditResume (acc : Acc) (s : State) : Answer := .next (s.start.auditResume acc)

end Machine

end Sys2Proof
end

