-- ==== Sys2Proof/Machine/Faults.lean ====
section
/-! DEFINITION. Stall and recovery (section 5.9): a scan handed back as failed (R131, R147), the first, second and later faults
of a run (R113, R115), and what the RECOVER completion brings back (R114). -/

namespace Sys2Proof

namespace Machine

/-! ## A failed scan -/

/-- The scan in flight is handed to its owner as failed (R131, R147); a scan of a supply that has ended is not asked for again. -/
def State.scanFailed (s : State) (acc : Acc) : State :=
  let t := (s.acc acc).scan
  let s := s.updAcc acc (fun x => { x with scan := none })
  match t with
  | none => s
  | some (.cell _) => s.auditScanFailed acc
  | some (.station p kind late) => if late then s else s.requestScan p kind

/-! ## The legs of a trip that stops -/

/-- The slot of the leg a PICK or PLACE order serves. -/
def OrderOp.slot? : OrderOp → Option Nat
  | .pick slot => some slot
  | .place (.record slot) => some slot
  | _ => none

/-- The legs of an accessor's trip. -/
def State.tripLegs (s : State) (acc : Acc) : List Nat := ((s.acc acc).trip.map (·.legs)).getD []

/-- The ASSIGNED legs of the trip but that of `keep` return to their queue with the front mark (R113 step 2). R95 stands front-marked legs
in the order in which they were returned; of legs returned at one event, that is here the order in which they joined the trip (DESIGN
CHOICE, assumption log 66). -/
def State.returnAssigned (s : State) (acc : Acc) (keep : Option Nat) : State :=
  (s.tripLegs acc).foldl
    (fun s slot =>
      if some slot ≠ keep ∧ (s.leg? slot).map (·.state) = some .assigned then s.returnToQueue slot else s) s

/-- The first fault of a run (R113). -/
def State.firstFault (s : State) (acc : Acc) (o : Order) : State :=
  let s := s.updAcc acc (fun x =>
    { x with state := .stalled, faults := 1, failed := some { op := o.op, was := x.state }, order := none })
  ((s.returnAssigned acc o.op.slot?).askFault acc none).raise .accessorStalled (.accessor acc)

/-! ## The second fault (R115) -/

/-- The directory makes the entry of each occupied holder's serial MISSING (R59). -/
def State.loseHolders (s : State) (acc : Acc) : State :=
  (s.acc acc).holders.toList.foldl
    (fun s h => match h with
      | .reel ser => s.setMissing ser
      | _ => s) s

/-- The legs of the trip whose reels are aboard, by holder. -/
def State.aboardSlots (s : State) (acc : Acc) : List Nat :=
  (List.finRange 3).filterMap (fun h => (s.tripLegs acc).find? (fun slot =>
    ((s.leg? slot).map (fun l => decide (l.state = .aboard ∧ l.holder = some h))).getD false))

/-- A record whose reel is aboard at the second fault (R115 step 2). -/
def State.motionFault (s : State) (slot : Nat) : State :=
  (((s.setOutcome slot .motionFault).discardLegs slot).releaseDrive slot false).enterPosting slot

/-- The reservations of the put-back reels of a trip end. -/
def State.dropPutBacks (s : State) (acc : Acc) : State :=
  (((s.acc acc).trip.map (·.putBacks)).getD []).foldl (fun s b => s.freeReservation (.putBack acc b.holder)) s

/-- The FAULT prompt is raised again with urgency 7 (R115 step 6). -/
def State.reAskFault (s : State) (acc : Acc) : State := (s.dropFault acc).askFault acc (some 7)

def emptyHolders : Vector Holder 3 := Vector.replicate 3 .empty

/-- The second fault of a run (R115). -/
def State.secondFault (s : State) (acc : Acc) : State :=
  let slots := s.aboardSlots acc
  let s := s.updAcc acc (fun x => { x with state := .stalled, faults := 2, failed := none, order := none, todo := none })
  let s := (s.loseHolders acc).updAcc acc (fun x => { x with holders := emptyHolders })
  let s := slots.foldl State.motionFault s
  let s := s.returnAssigned acc none
  let s := (s.dropPutBacks acc).updAcc acc (fun x => { x with trip := none })
  (s.scanFailed acc).reAskFault acc

/-- A later fault repeats step 6 of R115 alone. -/
def State.laterFault (s : State) (acc : Acc) : State :=
  (s.updAcc acc (fun x => { x with order := none })).reAskFault acc

/-- A motion-limit expiry taken before the completion (R111): the faults of the run decide. -/
def State.motionExpiry (s : State) (acc : Acc) (o : Order) : State :=
  match (s.acc acc).faults with
  | 0 => s.firstFault acc o
  | 1 => s.secondFault acc
  | _ => s.laterFault acc

/-! ## RECOVER (R114) -/

/-- RECOVER is to be sent to a STALLED accessor that has none in flight. -/
def State.sendRecover (s : State) (acc : Acc) : State :=
  s.updAcc acc (fun x =>
    if x.state = .stalled ∧ x.order = none then { x with todo := some .recover } else x)

/-- The failed order is to be sent again: a stop of the trip from RUNNING, a scan from IDLE, a PARK from the state it failed
in. -/
def AccRec.retry (x : AccRec) : AccRec :=
  match x.failed with
  | none => x
  | some f =>
    { x with failed := none, state := f.was,
             todo := match f.op with
               | .scan => some .scan
               | .park => some .park
               | _ => none }

/-- The RECOVER completion after a second fault or an occupied holder: holders empty, faults 0, and IDLE or a PARK. -/
def State.recovered (s : State) (acc : Acc) : State :=
  (s.updAcc acc (fun x => { x with holders := emptyHolders, faults := 0, failed := none })).idleOrPark acc

end Machine

end Sys2Proof
end

