-- ==== Sys2Proof/Machine/AccessorCommands.lean ====
section
/-! DEFINITION. The rail scheduler's management operations (R117, R118, R120) and its own steps: the gather window (R101), trips
(R99 to R101), orders (R103), the zone lock (R110), positions (R97, R137) and station scans (R98). -/

namespace Sys2Proof

namespace Machine

/-! ## ACCESSOR_SET (R117) -/

/-- Each of the four limits is 1 or more. -/
def limitsOk (x : AccessorArgs) : Bool :=
  decide (x.pick ≠ 0) && decide (x.place ≠ 0) && decide (x.scan ≠ 0) && decide (x.recover ≠ 0)

/-- The states in which ACCESSOR_SET is taken. -/
def AccState.settable : AccState → Bool
  | .idle => true
  | .stalled => true
  | .offline => true
  | _ => false

/-- The record with its five values replaced. -/
def AccRec.withArgs (r : AccRec) (x : AccessorArgs) : AccRec :=
  { r with gather := x.gather, limPick := x.pick, limPlace := x.place, limScan := x.scan, limRecover := x.recover }

/-- ACCESSOR_SET: the accessor then looks for work (R98). -/
def execAccessorSet (tag : Tag) (accessor : Nat) (args : AccessorArgs) (s : State) : Answer :=
  .next (s.arrive (fun s =>
    match accOfCode accessor with
    | none => s.bad 0x40 tag
    | some acc =>
      if limitsOk args = false then s.bad 0x40 tag
      else if (s.acc acc).state.settable = false then s.busy 0x40 tag
      else ((s.updAcc acc (fun r => r.withArgs args)).done 0x40 tag .nothing).commit))

/-! ## ACCESSOR_OFFLINE, ACCESSOR_ONLINE, ACCESSOR_RECOVER (R117, R118) -/

/-- An order of a kind is in flight, or held back for the zone lock: its accessor stands in the wait list (R118, assumption
log 52). -/
def State.underWay (s : State) (acc : Acc) (op : OrderOp) : Bool :=
  (s.acc acc).order.map (·.op) = some op || ((s.acc acc).todo = some op && s.rail.zoneWait.contains acc)

/-- ACCESSOR_OFFLINE is taken in IDLE with no scan in flight, and in STALLED with the holders empty and no RECOVER under way. -/
def State.mayLeave (s : State) (acc : Acc) : Bool :=
  ((s.acc acc).state = .idle && (s.acc acc).scan.isNone)
    || ((s.acc acc).state = .stalled && decide ((s.acc acc).holders = emptyHolders) && !s.underWay acc .recover)

/-- The accessor leaves service (R118). -/
def State.leaveService (s : State) (acc : Acc) : State :=
  let s := s.updAcc acc (fun x => { x with state := .offline, faults := 0, failed := none, todo := none })
  let s := (s.returnAssigned acc none).dropPutBacks acc
  ((s.updAcc acc (fun x => { x with trip := none })).scanFailed acc).dropFault acc

/-- ACCESSOR_OFFLINE. -/
def execAccessorOffline (tag : Tag) (accessor : Nat) (s : State) : Answer :=
  .next (s.arrive (fun s =>
    match accOfCode accessor with
    | none => s.bad 0x41 tag
    | some acc =>
      if (s.acc acc).state = .offline then s.done 0x41 tag .nothing
      else if s.mayLeave acc then ((s.leaveService acc).done 0x41 tag .nothing).commit
      else s.busy 0x41 tag))

/-- ACCESSOR_ONLINE: STATUS is sent to an OFFLINE accessor with no STATUS or PARK under way. -/
def execAccessorOnline (tag : Tag) (accessor : Nat) (s : State) : Answer :=
  .next (s.arrive (fun s =>
    match accOfCode accessor with
    | none => s.bad 0x42 tag
    | some acc =>
      match (s.acc acc).state with
      | .offline =>
        if s.underWay acc .status || s.underWay acc .park then s.busy 0x42 tag
        else ((s.updAcc acc (fun x => { x with todo := some .status })).done 0x42 tag .nothing).commit
      | .idle => s.done 0x42 tag .nothing
      | _ => s.busy 0x42 tag))

/-- ACCESSOR_RECOVER: the FAULT prompt is withdrawn and RECOVER sent to a STALLED accessor with none in flight. -/
def execAccessorRecover (tag : Tag) (accessor : Nat) (s : State) : Answer :=
  .next (s.arrive (fun s =>
    match accOfCode accessor with
    | none => s.bad 0x43 tag
    | some acc =>
      match (s.acc acc).state with
      | .stalled =>
        if (s.acc acc).order = none then (((s.dropFault acc).sendRecover acc).done 0x43 tag .nothing).commit
        else s.busy 0x43 tag
      | .idle => s.bad 0x43 tag
      | .offline => s.bad 0x43 tag
      | _ => s.busy 0x43 tag))

/-! ## ACCESSOR_GET (R120) -/

/-- A leg of a trip at a stop. -/
def State.legReport (s : State) (x : Stop) : TripLegReport :=
  { stop := x.op,
    slot := match x.ref with
      | .record slot => some slot
      | .putBack _ _ => none,
    legState := match x.ref with
      | .record slot => (s.leg? slot).map (·.state)
      | .putBack _ _ => none,
    place := s.stopPlace x }

/-- The legs of a trip in stop order; before the start, in the order in which they joined, at their pickups. -/
def State.tripReport (s : State) (acc : Acc) : List TripLegReport :=
  match (s.acc acc).trip with
  | none => []
  | some t =>
    if (s.acc acc).state = .gathering then t.legs.map (fun slot => s.legReport { op := .pick, ref := .record slot })
    else t.stops.map s.legReport

/-- Whether the accessor holds the zone lock, or its place in the wait list. -/
def State.zoneStanding (s : State) (acc : Acc) : ZoneStanding :=
  if s.rail.zone = some acc then .holds
  else if s.rail.zoneWait.contains acc then .waits (s.rail.zoneWait.findIdx (fun x => x = acc) + 1)
  else .neither

/-- ACCESSOR_GET. -/
def execAccessorGet (tag : Tag) (accessor : Nat) (s : State) : Answer :=
  .next (s.arrive (fun s =>
    match accOfCode accessor with
    | none => s.bad 0x44 tag
    | some acc =>
      s.done 0x44 tag
        (.accessor (s.acc acc) (s.rail.queues.get acc).length (s.tripReport acc) (s.zoneStanding acc) s.rail.shelf)))

/-! ## The rail scheduler's own steps -/

/-- GATHER_WINDOW_EXPIRY (R101): a window that has counted out starts the trip, or leaves its run-out mark during QUIESCE. -/
def execGatherWindowExpiry (acc : Acc) (s : State) : Answer :=
  .next
    (if (s.acc acc).state = .gathering ∧ ((s.acc acc).trip.map (fun t => (t.window, t.runOut))) = some (0, false) then
      (s.start.updAcc acc (fun x => { x with trip := x.trip.map (fun t => { t with runOut := true }) })).commit
    else s.start)

/-- TRIP_OPEN (R99): a free accessor with an eligible leg. -/
def execTripOpen (acc : Acc) (s : State) : Answer := .next (s.start.tripOpen acc)

/-- LEG_JOINS_TRIP (R100): the eligible legs of the queue join the GATHERING trip. -/
def execLegJoinsTrip (acc : Acc) (s : State) : Answer := .next (s.start.gather acc)

/-- TRIP_START (R101, R102): a GATHERING trip whose start is due. -/
def execTripStart (acc : Acc) (s : State) : Answer :=
  .next (if s.startDue acc then s.start.tripStart acc else s.start)

/-- ORDER_SEND (R103): the next order of the accessor, when its conditions hold. -/
def execOrderSend (acc : Acc) (s : State) : Answer := .next (s.start.orderSend acc)

/-- ZONE_LOCK_GRANT (R110). -/
def execZoneLockGrant (s : State) : Answer := .next s.start.zoneGrant

/-- SHELF_POSITION_CLAIM (R97): the lowest EMPTY position goes to the stop that has waited longest. -/
def execShelfPositionClaim (s : State) : Answer :=
  .next
    (match s.emptyShelf with
     | some p => s.start.claimShelf p
     | none => s.start)

/-- STATION_POSITION_CLAIM (R137): the lowest EMPTY position goes to its first claimant. -/
def execStationPositionClaim (s : State) : Answer :=
  .next
    (match s.emptyStation with
     | some p => s.start.claimStation p
     | none => s.start)

/-- STATION_SCAN_TAKEN (R98 item 1). -/
def execStationScanTaken (acc : Acc) (s : State) : Answer := .next (s.start.stationScanTaken acc)

end Machine

end Sys2Proof
end

