-- ==== Sys2Proof/Machine/AccountCommands.lean ====
section
/-! DEFINITION. The commands of the accounting unit (chapter 9): ACCOUNT_SET, ACCOUNT_READ, ACCOUNT_READ_CLEAR and RATE_SET, and
the two increments of the time base (R165). -/

namespace Sys2Proof

namespace Machine

/-! ## Accounts (R178 to R180) -/

/-- The account after an ACCOUNT_SET (R178 steps 1 and 2). -/
def Account.withThresholds (a : Account) (warn limit : Nat) : Account :=
  Account.recompute { a with warn := warn, limit := limit }

/-- Notices of a recomputation are raised, in order. -/
def State.raiseAll (s : State) (l : List Notice) : State := l.foldl (fun s n => s.raise n.kind n.subject) s

/-- A recomputation that left LIMITED releases the budget-held records (R177). -/
def State.releaseIf (s : State) (n : Fin 128) (old new : Budget) : State :=
  if old = .limited ∧ new ≠ .limited then s.budgetRelease n else s

/-- ACCOUNT_SET (R178): thresholds, recomputation, reply, notices, release. -/
def execAccountSet (tag : Tag) (account warn limit : Nat) (s : State) : Answer :=
  .next (s.arrive (fun s =>
    match toFin? 128 account with
    | none => s.bad 0x70 tag
    | some n =>
      let before := s.acct.accounts[n]
      let after := before.withThresholds warn limit
      let s := (s.updAccount n (fun _ => after)).done 0x70 tag (.accountSet n warn limit after.acc after.budget)
      ((s.raiseAll (budgetNotices n before.budget after.budget)).releaseIf n before.budget after.budget).commit))

/-- ACCOUNT_READ (R179). -/
def execAccountRead (tag : Tag) (account : Nat) (s : State) : Answer :=
  .next (s.arrive (fun s =>
    match toFin? 128 account with
    | none => s.bad 0x71 tag
    | some n => s.done 0x71 tag (.account n s.acct.accounts[n] s.acct.seconds)))

/-- The account after a clear (R180 steps 2 and 3): thresholds kept. -/
def Account.cleared (a : Account) : Account :=
  Account.recompute { a with acc := 0, saturated := false, mounts := 0, hold := 0, prompts := 0, last := 0 }

/-- ACCOUNT_READ_CLEAR (R180): the reply carries the account before the clear and the budget state after it. -/
def execAccountReadClear (tag : Tag) (account : Nat) (s : State) : Answer :=
  .next (s.arrive (fun s =>
    match toFin? 128 account with
    | none => s.bad 0x72 tag
    | some n =>
      let before := s.acct.accounts[n]
      let after := before.cleared
      let s := (s.updAccount n (fun _ => after)).done 0x72 tag (.accountCleared n before s.acct.seconds after.budget)
      (s.releaseIf n before.budget after.budget).commit))

/-! ## RATE_SET (R168) -/

/-- The rate table as stored: every value clamped into its range. -/
def clampedRates (r : Rates) : Rates :=
  { grace := r.grace.map (min 255), rate := r.rate.map (min 4095), interval := r.interval.map (min 255),
    mountFee := r.mountFee.map (min 65535), legFee := min 255 r.legFee, promptFee := min 4095 r.promptFee,
    writeFee := min 4095 r.writeFee, mult := r.mult.map (clamp 4 32) }

/-- RATE_SET. -/
def execRateSet (tag : Tag) (rates : Rates) (s : State) : Answer :=
  .next (s.arrive (fun s =>
    ({ s with acct := { s.acct with rates := clampedRates rates } } : State).done 0x73 tag (.rates (clampedRates rates))))

/-! ## The time base (R165) -/

/-- A gather window counts one tenth while the accessor is GATHERING (R99, R101). -/
def AccRec.tenth (x : AccRec) : AccRec :=
  if x.state = .gathering then { x with trip := x.trip.map (fun t => { t with window := t.window - 1 }) } else x

/-- The motion-limit timer of the order in flight counts one second, but not while the guard of the accessor's segment is OPEN
(R111). -/
def AccRec.second (x : AccRec) (guardOpen : Bool) : AccRec :=
  if guardOpen then x else { x with order := x.order.map (fun o => { o with timer := o.timer - 1 }) }

/-- Both gather windows count. -/
def State.countTenth (s : State) : State := (s.updAcc .a AccRec.tenth).updAcc .b AccRec.tenth

/-- The motion-limit timers count. -/
def State.countMotion (s : State) : State :=
  (s.updAcc .a (fun x => x.second (s.guardOpen x.column))).updAcc .b (fun x => x.second (s.guardOpen x.column))

/-- The STATUS limits of the drives count. -/
def State.countStatus (s : State) : State :=
  { s with drives := s.drives.map (fun d => { d with status := d.status.map (fun n => n - 1) }) }

/-- The reply timers count (R157). -/
def State.countReply (s : State) : State :=
  { s with console := { s.console with queue := s.console.queue.map (fun p => { p with timer := p.timer - 1 }) } }

/-- The tenths count rolls over and the seconds counter rises by 1, wrapping, with every timer that counts it. -/
def State.secondPasses (s : State) : State :=
  ({ s with acct := { s.acct with tenths := 0, seconds := s.acct.seconds + 1 } } :
    State).countTenth.countMotion.countStatus.countReply

/-- TENTH_TICK: the tenths count rises by 1, and at 10 returns to 0 with the seconds counter rising at the same event. -/
def execTenthTick (s : State) : Answer :=
  .next
    (if s.acct.tenths < 9 then
      ({ s.start with acct := { s.acct with tenths := s.acct.tenths + 1 } } : State).countTenth
    else s.start.secondPasses)

/-- SECOND_TICK: the tenth at which the count rolls over. -/
def execSecondTick (s : State) : Answer := .next s.start.secondPasses

end Machine

end Sys2Proof
end

