-- ==== Sys2Proof/Machine/ClassifierCommands.lean ====
section
/-! DEFINITION. The commands of the classifier (chapter 2): RULE_WRITE, RULE_READ, RULE_CLEAR, RANGE_SET, SELECTOR_SET,
DEFAULTS_SET and the classification event. -/

namespace Sys2Proof

namespace Machine

def State.setRules (s : State) (rules : List StoredRule) : State := { s with cls := { s.cls with rules := rules } }

/-- RULE_WRITE (R31): the checks, then every overlapped entry is invalidated whole and the new one stored; the reply names the
starting slots displaced. -/
def execRuleWrite (tag : Tag) (slot : Nat) (entry : RuleOperand) (s : State) : Answer :=
  .next (s.arrive (fun s =>
    match entry with
    | .unknownKind _ => s.bad 0x10 tag
    | .entry e =>
      if ruleShapeOk e && ruleWriteOk slot e then
        (s.setRules (writeRule s.cls.rules slot e)).done 0x10 tag (.displaced (displacedBy s.cls.rules slot e))
      else s.bad 0x10 tag))

/-- RULE_READ (R32): the entry that covers the slot, with its starting slot, or "no entry". -/
def execRuleRead (tag : Tag) (slot : Nat) (s : State) : Answer :=
  .next (s.arrive (fun s =>
    if 511 < slot then s.bad 0x11 tag
    else
      match ruleAt s.cls.rules slot with
      | some r => s.done 0x11 tag (.ruleEntry r.start r.entry)
      | none => s.done 0x11 tag .noEntry))

/-- RULE_CLEAR (R33): the entry that starts at the slot is invalidated whole; otherwise "no entry". -/
def execRuleClear (tag : Tag) (slot : Nat) (s : State) : Answer :=
  .next (s.arrive (fun s =>
    if 511 < slot then s.bad 0x12 tag
    else if s.cls.rules.any (fun r => r.start = slot) then
      (s.setRules (s.cls.rules.filter (fun r => r.start ≠ slot))).done 0x12 tag (.cleared slot)
    else s.done 0x12 tag .noEntry))

/-- RANGE_SET (R37). -/
def execRangeSet (tag : Tag) (checker source low high : Nat) (s : State) : Answer :=
  .next (s.arrive (fun s =>
    match toFin? 8 checker, rangeSourceOfCode source with
    | some c, some src =>
      ({ s with cls := { s.cls with
          checkers := s.cls.checkers.set c { source := src, low := low, high := high } } } : State).done 0x13 tag .nothing
    | _, _ => s.bad 0x13 tag))

/-- The pass-1 key kinds a selector may hold (R44). -/
def selectorKind (code : Nat) : Option KeyKind := (keyKindOfCode code).filter (fun k => kindPass k = 1)

/-- SELECTOR_SET (R44). -/
def execSelectorSet (tag : Tag) (mount eject enter : Nat) (s : State) : Answer :=
  .next (s.arrive (fun s =>
    match selectorKind mount, selectorKind eject, selectorKind enter with
    | some m, some j, some n =>
      ({ s with cls := { s.cls with selMount := m, selEject := j, selEnter := n } } : State).done 0x14 tag .nothing
    | _, _, _ => s.bad 0x14 tag))

/-- DEFAULTS_SET (R47). -/
def execDefaultsSet (tag : Tag) (action : DefaultsOperand) (s : State) : Answer :=
  .next (s.arrive (fun s =>
    match action with
    | .neither => s.bad 0x15 tag
    | .pass1 a =>
      if pass1Ok a then ({ s with cls := { s.cls with default1 := a } } : State).done 0x15 tag .nothing else s.bad 0x15 tag
    | .pass2 a =>
      if pass2Ok a then ({ s with cls := { s.cls with default2 := a } } : State).done 0x15 tag .nothing else s.bad 0x15 tag))

/-! ## The classification event (R27, R28, R10) -/

/-- The ending of a refusal. -/
def refusedCode : Refused → EndingCode
  | .byRule => .refusedByRule
  | .unknownVolume => .unknownVolume
  | .volumeMissing => .volumeMissing
  | .volumeOutside => .volumeOutside
  | .directoryFull => .directoryFull
  | .volumeBusy => .volumeBusy

/-- The ending ACCEPTED: correlator, slot, disposition as it stands and pool. -/
def acceptedEnding (r : Rec) : Ending :=
  { endingOf .accepted (kindByte r.kind) r.corr with
    slot := some r.slot, disposition := r.disposition, pool := some r.pool }

/-- The FOREIGN entry of override 2 is created (R49). -/
def State.createForeign (s : State) (ser : Option Serial) (account : Fin 128) : State :=
  match ser with
  | some x => { s with dir := s.dir ++ [foreignEntry x account] }
  | none => s

/-- The first state of an accepted record (R10). -/
def State.firstState (s : State) (r : Rec) : State :=
  if r.disposition = some .hold then (s.setRecState r.slot .held).askApprove r.slot else s.moveOn r.slot

/-- An accepted classification (R28, R10). -/
def State.acceptRec (s : State) (r : Rec) (c : Classified) (d : Disposition) (foreign : Bool) : State :=
  let s := if foreign then s.createForeign r.serial c.pass1.account else s
  let r := acceptFields c d r
  ((s.updRec r.slot (fun _ => r)).answer (acceptedEnding r)).firstState r

/-- A refused classification: the ending, and the record closes with no usage record (R10). -/
def State.refuseRec (s : State) (r : Rec) (why : Refused) : State :=
  (s.answer (endingOf (refusedCode why) (kindByte r.kind) r.corr)).close r.slot

/-- One record is classified. -/
def State.classifyRec (s : State) (r : Rec) : State :=
  let c := s.classify r
  match c.verdict with
  | .refuse why => s.refuseRec r why
  | .go d foreign => s.acceptRec r c d foreign

/-- CLASSIFICATION: the oldest record of the intake leaves it and is classified. -/
def execClassification (s : State) : Answer :=
  .next
    (match s.cls.intake with
     | [] => s.start
     | slot :: rest =>
       let s := { s.start with cls := { s.cls with intake := rest } }
       match s.rec? slot with
       | some r => (s.classifyRec r).commit
       | none => s)

end Machine

end Sys2Proof
end

