-- ==== Sys2Proof/Machine/ConsoleCommands.lean ====
section
/-! DEFINITION. The commands of the console unit (chapter 8): TEMPLATE_SET, INPUT_SET and PROMPT_LIST, the panel inputs, the
operator's answer lines, the expiry of a prompt's reply timer, and the console line. -/

namespace Sys2Proof

namespace Machine

/-! ## TEMPLATE_SET (R149) -/

/-- The kind a template takes: one of APPROVE, SUPPLY and RING for 0..11, and its fixed kind for 12..15. -/
def templateKind (n : Fin 16) (code : Nat) : Option PromptKind :=
  match n.val with
  | 12 => some .collect
  | 13 => some .fault
  | 14 => some .cleanSupply
  | 15 => some .approve
  | _ => templateKindOfCode code

/-- The template as stored, its numbers clamped. -/
def clampedTemplate (kind : PromptKind) (x : TemplateArgs) (action : ExpiryAction) : Template :=
  { kind := kind, urgency := min 7 x.urgency, reply := clamp 10 3600 x.reply, steps := min 7 x.steps, action := action }

/-- The template that a TEMPLATE_SET stores, when it is not refused. -/
def templateOf (n : Nat) (x : TemplateArgs) : Option (Fin 16 × Template) :=
  match toFin? 16 n, expiryActionOfCode x.action with
  | some i, some act => (templateKind i x.kind).map (fun k => (i, clampedTemplate k x act))
  | _, _ => none

/-- TEMPLATE_SET. -/
def execTemplateSet (tag : Tag) (template : Nat) (args : TemplateArgs) (s : State) : Answer :=
  .next (s.arrive (fun s =>
    match templateOf template args with
    | none => s.bad 0x60 tag
    | some (i, t) =>
      ({ s with console := { s.console with templates := s.console.templates.set i t } } : State).done 0x60 tag
        (.template i t)))

/-! ## Panel inputs (R161 to R163) -/

/-- Whether an input is active at a raw level under its polarity. -/
def Input.active (x : Input) : Bool := x.raw = x.activeHigh

def State.input (s : State) (i : PanelInput) : Input := s.console.inputs[inputIndex i]

def State.updInput (s : State) (i : PanelInput) (f : Input → Input) : State :=
  { s with console := { s.console with inputs := s.console.inputs.set (inputIndex i) (f (s.input i)) } }

/-- ATTENTION becoming active reloads the reply timer of the SHOWING prompt (R162). -/
def State.attention (s : State) : State :=
  match shownOf s.console.queue with
  | none => s
  | some p =>
    { s with console := { s.console with
        queue := s.console.queue.map (fun q => if q.num = p.num then { q with timer := q.reply } else q) } }

/-- A settled change is handed to the input's owner (R162, R112, R135). -/
def State.handInput (s : State) (i : PanelInput) (active : Bool) : State :=
  match i with
  | .attention => if active then s.attention else s
  | .station => { s with station := { s.station with latchOpen := active } }
  | .guardWest => { s with rail := { s.rail with westOpen := active } }
  | .guardMiddle => { s with rail := { s.rail with middleOpen := active } }
  | .guardEast => { s with rail := { s.rail with eastOpen := active } }
  | .quiesce => { s with rail := { s.rail with quiesce := active } }

/-- The settled state of an input changes to what its raw level gives, and the owner is told. -/
def State.settleInput (s : State) (i : PanelInput) : State :=
  let level := (s.input i).active
  (s.updInput i (fun x => { x with settled := level, period := false })).handInput i level

/-- PANEL_INPUT_CHANGE (R161): a move of the raw level begins or abandons a debounce period; under code 0 the settled state
changes at once. -/
def execPanelInputChange (input : PanelInput) (high : Bool) (s : State) : Answer :=
  .next
    (if (s.input input).raw = high then s.start
    else
      let s := s.start.updInput input (fun x => { x with raw := high })
      if (s.input input).active = (s.input input).settled then s.updInput input (fun x => { x with period := false })
      else if (s.input input).code = 0 then (s.settleInput input).commit
      else s.updInput input (fun x => { x with period := true }))

/-- DEBOUNCE_PERIOD_END (R161): the raw level has held for the whole period. -/
def execDebouncePeriodEnd (input : PanelInput) (s : State) : Answer :=
  .next (if (s.input input).period then (s.start.settleInput input).commit else s.start)

/-- What an INPUT_SET makes of an input, steps 1 to 3 of R163. -/
def State.setInput (s : State) (i : PanelInput) (high : Bool) (code : Nat) : State :=
  let old := s.input i
  let s := s.updInput i (fun x => { x with activeHigh := high, code := code })
  if old.activeHigh ≠ high then
    let s := s.updInput i (fun x => { x with period := false })
    if (s.input i).active ≠ old.settled then s.settleInput i else s
  else if old.period && code = 0 then s.settleInput i
  else s

/-- INPUT_SET (R163): codes 5, 6 and 7 are clamped to 4. -/
def execInputSet (tag : Tag) (input polarity code : Nat) (s : State) : Answer :=
  .next (s.arrive (fun s =>
    match inputOfCode input, polarityOfCode polarity with
    | some i, some high =>
      if 7 < code then s.bad 0x61 tag
      else ((s.setInput i high (min 4 code)).done 0x61 tag (.input i high (min 4 code))).commit
    | _, _ => s.bad 0x61 tag))

/-! ## PROMPT_LIST (R164) -/

/-- A prompt inserted by urgency now, highest first, after its equals. -/
def insertPrompt (p : Prompt) : List Prompt → List Prompt
  | [] => [p]
  | q :: rest => if q.urgency < p.urgency then p :: q :: rest else q :: insertPrompt p rest

/-- The queue in display order: the SHOWING prompt is the first of the highest urgency. -/
def displayOrder (queue : List Prompt) : List Prompt := queue.foldl (fun out p => insertPrompt p out) []

/-- A prompt as PROMPT_LIST reports it: its place in the queue is its raise order, and it is SHOWING when the display choice
names it (R150, R153). -/
def Prompt.report (queue : List Prompt) (p : Prompt) : PromptReport :=
  { num := p.num, kind := p.kind, template := p.template, block := p.block, subject := p.subject, fields := p.fields,
    initial := p.initial, urgency := p.urgency, left := p.left, reply := p.reply, action := p.action, timer := p.timer,
    raised := queue.findIdx (fun q => q.num = p.num),
    showing := (shownOf queue).map (·.num) = some p.num }

/-- The queued prompts as PROMPT_LIST reports them. -/
def promptReports (queue : List Prompt) : List PromptReport := (displayOrder queue).map (Prompt.report queue)

/-- An input as PROMPT_LIST reports it. -/
def Input.report (x : Input) : InputReport := { activeHigh := x.activeHigh, code := x.code, settled := x.settled }

/-- PROMPT_LIST. -/
def execPromptList (tag : Tag) (s : State) : Answer :=
  .next (s.arrive (fun s =>
    s.done 0x62 tag
      (.prompts s.console.nextNum s.console.queue.length (promptReports s.console.queue) s.console.expired
        s.console.templates (s.console.inputs.map Input.report))))

/-! ## Answer lines (R155, R156) -/

/-- The answer words. -/
inductive AnswerWord where
  | accept | decline | done
deriving DecidableEq, Repr

/-- The characters of a word, in the codes of section 10.7. -/
def wordOf (l : List Byte) : Option AnswerWord :=
  if l = [0x41, 0x43, 0x43, 0x45, 0x50, 0x54] then some .accept
  else if l = [0x44, 0x45, 0x43, 0x4C, 0x49, 0x4E, 0x45] then some .decline
  else if l = [0x44, 0x4F, 0x4E, 0x45] then some .done
  else none

/-- The number and word of an answer line: digits, one or more spaces, the word. -/
def parseAnswer (line : List Byte) : Option (Nat × AnswerWord) :=
  let digits := line.takeWhile isDigit
  let rest := line.dropWhile isDigit
  if digits.isEmpty || (rest.takeWhile (· = 0x20)).isEmpty then none
  else (wordOf (rest.dropWhile (· = 0x20))).map (fun w => (digitsValue digits, w))

/-- The words valid for a prompt's kind (R155). -/
def wordValid : PromptKind → AnswerWord → Bool
  | .approve, .accept => true
  | .approve, .decline => true
  | .approve, .done => false
  | .fault, .done => true
  | .fault, _ => false
  | _, .accept => false
  | _, _ => true

/-- The account whose prompts count rises, and the slot whose P rises, by the prompt's subject (R156 step 2). -/
def State.countAnswer (s : State) : PromptSubject → State
  | .slot n =>
    match s.rec? n with
    | none => s
    | some r =>
      (s.updRec n (fun r => { r with prompts := satAdd 15 r.prompts 1 })).updAccount r.account
        (fun x => { x with prompts := satAdd maxCount16 x.prompts 1 })
  | .position _ => s
  | _ => s.updAccount 0 (fun x => { x with prompts := satAdd maxCount16 x.prompts 1 })

/-- The station position whose prompt has a number. -/
def State.positionOf (s : State) (num : Nat) : Option (Fin 8) :=
  (List.finRange 8).find? (fun p => s.station.pos[p].prompt = .up num)

/-- The prompt of a position has left the queue. -/
def State.promptGone (s : State) (p : Fin 8) : State := s.updPos p (fun x => { x with prompt := .none })

/-- An answer to an APPROVE prompt (R12). -/
def State.answerApprove (s : State) (slot : Nat) (w : AnswerWord) : State :=
  match w with
  | .decline => s.postWith slot .operatorDeclined
  | _ => s.continueHeld slot

/-- A supply ends with an outcome (R139). -/
def State.supplyFails (s : State) (slot : Nat) (o : FinalOutcome) : State :=
  ((s.setOutcome slot o).endSupply slot).enterPosting slot

/-- A ring fitting ends with an outcome (R142). -/
def State.ringFails (s : State) (slot : Nat) (p : Fin 8) (o : FinalOutcome) : State :=
  (s.setOutcome slot o).stationHome slot p .returning

/-- The operator has fitted the ring (R142): the directory is told, and the record is QUEUED again. -/
def State.ringFitted (s : State) (slot : Nat) (p : Fin 8) : State :=
  let s := match (s.rec? slot).bind (·.serial) with
    | some ser => s.setRing ser .present
    | none => s
  (s.updPos p (fun x => { x with flow := some .pickup })).enterQueued slot

/-- An answer to a prompt of the station unit, at the position whose prompt it was (R139, R142, R144). -/
def State.answerStation (s : State) (p : Fin 8) (w : AnswerWord) : State :=
  let s := s.promptGone p
  let x := s.station.pos[p]
  match x.state, x.flow, x.owner with
  | .expecting slot, _, _ => if w = .done then s.requestScan p .supply else s.supplyFails slot .operatorDeclined
  | .holding _, some .ring, some slot =>
    if w = .done then s.ringFitted slot p else s.ringFails slot p .operatorDeclined
  | .holding _, some .collect, _ => if w = .done then s.requestScan p .collect else s.askStation p
  | _, _, _ => s

/-- The DONE answer to a FAULT prompt (R114). -/
def State.answerFault (s : State) (acc : Acc) : State :=
  (s.updAcc acc (fun x => { x with prompt := .none })).sendRecover acc

/-- An answer to the CLEAN_SUPPLY prompt (R87, R70). -/
def State.answerClean (s : State) (w : AnswerWord) : State :=
  let s := { s with cleanPrompt := .none }
  if w = .done then s.restoreCleanUses.cleaningAttempts else s

/-- The answer is handed to the raising block (R156 step 3). -/
def State.handAnswer (s : State) (p : Prompt) (w : AnswerWord) : State :=
  match p.block, p.subject with
  | .requestTable, .slot n => (s.updRec n (fun r => { r with approve := .none })).answerApprove n w
  | .railScheduler, .accessor acc => s.answerFault acc
  | .driveTable, _ => s.answerClean w
  | .stationUnit, _ =>
    match s.positionOf p.num with
    | some q => s.answerStation q w
    | none => s
  | _, _ => s

/-- A valid answer is taken (R156). -/
def State.takeAnswer (s : State) (p : Prompt) (w : AnswerWord) : State :=
  ((((s.removePrompt p.num).countAnswer p.subject).handAnswer p w).spaceReport).replyLine (.taken p.num)

/-- An answer line is judged (R155). -/
def State.judgeAnswer (s : State) (line : List Byte) : State :=
  match parseAnswer line with
  | none => s.replyLine .invalidAnswer
  | some (n, w) =>
    match s.prompt? n with
    | none => s.replyLine (if s.console.expired.contains n then .tooLate else .unknownPrompt)
    | some p => if wordValid p.kind w then (s.takeAnswer p w).commit else s.replyLine .invalidAnswer

/-- ANSWER_LINE. -/
def execAnswerLine (line : List Byte) (s : State) : Answer := .next (s.start.judgeAnswer line)

/-! ## Reply timers (R157 to R159) -/

def State.updPrompt (s : State) (num : Nat) (f : Prompt → Prompt) : State :=
  { s with console := { s.console with queue := s.console.queue.map (fun p => if p.num = num then f p else p) } }

/-- An escalation (R157). -/
def Prompt.escalated (p : Prompt) : Prompt :=
  { p with urgency := min 7 (p.urgency + 1), left := p.left - 1, timer := p.reply }

/-- A REARM (R158). -/
def Prompt.rearmed (p : Prompt) : Prompt := { p with urgency := p.initial, left := p.steps, timer := p.reply }

/-- The expired list with a number at its tail; the oldest of 16 leaves it (R158). -/
def pushExpired (l : List Nat) (num : Nat) : List Nat := (if 16 ≤ l.length then l.drop 1 else l) ++ [num]

/-- A FAIL expiry of a prompt of the station unit (R139, R142, R144). -/
def State.failStation (s : State) (p : Fin 8) : State :=
  let s := s.promptGone p
  let x := s.station.pos[p]
  match x.state, x.flow, x.owner with
  | .expecting slot, _, _ => s.supplyFails slot .operatorTimeout
  | .holding _, some .ring, some slot => s.ringFails slot p .operatorTimeout
  | .holding _, some .collect, _ => s.askStation p
  | _, _, _ => s

/-- A FAIL expiry is handed to the raising block (R159). -/
def State.handFail (s : State) (p : Prompt) : State :=
  match p.block, p.subject with
  | .requestTable, .slot n => (s.updRec n (fun r => { r with approve := .none })).postWith n .operatorTimeout
  | .railScheduler, .accessor acc => s.askFault acc p.override
  | .driveTable, _ => { s with cleanPrompt := .none }
  | .stationUnit, _ =>
    match s.positionOf p.num with
    | some q => s.failStation q
    | none => s
  | _, _ => s

/-- An expiry with no escalations left whose action is FAIL (R158). -/
def State.failPrompt (s : State) (p : Prompt) : State :=
  let s := s.removePrompt p.num
  let s := { s with console := { s.console with expired := pushExpired s.console.expired p.num } }
  ((s.raise .promptExpired (.prompt p.num)).handFail p).spaceReport

/-- An expiry with no escalations left whose action is REARM (R158). -/
def State.rearmPrompt (s : State) (p : Prompt) : State :=
  ((s.updPrompt p.num Prompt.rearmed).redisplay).raise .promptExpired (.prompt p.num)

/-- A prompt's timer has run out (R157, R158). -/
def State.expirePrompt (s : State) (p : Prompt) : State :=
  if p.left ≠ 0 then (s.updPrompt p.num Prompt.escalated).redisplay
  else
    match p.action with
    | .fail => (s.failPrompt p).commit
    | .rearm => (s.rearmPrompt p).commit

/-- REPLY_TIMER_EXPIRY: taken for a queued prompt whose timer is 0. -/
def execReplyTimerExpiry (prompt : Nat) (s : State) : Answer :=
  .next
    (match s.prompt? prompt with
     | some p => if p.timer = 0 then s.start.expirePrompt p else s.start
     | none => s.start)

/-! ## The console's own steps -/

/-- OWED_PROMPT_RAISE (R152): the blocks raise what they owe, in the fixed order, until the queue is full. -/
def execOwedPromptRaise (s : State) : Answer := .next s.start.spaceReport

/-- CONSOLE_LINE_SENT (R154): the oldest unsent line has been sent. -/
def execConsoleLineSent (s : State) : Answer :=
  .next { s.start with console := { s.console with lines := s.console.lines.drop 1 } }

end Machine

end Sys2Proof
end

