-- ==== Sys2Proof/Machine/DirectoryCommands.lean ====
section
/-! DEFINITION. The management operations of the directory (R65 to R69): DIR_PUT, DIR_DELETE, DIR_GET and CLEAN_LIST_SET. -/

namespace Sys2Proof

namespace Machine

/-! ## DIR_PUT (R65, R66) -/

/-- The values of a DIR_PUT that pass check 1 of R65. -/
structure PutValues where
  loc : Location
  ring : Ring
  account : Fin 128
deriving DecidableEq, Repr

def putValues (x : DirPutArgs) : Option PutValues :=
  if serialOk x.serial && cellOk x.home then
    match putLocationOfCode x.loc, ringOfCode x.ring, toFin? 128 x.account with
    | some l, some r, some n => some { loc := l, ring := r, account := n }
    | _, _, _ => none
  else none

/-- Check 2: the serial's entry is held by an open record, or is neither HOME nor OUTSIDE. A serial with no entry passes it, though
an open record may hold the serial (R65, assumption log 56). -/
def State.putBusy (s : State) (ser : Serial) : Bool :=
  match s.entry? ser with
  | none => false
  | some e => (s.holderOf ser).isSome || (e.loc ≠ .home && e.loc ≠ .outside)

/-- Check 4: the home cell is another entry's home cell or found-at cell. -/
def State.cellTaken (s : State) (ser : Serial) (c : Cell) : Bool :=
  s.dir.any (fun e => e.serial ≠ ser && (e.home = some c || e.loc = .misplaced c))

/-- The entry a DIR_PUT writes: a replaced one keeps its mount count (R66). -/
def State.putEntry (s : State) (x : DirPutArgs) (v : PutValues) : Entry :=
  { serial := x.serial, home := some x.home, loc := v.loc,
    verif := if s.auditAhead x.home then .auditPending else .unverified, ring := v.ring, account := v.account,
    group := x.group, foreign := false, mounts := ((s.entry? x.serial).map (·.mounts)).getD 0 }

/-- The directory after a DIR_PUT: the entry is created or replaced. -/
def State.storeEntry (s : State) (e : Entry) : State :=
  match s.entry? e.serial with
  | none => { s with dir := s.dir ++ [e] }
  | some _ => s.updEntry e.serial (fun _ => e)

/-- DIR_PUT: the first check that fails refuses it. -/
def execDirPut (tag : Tag) (args : DirPutArgs) (s : State) : Answer :=
  .next (s.arrive (fun s =>
    match putValues args with
    | none => s.bad 0x20 tag
    | some v =>
      if s.putBusy args.serial then s.busy 0x20 tag
      else if (s.entry? args.serial).isNone && decide (dirCapacity ≤ s.dir.length) then
        s.reply 0x20 tag .directoryFull .nothing
      else if s.cellTaken args.serial args.home then s.reply 0x20 tag .cellTaken .nothing
      else (s.storeEntry (s.putEntry args v)).done 0x20 tag (.dirPut args.serial (s.entry? args.serial).isNone)))

/-! ## DIR_DELETE and DIR_GET (R67, R68) -/

/-- DIR_DELETE. -/
def execDirDelete (tag : Tag) (serial : Serial) (s : State) : Answer :=
  .next (s.arrive (fun s =>
    match s.entry? serial with
    | none => s.bad 0x21 tag
    | some e =>
      if serialOk serial = false then s.bad 0x21 tag
      else if (s.holderOf serial).isSome || e.loc.mechanism || s.inCleanList serial then s.busy 0x21 tag
      else (s.deleteEntry serial).done 0x21 tag .nothing))

/-- DIR_GET: an entry by serial, or the entry whose home is a cell and the one MISPLACED there. -/
def execDirGet (tag : Tag) (query : DirQuery) (s : State) : Answer :=
  .next (s.arrive (fun s =>
    match query with
    | .bySerial ser =>
      match s.entry? ser with
      | some e => if serialOk ser then s.done 0x22 tag (.dirEntry e) else s.bad 0x22 tag
      | none => s.bad 0x22 tag
    | .byCell c =>
      if cellOk c then
        s.done 0x22 tag (.dirCell (s.dir.find? (fun e => e.home = some c)) (s.dir.find? (fun e => e.loc = .misplaced c)))
      else s.bad 0x22 tag))

/-! ## CLEAN_LIST_SET (R69) -/

/-- A list entry whose serial is valid and has an entry that is not FOREIGN. -/
def State.cleanEntryOk (s : State) (x : Serial × Nat) : Bool :=
  serialOk x.1 && ((s.entry? x.1).map (fun e => !e.foreign)).getD false

/-- No serial is given twice, and every one is usable. -/
def State.cleanListOk (s : State) (l : List (Serial × Nat)) : Bool :=
  l.all s.cleanEntryOk && decide (l.map (·.1)).Nodup

def State.setCleanList (s : State) (l : Vector (Option (Serial × Nat)) 4) : State :=
  { s with cleanList := l.map (fun x => x.map (fun y => { serial := y.1, uses := y.2 })) }

/-- CLEAN_LIST_SET: the list is replaced, and the drives in cleaning wait make their attempts (R86). -/
def execCleanListSet (tag : Tag) (list : Vector (Option (Serial × Nat)) 4) (s : State) : Answer :=
  .next (s.arrive (fun s =>
    if s.cleanListOk (list.toList.filterMap id) then
      ((s.setCleanList list).done 0x23 tag .nothing).cleaningAttempts.commit
    else s.bad 0x23 tag))

end Machine

end Sys2Proof
end

