-- ==== Sys2Proof/Machine/RequestCommands.lean ====
section
/-! DEFINITION. The REQUEST commands (chapter 1): admission of MOUNT, EJECT and ENTER (R6 to R8), DISMOUNT (R24), CANCEL (R21 to
R23) and the two QUERY forms (R25, R26). -/

namespace Sys2Proof

namespace Machine

/-! ## Admission (R6 to R8) -/

/-- The first admission check that fails (R6), with the ending it gives. -/
def State.admissionFails (s : State) (f : ReqFields) : Option EndingCode :=
  if s.link.lib ≠ .online then some .notReady
  else if serialOk f.serial = false then some .malformed
  else if (s.byCorrelator f.corr).isSome then some .duplicateCorrelator
  else if s.freeSlot.isNone then some .tableFull
  else if (s.holderOf f.serial).isSome then some .volumeBusy
  else none

/-- A record at its opening by admission, its out-of-range fields treated as R7 says. The fields that classification writes, and to
which R4 gives no opening value in a CHANNEL record, open at 0 (assumption log 55). -/
def admittedRec (slot : Nat) (kind : ReqKind) (f : ReqFields) : Rec :=
  let urgency := (toFin? 8 f.urgency).getD 7
  { slot := slot, origin := .channel, corr := some f.corr, kind := kind, serial := some f.serial, path := f.path,
    system := f.system, jobClass := f.jobClass, urgency := urgency, writeIntent := f.writeIntent,
    reqPool := f.pool.bind (toFin? 8), reqDrive := f.drive.bind (toFin? 16), hint := f.hint.bind (toFin? 128),
    clsUrgency := urgency, account := 0, group := 0, disposition := none, heldDisp := none, pool := 0, prio := 0,
    template := 0, exempt := false, budgetHeld := false, state := .admitted, drive := none, driveClass := none,
    leg := none, nextLeg := none, legs := 0, prompts := 0, holdStart := 0, holdSecs := 0, loaded := false,
    dismountPending := false, mountedOwed := false, ringAbsent := false, mountedDrive := none, outcome := none,
    approve := .none, usage := none, notices := [] }

/-- The record joins the age order and the classifier's intake (R8). -/
def State.handOver (s : State) (r : Rec) : State :=
  let s := s.openRec r
  { s with cls := { s.cls with intake := s.cls.intake ++ [r.slot] } }

/-- A MOUNT, EJECT or ENTER frame is judged: it opens a record, or is answered with the first check that fails. -/
def State.admission (s : State) (kind : ReqKind) (body : Body ReqFields) : State :=
  match body with
  | .wrongLength corr =>
    s.answer (endingOf (if s.link.lib ≠ .online then .notReady else .malformed) (kindByte kind) corr)
  | .fields f =>
    match s.admissionFails f with
    | some code => s.answer (endingOf code (kindByte kind) (some f.corr))
    | none => s.handOver (admittedRec (s.freeSlot.getD 0) kind f)

/-- MOUNT. -/
def execMount (body : Body ReqFields) (s : State) : Answer := .next (s.arrive (fun s => s.admission .mount body))

/-- EJECT. -/
def execEject (body : Body ReqFields) (s : State) : Answer := .next (s.arrive (fun s => s.admission .eject body))

/-- ENTER. -/
def execEnter (body : Body ReqFields) (s : State) : Answer := .next (s.arrive (fun s => s.admission .enter body))

/-! ## DISMOUNT (R24) -/

/-- The record that the drive table shows holding a drive. -/
def State.holdingRec (s : State) (d : Fin 16) : Option Rec := s.drives[d].holding.bind s.rec?

/-- The effect of a DISMOUNT on a drive and its reply. -/
def State.dismount (s : State) (d : Fin 16) : State × EndingCode :=
  match s.holdingRec d with
  | none => (s, .noSuchRequest)
  | some r =>
    if r.origin = .internal then (s, .noSuchRequest)
    else
      match r.state with
      | .staged => (s.updRec r.slot (fun r => { r with dismountPending := true }), .taken)
      | .loading => (s.updRec r.slot (fun r => { r with dismountPending := true }), .taken)
      | .mounted => (s.unload r.slot d, .taken)
      | _ => (s, .taken)

/-- DISMOUNT: the ending carries the drive and the reply; a drive number of 16 or more makes the body malformed. Its kind
byte is the DISMOUNT frame's own sub-kind (assumption log 65). -/
def execDismount (body : Body DismountFields) (s : State) : Answer :=
  .next (s.arrive (fun s =>
    match body with
    | .wrongLength corr => s.answer (endingOf .malformed 0x04 corr)
    | .fields f =>
      match toFin? 16 f.drive with
      | none => s.answer (endingOf .malformed 0x04 (some f.corr))
      | some d =>
        let r := s.dismount d
        r.1.answer { endingOf r.2 0x04 (some f.corr) with drive := some f.drive }))

/-! ## CANCEL (R21 to R23) -/

/-- The shelf position that holds a record's reel, with the accessor that placed it there. -/
def State.reelOnShelf (s : State) (r : Rec) : Option (Fin 4 × Acc) := r.serial.bind s.onShelf

/-- CANCEL of a QUEUED record (R21, R83). -/
def State.cancelQueued (s : State) (r : Rec) : State :=
  match s.heldAt r.slot with
  | some p => s.enterCollect r.slot p
  | none =>
    match s.reelOnShelf r with
    | some (p, by') => s.shelfHome r.slot p by'
    | none => s.enterPosting r.slot

/-- CANCEL of a STAGED record whose leg is not in hand (R22). -/
def State.cancelWaiting (s : State) (r : Rec) (src : Place) : State :=
  let s := (s.discardLegs r.slot).releaseDrive r.slot false
  match src with
  | .station (some p) => s.enterCollect r.slot p
  | .shelf (some p) => s.shelfHome r.slot p (((s.reelOnShelf r).map (·.2)).getD .a)
  | _ => s.enterPosting r.slot

/-- A leg aboard or in hand becomes a return leg: its from-place is its new to-place, appended as the last drop (R109). -/
def State.returnLeg (s : State) (slot : Nat) (l : Leg) : State :=
  let s := s.freeReservation (.record slot)
  let s := s.updLeg slot (fun l => { l with dst := l.src.unnamed })
  let s := s.updStops l.acc (fun stops =>
    stops.filter (fun x => x ≠ { op := .place, ref := .record slot }) ++ [{ op := .place, ref := .record slot }])
  (s.reserveFor (.record slot)).getD s

/-- CANCEL of a STAGED record whose leg is aboard or in hand (R22, R109). What becomes of a PLACE already sent is said where it
completes (`State.placedAstray`, assumption log 31). -/
def State.cancelAboard (s : State) (r : Rec) (l : Leg) : State :=
  let s := s.updRec r.slot (fun r => { r with nextLeg := none, state := .returning })
  (s.returnLeg r.slot l).releaseDrive r.slot false

/-- CANCEL of a STAGED record (R22). -/
def State.cancelStaged (s : State) (r : Rec) : State :=
  match r.leg with
  | some l => if l.onBoard then s.cancelAboard r l else s.cancelWaiting r l.src
  | none => (s.releaseDrive r.slot false).enterPosting r.slot

/-- CANCEL of a RING record (R23, R142). -/
def State.cancelRing (s : State) (slot : Nat) : State :=
  match s.heldAt slot with
  | some p => (s.dropStation p).stationHome slot p .returning
  | none => s

/-- CANCEL of a MOUNTED record (R23, R24). -/
def State.cancelMounted (s : State) (r : Rec) : State :=
  match r.drive with
  | some d => s.unload r.slot d
  | none => s

/-- Whether a CANCEL of a record in a state is taken (R21 to R23). -/
def cancellable : RecState → Bool
  | .held => true
  | .supply => true
  | .queued => true
  | .staged => true
  | .ring => true
  | .loading => true
  | .mounted => true
  | _ => false

/-- The effect of a CANCEL that is taken; the outcome is CANCELLED. -/
def State.cancel (s : State) (r : Rec) : State :=
  let s := s.setOutcome r.slot .cancelled
  match r.state with
  | .held => (s.dropApprove r.slot).enterPosting r.slot
  | .supply => (s.endSupply r.slot).enterPosting r.slot
  | .queued => s.cancelQueued r
  | .staged => s.cancelStaged r
  | .ring => s.cancelRing r.slot
  | .loading => s.updRec r.slot (fun r => { r with dismountPending := true })
  | .mounted => s.cancelMounted r
  | _ => s

/-- CANCEL: the ending carries the named correlator and TAKEN, NOT_CANCELLABLE or NO_SUCH_REQUEST, its kind byte the CANCEL frame's own
sub-kind (assumption log 65). -/
def execCancel (body : Body Corr) (s : State) : Answer :=
  .next (s.arrive (fun s =>
    match body with
    | .wrongLength corr => s.answer (endingOf .malformed 0x05 corr)
    | .fields c =>
      match s.byCorrelator c with
      | none => s.answer (endingOf .noSuchRequest 0x05 (some c))
      | some r =>
        if cancellable r.state then ((s.cancel r).answer (endingOf .taken 0x05 (some c))).commit
        else s.answer (endingOf .notCancellable 0x05 (some c))))

/-! ## QUERY (R25, R26) -/

/-- The queue position of a slot's leg, 1 at the head (R25). -/
def queuePosition (q : List Nat) (slot : Nat) : Option Nat :=
  if q.contains slot then some (q.findIdx (fun x => x = slot) + 1) else none

/-- The answer of a QUERY that names a correlator. Its kind byte is the QUERY frame's own sub-kind, not the kind of the record reported
(DESIGN CHOICE, assumption log 65). -/
def State.recordAnswer (s : State) (r : Rec) : Ending :=
  { endingOf .queryRecord 0x06 r.corr with
    slot := some r.slot, disposition := r.disposition, drive := r.drive.map Fin.val,
    tail := .record r.state r.prio.val r.urgency.val (r.leg.map (·.state)) (r.leg.map (·.acc))
      (r.leg.bind (fun l => if l.state = .ready then queuePosition (s.rail.queues.get l.acc) r.slot else none)) }

/-- QUERY_BY_CORRELATOR. -/
def execQueryByCorrelator (body : Body Corr) (s : State) : Answer :=
  .next (s.arrive (fun s =>
    match body with
    | .wrongLength corr => s.answer (endingOf .malformed 0x06 corr)
    | .fields c =>
      match s.byCorrelator c with
      | none => s.answer (endingOf .noSuchRequest 0x06 (some c))
      | some r => s.answer (s.recordAnswer r)))

/-- The verification that QUERY reports: AUDIT_PENDING while an active audit has the home cell still to pass (R124). -/
def State.reportedVerif (s : State) (e : Entry) : Verification :=
  if (e.home.map s.auditAhead).getD false then .auditPending else e.verif

/-- The answer of a QUERY that names a serial the directory knows, its kind byte the QUERY frame's own sub-kind (DESIGN CHOICE,
assumption log 65). -/
def State.volumeAnswer (s : State) (e : Entry) : Ending :=
  let holder := s.holderOf e.serial
  { endingOf .queryVolume 0x06 none with
    slot := holder.map (·.slot), serial := some e.serial,
    tail := .volume e.loc (s.reportedVerif e) e.ring (holder.map (·.state)) }

/-- QUERY_BY_SERIAL. -/
def execQueryBySerial (body : Body Serial) (s : State) : Answer :=
  .next (s.arrive (fun s =>
    match body with
    | .wrongLength corr => s.answer (endingOf .malformed 0x06 corr)
    | .fields ser =>
      if serialOk ser = false then s.answer (endingOf .malformed 0x06 none)
      else
        match s.entry? ser with
        | none => s.answer (endingOf .unknownVolume 0x06 none)
        | some e => s.answer (s.volumeAnswer e)))

end Machine

end Sys2Proof
end

