-- ==== Sys2Proof/Machine/DriveCommands.lean ====
section
/-! DEFINITION. The drive table's commands (chapter 4): DRIVE_SET, DRIVE_OFFLINE, DRIVE_ONLINE and DRIVE_GET, the drives' reports
LOADED, UNLOADED and FAULT, the STATUS answers of the online poll, and the drive table's own steps. -/

namespace Sys2Proof

namespace Machine

/-! ## Management operations (R89 to R91) -/

/-- DRIVE_SET (R89): class and pools are replaced, and a FREE drive looks for a record. -/
def execDriveSet (tag : Tag) (drive cls : Nat) (pools : BitVec 8) (s : State) : Answer :=
  .next (s.arrive (fun s =>
    match toFin? 16 drive, driveClassOfCode cls with
    | some d, some c =>
      (((s.updDrive d (fun x => { x with cls := c, pools := pools })).done 0x30 tag .nothing).allocateForDrive d).commit
    | _, _ => s.bad 0x30 tag))

/-- DRIVE_OFFLINE (R90). -/
def execDriveOffline (tag : Tag) (drive : Nat) (s : State) : Answer :=
  .next (s.arrive (fun s =>
    match toFin? 16 drive with
    | none => s.bad 0x31 tag
    | some d =>
      if s.drives[d].state = .free then
        ((s.updDrive d (fun x => { x with state := .offline, cleanWait := false })).tidyCleanSupply).done 0x31 tag .nothing
      else s.busy 0x31 tag))

/-- What DRIVE_ONLINE does in a drive's state (R90): DONE and whether the drive becomes FREE, or BUSY. -/
def Drive.onlineEffect (d : Drive) : Option Bool :=
  match d.state with
  | .offline => some true
  | .faulted => if d.reel then none else some true
  | .free => some false
  | _ => none

/-- DRIVE_ONLINE (R90). -/
def execDriveOnline (tag : Tag) (drive : Nat) (s : State) : Answer :=
  .next (s.arrive (fun s =>
    match toFin? 16 drive with
    | none => s.bad 0x32 tag
    | some d =>
      match s.drives[d].onlineEffect with
      | none => s.busy 0x32 tag
      | some false => s.done 0x32 tag .nothing
      | some true =>
        (((s.updDrive d (fun x => { x with state := .free })).done 0x32 tag .nothing).allocateForDrive d).commit))

/-- Whether the drive table holds a CLEAN_SUPPLY prompt that names the drive (R91). -/
def State.holdsCleanPrompt (s : State) (d : Fin 16) : Bool :=
  match s.cleanPrompt with
  | .up n => ((s.prompt? n).map (fun p => decide (p.subject = .drive d))).getD false
  | _ => false

/-- DRIVE_GET (R91). -/
def execDriveGet (tag : Tag) (drive : Nat) (s : State) : Answer :=
  .next (s.arrive (fun s =>
    match toFin? 16 drive with
    | none => s.bad 0x33 tag
    | some d => s.done 0x33 tag (.drive d s.drives[d] (s.holdsCleanPrompt d))))

/-! ## LOADED (R81, R85, R16) -/

/-- The mount count of a drive rises, and the cleaning test is made (R81 step 3, R85): the drive after, and whether CLEANING_DUE
is raised. -/
def Drive.counted (d : Drive) (interval : Nat) : Drive × Bool :=
  let m := satAdd 255 d.mounts 1
  if interval ≠ 0 ∧ interval ≤ m then ({ d with due := true, mounts := 0 }, true) else ({ d with mounts := m }, false)

/-- The count of LOADED: a use of the cleaning reel for a CLEAN record, the drive's mounts for any other (R81 step 3). -/
def State.countLoaded (s : State) (d : Fin 16) (r : Rec) : State :=
  match r.kind with
  | .clean => (r.serial.map s.takeCleanUse).getD s
  | _ =>
    let x := s.drives[d].counted s.acct.rates.interval[driveClassIndex s.drives[d].cls]
    let s := s.updDrive d (fun _ => x.1)
    if x.2 then s.raise .cleaningDue (.drive d) else s

/-- The request table's part of LOADED (R16): hold starts, the MOUNTED ending falls due, a pending dismount is acted on. -/
def State.recLoaded (s : State) (d : Fin 16) (r : Rec) (ring : Bool) : State :=
  let s := s.startHold r.slot
  let s := s.updRec r.slot (fun r =>
    { r with state := .mounted, mountedOwed := r.origin = .channel, ringAbsent := r.writeIntent && !ring,
             mountedDrive := some d })
  if r.dismountPending then s.unload r.slot d else s

/-- LOADED (R81): taken for a drive in LOADING, discarded in any other state. -/
def execLoaded (drive : Fin 16) (ring : Bool) (s : State) : Answer :=
  .next
    (if s.drives[drive].state = .loading then
      match s.start.holdingRec drive with
      | none => s.start
      | some r =>
        let s := s.start.updDrive drive (fun x => { x with state := .mounted })
        let s := (r.serial.map (fun ser => s.loadedUpdate ser ring)).getD s
        ((s.countLoaded drive r).recLoaded drive r ring).commit
    else s.start)

/-! ## UNLOADED (R82, R18) -/

/-- UNLOADED taken in a drive state that it moves to AWAITING_STOW. -/
def State.unloadedFrom (s : State) (d : Fin 16) (r : Rec) (left : DriveState) : State :=
  let s := s.updDrive d (fun x =>
    { x with state := .awaitingStow, due := if left = .mounted ∧ r.kind = .clean then false else x.due })
  match left with
  | .loading => (s.updRec r.slot (fun r => { r with dismountPending := false })).stow r.slot d
  | .mounted => (s.stopHold r.slot).stow r.slot d
  | _ => s.stow r.slot d

/-- UNLOADED: taken by the drive's state and its record's (R82), discarded otherwise; in RESERVED, for which R82 has no row, it is
discarded (assumption log 58). -/
def execUnloaded (drive : Fin 16) (s : State) : Answer :=
  .next
    (match s.start.holdingRec drive with
     | none => s.start
     | some r =>
       match s.drives[drive].state with
       | .loading => (s.start.unloadedFrom drive r .loading).commit
       | .mounted => (s.start.unloadedFrom drive r .mounted).commit
       | .unloading => (s.start.unloadedFrom drive r .unloading).commit
       | .faulted => if r.state = .faultwait then (s.start.stow r.slot drive).commit else s.start
       | _ => s.start)

/-- FAULT (R83). -/
def execFault (drive : Fin 16) (s : State) : Answer := .next (s.start.driveFault drive).commit

/-! ## The online poll at the drives (R92) -/

/-- A drive answers "empty": FREE with no reel. -/
def State.answeredEmpty (s : State) (d : Fin 16) : State :=
  let s := s.updDrive d (fun x => { x with state := .free, reel := false, returnWait := false, status := none })
  (s.settle (.drive d)).allocateForDrive d

/-- A drive answers "reel present": a RETURN record is asked for. -/
def State.answeredPresent (s : State) (d : Fin 16) : State :=
  let s := s.updDrive d (fun x => { x with reel := true, status := none })
  (s.returnOpen d).settle (.drive d)

/-- Whether a drive's STATUS answer is awaited. -/
def State.awaitsStatus (s : State) (d : Fin 16) : Bool := s.drives[d].state = .unpolled && s.drives[d].status.isSome

/-- DRIVE_STATUS_ANSWER (R92): taken for a drive still UNPOLLED whose STATUS is outstanding. -/
def execDriveStatusAnswer (drive : Fin 16) (reelPresent : Bool) (s : State) : Answer :=
  .next
    (if s.awaitsStatus drive then
      (if reelPresent then s.start.answeredPresent drive else s.start.answeredEmpty drive).commit
    else s.start)

/-- A drive gives no answer: FAULTED with no reel, DRIVE_FAULT raised, settled (R92). -/
def State.statusSilent (s : State) (d : Fin 16) : State :=
  let s := s.updDrive d (fun x => { x with state := .faulted, reel := false, returnWait := false, status := none })
  (s.raise .driveFault (.drive d)).settle (.drive d)

/-- DRIVE_STATUS_TIMEOUT (R92): taken when the limit has run out. -/
def execDriveStatusTimeout (drive : Fin 16) (s : State) : Answer :=
  .next
    (if s.drives[drive].state = .unpolled ∧ s.drives[drive].status = some 0 then (s.start.statusSilent drive).commit
    else s.start)

/-! ## The drive table's own steps -/

/-- CLEANING_ATTEMPT (R86): taken for a due FREE drive with no CLEAN record QUEUED. -/
def execCleaningAttempt (drive : Fin 16) (s : State) : Answer :=
  .next (if s.attemptDue drive then (s.start.cleaningAttempt drive).commit else s.start)

/-- RETURN_RECORD_OPEN (R92): taken for a drive in return wait when a slot is free. -/
def execReturnRecordOpen (drive : Fin 16) (s : State) : Answer :=
  .next (if s.drives[drive].returnWait && s.freeSlot.isSome then (s.start.returnOpen drive).commit else s.start)

/-- DRIVE_RESERVATION (R76): the search of R74 or R75 is made, and a drive and record that suit each other are joined. -/
def execDriveReservation (search : Search) (s : State) : Answer :=
  .next
    (match search with
     | .forRecord slot =>
       match s.rec? slot with
       | some r => if r.state = .queued then (s.start.allocateForRecord slot).commit else s.start
       | none => s.start
     | .forDrive d =>
       if s.drives[d].state = .free then
         match s.chooseRecord d with
         | some r => (s.start.reserve r.slot d).commit
         | none => s.start
       else s.start)

end Machine

end Sys2Proof
end

