-- ==== Sys2Proof/Machine/MechanismCommands.lean ====
section
/-! DEFINITION. The accessors' completions and answers (chapter 5): PICK (R104, R105), PLACE (R106), CELL_OCCUPIED (R107), SCAN
(R98, R126, R140, R141, R145), RECOVER (R114), PARK (R108) and STATUS (R119), and the expiries of motion limits. A completion
is taken for the order in flight of its accessor and kind, and discarded otherwise (R111). -/

namespace Sys2Proof

namespace Machine

/-! ## The end of an order -/

/-- The order in flight of an accessor. -/
def State.order? (s : State) (acc : Acc) : Option Order := (s.acc acc).order

/-- An order has completed at a column: the timer stops, the column is the accessor's, and the zone lock is released outside
80..119 (R103, R110, R111). -/
def State.orderEnds (s : State) (acc : Acc) (column : Nat) : State :=
  let s := s.updAcc acc (fun x => { x with order := none, column := column })
  if inMiddle column then s else s.releaseZone acc

def State.setHolder (s : State) (acc : Acc) (h : Fin 3) (x : Holder) : State :=
  s.updAcc acc (fun r => { r with holders := r.holders.set h x })

/-- The stop in progress is done. -/
def State.stopDone (s : State) (acc : Acc) (x : Stop) : State := s.updStops acc (fun l => l.filter (fun y => y ≠ x))

/-! ## PICK (R104, R105) -/

/-- The place picked from is emptied (R104 step 3). -/
def State.placeEmptied (s : State) (slot : Nat) : Place → State
  | .shelf (some p) => s.freeShelf p
  | .station (some p) => s.freeStation p
  | .drive _ => s.releaseDrive slot true
  | _ => s

/-- The reel is in the holder and the leg ABOARD. -/
def State.takeAboard (s : State) (slot : Nat) (acc : Acc) (h : Fin 3) (ser : Serial) : State :=
  (s.setHolder acc h (.reel ser)).updLeg slot (fun l => { l with state := .aboard, holder := some h })

/-- A PICK that reads the expected serial (R104). -/
def State.pickExpected (s : State) (slot : Nat) (l : Leg) (h : Fin 3) (ser : Serial) : State :=
  ((s.takeAboard slot l.acc h ser).pickedUp ser l.acc h).placeEmptied slot l.src

/-- The record of a PICK that found nothing it wanted: its legs are discarded, its drive released, and it enters POSTING
(R15). -/
def State.pickEnds (s : State) (slot : Nat) (src : Place) (o : FinalOutcome) : State :=
  ((((s.setOutcome slot o).discardLegs slot).placeEmptied slot src).releaseDrive slot false).enterPosting slot

/-- The expected entry becomes MISSING. -/
def State.expectedMissing (s : State) (l : Leg) : State := (l.expected.map s.setMissing).getD s

/-- A PICK that reads EMPTY (R104). -/
def State.pickEmpty (s : State) (slot : Nat) (l : Leg) : State :=
  (s.expectedMissing l).pickEnds slot l.src .volumeMissing

/-- A wrong reel read at a cell is aboard to be put back there by the next stop (R105). -/
def State.addPutBack (s : State) (acc : Acc) (h : Fin 3) (y : Serial) (c : Cell) : State :=
  (s.setHolder acc h (.reel y)).updAcc acc (fun x => { x with trip := x.trip.map (fun t =>
    { t with putBacks := t.putBacks ++ [{ holder := h, serial := y, dst := .cell c }],
             stops := { op := .place, ref := .putBack acc h } :: t.stops }) })

/-- A PICK at a cell that reads another serial (R105). -/
def State.pickWrongCell (s : State) (slot : Nat) (l : Leg) (h : Fin 3) (c : Cell) (y : Serial) : State :=
  (((s.expectedMissing l).foundAt y c).addPutBack l.acc h y c).pickEnds slot l.src .wrongVolume

/-- A PICK at a drive, shelf position or station position that reads another serial: the leg takes the reel to the station
(R105). -/
def State.pickWrongPlace (s : State) (slot : Nat) (l : Leg) (h : Fin 3) (y : Serial) : State :=
  let s := s.pickedOther slot l.expected y l.acc h
  let s := (s.takeAboard slot l.acc h y).setOutcome slot .wrongVolume
  let s := s.placeEmptied slot l.src
  (s.releaseDrive slot false).divert slot

/-- The destination of a RETURN reel, settled at its PICK (R79): its home cell, the shelf on the way to it, or the station
position it has reserved. `took` says whether the directory made the entry IN_TRANSIT. -/
def State.settleReturn (s : State) (slot : Nat) (d : Fin 16) (ser : Serial) (took : Bool) : State :=
  match (if took then s.homeOf ser else none) with
  | none => s
  | some c =>
    if nearDrive c d then (s.freeReservation (.record slot)).setDst (.record slot) (.cell c)
    else
      match s.emptyShelf with
      | none => s
      | some p =>
        let s := s.freeReservation (.record slot)
        let s := (s.setShelf p (.reserved (.record slot))).setDst (.record slot) (.shelf (some p))
        s.updRec slot (fun r =>
          { r with nextLeg := some { legOf r (accOfColumn c.col) (.shelf none) (.cell c) with expected := some ser } })

/-- A PICK of a RETURN record's stow leg that reads a label (R56, R79, R104). -/
def State.pickReturn (s : State) (slot : Nat) (l : Leg) (h : Fin 3) (d : Fin 16) (ser : Serial) : State :=
  let took := (s.entry? ser).isSome && !s.heldByOther slot ser
  let s := s.takeAboard slot l.acc h ser
  let s := s.updRec slot (fun r => { r with serial := some ser })
  let s := if took then s.pickedUp ser l.acc h else s
  (s.settleReturn slot d ser took).releaseDrive slot true

/-- The completion of a PICK with the label read, `none` for EMPTY. -/
def State.picked (s : State) (slot : Nat) (l : Leg) (h : Fin 3) (label : Option Serial) : State :=
  match label, l.expected with
  | none, _ => s.pickEmpty slot l
  | some y, none =>
    match l.src with
    | .drive d => s.pickReturn slot l h d y
    | _ => s.pickExpected slot l h y
  | some y, some x =>
    if y = x then s.pickExpected slot l h y
    else
      match l.src with
      | .cell c => s.pickWrongCell slot l h c y
      | _ => s.pickWrongPlace slot l h y

/-- PICK_COMPLETION. -/
def execPickCompletion (acc : Acc) (label : Option Serial) (s : State) : Answer :=
  .next
    (match s.order? acc with
     | some { op := .pick slot, col := col, holder := some h, .. } =>
       match s.leg? slot with
       | some l =>
         ((((s.start.orderEnds acc col).stopDone acc { op := .pick, ref := .record slot }).picked slot l h label)).commit
       | none => s.start
     | _ => s.start)

/-! ## PLACE (R106) -/

/-- A reel stands at a station position; the flow is set by what follows (R136). -/
def State.stationHolds (s : State) (p : Fin 8) (ser : Serial) (owner : Option Nat) : State :=
  s.updPos p (fun _ => { StationPos.initial with state := .holding ser, owner := owner })

/-- An unowned reel at a station position is to be collected (R146). -/
def State.unownedCollect (s : State) (p : Fin 8) (ser : Serial) : State :=
  ((s.stationHolds p ser none).updPos p (fun x => { x with flow := some .collect })).askStation p

/-- A put-back reel has been placed: at its cell nothing more is handed on, at the station it is an unowned reel (R105). -/
def State.putBackPlaced (s : State) (ser : Serial) : Place → State
  | .station (some p) => (s.placedAt ser (.station (some p))).unownedCollect p ser
  | _ => s

/-- Whether a reel is one that the directory does not track: a RETURN record's whose entry its PICK could not take, because
another open record holds the serial (R56). -/
def State.untracked (s : State) (slot : Nat) (ser : Serial) (acc : Acc) (h : Fin 3) : Bool :=
  (s.rec? slot).map (·.kind) = some .ret && s.heldByOther slot ser
    && (s.entry? ser).map (·.loc) ≠ some (.inTransit acc h)

/-- The directory's part of a PLACE of a record's reel (R58, assumption log 32). -/
def State.recordPlaced (s : State) (slot : Nat) (ser : Serial) (acc : Acc) (h : Fin 3) (p : Place) : State :=
  if s.untracked slot ser acc h then s else s.placedAt ser p

/-- The supply that a station position awaits gives the position up to a reel placed there and goes on at another, or waits at the head
of the supply wait list: a record that had a position entered SUPPLY before every record still in the list, which R134 keeps in the order
of entering (R138, assumption log 31). -/
def State.supplyMoves (s : State) (slot : Nat) (p : Fin 8) : State :=
  let s := ((s.dropStation p).withdrawScan p).markScanLate p
  s.supplyOrWait slot (slot :: s.station.supplyWait)

/-- A reel comes to a place that its leg has been turned away from while the PLACE was in flight: the leg's own reservation ends,
and whoever has the position now must wait for another (R97, R109, R136, assumption log 31). -/
def State.placedAstray (s : State) (slot : Nat) (p : Place) : State :=
  let s := s.freeReservation (.record slot)
  match p with
  | .shelf (some q) =>
    match s.rail.shelf[q] with
    | .reserved ref => s.setDst ref (.shelf none)
    | _ => s
  | .station (some q) =>
    match s.station.pos[q].state with
    | .reserved ref => s.setDst ref (.station none)
    | .expecting n => s.supplyMoves n q
    | _ => s
  | _ => s

/-- The next leg of a crossing becomes the leg and READY, from the position just placed into (R106). -/
def State.promoteLeg (s : State) (slot : Nat) (src : Place) : State :=
  (s.updRec slot (fun r =>
    { r with leg := r.nextLeg.map (fun l => { l with src := src }), nextLeg := none })).legReady slot

/-- A reel has been placed on the shelf (R15, R19, R106). One with no next leg whose record is not RETURNING was turned to the
station while its PLACE was in flight, and goes on there by the accessor that placed it (R77, R83, assumption log 53). -/
def State.placedOnShelf (s : State) (r : Rec) (p : Fin 4) (acc : Acc) : State :=
  if r.state = .returning then s.shelfHome r.slot p acc
  else if r.nextLeg.isSome then s.promoteLeg r.slot (.shelf (some p))
  else s.makeLegs r.slot { legOf r acc (.shelf (some p)) (.station none) with diverted := true } none

/-- A STATION_FIRST reel that has come to the station on its way to its drive, not diverted (R15). -/
def Rec.ringFits (r : Rec) (diverted : Bool) : Bool :=
  r.state = .staged && r.kind = .mount && r.disposition = some .stationFirst && !diverted

/-- A reel has been placed at the station: RING for a STATION_FIRST mount, COLLECT for any other (R15, R19, R142, R143). -/
def State.placedAtStation (s : State) (r : Rec) (diverted : Bool) (p : Fin 8) : State :=
  if r.ringFits diverted then
    let s := (s.releaseDrive r.slot false).updRec r.slot (fun r => { r with state := .ring, nextLeg := none })
    (s.updPos p (fun x => { x with flow := some .ring })).askStation p
  else s.enterCollect r.slot p

/-- The completion of a PLACE of a record's leg (R106). -/
def State.legPlaced (s : State) (slot : Nat) (l : Leg) (h : Fin 3) (ser : Serial) (p : Place) : State :=
  let s := s.updRec slot (fun r => { r with leg := none, legs := satAdd 15 r.legs 1 })
  let s := s.updAcc l.acc (fun x => { x with trip := x.trip.map (Trip.without (.record slot)) })
  let s := s.recordPlaced slot ser l.acc h p
  let s := if l.dst = p then s else s.placedAstray slot p
  match s.rec? slot with
  | none => s
  | some r =>
    match p with
    | .drive d => s.drivePlaced slot d
    | .shelf (some q) => (s.setShelf q (.holding ser l.acc)).placedOnShelf r q l.acc
    | .station (some q) => (s.stationHolds q ser (some slot)).placedAtStation r l.diverted q
    | _ => s.enterPosting slot

/-- The completion of a PLACE of what a holder carries. -/
def State.placed (s : State) (acc : Acc) (ref : LegRef) (h : Fin 3) (p : Place) (ser : Serial) : State :=
  let s := s.setHolder acc h .empty
  match ref with
  | .putBack _ _ =>
    (s.updAcc acc (fun x => { x with trip := x.trip.map (Trip.without ref) })).putBackPlaced ser p
  | .record slot =>
    match s.leg? slot with
    | some l => s.legPlaced slot l h ser p
    | none => s

/-- PLACE_COMPLETION. -/
def execPlaceCompletion (acc : Acc) (s : State) : Answer :=
  .next
    (match s.order? acc with
     | some { op := .place ref, col := col, place := some p, holder := some h, .. } =>
       match (s.acc acc).holders[h] with
       | .reel ser =>
         (((s.start.orderEnds acc col).stopDone acc { op := .place, ref := ref }).placed acc ref h p ser).commit
       | _ => s.start
     | _ => s.start)

/-! ## CELL_OCCUPIED (R107) -/

/-- A record's leg refused at a cell goes back to the cell it came from, or to the station (R107). -/
def State.refusedAt (s : State) (slot : Nat) (l : Leg) (c : Cell) : State :=
  let s := s.updLeg slot (fun l => { l with refused := l.refused ++ [c] })
  match l.src with
  | .cell c0 =>
    if c0 ≠ c ∧ c0 ∉ l.refused then s.setDst (.record slot) (.cell c0)
    else (s.updLeg slot (fun l => { l with diverted := true })).sendToStation (.record slot)
  | _ => (s.updLeg slot (fun l => { l with diverted := true })).sendToStation (.record slot)

/-- CELL_OCCUPIED: the reel stays aboard, and the stop keeps its place with a new destination. -/
def execCellOccupied (acc : Acc) (s : State) : Answer :=
  .next
    (match s.order? acc with
     | some { op := .place ref, col := col, place := some (.cell c), .. } =>
       let s := s.start.orderEnds acc col
       match ref with
       | .putBack _ _ => (s.sendToStation ref).commit
       | .record slot =>
         match s.leg? slot with
         | some l => (s.refusedAt slot l c).commit
         | none => s.commit
     | _ => s.start)

/-! ## SCAN (R98, R140, R141, R145) -/

/-- A supply scan finds the record's serial (R140). -/
def State.supplied (s : State) (slot : Nat) (p : Fin 8) (ser : Serial) : State :=
  let s := s.updPos p (fun x => { StationPos.initial with
    state := .holding ser, owner := some slot, flow := some .pickup, prompt := x.prompt })
  let s := s.suppliedAt ser p
  match (s.rec? slot).map Rec.kind with
  | some .enter => s.stationHome slot p .stowing
  | _ => s.enterQueued slot

/-- A miss of a supply (R140): the first asks again, the second ends it. `ask` is clear for a late result, which leaves the
prompt already asked for as it stands (R141). -/
def State.supplyMiss (s : State) (slot : Nat) (p : Fin 8) (ask : Bool) : State :=
  if s.station.pos[p].misses = 0 then
    let s := s.updPos p (fun x => { x with misses := 1 })
    if ask then s.askStation p else s
  else ((s.setOutcome slot .notSupplied).endSupply slot).enterPosting slot

/-- The result of a supply scan of a position that still expects its record (R140). -/
def State.supplyScanned (s : State) (slot : Nat) (p : Fin 8) (r : ScanResult) : State :=
  let s := s.updPos p (fun x => { x with scan := .none })
  match r with
  | .label ser =>
    if (s.rec? slot).bind (·.serial) = some ser then s.supplied slot p ser else s.supplyMiss slot p true
  | _ => s.supplyMiss slot p true

/-- A reservation is taken back from a leg, whose stop must wait for a position again (R141). -/
def State.takeBack (s : State) (ref : LegRef) : State := s.setDst ref (.station none)

/-- A late supply result (R141); a label read at a position that is HOLDING by then has no effect (assumption log 62). -/
def State.lateScanned (s : State) (p : Fin 8) (r : ScanResult) : State :=
  match r with
  | .label ser =>
    match s.station.pos[p].state with
    | .empty => s.unownedCollect p ser
    | .reserved ref => (s.takeBack ref).unownedCollect p ser
    | .expecting slot => s.supplyMiss slot p false
    | .holding _ => s
  | _ => s

/-- The collect update is applied unless an open record other than the collecting one holds the serial (R145). -/
def State.collectUpdate (s : State) (owner : Option Nat) (ser : Serial) : State :=
  if (s.recs.any (fun r => r.serial = some ser && some r.slot ≠ owner)) then s else s.collected ser

/-- The result of a collect scan (R145, R146). -/
def State.collectScanned (s : State) (p : Fin 8) (r : ScanResult) : State :=
  let x := s.station.pos[p]
  let s := s.updPos p (fun x => { x with scan := .none })
  match x.state, r with
  | .holding ser, .empty =>
    let s := (s.collectUpdate x.owner ser).freeStation p
    match x.owner with
    | some slot => s.enterPosting slot
    | none => s
  | .holding _, _ => s.askStation p
  | _, _ => s

/-- The result of a station scan. -/
def State.stationScanned (s : State) (p : Fin 8) (kind : ScanKind) (late : Bool) (r : ScanResult) : State :=
  match kind with
  | .collect => s.collectScanned p r
  | .supply =>
    if late then s.lateScanned p r
    else
      match s.station.pos[p].state with
      | .expecting slot => s.supplyScanned slot p r
      | _ => s.lateScanned p r

/-- The result of a scan is handed to its owner. -/
def State.scanned (s : State) (acc : Acc) (t : ScanTarget) (r : ScanResult) : State :=
  match t with
  | .cell c => s.auditScanned acc c r
  | .station p kind late => s.stationScanned p kind late r

/-- SCAN_COMPLETION: the scan in flight is absent, the column is the scan's, and the run of the accessor is over. -/
def execScanCompletion (acc : Acc) (result : ScanResult) (s : State) : Answer :=
  .next
    (match s.order? acc, (s.acc acc).scan with
     | some { op := .scan, col := col, .. }, some t =>
       let s := (s.start.orderEnds acc col).updAcc acc (fun x => { x with scan := none, faults := 0 })
       (s.scanned acc t result).commit
     | _, _ => s.start)

/-! ## RECOVER, PARK and STATUS (R108, R114, R119) -/

/-- RECOVER_COMPLETION: after a first fault the failed order is sent again; otherwise the holders are recorded empty. -/
def execRecoverCompletion (acc : Acc) (column : Nat) (s : State) : Answer :=
  .next
    (match s.order? acc with
     | some { op := .recover, .. } =>
       let s := s.start.orderEnds acc column
       (if (s.acc acc).faults = 1 then s.updAcc acc AccRec.retry else s.recovered acc).commit
     | _ => s.start)

/-- An accessor whose PARK is done: IDLE, unless its trip goes on after a reservation wait (R103, R108). -/
def AccRec.parked (x : AccRec) : AccRec :=
  if x.trip.isSome then x else { x with state := .idle, faults := 0 }

/-- Whether an OFFLINE accessor has still to answer the online poll (R189). -/
def State.owesStatus (s : State) (acc : Acc) : Bool :=
  (s.acc acc).state = .offline && s.link.poll.contains (.accessor acc)

/-- PARK_COMPLETION: the zone lock is released. An accessor that has still to answer the online poll is sent its STATUS before it
may be IDLE (R189, assumption log 17). -/
def execParkCompletion (acc : Acc) (column : Nat) (s : State) : Answer :=
  .next
    (match s.order? acc with
     | some { op := .park, .. } =>
       (((s.start.orderEnds acc column).releaseZone acc).updAcc acc
         (if s.owesStatus acc then fun x => { x with todo := some .status } else AccRec.parked)).commit
     | _ => s.start)

/-- The holders as a STATUS answer reports them. -/
def holdersOf (occupied : Vector Bool 3) : Vector Holder 3 :=
  occupied.map (fun b => if b then Holder.unknown else .empty)

/-- A STATUS answer of an OFFLINE accessor (R119). -/
def State.statusAnswered (s : State) (acc : Acc) (occupied : Vector Bool 3) : State :=
  let s := s.updAcc acc (fun x => { x with holders := holdersOf occupied })
  if occupied.toList.any id then
    ((s.updAcc acc (fun x => { x with state := .stalled, faults := 2 })).askFault acc none).raise
      .accessorStalled (.accessor acc)
  else if inMiddle (s.acc acc).column then s.updAcc acc (fun x => { x with todo := some .park })
  else s.updAcc acc (fun x => { x with state := .idle, faults := 0 })

/-- ACCESSOR_STATUS_ANSWER. -/
def execAccessorStatusAnswer (acc : Acc) (column : Nat) (occupied : Vector Bool 3) (s : State) : Answer :=
  .next
    (match s.order? acc with
     | some { op := .status, .. } =>
       (((s.start.orderEnds acc column).statusAnswered acc occupied).settle (.accessor acc)).commit
     | _ => s.start)

/-- ACCESSOR_STATUS_TIMEOUT: the accessor stays OFFLINE, settled for the poll (R119, R189). -/
def execAccessorStatusTimeout (acc : Acc) (s : State) : Answer :=
  .next
    (match s.order? acc with
     | some { op := .status, timer := 0, .. } =>
       ((s.start.updAcc acc (fun x => { x with order := none })).settle (.accessor acc)).commit
     | _ => s.start)

/-- An accessor that goes STALLED is settled for the online poll (R189, assumption log 17). -/
def State.settleStalled (s : State) (acc : Acc) : State :=
  if s.link.poll.contains (.accessor acc) then s.settle (.accessor acc) else s

/-- MOTION_LIMIT_EXPIRY: taken for an order whose timer has run out; a STATUS is not a fault of a run (R119). -/
def execMotionLimitExpiry (acc : Acc) (s : State) : Answer :=
  .next
    (match s.order? acc with
     | some o => if o.timer = 0 ∧ o.op ≠ .status then ((s.start.motionExpiry acc o).settleStalled acc).commit else s.start
     | none => s.start)

end Machine

end Sys2Proof
end

