-- ==== Sys2Proof/Machine/Dispatch.lean ====
section
/-! DEFINITION. The meaning of every command: one arm per constructor, each a direct call of its own meaning. -/

namespace Sys2Proof

namespace Machine

def exec (i : Instr) (s : State) : Host.Outcome State Fault Refusal :=
  match i with
  | .powerOn => Sys2Proof.Machine.execPowerOn s
  | .linkReset => Sys2Proof.Machine.execLinkReset s
  | .frameDiscarded cause => Sys2Proof.Machine.execFrameDiscarded cause s
  | .requestMalformed corr subKind => Sys2Proof.Machine.execRequestMalformed corr subKind s
  | .unknownOperation header => Sys2Proof.Machine.execUnknownOperation header s
  | .mount body => Sys2Proof.Machine.execMount body s
  | .eject body => Sys2Proof.Machine.execEject body s
  | .enter body => Sys2Proof.Machine.execEnter body s
  | .dismount body => Sys2Proof.Machine.execDismount body s
  | .cancel body => Sys2Proof.Machine.execCancel body s
  | .queryByCorrelator body => Sys2Proof.Machine.execQueryByCorrelator body s
  | .queryBySerial body => Sys2Proof.Machine.execQueryBySerial body s
  | .libraryOnline tag => Sys2Proof.Machine.execLibraryOnline tag s
  | .libraryOffline tag => Sys2Proof.Machine.execLibraryOffline tag s
  | .noticeEnable tag enables => Sys2Proof.Machine.execNoticeEnable tag enables s
  | .noticeSummaryClear tag => Sys2Proof.Machine.execNoticeSummaryClear tag s
  | .identify tag => Sys2Proof.Machine.execIdentify tag s
  | .ruleWrite tag slot entry => Sys2Proof.Machine.execRuleWrite tag slot entry s
  | .ruleRead tag slot => Sys2Proof.Machine.execRuleRead tag slot s
  | .ruleClear tag slot => Sys2Proof.Machine.execRuleClear tag slot s
  | .rangeSet tag checker source low high => Sys2Proof.Machine.execRangeSet tag checker source low high s
  | .selectorSet tag mount eject enter => Sys2Proof.Machine.execSelectorSet tag mount eject enter s
  | .defaultsSet tag action => Sys2Proof.Machine.execDefaultsSet tag action s
  | .dirPut tag args => Sys2Proof.Machine.execDirPut tag args s
  | .dirDelete tag serial => Sys2Proof.Machine.execDirDelete tag serial s
  | .dirGet tag query => Sys2Proof.Machine.execDirGet tag query s
  | .cleanListSet tag list => Sys2Proof.Machine.execCleanListSet tag list s
  | .driveSet tag drive cls pools => Sys2Proof.Machine.execDriveSet tag drive cls pools s
  | .driveOffline tag drive => Sys2Proof.Machine.execDriveOffline tag drive s
  | .driveOnline tag drive => Sys2Proof.Machine.execDriveOnline tag drive s
  | .driveGet tag drive => Sys2Proof.Machine.execDriveGet tag drive s
  | .accessorSet tag accessor args => Sys2Proof.Machine.execAccessorSet tag accessor args s
  | .accessorOffline tag accessor => Sys2Proof.Machine.execAccessorOffline tag accessor s
  | .accessorOnline tag accessor => Sys2Proof.Machine.execAccessorOnline tag accessor s
  | .accessorRecover tag accessor => Sys2Proof.Machine.execAccessorRecover tag accessor s
  | .accessorGet tag accessor => Sys2Proof.Machine.execAccessorGet tag accessor s
  | .auditStart tag accessor first last yieldClass => Sys2Proof.Machine.execAuditStart tag accessor first last yieldClass s
  | .auditAbort tag accessor => Sys2Proof.Machine.execAuditAbort tag accessor s
  | .auditGet tag accessor => Sys2Proof.Machine.execAuditGet tag accessor s
  | .templateSet tag template args => Sys2Proof.Machine.execTemplateSet tag template args s
  | .inputSet tag input polarity code => Sys2Proof.Machine.execInputSet tag input polarity code s
  | .promptList tag => Sys2Proof.Machine.execPromptList tag s
  | .accountSet tag account warn limit => Sys2Proof.Machine.execAccountSet tag account warn limit s
  | .accountRead tag account => Sys2Proof.Machine.execAccountRead tag account s
  | .accountReadClear tag account => Sys2Proof.Machine.execAccountReadClear tag account s
  | .rateSet tag rates => Sys2Proof.Machine.execRateSet tag rates s
  | .classification => Sys2Proof.Machine.execClassification s
  | .tenthTick => Sys2Proof.Machine.execTenthTick s
  | .secondTick => Sys2Proof.Machine.execSecondTick s
  | .gatherWindowExpiry acc => Sys2Proof.Machine.execGatherWindowExpiry acc s
  | .motionLimitExpiry acc => Sys2Proof.Machine.execMotionLimitExpiry acc s
  | .driveStatusTimeout drive => Sys2Proof.Machine.execDriveStatusTimeout drive s
  | .accessorStatusTimeout acc => Sys2Proof.Machine.execAccessorStatusTimeout acc s
  | .replyTimerExpiry prompt => Sys2Proof.Machine.execReplyTimerExpiry prompt s
  | .panelInputChange input high => Sys2Proof.Machine.execPanelInputChange input high s
  | .debouncePeriodEnd input => Sys2Proof.Machine.execDebouncePeriodEnd input s
  | .pickCompletion acc label => Sys2Proof.Machine.execPickCompletion acc label s
  | .placeCompletion acc => Sys2Proof.Machine.execPlaceCompletion acc s
  | .cellOccupied acc => Sys2Proof.Machine.execCellOccupied acc s
  | .scanCompletion acc result => Sys2Proof.Machine.execScanCompletion acc result s
  | .recoverCompletion acc column => Sys2Proof.Machine.execRecoverCompletion acc column s
  | .parkCompletion acc column => Sys2Proof.Machine.execParkCompletion acc column s
  | .accessorStatusAnswer acc column occupied => Sys2Proof.Machine.execAccessorStatusAnswer acc column occupied s
  | .driveStatusAnswer drive reelPresent => Sys2Proof.Machine.execDriveStatusAnswer drive reelPresent s
  | .loaded drive ring => Sys2Proof.Machine.execLoaded drive ring s
  | .unloaded drive => Sys2Proof.Machine.execUnloaded drive s
  | .fault drive => Sys2Proof.Machine.execFault drive s
  | .answerLine line => Sys2Proof.Machine.execAnswerLine line s
  | .frameSent => Sys2Proof.Machine.execFrameSent s
  | .replyBacklogServed => Sys2Proof.Machine.execReplyBacklogServed s
  | .postingServed => Sys2Proof.Machine.execPostingServed s
  | .mountedEndingServed => Sys2Proof.Machine.execMountedEndingServed s
  | .owedPromptRaise => Sys2Proof.Machine.execOwedPromptRaise s
  | .cleaningAttempt drive => Sys2Proof.Machine.execCleaningAttempt drive s
  | .returnRecordOpen drive => Sys2Proof.Machine.execReturnRecordOpen drive s
  | .libraryDrained => Sys2Proof.Machine.execLibraryDrained s
  | .driveReservation search => Sys2Proof.Machine.execDriveReservation search s
  | .tripOpen acc => Sys2Proof.Machine.execTripOpen acc s
  | .legJoinsTrip acc => Sys2Proof.Machine.execLegJoinsTrip acc s
  | .tripStart acc => Sys2Proof.Machine.execTripStart acc s
  | .orderSend acc => Sys2Proof.Machine.execOrderSend acc s
  | .zoneLockGrant => Sys2Proof.Machine.execZoneLockGrant s
  | .shelfPositionClaim => Sys2Proof.Machine.execShelfPositionClaim s
  | .stationPositionClaim => Sys2Proof.Machine.execStationPositionClaim s
  | .stationScanTaken acc => Sys2Proof.Machine.execStationScanTaken acc s
  | .auditScanSend acc => Sys2Proof.Machine.execAuditScanSend acc s
  | .auditResume acc => Sys2Proof.Machine.execAuditResume acc s
  | .consoleLineSent => Sys2Proof.Machine.execConsoleLineSent s

end Machine

end Sys2Proof
end

