-- ==== Sys2Proof/WellFormed.lean ====
section
/-! DEFINITION. The commands that the part can be sent: every number fits the field that carries it (section 10.7 and the ranges
of the operations), and a rule entry has the shape of its key kind. The check refuses a command that no frame, line or report
could bring. -/

namespace Sys2Proof

namespace WellFormed

/-- A number of one byte. -/
def byteOk (n : Nat) : Bool := decide (n < 256)

/-- A number of two bytes. -/
def pairOk (n : Nat) : Bool := decide (n < 65536)

/-- A number of four bytes. -/
def quadOk (n : Nat) : Bool := decide (n < 4294967296)

/-- A cell address as written: one byte each for column and row. -/
def cellOk (c : Cell) : Bool := byteOk c.col && byteOk c.row

/-- A column of the rail (section 4). -/
def columnOk (n : Nat) : Bool := decide (n < 200)

def pass1Ok (a : Pass1) : Bool :=
  byteOk a.acctSrc && byteOk a.n && byteOk a.groupSrc && pairOk a.k && byteOk a.urgMode && byteOk a.v && byteOk a.next

def pass2Ok (a : Pass2) : Bool := byteOk a.disp && byteOk a.pool && byteOk a.prio && byteOk a.template

def actionOk : Action → Bool
  | .pass1 a => pass1Ok a
  | .pass2 a => pass2Ok a

/-- A rule entry of the body length of its key kind (R182). -/
def ruleOk : RuleOperand → Bool
  | .unknownKind code => decide (4 < code.toNat)
  | .entry e => Machine.ruleShapeOk e && actionOk e.action

def defaultsOk : DefaultsOperand → Bool
  | .neither => true
  | .pass1 a => pass1Ok a
  | .pass2 a => pass2Ok a

/-- The fields of a MOUNT, EJECT or ENTER body. -/
def reqOk : Body ReqFields → Bool
  | .wrongLength _ => true
  | .fields f =>
    byteOk f.urgency && (f.pool.map byteOk).getD true && (f.drive.map byteOk).getD true && (f.hint.map byteOk).getD true

def dismountOk : Body DismountFields → Bool
  | .wrongLength _ => true
  | .fields f => byteOk f.drive

def dirPutOk (x : DirPutArgs) : Bool :=
  cellOk x.home && byteOk x.loc && byteOk x.ring && byteOk x.account && byteOk x.group

def dirQueryOk : DirQuery → Bool
  | .bySerial _ => true
  | .byCell c => cellOk c

def accessorOk (x : AccessorArgs) : Bool :=
  byteOk x.gather && byteOk x.pick && byteOk x.place && byteOk x.scan && byteOk x.recover

def templateOk (x : TemplateArgs) : Bool :=
  byteOk x.kind && byteOk x.urgency && pairOk x.reply && byteOk x.steps && byteOk x.action

def searchOk : Search → Bool
  | .forRecord slot => decide (slot < 64)
  | .forDrive _ => true

/-- A serial as an accessor reads it: six characters from A–Z and 0–9. -/
def labelOk (s : Option Serial) : Bool := (s.map Machine.serialOk).getD true

def scanOk : ScanResult → Bool
  | .label s => Machine.serialOk s
  | .empty => true
  | .unreadable => true

end WellFormed

open WellFormed in
/-- Whether a command is one the part can be sent. -/
def Instr.wellFormed : Instr → Bool
  | .powerOn => true
  | .linkReset => true
  | .frameDiscarded _ => true
  | .requestMalformed _ _ => true
  | .unknownOperation _ => true
  | .mount body => reqOk body
  | .eject body => reqOk body
  | .enter body => reqOk body
  | .dismount body => dismountOk body
  | .cancel _ => true
  | .queryByCorrelator _ => true
  | .queryBySerial _ => true
  | .libraryOnline _ => true
  | .libraryOffline _ => true
  | .noticeEnable _ _ => true
  | .noticeSummaryClear _ => true
  | .identify _ => true
  | .ruleWrite _ slot e => pairOk slot && ruleOk e
  | .ruleRead _ slot => pairOk slot
  | .ruleClear _ slot => pairOk slot
  | .rangeSet _ c src low high => byteOk c && byteOk src && pairOk low && pairOk high
  | .selectorSet _ m j n => byteOk m && byteOk j && byteOk n
  | .defaultsSet _ a => defaultsOk a
  | .dirPut _ x => dirPutOk x
  | .dirDelete _ _ => true
  | .dirGet _ q => dirQueryOk q
  | .cleanListSet _ l => l.toList.all (fun x => (x.map (fun y => byteOk y.2)).getD true)
  | .driveSet _ d c _ => byteOk d && byteOk c
  | .driveOffline _ d => byteOk d
  | .driveOnline _ d => byteOk d
  | .driveGet _ d => byteOk d
  | .accessorSet _ n x => byteOk n && accessorOk x
  | .accessorOffline _ n => byteOk n
  | .accessorOnline _ n => byteOk n
  | .accessorRecover _ n => byteOk n
  | .accessorGet _ n => byteOk n
  | .auditStart _ n first last y => byteOk n && cellOk first && cellOk last && byteOk y
  | .auditAbort _ n => byteOk n
  | .auditGet _ n => byteOk n
  | .templateSet _ n x => byteOk n && templateOk x
  | .inputSet _ i p c => byteOk i && byteOk p && byteOk c
  | .promptList _ => true
  | .accountSet _ n w l => byteOk n && quadOk w && quadOk l
  | .accountRead _ n => byteOk n
  | .accountReadClear _ n => byteOk n
  | .rateSet _ _ => true
  | .classification => true
  | .tenthTick => true
  | .secondTick => true
  | .gatherWindowExpiry _ => true
  | .motionLimitExpiry _ => true
  | .driveStatusTimeout _ => true
  | .accessorStatusTimeout _ => true
  | .replyTimerExpiry n => byteOk n
  | .panelInputChange _ _ => true
  | .debouncePeriodEnd _ => true
  | .pickCompletion _ label => labelOk label
  | .placeCompletion _ => true
  | .cellOccupied _ => true
  | .scanCompletion _ r => scanOk r
  | .recoverCompletion _ c => columnOk c
  | .parkCompletion _ c => columnOk c
  | .accessorStatusAnswer _ c _ => columnOk c
  | .driveStatusAnswer _ _ => true
  | .loaded _ _ => true
  | .unloaded _ => true
  | .fault _ => true
  | .answerLine line => line.all (fun b => b ≠ 0x0D)
  | .frameSent => true
  | .replyBacklogServed => true
  | .postingServed => true
  | .mountedEndingServed => true
  | .owedPromptRaise => true
  | .cleaningAttempt _ => true
  | .returnRecordOpen _ => true
  | .libraryDrained => true
  | .driveReservation q => searchOk q
  | .tripOpen _ => true
  | .legJoinsTrip _ => true
  | .tripStart _ => true
  | .orderSend _ => true
  | .zoneLockGrant => true
  | .shelfPositionClaim => true
  | .stationPositionClaim => true
  | .stationScanTaken _ => true
  | .auditScanSend _ => true
  | .auditResume _ => true
  | .consoleLineSent => true

end Sys2Proof
end

