-- ==== Sys2Proof/Machine/Wire.lean ====
section
/-! DEFINITION. The channel link and the console line byte by byte (R181, R154, section 10.7): the check, the receiver that turns
bytes into commands waiting in the queue, the bodies of the frames that leave, and the text of console lines. `State.receiveByte`
is what the world outside does to the part; no command calls it. -/

namespace Sys2Proof

namespace Machine

/-! ## The check (R181) -/

/-- One bit of the check register, generator 1021h, most significant first. -/
def crcBit (reg : BitVec 16) : BitVec 16 := if reg.msb then (reg <<< 1) ^^^ 0x1021 else reg <<< 1

def crcByte (reg : BitVec 16) (b : Byte) : BitVec 16 := Nat.iterate crcBit 8 (reg ^^^ ((b.setWidth 16) <<< 8))

/-- The check of a run of bytes: preset to FFFFh, no final inversion. -/
def crc (l : List Byte) : BitVec 16 := l.foldl crcByte 0xFFFF

/-! ## Numbers, most significant byte first -/

def bytesOfNat (n : Nat) : Nat → List Byte
  | 0 => []
  | k + 1 => BitVec.ofNat 8 (n / 256 ^ k) :: bytesOfNat n k

def natOfBytes (l : List Byte) : Nat := l.foldl (fun n b => 256 * n + b.toNat) 0

def wordOfBytes (l : List Byte) : BitVec 32 := BitVec.ofNat 32 (natOfBytes l)

def pairOfBytes (l : List Byte) : BitVec 16 := BitVec.ofNat 16 (natOfBytes l)

/-- The byte at an offset; a body that is long enough has it. -/
def byteAt (l : List Byte) (n : Nat) : Byte := l.getD n 0

def natAt (l : List Byte) (n : Nat) : Nat := (byteAt l n).toNat

def bytesAt (l : List Byte) (n k : Nat) : List Byte := (l.drop n).take k

def serialAt (l : List Byte) (n : Nat) : Serial :=
  { c1 := byteAt l n, c2 := byteAt l (n + 1), c3 := byteAt l (n + 2), c4 := byteAt l (n + 3), c5 := byteAt l (n + 4),
    c6 := byteAt l (n + 5) }

def pairAt (l : List Byte) (n : Nat) : BitVec 16 := pairOfBytes (bytesAt l n 2)

/-! ## REQUEST bodies (section 10.7, R182) -/

/-- The correlator at bytes 1..2, when the body is long enough to hold one. -/
def corrOf (body : List Byte) : Option Corr := if body.length < 3 then none else some (pairAt body 1)

/-- A body of 16 bytes of MOUNT, EJECT or ENTER. -/
def reqBody (body : List Byte) : Body ReqFields :=
  if body.length ≠ 16 then .wrongLength (corrOf body)
  else
    let marks := byteAt body 12
    .fields
      { corr := pairAt body 1, serial := serialAt body 3,
        path := Fin.ofNat 8 (natAt body 9), system := Fin.ofNat 16 (natAt body 9 / 16),
        jobClass := Fin.ofNat 16 (natAt body 10), urgency := natAt body 11, writeIntent := marks.getLsbD 0,
        pool := if marks.getLsbD 1 then some (natAt body 13) else none,
        drive := if marks.getLsbD 2 then some (natAt body 14) else none,
        hint := if marks.getLsbD 3 then some (natAt body 15) else none }

def dismountBody (body : List Byte) : Body DismountFields :=
  if body.length ≠ 4 then .wrongLength (corrOf body) else .fields { corr := pairAt body 1, drive := natAt body 3 }

def cancelBody (body : List Byte) : Body Corr :=
  if body.length ≠ 3 then .wrongLength (corrOf body) else .fields (pairAt body 1)

/-- A QUERY by its form byte; a form that is neither 00h nor 01h is MALFORMED (assumption log 33). -/
def queryCommand (body : List Byte) : Instr :=
  if body.length ≠ 8 then .queryByCorrelator (.wrongLength (corrOf body))
  else if natAt body 1 = 0 then .queryByCorrelator (.fields (pairAt body 2))
  else if natAt body 1 = 1 then .queryBySerial (.fields (serialAt body 2))
  else .queryByCorrelator (.wrongLength none)

/-- The command of a REQUEST body. -/
def requestCommand (body : List Byte) : Instr :=
  match body with
  | [] => .requestMalformed none 0
  | sub :: _ =>
    match sub.toNat with
    | 1 => .mount (reqBody body)
    | 2 => .eject (reqBody body)
    | 3 => .enter (reqBody body)
    | 4 => .dismount (dismountBody body)
    | 5 => .cancel (cancelBody body)
    | 6 => queryCommand body
    | _ => .requestMalformed (corrOf body) sub

/-! ## MANAGEMENT bodies (section 10.7, R182) -/

/-- The operation code and tag that a management command answers with. -/
def headerOf : Instr → Option (Byte × Tag)
  | .libraryOnline t => some (0x01, t)
  | .libraryOffline t => some (0x02, t)
  | .noticeEnable t _ => some (0x03, t)
  | .noticeSummaryClear t => some (0x04, t)
  | .identify t => some (0x05, t)
  | .ruleWrite t _ _ => some (0x10, t)
  | .ruleRead t _ => some (0x11, t)
  | .ruleClear t _ => some (0x12, t)
  | .rangeSet t _ _ _ _ => some (0x13, t)
  | .selectorSet t _ _ _ => some (0x14, t)
  | .defaultsSet t _ => some (0x15, t)
  | .dirPut t _ => some (0x20, t)
  | .dirDelete t _ => some (0x21, t)
  | .dirGet t _ => some (0x22, t)
  | .cleanListSet t _ => some (0x23, t)
  | .driveSet t _ _ _ => some (0x30, t)
  | .driveOffline t _ => some (0x31, t)
  | .driveOnline t _ => some (0x32, t)
  | .driveGet t _ => some (0x33, t)
  | .accessorSet t _ _ => some (0x40, t)
  | .accessorOffline t _ => some (0x41, t)
  | .accessorOnline t _ => some (0x42, t)
  | .accessorRecover t _ => some (0x43, t)
  | .accessorGet t _ => some (0x44, t)
  | .auditStart t _ _ _ _ => some (0x50, t)
  | .auditAbort t _ => some (0x51, t)
  | .auditGet t _ => some (0x52, t)
  | .templateSet t _ _ => some (0x60, t)
  | .inputSet t _ _ _ => some (0x61, t)
  | .promptList t => some (0x62, t)
  | .accountSet t _ _ _ => some (0x70, t)
  | .accountRead t _ => some (0x71, t)
  | .accountReadClear t _ => some (0x72, t)
  | .rateSet t _ => some (0x73, t)
  | _ => none

/-- The key fields of a rule entry, eight bytes each from an offset. -/
def fieldsAt (body : List Byte) (offset : Nat) : Nat → List FieldPat
  | 0 => []
  | k + 1 =>
    { value := wordOfBytes (bytesAt body offset 4), care := wordOfBytes (bytesAt body (offset + 4) 4) }
      :: fieldsAt body (offset + 8) k

/-- The serial field of seven bytes. -/
def serialPatAt (body : List Byte) (offset : Nat) : SerialPat :=
  { chars := serialAt body offset, care := byteAt body (offset + 6) }

/-- A pass-1 action of eight bytes. -/
def pass1At (body : List Byte) (o : Nat) : Pass1 :=
  { acctSrc := natAt body o, n := natAt body (o + 1), groupSrc := natAt body (o + 2), k := natOfBytes (bytesAt body (o + 3) 2),
    urgMode := natAt body (o + 5), v := natAt body (o + 6), next := natAt body (o + 7) }

/-- A pass-2 action of six bytes; a mark that is neither 00h nor 01h is not an action. -/
def pass2At (body : List Byte) (o : Nat) : Option Pass2 :=
  if natAt body (o + 2) ≤ 1 ∧ natAt body (o + 5) ≤ 1 then
    some { disp := natAt body o, pool := natAt body (o + 1), useReq := natAt body (o + 2) = 1, prio := natAt body (o + 3),
           template := natAt body (o + 4), exempt := natAt body (o + 5) = 1 }
  else none

/-- The length of a RULE_WRITE body of a key kind. -/
def ruleBodyLength : KeyKind → Nat
  | .basic => 70
  | .volume => 125
  | .full => 165
  | .route => 60
  | .routeWide => 100

/-- The entry of a RULE_WRITE body of the right length; the serial field stands after the BASIC fields (R39). -/
def entryAt (kind : KeyKind) (body : List Byte) : Option RuleEntry :=
  let n := (kindWidths kind).length
  let o := ruleBodyLength kind
  let fields := if kindHasSerial kind then fieldsAt body 6 7 ++ fieldsAt body 69 (n - 7) else fieldsAt body 6 n
  let serial := if kindHasSerial kind then some (serialPatAt body 62) else none
  if kindPass kind = 1 then
    some { kind := kind, fields := fields, serial := serial, action := .pass1 (pass1At body (o - 8)) }
  else (pass2At body (o - 6)).map (fun a => { kind := kind, fields := fields, serial := serial, action := .pass2 a })

/-- The command of a RULE_WRITE body; one whose length is not that of its key kind is refused unread (R182). -/
def ruleWriteCommand (tag : Tag) (body : List Byte) : Instr :=
  if body.length < 6 then .unknownOperation (some (0x10, tag))
  else
    match keyKindOfCode (natAt body 5) with
    | none => .ruleWrite tag (natOfBytes (bytesAt body 3 2)) (.unknownKind (byteAt body 5))
    | some kind =>
      if body.length ≠ ruleBodyLength kind then .unknownOperation (some (0x10, tag))
      else
        match entryAt kind body with
        | some e => .ruleWrite tag (natOfBytes (bytesAt body 3 2)) (.entry e)
        | none => .unknownOperation (some (0x10, tag))

/-- The five operations that no rule gives an operand: their body is the operation code and the tag. -/
def bareCommand (op : Byte) (tag : Tag) : Option Instr :=
  match op.toNat with
  | 0x01 => some (.libraryOnline tag)
  | 0x02 => some (.libraryOffline tag)
  | 0x04 => some (.noticeSummaryClear tag)
  | 0x05 => some (.identify tag)
  | 0x62 => some (.promptList tag)
  | _ => none

/-- The command of a MANAGEMENT body. The operands of every other operation but RULE_WRITE have no layout in the manual, and are
read by a free value that answers a command of the same operation and tag, or none (assumption log 21). -/
def managementCommand (body : List Byte) : Instr :=
  if body.length < 3 then .unknownOperation none
  else
    let op := byteAt body 0
    let tag := pairAt body 1
    if op = 0x10 then ruleWriteCommand tag body
    else
      match bareCommand op tag with
      | some c => if body.length = 3 then c else .unknownOperation (some (op, tag))
      | none =>
        match Config.managementCommand op tag (body.drop 3) with
        | some c => if headerOf c = some (op, tag) ∧ c.wellFormed = true then c else .unknownOperation (some (op, tag))
        | none => .unknownOperation (some (op, tag))

/-! ## The receiver (R181) -/

def startMark : Byte := 0xC5

/-- The command of a frame whose check passed. -/
def frameCommand (cls : Byte) (body : List Byte) (ready : Bool) : Instr :=
  if ready = false then .frameDiscarded .receiveWithheld
  else if cls = 0x01 then requestCommand body
  else if cls = 0x02 then managementCommand body
  else .frameDiscarded .frameClass

/-- What the bytes from a start mark on amount to. -/
inductive Reception where
  | more
  | bad (cause : DiscardCause)
  | frame (c : Instr)
deriving DecidableEq, Repr

def reception (l : List RxByte) : Reception :=
  let bytes := l.map (·.byte)
  if bytes.length < 3 then .more
  else if 250 < natAt bytes 2 then .bad .framing
  else if bytes.length < natAt bytes 2 + 5 then .more
  else if crc (bytesAt bytes 1 (natAt bytes 2 + 2)) = pairAt bytes (natAt bytes 2 + 3) then
    .frame (frameCommand (byteAt bytes 1) (bytesAt bytes 3 (natAt bytes 2)) ((l.head?.map (·.ready)).getD true))
  else .bad .check

/-- The bytes from the first start mark on. -/
def hunt (l : List RxByte) : List RxByte := l.dropWhile (fun x => x.byte ≠ startMark)

/-- Read bytes until more are needed: the commands they bring, and the bytes kept. After a discarded frame hunting resumes at the
byte after its start mark (R181). -/
def receive : Nat → List RxByte → List Instr × List RxByte
  | 0, l => ([], l)
  | n + 1, l =>
    match hunt l with
    | [] => ([], [])
    | x :: rest =>
      match reception (x :: rest) with
      | .more => ([], x :: rest)
      | .bad cause =>
        let out := receive n rest
        (.frameDiscarded cause :: out.1, out.2)
      | .frame c =>
        let out := receive n (rest.drop (natAt ((x :: rest).map (·.byte)) 2 + 4))
        (c :: out.1, out.2)

/-- A byte arrives on the channel link: the commands it completes join the queue. -/
def State.receiveByte (s : State) (b : Byte) : State :=
  let l := s.link.rx ++ [{ byte := b, ready := s.link.receiveReady }]
  let out := receive l.length l
  { s with link := { s.link with rx := out.2 }, pending := s.pending ++ out.1 }

/-! ## Frames that leave (section 10.7) -/

/-- A value that a body gives as FFh when it is absent. -/
def orFF (x : Option Nat) : Byte := (x.map (BitVec.ofNat 8)).getD 0xFF

/-- A byte of marks, bit 0 first. -/
def marksByte (l : List Bool) : Byte := BitVec.ofNat 8 ((l.zipIdx.map (fun x => if x.1 then 2 ^ x.2 else 0)).sum)

def finalCode : FinalOutcome → Byte
  | .dismounted => 0x20
  | .ejected => 0x21
  | .entered => 0x22
  | .cleaned => 0x23
  | .returned => 0x24
  | .cancelled => 0x25
  | .driveFault => 0x26
  | .operatorDeclined => 0x27
  | .operatorTimeout => 0x28
  | .notSupplied => 0x29
  | .wrongVolume => 0x2A
  | .motionFault => 0x2B
  | .unknownVolume => 0x16
  | .volumeMissing => 0x17
  | .volumeOutside => 0x18

def endingCode : EndingCode → Byte
  | .accepted => 0x01
  | .mounted => 0x02
  | .taken => 0x03
  | .notCancellable => 0x04
  | .noSuchRequest => 0x05
  | .notReady => 0x10
  | .malformed => 0x11
  | .duplicateCorrelator => 0x12
  | .tableFull => 0x13
  | .volumeBusy => 0x14
  | .refusedByRule => 0x15
  | .unknownVolume => 0x16
  | .volumeMissing => 0x17
  | .volumeOutside => 0x18
  | .directoryFull => 0x19
  | .final o => finalCode o
  | .queryRecord => 0x30
  | .queryVolume => 0x31

def dispositionCode : Disposition → Nat
  | .robot => 0
  | .manual => 1
  | .stationFirst => 2
  | .hold => 3
  | .refuse => 4

def driveClassCode : Option DriveClass → Byte
  | none => 0
  | some .k1 => 1
  | some .k2 => 2
  | some .k3 => 3

/-- The request states from ADMITTED 00h to POSTING 0Dh. -/
def recStateCode : RecState → Nat
  | .admitted => 0
  | .held => 1
  | .supply => 2
  | .queued => 3
  | .staged => 4
  | .ring => 5
  | .loading => 6
  | .mounted => 7
  | .unloading => 8
  | .stowing => 9
  | .returning => 10
  | .faultwait => 11
  | .collect => 12
  | .posting => 13

def legStateCode : LegState → Nat
  | .ready => 0
  | .assigned => 1
  | .aboard => 2

def accCode : Acc → Nat
  | .a => 0
  | .b => 1

/-- The two place bytes of a location. -/
def placeBytes : Location → List Byte
  | .inTransit acc h => [BitVec.ofNat 8 (accCode acc), BitVec.ofNat 8 h.val]
  | .onShelf p => [BitVec.ofNat 8 p.val, 0xFF]
  | .atStation p => [BitVec.ofNat 8 p.val, 0xFF]
  | .inDrive d => [BitVec.ofNat 8 d.val, 0xFF]
  | .misplaced c => [BitVec.ofNat 8 c.col, BitVec.ofNat 8 c.row]
  | _ => [0xFF, 0xFF]

def ffBytes (n : Nat) : List Byte := List.replicate n 0xFF

/-- The tail of a QUERY answer. -/
def tailBytes : QueryTail → List Byte
  | .none => []
  | .record st prio urgency leg acc q =>
    [BitVec.ofNat 8 (recStateCode st), BitVec.ofNat 8 prio, BitVec.ofNat 8 urgency, orFF (leg.map legStateCode),
     orFF (acc.map accCode), orFF q] ++ ffBytes 4
  | .volume loc verif ring holder =>
    [BitVec.ofNat 8 (locationCode loc)] ++ placeBytes loc
      ++ [BitVec.ofNat 8 (verifCode verif), BitVec.ofNat 8 (ringCode ring), orFF (holder.map recStateCode)] ++ ffBytes 4

/-- The six bytes of a serial, zeros when there is none. -/
def serialField (x : Option Serial) : List Byte := (x.map serialBytes).getD (List.replicate 6 0)

/-- An ENDING body: 19 bytes, or 29 for a QUERY answer. -/
def endingBytes (e : Ending) : List Byte :=
  [marksByte [e.isFinal, e.corr.isSome, e.internal, e.ringAbsent, e.serial.isSome]]
    ++ bytesOfNat ((e.corr.map BitVec.toNat).getD 0) 2
    ++ [e.kind, endingCode e.code, orFF e.slot, orFF (e.disposition.map dispositionCode), orFF (e.pool.map Fin.val),
        orFF e.drive, driveClassCode e.driveClass]
    ++ bytesOfNat e.h 3 ++ serialField e.serial ++ tailBytes e.tail

/-- A USAGE body of 35 bytes. -/
def usageBytes (u : Usage) : List Byte :=
  [BitVec.ofNat 8 u.slot,
   marksByte [u.origin = .internal, u.corr.isSome, u.serial.isSome, u.driveClass.isSome, u.loaded, u.w, u.clamped]]
    ++ bytesOfNat ((u.corr.map BitVec.toNat).getD 0) 2 ++ [kindByte u.kind] ++ serialField u.serial
    ++ [BitVec.ofNat 8 u.account.val, finalCode u.outcome, driveClassCode u.driveClass, BitVec.ofNat 8 u.pool.val,
        BitVec.ofNat 8 u.prio.val, BitVec.ofNat 8 (budgetCode u.budgetAfter)]
    ++ bytesOfNat u.h 3 ++ bytesOfNat u.m 2 ++ [BitVec.ofNat 8 u.l, BitVec.ofNat 8 u.p] ++ bytesOfNat u.base 4
    ++ bytesOfNat u.charge 3 ++ bytesOfNat u.accAfter 4

def replyCodeByte : ReplyCode → Byte
  | .done => 0
  | .busy => 1
  | .badArgument => 2
  | .cellTaken => 3
  | .directoryFull => 4

/-- The bytes of the results of a REPLY: none when its rule names none, else a free value (assumption log 21). -/
def resultBytes (r : Reply) : List Byte :=
  match r.result with
  | .nothing => []
  | _ => Config.replyResultBytes r

/-- A REPLY body: operation code, tag and reply code, then its results (R182). -/
def replyBytes (r : Reply) : List Byte :=
  r.op :: bytesOfNat r.tag.toNat 2 ++ [replyCodeByte r.code] ++ resultBytes r

def frameClass : Frame → Byte
  | .ending _ => 0x81
  | .usage _ => 0x82
  | .notice _ => 0x83
  | .reply _ => 0x84

def frameBody : Frame → List Byte
  | .ending e => endingBytes e
  | .usage u => usageBytes u
  | .notice n => Config.noticeBytes n
  | .reply r => replyBytes r

/-- A frame on the line: start mark, class, length, body, check. -/
def envelope (cls : Byte) (body : List Byte) : List Byte :=
  let covered := cls :: BitVec.ofNat 8 body.length :: body
  startMark :: covered ++ bytesOfNat (crc covered).toNat 2

/-- The bytes of an outbound frame. -/
def frameBytes (f : Frame) : List Byte := envelope (frameClass f) (frameBody f)

/-! ## Console lines (R154) -/

def promptKindName : PromptKind → String
  | .approve => "APPROVE"
  | .supply => "SUPPLY"
  | .ring => "RING"
  | .collect => "COLLECT"
  | .fault => "FAULT"
  | .cleanSupply => "CLEAN_SUPPLY"

def decimal (n : Nat) : String := String.ofList (Nat.toDigits 10 n)

/-- The subject, named as the display fields are (assumption log 34). -/
def subjectWords : PromptSubject → List String
  | .slot n => ["SLOT", decimal n]
  | .position p => ["POSITION", decimal p.val]
  | .accessor .a => ["ACCESSOR", "A"]
  | .accessor .b => ["ACCESSOR", "B"]
  | .drive d => ["DRIVE", decimal d.val]

def serialText (x : Serial) : String := String.ofList ((serialBytes x).map (fun b => Char.ofNat b.toNat))

/-- A display field that is present: its name and its value. -/
def fieldWords (name : String) (value : Option String) : List String := (value.map (fun v => [name, v])).getD []

def displayWords (f : DisplayFields) : List String :=
  fieldWords "SERIAL" (f.serial.map serialText) ++ fieldWords "DRIVE" (f.drive.map (fun d => decimal d.val))
    ++ fieldWords "POSITION" (f.position.map (fun p => decimal p.val))
    ++ fieldWords "ACCOUNT" (f.account.map (fun n => decimal n.val))

def lineWords : ConsoleLine → List String
  | .display num kind urgency subject fields =>
    [decimal num, promptKindName kind, decimal urgency] ++ subjectWords subject ++ displayWords fields
  | .noPrompts => ["NO", "PROMPTS"]
  | .reply .invalidAnswer => ["INVALID", "ANSWER"]
  | .reply .unknownPrompt => ["UNKNOWN", "PROMPT"]
  | .reply .tooLate => ["TOO", "LATE"]
  | .reply (.taken n) => ["ANSWER", "TAKEN", decimal n]

/-- The bytes of a console line: words with single spaces, then carriage return and line feed. The underscore of CLEAN_SUPPLY, for
which section 10.7 gives no code, is sent as 5Fh (assumption log 34). -/
def lineBytes (l : ConsoleLine) : List Byte :=
  ((" ".intercalate (lineWords l)).toList.map (fun c => BitVec.ofNat 8 c.toNat)) ++ [0x0D, 0x0A]

end Machine

end Sys2Proof
end

