-- ==== Sys2Proof/Safety.lean ====
section
/-! DEFINITION. The terms in which claims are made: two readings of a state (`lasting`, what the rail scheduler's search for work
leaves alone, and `hostTables`, what the host alone loads), the premise that no record waits, and the laws of the part, each
written out from the rule that states it rather than from the functions that keep it. -/

namespace Sys2Proof

namespace Safety

open Machine

/-! ## The lasting part of a state -/

/-- What the search for work keeps of a leg: all but its state, its in-hand and front marks, and the number of the position it
is going to. -/
def lastingLeg (l : Leg) : Leg := { l with state := .ready, inHand := false, front := false, dst := l.dst.unnamed }

def lastingRec (r : Rec) : Rec := { r with leg := r.leg.map lastingLeg }

/-- An accessor that is OFFLINE or STALLED takes up no work. -/
def outOfWork (x : AccState) : Bool := x = .offline || x = .stalled

/-- What it keeps of an accessor: its column, holders, gather window, limits, failed order and prompt, and, of one that is OFFLINE
or STALLED, its state and its faults. -/
def lastingAcc (x : AccRec) : AccRec :=
  { AccRec.initial x.column with
    state := if outOfWork x.state then x.state else .idle, faults := if outOfWork x.state then x.faults else 0,
    holders := x.holders, gather := x.gather, limPick := x.limPick, limPlace := x.limPlace, limScan := x.limScan,
    limRecover := x.limRecover, failed := x.failed, prompt := x.prompt }

def lastingShelf : ShelfPos → ShelfPos
  | .holding s by' => .holding s by'
  | _ => .empty

/-- What it keeps of a station position: one that holds or expects a reel, but for its scan. -/
def lastingPos (x : StationPos) : StationPos :=
  match x.state with
  | .holding _ => { x with scan := .none }
  | .expecting _ => { x with scan := .none }
  | _ => StationPos.initial

def lastingAudit (x : Audit) : Audit :=
  { x with state := if x.state = .done then .done else .scanning, inFlight := false }

/-- The state without what the rail scheduler may change when it looks for work at the end of an event (R98 to R103, R108, R110,
R125, R129): the states of accessors at work, trips, scans and orders, queues, scan requests, the zone lock, reservations, wait lists, the
suspension of audits, and the orders sent. -/
def lasting (s : State) : State :=
  { s with
    recs := s.recs.map lastingRec,
    rail :=
      { s.rail with
        accs := { a := lastingAcc s.rail.accs.a, b := lastingAcc s.rail.accs.b }, queues := { a := [], b := [] },
        scanReqs := [], zone := none, zoneWait := [], shelf := s.rail.shelf.map lastingShelf, shelfWait := [] },
    audits := { a := s.audits.a.map lastingAudit, b := s.audits.b.map lastingAudit },
    station := { s.station with pos := s.station.pos.map lastingPos, resWait := [] },
    sent := [] }

/-- No open record waits for ordinary entries of the outbound queue (R186). -/
abbrev noneWaits (s : State) : Prop := ∀ r ∈ s.recs, r.waits = false

/-- No notice raised at an earlier event is still to be offered: so it is between commands (assumption log 3). -/
abbrev nothingRaised (s : State) : Prop := s.raised = []

/-- Nothing waits at the link unit: no record for entries, no notice to be offered. -/
abbrev calm (s : State) : Prop := noneWaits s ∧ nothingRaised s

/-! ## Frames that leave and frames that arrive -/

/-- The state with one immediate frame queued in a kept entry, no order sent, and nothing else changed. -/
def answered (s : State) (f : Frame) : State :=
  { s with sent := [], link := { s.link with outq := s.link.outq ++ [{ kept := true, frame := f }] } }

/-- A REPLY frame (R182). -/
def replyFrame (op : Byte) (tag : Tag) (code : ReplyCode) (result : Result) : Frame :=
  .reply { op := op, tag := tag, code := code, result := result }

/-- An ENDING frame with a code, a kind byte and a correlator, and nothing more. -/
def plainEnding (code : EndingCode) (kind : Byte) (corr : Option Corr) : Frame := .ending (endingOf code kind corr)

/-- The frame that offers a notice takes an ordinary entry when its kind is enabled and one is available (R187). -/
def offered (l : Link) (n : Notice) : List OutFrame :=
  if l.enables.getLsbD (noticeBit n.kind) = true ∧ 0 < l.available then [{ kept := false, frame := .notice n }] else []

/-- The link after notices have been offered to it, one after the other. -/
def offeredTo (l : Link) (ns : List Notice) : Link := ns.foldl (fun l n => { l with outq := l.outq ++ offered l n }) l

/-- The state with a notice raised at this event and its frame offered (R187). -/
def noticed (s : State) (n : Notice) : State :=
  { s with link := { s.link with flags := s.link.flags ||| noticeMask n.kind, outq := s.link.outq ++ offered s.link n } }

/-- No raising block owes a prompt (R152). -/
def nothingOwed (s : State) : Prop :=
  (∀ acc u, (s.acc acc).prompt ≠ .owed u) ∧ s.cleanPrompt ≠ .owed ∧ (∀ r ∈ s.recs, r.approve ≠ .owed)
    ∧ ∀ p : Fin 8, s.station.pos[p].prompt ≠ .owed

/-- No open record waits for a drive. -/
abbrev noneQueued (s : State) : Prop := ∀ r ∈ s.recs, r.state ≠ .queued

/-- The commands that arrive as a frame on the channel link. -/
def arrivesAsFrame : Instr → Bool
  | .requestMalformed _ _ => true
  | .unknownOperation _ => true
  | .mount _ => true
  | .eject _ => true
  | .enter _ => true
  | .dismount _ => true
  | .cancel _ => true
  | .queryByCorrelator _ => true
  | .queryBySerial _ => true
  | c => (headerOf c).isSome

/-- The three requests that open a record, with the kind each opens. -/
def openingRequests : List (ReqKind × (Body ReqFields → Instr)) := [(.mount, .mount), (.eject, .eject), (.enter, .enter)]

/-- Receive-ready is given (R185), so that a frame that arrives is taken. -/
abbrev ready (s : State) : Prop := s.link.receiveReady = true

/-! ## A record that ends, and a prompt that is asked for -/

/-- The record `r` has ended with an outcome in the state `u` it left: it is POSTING with its usage record built, holds no drive, leg
or prompt, and waits for two ordinary entries (R20). The charge of R171 over the inputs of `r` and the rate table of `u` stands in the
usage record and is added to the account of `r`, which the usage record shows as it is after (R170 to R174); every other account is as
in `u`. The account, the notices of the build and their flags are what `State.enterPosting` gives of `r` in `u`, which
`Obligations.PostingBuildsTheUsageRecord` says whole. Of the link unit notice flags alone may be set. All else is as in `u`. -/
def endsIn (t u : State) (r : Rec) (o : FinalOutcome) : Prop :=
  lasting t = lasting ((u.updRec r.slot (fun _ => { r with outcome := some o })).enterPosting r.slot)
    ∧ ∃ q v, q = { r with
      state := .posting, outcome := some o, drive := none, leg := none, nextLeg := none, approve := .none, usage := some v,
      notices := q.notices }
    ∧ v.outcome = o ∧ v.slot = r.slot ∧ v.loaded = r.loaded ∧ v.l = r.legs ∧ v.p = r.prompts
    ∧ v.charge = (chargeInputs u.acct.rates r).charge
    ∧ t.acct.accounts[r.account].acc = min 4294967295 (u.acct.accounts[r.account].acc + v.charge)
    ∧ t.acct.accounts[r.account].last = v.charge ∧ v.accAfter = t.acct.accounts[r.account].acc
    ∧ v.budgetAfter = t.acct.accounts[r.account].budget
    ∧ (∀ n : Fin 128, n ≠ r.account → t.acct.accounts[n] = u.acct.accounts[n])
    ∧ t.link = { u.link with flags := t.link.flags }
    ∧ lasting { t with acct := u.acct, link := u.link } = lasting (u.updRec r.slot (fun _ => q))

/-- One prompt more stands at the tail of the queue, with these values. -/
def askedFor (before after : List Prompt) (kind : PromptKind) (template : Nat) (subject : PromptSubject) (fields : DisplayFields)
    (num : Nat) : Prop :=
  ∃ x, after = before ++ [x] ∧ x.num = num ∧ x.kind = kind ∧ x.template.val = template ∧ x.subject = subject ∧ x.fields = fields

/-- No claim stands on a shelf or station position. -/
abbrev noClaims (s : State) : Prop := s.rail.shelfWait = [] ∧ s.station.resWait = [] ∧ s.station.supplyWait = []

/-- A drive that would become FREE has nothing to take up: it is FAULTED and stays so, or it is not due and no record is QUEUED. -/
abbrev findsNothing (s : State) (d : Fin 16) : Prop := s.drives[d].state = .faulted ∨ (s.drives[d].due = false ∧ noneQueued s)

/-- What an event that takes a drive out of cleaning wait does to the CLEAN_SUPPLY prompt: while another drive is in cleaning wait it
stands; when none is left the drive table holds no prompt, and one that was raised has left the queue (R87, R160). -/
def cleanSupplyLeft (s t : State) (d : Fin 16) : Prop :=
  ((∃ x : Fin 16, x ≠ d ∧ s.drives[x].cleanWait = true) →
      t.cleanPrompt = s.cleanPrompt ∧ t.console.queue = s.console.queue)
    ∧ ((∀ x : Fin 16, x ≠ d → s.drives[x].cleanWait = false) → t.cleanPrompt = .none
        ∧ (∀ k, s.cleanPrompt = .up k → (∃ p, s.prompt? k = some p ∧ p.block = .driveTable) →
            t.console.queue = s.console.queue.filter (fun p => p.num ≠ k))
        ∧ ((∀ k, s.cleanPrompt ≠ .up k) → t.console.queue = s.console.queue))

/-- Giving up the CLEAN_SUPPLY prompt raises no prompt that another block is owed. -/
abbrev givesUpQuietly (s : State) : Prop := s.cleanPrompt = .none ∨ nothingOwed { s with cleanPrompt := .none }

/-! ## A record's slot is freed -/

/-- The drives that wait act once each, in ascending number, each in the state that the one before it left (R86). -/
def inTurn (waits : State → Fin 16 → Prop) (does : Fin 16 → State → State) (s t : State) : Prop :=
  ∃ at' : Nat → State, at' 0 = s ∧ at' 16 = t
    ∧ ∀ d : Fin 16, (waits (at' d.val) d → at' (d.val + 1) = does d (at' d.val))
        ∧ (¬waits (at' d.val) d → at' (d.val + 1) = at' d.val)

/-- The drives in cleaning wait make their attempts (R86); what one does is `Obligations.DriveTableSteps`. -/
abbrev attemptsMade (s t : State) : Prop :=
  inTurn (fun u d => u.drives[d].cleanWait = true) (fun d u => u.cleaningAttempt d) s t

/-- A slot has been freed in the state `a`, and the event goes to the drive table: the drives in return wait ask for their RETURN
records, and after them the drives in cleaning wait make their attempts (R1, R86, R92). `t` is what they leave, with their UNLOADs sent. -/
def recordFreedFrom (a t : State) : Prop :=
  ∃ b c, inTurn (fun u d => u.drives[d].returnWait = true) (fun d u => u.returnOpen d) a b ∧ attemptsMade b c
    ∧ lasting t = lasting c ∧ ∀ o ∈ c.sent, o ∈ t.sent

/-- A record's slot is freed in `s`: it is no longer open nor in the intake, and a DRAINING library with no other record is OFFLINE
(R1, R190). -/
def closedIn (s : State) (slot : Nat) : State :=
  let open' := s.recs.filter (fun q => q.slot ≠ slot)
  { s with
    recs := open', cls := { s.cls with intake := s.cls.intake.filter (fun n => n ≠ slot) },
    link := { s.link with lib := if s.link.lib = .draining ∧ open' = [] then .offline else s.link.lib } }

/-! ## The trip of an accessor -/

/-- The legs of an accessor's trip, and the stops it has still to make, the one in progress at the head. -/
abbrev tripOf (s : State) (acc : Acc) : Option (List Nat × List Stop) := (s.acc acc).trip.map (fun t => (t.legs, t.stops))

/-- A trip's legs and stops without those of a leg or put-back (R96, R106). -/
def tripLess (t : Trip) (ref : LegRef) : List Nat × List Stop :=
  (t.legs.filter (fun n => LegRef.record n ≠ ref), t.stops.filter (fun x => x.ref ≠ ref))

/-- A command answers `u` at the end of its event, where `u` is the state before the rail scheduler's search for work; the accessor's trip
then has these legs and stops, and the accessor has nothing in flight and is otherwise as it was. -/
def leavesTrip (c : Instr) (s : State) (acc : Acc) (left : List Nat × List Stop) : Prop :=
  ∃ u : State, exec c s = .next u.commit ∧ tripOf u acc = some left ∧ (u.acc acc).order = none
    ∧ (u.acc acc).state = (s.acc acc).state ∧ (u.acc acc).todo = (s.acc acc).todo

/-- A PARK of an accessor to its own side, 79 or 120, under the PLACE limit (R108, R111): it is sent, or held back until it holds the
zone lock, for which it waits, and the guard of that side is CLOSED (R110, R112). One that held the lock keeps it. -/
def parksAside (s t : State) (acc : Acc) : Prop :=
  let side := if acc = .a then 79 else 120
  let park : Order := { op := .park, col := side, place := none, holder := none, timer := (s.acc acc).limPlace }
  let sent := (t.acc acc).order = some park ∧ (t.acc acc).todo = none ∧ .accessor acc park ∈ t.sent
  let heldBack := (t.acc acc).order = none ∧ (t.acc acc).todo = some .park
  (sent ∨ heldBack) ∧ (t.rail.zone = some acc ∨ acc ∈ t.rail.zoneWait)
    ∧ (s.rail.zone = some acc →
        t.rail.zone = some acc ∧ (s.guardOpen side = false → sent) ∧ (s.guardOpen side = true → heldBack))

/-! ## A leg and its queue -/

/-- A command answers `u` at the end of its event, where `u` is the state before the rail scheduler's search for work. -/
abbrev settlesTo (c : Instr) (s : State) (holds : State → Prop) : Prop := ∃ u : State, exec c s = .next u.commit ∧ holds u

/-- The leg of a slot has left an accessor's queue, and the other queue is as it was (R96). -/
def leftQueue (s u : State) (acc : Acc) (n : Nat) : Prop :=
  u.rail.queues.get acc = (s.rail.queues.get acc).filter (fun m => m ≠ n)
    ∧ u.rail.queues.get (otherAcc acc) = s.rail.queues.get (otherAcc acc)

/-- The shelf position and the station position that were RESERVED for the leg of a slot are EMPTY (R96, R97, R136). -/
def reservationEnded (s u : State) (n : Nat) : Prop :=
  (∀ p : Fin 4, s.rail.shelf[p] = .reserved (.record n) → (∀ q < p, s.rail.shelf[q] ≠ .reserved (.record n)) →
      u.rail.shelf[p] = .empty)
    ∧ ∀ p : Fin 8, s.station.pos[p].state = .reserved (.record n) →
        (∀ q < p, s.station.pos[q].state ≠ .reserved (.record n)) → u.station.pos[p] = StationPos.initial

/-- The READY leg of a slot stands once more in its accessor's queue, the other legs of the queue in their order (R95). -/
def joinedQueue (s u : State) (acc : Acc) (n : Nat) : Prop :=
  (∃ l, u.leg? n = some l ∧ l.acc = acc ∧ l.state = .ready)
    ∧ ∃ before after, u.rail.queues.get acc = before ++ n :: after
        ∧ (before ++ after).filter (fun m => m ≠ n) = (s.rail.queues.get acc).filter (fun m => m ≠ n)

/-- The leg of a slot is withdrawn: out of its accessor's queue, where the end of the event does not bring it back, its reservation
ended (R22, R96). -/
def withdrawn (c : Instr) (s : State) (acc : Acc) (n : Nat) : Prop :=
  settlesTo c s (fun u => leftQueue s u acc n ∧ reservationEnded s u n ∧ n ∉ u.commit.rail.queues.get acc)

/-! ## A leg that goes back to its queue -/

/-- The leg of a slot is an accessor's own: the other accessor's queue and trip do not name it, it stands in no wait list, and its record
waits for no drive. -/
def ownLeg (s : State) (acc : Acc) (n : Nat) (l : Leg) : Prop :=
  s.leg? n = some l ∧ l.acc = acc ∧ n ∉ s.rail.queues.get (otherAcc acc) ∧ .record n ∉ s.rail.shelfWait
    ∧ .record n ∉ s.station.resWait ∧ (∀ r, s.rec? n = some r → r.state ≠ .queued)
    ∧ ∀ tr, (s.acc (otherAcc acc)).trip = some tr → n ∉ tr.legs ∧ ∀ y ∈ tr.stops, y.ref ≠ .record n

/-- The leg of a slot is back in its accessor's queue, READY with the front mark, out of the trip, and its reservation has ended
(R113, R115, R118). -/
def backInQueue (s t : State) (acc : Acc) (n : Nat) (l : Leg) : Prop :=
  t.leg? n = some { l with state := .ready, inHand := false, front := true, holder := none, dst := l.dst.unnamed }
    ∧ n ∈ t.rail.queues.get acc ∧ (∀ tr, (t.acc acc).trip = some tr → n ∉ tr.legs)
    ∧ (∀ p : Fin 4, t.rail.shelf[p] = .reserved (.record n) → ∃ q : Fin 4, q ≠ p ∧ s.rail.shelf[q] = .reserved (.record n))
    ∧ ∀ p : Fin 8, t.station.pos[p].state = .reserved (.record n) →
        ∃ q : Fin 8, q ≠ p ∧ s.station.pos[q].state = .reserved (.record n)

/-! ## The directory after an update, by its rules -/

/-- The entry of a serial has come to a mechanism place; any other entry with that place is MISSING (R55). -/
def dirMoved (dir : List Entry) (ser : Serial) (loc : Location) (f : Entry → Entry) : List Entry :=
  dir.map (fun e =>
    if e.serial = ser then { f e with loc := loc } else if e.loc = loc then { e with loc := .missing } else e)

/-- The entry of a serial is MISSING. -/
def dirMissing (dir : List Entry) (ser : Option Serial) : List Entry :=
  dir.map (fun e => if some e.serial = ser then { e with loc := .missing } else e)

/-- A reel has been found in a cell: its entry, when at rest, is HOME or MISPLACED there and VERIFIED, and any other entry expected
there is MISSING; an entry in a mechanism place stays as it is (R57, R55). -/
def dirFound (dir : List Entry) (ser : Serial) (c : Cell) : List Entry :=
  match dir.find? (fun e => e.serial = ser) with
  | none => dir
  | some e =>
    if e.loc.mechanism = true then dir
    else dir.map (fun f =>
      if f.serial = ser then { f with loc := if e.home = some c then .home else .misplaced c, verif := .verified }
      else if f.expectedAt c = true then { f with loc := .missing }
      else f)

/-- A label read at a cell is one that the audit skips (R126 step 1). -/
def skipped (x : Audit) (c : Cell) : ScanResult → Bool
  | .label ser => decide ((c, ser) ∈ x.skip)
  | _ => false

/-- The directory after the result of an audit scan of a cell: the effect of R62, but for a skipped label, and then the cell-passed
update (R61, R126). -/
def dirScanned (dir : List Entry) (x : Audit) (c : Cell) (res : ScanResult) : List Entry :=
  let lost := dir.map (fun e => if e.expectedAt c = true then { e with loc := .missing } else e)
  let applied :=
    if skipped x c res = true then dir
    else
      match res with
      | .label ser =>
        if ∃ e ∈ dir, e.serial = ser ∧ e.expectedAt c = true then
          dir.map (fun e => if e.serial = ser then { e with verif := .verified } else e)
        else dirFound lost ser c
      | .empty => lost
      | .unreadable => dir.map (fun e => if e.expectedAt c = true then { e with verif := .unverified } else e)
  applied.map (fun e => if e.verif = .auditPending ∧ e.home = some c then { e with verif := .unverified } else e)

/-- The audit after the result: its counts raised as the table of R128 gives, the skipped pair out of its list, its cursor on the next
cell or absent after the last, and no scan in flight (R124, R126). -/
def auditPast (dir : List Entry) (x : Audit) (c : Cell) (res : ScanResult) : Audit :=
  let y := { x with scanned := x.scanned + 1, cursor := if c = x.last then none else some (nextCell c), inFlight := false }
  match res with
  | .label ser =>
    let z := { y with skip := x.skip.filter (fun p => p ≠ (c, ser)) }
    if skipped x c res = true ∨ ∃ e ∈ dir, e.serial = ser ∧ (e.expectedAt c = true ∨ e.home = some c) then
      { z with verified := x.verified + 1 }
    else { z with misplaced := x.misplaced + 1 }
  | .empty => if ∃ e ∈ dir, e.expectedAt c = true then { y with missing := x.missing + 1 } else y
  | .unreadable => { y with unreadable := x.unreadable + 1 }

/-- A PICK has verified an AUDIT_PENDING entry: each active audit with its home cell from the cursor on adds the pair (R130), which
takes the place of any other pair for that cell (R121, assumption log 61). -/
def skipsPicked (e : Entry) (x : Audit) : Audit :=
  match e.home, x.cursor with
  | some c, some k =>
    if e.verif = .auditPending ∧ x.state ≠ .done ∧ inRange k x.last c = true ∧ (c, e.serial) ∉ x.skip then
      { x with skip := x.skip.filter (fun p => p.1 ≠ c) ++ [(c, e.serial)] }
    else x
  | _, _ => x

/-! ## What the host alone loads -/

/-- The tables and settings that one management operation each, and power-on, write. -/
structure HostTables where
  enables : BitVec 9
  rules : List StoredRule
  checkers : Vector RangeChecker 8
  selectors : KeyKind × KeyKind × KeyKind
  defaults : Pass1 × Pass2
  rates : Rates
  templates : Vector Template 16
  thresholds : Vector (Nat × Nat) 128
  driveSettings : Vector (DriveClass × BitVec 8) 16
  accessorSettings : Acc → Nat × Nat × Nat × Nat × Nat
  inputSettings : Vector (Bool × Nat) 6

def hostTables (s : State) : HostTables :=
  { enables := s.link.enables, rules := s.cls.rules, checkers := s.cls.checkers,
    selectors := (s.cls.selMount, s.cls.selEject, s.cls.selEnter), defaults := (s.cls.default1, s.cls.default2),
    rates := s.acct.rates, templates := s.console.templates,
    thresholds := s.acct.accounts.map (fun a => (a.warn, a.limit)),
    driveSettings := s.drives.map (fun d => (d.cls, d.pools)),
    accessorSettings := fun acc =>
      ((s.acc acc).gather, (s.acc acc).limPick, (s.acc acc).limPlace, (s.acc acc).limScan, (s.acc acc).limRecover),
    inputSettings := s.console.inputs.map (fun x => (x.activeHigh, x.code)) }

/-! ## The laws of the part -/

/-- R175: the budget state of every account is what its accumulator and thresholds give. -/
def budgetLaw (s : State) : Prop :=
  ∀ n : Fin 128,
    (s.acct.accounts[n].budget = .limited ↔ s.acct.accounts[n].limit ≠ 0 ∧ s.acct.accounts[n].limit ≤ s.acct.accounts[n].acc)
      ∧ (s.acct.accounts[n].budget = .warned ↔
          s.acct.accounts[n].budget ≠ .limited ∧ s.acct.accounts[n].warn ≠ 0
            ∧ s.acct.accounts[n].warn ≤ s.acct.accounts[n].acc)

/-- R153: the prompt shown is the queued prompt of the highest urgency now, the earliest raised among equals. -/
def displayLaw (s : State) : Prop :=
  (s.console.queue = [] ∧ s.console.shown = none)
    ∨ ∃ before p after, s.console.queue = before ++ p :: after ∧ (∀ q ∈ before, q.urgency < p.urgency)
        ∧ (∀ q ∈ after, q.urgency ≤ p.urgency) ∧ s.console.shown = some (p.num, p.urgency)

/-- R150, R153, R158: at most 16 prompts, numbers 0..255, no two alike; at most 16 expired numbers, none of them queued. -/
def promptLaw (s : State) : Prop :=
  s.console.queue.length ≤ 16 ∧ (s.console.queue.map (·.num)).Nodup ∧ (∀ p ∈ s.console.queue, p.num < 256)
    ∧ s.console.nextNum < 256 ∧ s.console.expired.length ≤ 16 ∧ s.console.expired.Nodup
    ∧ ∀ p ∈ s.console.queue, p.num ∉ s.console.expired

/-- R110: an order in flight at a column in 80..119 is one of the accessor that holds the zone lock. -/
def zoneLaw (s : State) : Prop :=
  ∀ acc o, (s.acc acc).order = some o → 80 ≤ o.col → o.col ≤ 119 → s.rail.zone = some acc

/-- R184, R185: at most 28 ordinary and 4 kept entries are occupied, and replies wait only while all 4 kept ones are. -/
def capacityLaw (s : State) : Prop :=
  s.link.ordUsed ≤ 28 ∧ s.link.keptUsed ≤ 4 ∧ (s.link.backlog ≠ [] → s.link.keptUsed = 4)

/-- R53, R55: at most 8,192 entries; no two share a serial, a home cell, a mechanism place or the cell they are expected at. -/
def directoryLaw (s : State) : Prop :=
  s.dir.length ≤ 8192
    ∧ s.dir.Pairwise (fun e f =>
        e.serial ≠ f.serial ∧ (∀ c, e.home = some c → f.home ≠ some c)
          ∧ (e.loc.mechanism = true → e.loc ≠ f.loc)
          ∧ ∀ c, e.expectedAt c = true → f.expectedAt c = false)

/-- R1, R2, R6: open slots lie in 0..63 and stand once each in the age order, no two CHANNEL records share a correlator, and the
intake names open records once each. -/
def recordLaw (s : State) : Prop :=
  (∀ r ∈ s.recs, r.slot < 64) ∧ (s.recs.map (·.slot)).Nodup
    ∧ (s.recs.Pairwise (fun r q => r.origin = .channel → q.origin = .channel → r.corr ≠ q.corr))
    ∧ s.cls.intake.Nodup ∧ ∀ n ∈ s.cls.intake, n ∈ s.recs.map (·.slot)

/-- R190: a library is DRAINING only while a record is open. -/
def drainLaw (s : State) : Prop := s.link.lib = .draining → s.recs ≠ []

/-- R185: an open record still to be classified adds one reply to the backlog at most, and one further frame is taken while
receive-ready is withheld; so the backlog never holds more than 65 replies. -/
def backlogLaw (s : State) : Prop :=
  (s.link.receiveReady = true → s.link.lateTaken = false)
    ∧ s.link.backlog.length + s.cls.intake.length ≤ (if s.link.lateTaken then 65 else 64)

/-- R29, R31: the valid entries stand in order, aligned, within the 512 slots, no two covering one slot, and hold values in
range. -/
def ruleLaw (s : State) : Prop :=
  (∀ r ∈ s.cls.rules, r.start + kindSize r.entry.kind ≤ 512 ∧ r.start % kindSize r.entry.kind = 0
      ∧ ruleShapeOk r.entry = true ∧ actionOk r.entry.action = true)
    ∧ s.cls.rules.Pairwise (fun r q => r.start + kindSize r.entry.kind ≤ q.start)

/-- R148, R149, R167, R168: templates and rates lie in their ranges, and templates 12..15 keep their kinds. -/
def settingsLaw (s : State) : Prop :=
  (∀ i : Fin 16, s.console.templates[i].urgency ≤ 7 ∧ 10 ≤ s.console.templates[i].reply
      ∧ s.console.templates[i].reply ≤ 3600 ∧ s.console.templates[i].steps ≤ 7)
    ∧ (∀ i : Fin 16, i.val < 12 → s.console.templates[i].kind = .approve ∨ s.console.templates[i].kind = .supply
          ∨ s.console.templates[i].kind = .ring)
    ∧ s.console.templates[12].kind = .collect ∧ s.console.templates[13].kind = .fault
    ∧ s.console.templates[14].kind = .cleanSupply ∧ s.console.templates[15].kind = .approve
    ∧ (∀ c : Fin 3, s.acct.rates.grace[c] ≤ 255 ∧ s.acct.rates.rate[c] ≤ 4095 ∧ s.acct.rates.interval[c] ≤ 255)
    ∧ (∀ p : Fin 8, s.acct.rates.mountFee[p] ≤ 65535) ∧ s.acct.rates.legFee ≤ 255 ∧ s.acct.rates.promptFee ≤ 4095
    ∧ s.acct.rates.writeFee ≤ 4095 ∧ ∀ q : Fin 4, 4 ≤ s.acct.rates.mult[q] ∧ s.acct.rates.mult[q] ≤ 32

/-- R4, R54, R63, R71, R166, R169: every saturating count stays at or below its largest value, the mount count of a directory entry
among them. -/
def countLaw (s : State) : Prop :=
  (∀ n : Fin 128, s.acct.accounts[n].acc ≤ 4294967295 ∧ s.acct.accounts[n].mounts ≤ 65535
      ∧ s.acct.accounts[n].hold ≤ 4294967295 ∧ s.acct.accounts[n].prompts ≤ 65535 ∧ s.acct.accounts[n].last ≤ 16777215)
    ∧ (∀ d : Fin 16, s.drives[d].mounts ≤ 255)
    ∧ (∀ r ∈ s.recs, r.legs ≤ 15 ∧ r.prompts ≤ 15 ∧ r.holdSecs ≤ 1048575)
    ∧ ∀ e ∈ s.dir, e.mounts ≤ 65535

end Safety

end Sys2Proof
end

