-- ==== Sys2Proof/Certificates/Slice0/Obligations.lean ====
section
/-! DEFINITION. The statements about the model that are offered for proof. Each says in its docstring which rules it formalises, and
where it rests on a choice of the model it names the log entry. A frame is either the equation with the next state written out, or
`lasting t = lasting u`: `t` is `u` in everything but what the rail scheduler's search for work may change. -/

section Statements

open Sys2Proof Sys2Proof.Machine Sys2Proof.Safety

/-! ## The step and the whole machine -/

/-- A step takes the command at the front of the queue and runs it with the queue's rest; with no command waiting the part idles,
which is the model's choice (assumption log 1). -/
def Obligations.StepRunsFrontCommand : Prop :=
  (∀ (c : Instr) (rest : List Instr) (s : State), s.pending = c :: rest → step s = exec c { s with pending := rest })
    ∧ ∀ s : State, s.pending = [] → step s = .next s

/-- Every command answers a next state and leaves the commands that wait as they are. That no command ends in a fault or a
refusal is read from the rules, which give each an effect in every state. -/
def Obligations.CommandsKeepTheQueue : Prop :=
  ∀ (c : Instr) (s : State), ∃ t, exec c s = .next t ∧ t.pending = s.pending

/-- Each table that the host alone loads is changed by its own operation, and by power-on, only (R29, R34, R37, R44, R47, R89, R117,
R149, R163, R167, R168, R178, R188). -/
def Obligations.OnlyItsOperationLoadsATable : Prop :=
  ∀ (c : Instr) (s t : State), exec c s = .next t → c ≠ .powerOn →
    let x := hostTables s
    let y := hostTables t
    ((∀ tag e, c ≠ .noticeEnable tag e) → y.enables = x.enables)
      ∧ ((∀ tag n e, c ≠ .ruleWrite tag n e) → (∀ tag n, c ≠ .ruleClear tag n) → y.rules = x.rules)
      ∧ ((∀ tag n src lo hi, c ≠ .rangeSet tag n src lo hi) → y.checkers = x.checkers)
      ∧ ((∀ tag m j e, c ≠ .selectorSet tag m j e) → y.selectors = x.selectors)
      ∧ ((∀ tag a, c ≠ .defaultsSet tag a) → y.defaults = x.defaults)
      ∧ ((∀ tag r, c ≠ .rateSet tag r) → y.rates = x.rates)
      ∧ ((∀ tag n a, c ≠ .templateSet tag n a) → y.templates = x.templates)
      ∧ ((∀ tag n w l, c ≠ .accountSet tag n w l) → y.thresholds = x.thresholds)
      ∧ ((∀ tag d k p, c ≠ .driveSet tag d k p) → y.driveSettings = x.driveSettings)
      ∧ ((∀ tag n a, c ≠ .accessorSet tag n a) → y.accessorSettings = x.accessorSettings)
      ∧ ((∀ tag n p k, c ≠ .inputSet tag n p k) → y.inputSettings = x.inputSettings)

/-- R165, R187, R188: a notice flag once set stays set until NOTICE_SUMMARY_CLEAR or power-on, and the seconds counter and the tenths
count change at the increments of the time base and at power-on alone. -/
def Obligations.OnlyTheirCommandsClearAndCount : Prop :=
  ∀ (c : Instr) (s t : State), exec c s = .next t → c ≠ .powerOn →
    ((∀ tag, c ≠ .noticeSummaryClear tag) → ∀ k : NoticeKind, s.flagSet k = true → t.flagSet k = true)
      ∧ (c ≠ .tenthTick → c ≠ .secondTick → t.acct.seconds = s.acct.seconds ∧ t.acct.tenths = s.acct.tenths)

/-! ## Laws that every step keeps -/

/-- R175: every step keeps the budget law. -/
def Obligations.StepKeepsBudgetLaw : Prop := ∀ s t : State, budgetLaw s → step s = .next t → budgetLaw t

/-- R150, R153, R158: every step keeps the display and prompt-number laws. -/
def Obligations.StepKeepsDisplayLaw : Prop :=
  ∀ s t : State, displayLaw s → promptLaw s → step s = .next t → displayLaw t ∧ promptLaw t

/-- R110: every step keeps the zone law, so no two accessors ever have orders in the Middle segment at once. -/
def Obligations.StepKeepsZoneLaw : Prop :=
  (∀ s t : State, zoneLaw s → step s = .next t → zoneLaw t)
    ∧ ∀ (s : State) (x y : Order), zoneLaw s → (s.acc .a).order = some x → (s.acc .b).order = some y →
        ¬(80 ≤ x.col ∧ x.col ≤ 119 ∧ 80 ≤ y.col ∧ y.col ≤ 119)

/-- R184, R185: every step keeps the outbound queue within its entries, and replies wait only while the kept ones are full. -/
def Obligations.StepKeepsCapacityLaw : Prop := ∀ s t : State, capacityLaw s → step s = .next t → capacityLaw t

/-- R53, R55: every step keeps the directory law. -/
def Obligations.StepKeepsDirectoryLaw : Prop := ∀ s t : State, directoryLaw s → step s = .next t → directoryLaw t

/-- R1, R2, R6, R27, R190: every step keeps the request-table law, and keeps the law that a library is DRAINING only while a record is
open: the close of the last record, and whatever else leaves the table empty, leaves it OFFLINE. -/
def Obligations.StepKeepsRecordLaw : Prop :=
  ∀ s t : State, step s = .next t → (recordLaw s → recordLaw t) ∧ (drainLaw s → drainLaw t)

/-- R185: every step keeps the bound on the reply backlog, so it never holds more than 65 replies. -/
def Obligations.StepKeepsBacklogLaw : Prop :=
  ∀ s t : State, recordLaw s → capacityLaw s → backlogLaw s → step s = .next t → backlogLaw t ∧ t.link.backlog.length ≤ 65

/-- R4, R29, R31, R33, R54, R63, R71, R148, R149, R166 to R169: every step keeps the rule table well formed, templates and rates in their
ranges, and the saturating counts of accounts, drives, records and directory entries within their largest values. -/
def Obligations.StepKeepsTablesInRange : Prop :=
  ∀ s t : State, step s = .next t →
    (ruleLaw s → ruleLaw t) ∧ (settingsLaw s → settingsLaw t) ∧ (countLaw s → countLaw t)

/-- Every law holds right after power-on. -/
def Obligations.ResetMeetsEveryLaw : Prop :=
  budgetLaw State.reset ∧ displayLaw State.reset ∧ promptLaw State.reset ∧ zoneLaw State.reset ∧ capacityLaw State.reset
    ∧ directoryLaw State.reset ∧ recordLaw State.reset ∧ backlogLaw State.reset ∧ ruleLaw State.reset
    ∧ settingsLaw State.reset ∧ countLaw State.reset ∧ drainLaw State.reset

/-! ## Power-on, the link and the library state -/

/-- POWER_ON gives every block the value its chapter states for power-on, each written out here, and `State.reset` is that state with the
pins low and its inputs' debounce periods idle; the pins keep the levels they are at, and one that is high begins a period (assumption
log 5). Guards, QUIESCE and latch read the settled inputs, which are inactive. No accessor has an order in flight or to be sent, and no
drive a STATUS awaited. -/
def Obligations.PowerOnValues : Prop :=
  (∀ s : State, ∃ t, exec .powerOn s = .next t
      ∧ t = { State.reset with pending := s.pending, console := t.console } ∧ t.console.queue = [] ∧ t.console.nextNum = 0
      ∧ t.console.expired = [] ∧ t.console.templates = State.reset.console.templates ∧ t.console.shown = none
      ∧ t.console.lines = []
      ∧ ∀ i : Fin 6, t.console.inputs[i] =
          { activeHigh := true, code := 2, settled := false, raw := s.console.inputs[i].raw, period := s.console.inputs[i].raw })
    ∧ State.reset.link = { rx := [], outq := [], backlog := [], flags := 0, enables := 0, lib := .offline, poll := [], lateTaken := false }
    ∧ State.reset.link.receiveReady = true ∧ State.reset.link.available = 28 ∧ State.reset.link.keptUsed = 0
    ∧ State.reset.recs = [] ∧ State.reset.cls.intake = [] ∧ State.reset.cls.rules = []
    ∧ (∀ c : Fin 8, State.reset.cls.checkers[c] = { source := .off, low := 0, high := 0 })
    ∧ (State.reset.cls.selMount, State.reset.cls.selEject, State.reset.cls.selEnter) = (.basic, .basic, .basic)
    ∧ State.reset.cls.default1 = { acctSrc := 0, n := 0, groupSrc := 0, k := 0, urgMode := 0, v := 0, next := 3 }
    ∧ State.reset.cls.default2 = { disp := 4, pool := 0, useReq := false, prio := 0, template := 0, exempt := false }
    ∧ State.reset.dir = [] ∧ (∀ i : Fin 4, State.reset.cleanList[i] = none)
    ∧ (∀ d : Fin 16, State.reset.drives[d] = {
        cls := .k1, pools := 0, state := .unpolled, due := false, mounts := 0, holding := none, reel := false, cleanWait := false,
        returnWait := false, status := none })
    ∧ State.reset.cleanPrompt = .none
    ∧ (∀ acc, (∀ h : Fin 3, (State.reset.acc acc).holders[h] = .empty)
        ∧ State.reset.acc acc = {
            state := .offline, column := if acc = .a then 0 else 199, holders := (State.reset.acc acc).holders, gather := 10,
            limPick := 60, limPlace := 60, limScan := 60, limRecover := 60, faults := 0, trip := none, scan := none, failed := none,
            prompt := .none, order := none, todo := none }
        ∧ State.reset.rail.queues.get acc = [] ∧ State.reset.audits.get acc = none)
    ∧ State.reset.rail.scanReqs = [] ∧ State.reset.rail.zone = none ∧ State.reset.rail.zoneWait = []
    ∧ (∀ p : Fin 4, State.reset.rail.shelf[p] = .empty) ∧ State.reset.rail.shelfWait = []
    ∧ (State.reset.rail.westOpen, State.reset.rail.middleOpen, State.reset.rail.eastOpen, State.reset.rail.quiesce)
        = (false, false, false, false)
    ∧ (∀ p : Fin 8, State.reset.station.pos[p] = {
        state := .empty, owner := none, flow := none, misses := 0, scan := .none, prompt := .none })
    ∧ State.reset.station.supplyWait = [] ∧ State.reset.station.resWait = [] ∧ State.reset.station.latchOpen = false
    ∧ (∀ i : Fin 16, State.reset.console.templates[i] = {
        kind := if i.val = 12 then .collect else if i.val = 13 then .fault else if i.val = 14 then .cleanSupply else .approve,
        urgency := 3, reply := 300, steps := 2, action := if i.val = 12 ∨ i.val = 13 ∨ i.val = 14 then .rearm else .fail })
    ∧ State.reset.acct.seconds = 0 ∧ State.reset.acct.tenths = 0
    ∧ (∀ k : Fin 3, State.reset.acct.rates.grace[k] = 0 ∧ State.reset.acct.rates.rate[k] = 0
        ∧ State.reset.acct.rates.interval[k] = 0)
    ∧ (∀ p : Fin 8, State.reset.acct.rates.mountFee[p] = 0)
    ∧ State.reset.acct.rates.legFee = 0 ∧ State.reset.acct.rates.promptFee = 0 ∧ State.reset.acct.rates.writeFee = 0
    ∧ (∀ q : Fin 4, State.reset.acct.rates.mult[q] = 8)
    ∧ ∀ n : Fin 128, State.reset.acct.accounts[n] = {
        acc := 0, saturated := false, mounts := 0, hold := 0, prompts := 0, warn := 0, limit := 0, budget := .normal, last := 0 }

/-- R183: a link reset drops the partly received frame and leaves everything else as it stands. -/
def Obligations.LinkResetDropsThePartFrame : Prop :=
  ∀ s : State, exec .linkReset s = .next { s with sent := [], link := { s.link with rx := [] } }

/-- R181, R182, R185, R187: a discarded frame sets the CHECK_ERROR flag and offers its notice; a malformed REQUEST and an
unknown operation are answered from a kept entry, one with no operation code and tag with zeros for both. The kind byte of a
malformed REQUEST's ending is its sub-kind (assumption log 36). While receive-ready is withheld, the frame already being received is taken,
its reply at the tail of the backlog when no kept entry is free, and any later one is discarded. That exactly one frame
counts as already being received is the model's choice (assumption log 4). -/
def Obligations.FramesDiscardedAndMalformed : Prop :=
  ∀ (cause : DiscardCause) (corr : Option Corr) (sub op : Byte) (tag : Tag) (s : State),
    (nothingRaised s → exec (.frameDiscarded cause) s =
        .next { noticed s { kind := .checkError, subject := .nothing } with sent := [] })
      ∧ (ready s → exec (.requestMalformed corr sub) s = .next (answered s (plainEnding .malformed sub corr)))
      ∧ (ready s →
          exec (.unknownOperation (some (op, tag))) s = .next (answered s (replyFrame op tag .badArgument .nothing))
            ∧ exec (.unknownOperation none) s = .next (answered s (replyFrame 0x00 0x0000 .badArgument .nothing)))
      ∧ (s.link.keptUsed = 4 → s.link.lateTaken = false →
          exec (.requestMalformed corr sub) s =
            .next { s with sent := [], link := { s.link with
              lateTaken := true, backlog := s.link.backlog ++ [plainEnding .malformed sub corr] } })
      ∧ ∀ c : Instr, arrivesAsFrame c = true → s.link.receiveReady = false → s.link.lateTaken = true →
          exec c s = exec (.frameDiscarded .receiveWithheld) s

/-- R188: NOTICE_ENABLE replaces the nine enables, sends no frame for a flag already set, and applies to notices raised later;
NOTICE_SUMMARY_CLEAR reports the nine flags, clears them and leaves the enables. A flag raised before the clear is reported and
cleared, and one raised after it stands set. -/
def Obligations.NoticeOperations : Prop :=
  ∀ (tag : Tag) (e : BitVec 9) (s : State), ready s →
    let enabled := answered { s with link := { s.link with enables := e } } (replyFrame 0x03 tag .done (.enables e))
    let cleared := answered { s with link := { s.link with flags := 0 } } (replyFrame 0x04 tag .done (.flags s.link.flags))
    let raised : Notice := { kind := .checkError, subject := .nothing }
    exec (.noticeEnable tag e) s = .next enabled ∧ exec (.noticeSummaryClear tag) s = .next cleared
      ∧ (∀ k : NoticeKind, cleared.flagSet k = false)
      ∧ (nothingRaised s →
          exec (.frameDiscarded .check) enabled =
            .next { enabled with link := { enabled.link with
              flags := s.link.flags ||| noticeMask .checkError,
              outq := enabled.link.outq ++ (if e.getLsbD 8 = true ∧ 0 < enabled.link.available then
                [{ kept := false, frame := .notice raised }] else []) } }
            ∧ ∃ t, exec (.frameDiscarded .check) cleared = .next t ∧ t.flagSet .checkError = true
                ∧ ∀ k : NoticeKind, k ≠ .checkError → t.flagSet k = false)

/-- R191: IDENTIFY replies vendor VR, part 7300, revision A, the library state and the capacities, and changes no state. -/
def Obligations.IdentifyReply : Prop :=
  ∀ (tag : Tag) (s : State), ready s →
    exec (.identify tag) s =
      .next (answered s (replyFrame 0x05 tag .done
        (.identity (0x56, 0x52) 7300 0x41 s.link.lib [64, 512, 8, 8192, 4, 16, 8, 128, 16, 16, 8, 4, 32, 4])))

/-- R92, R189: LIBRARY_ONLINE by the library state. From OFFLINE the poll names every device not in service: each OFFLINE accessor has
STATUS as its next order or under way, or its order in flight to end before, a PARK held back giving way to it (assumption log 17), each
UNPOLLED drive awaits its STATUS answer for the PICK limit of its side, and with no device to poll the library is ONLINE at once. No other
drive and nothing else changes. -/
def Obligations.LibraryOnlineByState : Prop :=
  ∀ (tag : Tag) (s : State), ready s →
    (s.link.lib = .draining →
        exec (.libraryOnline tag) s =
          .next (answered { s with link := { s.link with lib := .online } } (replyFrame 0x01 tag .done .nothing)))
      ∧ (s.link.lib = .online → exec (.libraryOnline tag) s = .next (answered s (replyFrame 0x01 tag .done .nothing)))
      ∧ (s.link.lib = .goingOnline → exec (.libraryOnline tag) s = .next (answered s (replyFrame 0x01 tag .busy .nothing)))
      ∧ (s.link.lib = .offline → calm s → ∃ t, exec (.libraryOnline tag) s = .next t
          ∧ (∀ d : Fin 16, .drive d ∈ t.link.poll ↔ s.drives[d].state = .unpolled)
          ∧ (∀ acc, .accessor acc ∈ t.link.poll ↔ (s.acc acc).state = .offline)
          ∧ (∀ acc, .accessor acc ∈ t.link.poll → (s.acc acc).order = none →
              (t.acc acc).todo = some .status ∨ ∃ o, (t.acc acc).order = some o ∧ o.op = .status)
          ∧ t.link.lib = (if t.link.poll = [] then .online else .goingOnline)
          ∧ (∀ acc o, .accessor acc ∈ t.link.poll → (s.acc acc).order = some o → ∃ x, (t.acc acc).order = some x ∧ x.op = o.op)
          ∧ (∀ d : Fin 16, t.drives[d] = { s.drives[d] with status :=
              if s.drives[d].state = .unpolled then Option.some (s.acc (driveAcc d)).limPick else s.drives[d].status })
          ∧ lasting t = lasting (answered { s with drives := t.drives, link := { s.link with lib := t.link.lib, poll := t.link.poll } }
              (replyFrame 0x01 tag .done .nothing)))

/-- R1, R190: LIBRARY_OFFLINE by the library state, and the table-empty event that completes DRAINING. The close of a record leaves a
DRAINING library OFFLINE when it was the last one open, and DRAINING otherwise; what the commands that close one do is
`Obligations.SentFramesAndTheBacklog`, `Obligations.WaitingRecordIsServed` and `Obligations.ClassificationTakesTheOldest`. So no run
comes to a DRAINING library with no record open (`drainLaw`), the one state in which LIBRARY_DRAINED has work to do: elsewhere it has
none. -/
def Obligations.LibraryOfflineByState : Prop :=
  ∀ (tag : Tag) (s : State),
    (ready s → s.link.lib = .online →
        exec (.libraryOffline tag) s =
          .next (answered { s with link := { s.link with lib := if s.recs = [] then .offline else .draining } }
            (replyFrame 0x02 tag .done .nothing)))
      ∧ (ready s → s.link.lib = .goingOnline →
          exec (.libraryOffline tag) s = .next (answered s (replyFrame 0x02 tag .busy .nothing)))
      ∧ (ready s → s.link.lib = .draining ∨ s.link.lib = .offline →
          exec (.libraryOffline tag) s = .next (answered s (replyFrame 0x02 tag .done .nothing)))
      ∧ (s.link.lib = .draining → s.recs = [] →
          exec .libraryDrained s = .next { s with sent := [], link := { s.link with lib := .offline } })
      ∧ (s.link.lib ≠ .draining ∨ s.recs ≠ [] → exec .libraryDrained s = .next { s with sent := [] })
      ∧ ∀ n : Nat,
          (s.link.lib = .draining → (∀ q ∈ s.recs, q.slot = n) → (s.close n).link.lib = .offline)
            ∧ (s.link.lib ≠ .draining ∨ (∃ q ∈ s.recs, q.slot ≠ n) → (s.close n).link.lib = s.link.lib)

/-- R1, R17, R20, R184, R185, R186, R190: the frame at the head of the queue has been sent and its entry is free; a freed kept entry
takes the reply at the head of the backlog, as does any kept entry found free, while an ordinary one leaves the backlog as it is; and
receive-ready is given again when a kept entry is then free and the backlog empty. The waiting records are then served in age order:
while the backlog is not empty, or too few ordinary entries are free for the oldest, none is; otherwise the oldest queues its owed
MOUNTED ending and, in POSTING, its USAGE frame, its final ending and the notices of its build, and closes. The close of the last open
record leaves a DRAINING library OFFLINE (R1, R190), and at every close the drives in return wait and then those in cleaning wait act in
turn (R1, R86, R92). The place of the build's notices is assumption log 49. -/
def Obligations.SentFramesAndTheBacklog : Prop :=
  ∀ (s : State), nothingRaised s →
    let kept := fun l : List OutFrame => (l.filter (fun f => f.kept)).length
    let waits := fun q : Rec => q.state = .posting ∨ q.mountedOwed = true
    let needs := fun q : Rec => if q.state = .posting then (if q.mountedOwed = true then 3 else 2) else 1
    let oldest := fun r : Rec => ∃ older younger, s.recs = older ++ r :: younger ∧ waits r ∧ ∀ q ∈ older, ¬waits q
    let frames := fun (r : Rec) => (if r.mountedOwed = true then [(⟨false, .ending (mountedEnding r)⟩ : OutFrame)] else [])
      ++ (if r.state = .posting then r.usage.toList.map (fun u => ⟨false, .usage u⟩) ++ [⟨false, .ending (finalEnding r)⟩] else [])
    let serves := fun (c : Instr) (queue : List OutFrame) (backlog : List Frame) =>
      let u : Link := { s.link with
        outq := queue, backlog := backlog, lateTaken := if kept queue < 4 ∧ backlog = [] then false else s.link.lateTaken }
      let free := if backlog = [] then 28 - (queue.filter (fun f => !f.kept)).length else 0
      ((∀ r, oldest r → free < needs r) → ∃ t, exec c s = .next t ∧ lasting t = lasting { s with link := u })
        ∧ (∀ r, oldest r → needs r ≤ free →
            ∃ t more, exec c s = .next t ∧ t.link.outq = queue ++ frames r ++ more ∧ t.link.backlog = backlog)
        ∧ ∀ r, oldest r → needs r ≤ free → recordLaw s → (∀ q ∈ s.recs, waits q → q = r) →
            let queued : Link := { u with outq := queue ++ frames r }
            (r.state ≠ .posting → ∃ t, exec c s = .next t
                ∧ lasting t = lasting (({ s with link := queued } : State).updRec r.slot (fun q => { q with mountedOwed := false })))
              ∧ (r.state = .posting →
                  ∃ t a, exec c s = .next t ∧ lasting a = lasting (closedIn { s with link := offeredTo queued r.notices } r.slot)
                    ∧ recordFreedFrom a t
                    ∧ ((∀ d : Fin 16, s.drives[d].returnWait = false ∧ s.drives[d].cleanWait = false) →
                        lasting t = lasting (closedIn { s with link := offeredTo queued r.notices } r.slot)))
    (∀ (f : OutFrame) (rest : List OutFrame), s.link.outq = f :: rest →
        (s.link.backlog = [] ∨ 4 ≤ kept rest → serves .frameSent rest s.link.backlog)
          ∧ ∀ (b : Frame) (later : List Frame), s.link.backlog = b :: later → kept rest < 4 →
              serves .frameSent (rest ++ [{ kept := true, frame := b }]) later)
      ∧ (s.link.outq = [] → exec .frameSent s = .next { s with sent := [] })
      ∧ (s.link.backlog = [] ∨ 4 ≤ kept s.link.outq → serves .replyBacklogServed s.link.outq s.link.backlog)
      ∧ ∀ (b : Frame) (later : List Frame), s.link.backlog = b :: later → kept s.link.outq < 4 →
          serves .replyBacklogServed (s.link.outq ++ [{ kept := true, frame := b }]) later

/-- R1, R17, R20, R86, R92, R186, R190: the oldest waiting record is served when the entries it needs are available. A POSTING record
with no owed ending queues its USAGE frame, its final ending and the notices of its build, in that order, and closes; one that owes its
MOUNTED ending queues that first; another record queues its owed MOUNTED ending. The close leaves a DRAINING library with no other open
record OFFLINE, and the freed slot goes first to the drives in return wait and then to those in cleaning wait, each kind in ascending
number; with none of them waiting nothing more happens. That the two commands serve the oldest waiting record alone is assumption log 7,
and the place of the build's notices is assumption log 49. -/
def Obligations.WaitingRecordIsServed : Prop :=
  ∀ (r : Rec) (u : Usage) (s : State), s.oldestWaiting = some r → r.needs ≤ s.link.available →
    (r.state ≠ .posting →
        exec .mountedEndingServed s =
          .next (({ s with sent := [], link := { s.link with
            outq := s.link.outq ++ [{ kept := false, frame := .ending (mountedEnding r) }] } } : State).updRec r.slot
              (fun r => { r with mountedOwed := false })))
      ∧ (r.state = .posting → r.usage = some u → nothingRaised s →
          (∀ q ∈ s.recs, q.waits = true → q.slot = r.slot) →
          let closed := closedIn { s with sent := [], link := offeredTo { s.link with outq := s.link.outq
            ++ (if r.mountedOwed = true then [{ kept := false, frame := .ending (mountedEnding r) }] else [])
            ++ [{ kept := false, frame := .usage u }, { kept := false, frame := .ending (finalEnding r) }] } r.notices } r.slot
          ∃ t, exec .postingServed s = .next t ∧ recordFreedFrom closed t
            ∧ ((∀ d : Fin 16, s.drives[d].returnWait = false ∧ s.drives[d].cleanWait = false) → lasting t = lasting closed))

/-! ## Requests -/

/-- R1, R3, R6, R7, R8: a MOUNT, EJECT or ENTER that passes the five checks opens a record in the lowest free slot, at the tail of
the age order and of the intake, with its out-of-range fields treated as R7 says, and changes nothing else. -/
def Obligations.AdmissionOpensARecord : Prop :=
  ∀ p ∈ openingRequests, ∀ (f : ReqFields) (n : Nat) (s : State), ready s → s.link.lib = .online → serialOk f.serial = true →
    (∀ r ∈ s.recs, r.origin = .channel → r.corr ≠ some f.corr) → (∀ r ∈ s.recs, r.serial ≠ some f.serial) →
    n < 64 → (∀ r ∈ s.recs, r.slot ≠ n) → (∀ m < n, ∃ r ∈ s.recs, r.slot = m) →
    ∃ r : Rec, exec (p.2 (.fields f)) s =
        .next { s with sent := [], recs := s.recs ++ [r], cls := { s.cls with intake := s.cls.intake ++ [n] } }
      ∧ r.slot = n ∧ r.origin = .channel ∧ r.corr = some f.corr ∧ r.kind = p.1 ∧ r.serial = some f.serial ∧ r.path = f.path
      ∧ r.system = f.system ∧ r.jobClass = f.jobClass ∧ r.urgency.val = min 7 f.urgency ∧ r.writeIntent = f.writeIntent
      ∧ (∀ d : Fin 16, r.reqDrive = some d ↔ f.drive = some d.val) ∧ (∀ q : Fin 8, r.reqPool = some q ↔ f.pool = some q.val)
      ∧ (∀ a : Fin 128, r.hint = some a ↔ f.hint = some a.val) ∧ r.state = .admitted ∧ r.disposition = none ∧ r.legs = 0
      ∧ r.prompts = 0 ∧ r.holdSecs = 0 ∧ r.loaded = false ∧ r.outcome = none

/-- R6: the first check that fails answers the frame with its ending, and no state but the outbound queue changes. A body of the wrong
length fails the second check, so that while the library is not ONLINE it is answered NOT_READY too. -/
def Obligations.AdmissionRefusesInOrder : Prop :=
  ∀ p ∈ openingRequests, ∀ (f : ReqFields) (s : State), ready s →
    (s.link.lib ≠ .online →
        exec (p.2 (.fields f)) s = .next (answered s (plainEnding .notReady (kindByte p.1) (some f.corr))))
      ∧ (s.link.lib = .online → serialOk f.serial = false →
          exec (p.2 (.fields f)) s = .next (answered s (plainEnding .malformed (kindByte p.1) (some f.corr))))
      ∧ (∀ corr,
          (s.link.lib ≠ .online →
              exec (p.2 (.wrongLength corr)) s = .next (answered s (plainEnding .notReady (kindByte p.1) corr)))
            ∧ (s.link.lib = .online →
                exec (p.2 (.wrongLength corr)) s = .next (answered s (plainEnding .malformed (kindByte p.1) corr))))
      ∧ (s.link.lib = .online → serialOk f.serial = true → (∃ r ∈ s.recs, r.origin = .channel ∧ r.corr = some f.corr) →
          exec (p.2 (.fields f)) s = .next (answered s (plainEnding .duplicateCorrelator (kindByte p.1) (some f.corr))))
      ∧ (s.link.lib = .online → serialOk f.serial = true → (∀ r ∈ s.recs, ¬(r.origin = .channel ∧ r.corr = some f.corr)) →
          (∀ n < 64, ∃ r ∈ s.recs, r.slot = n) →
          exec (p.2 (.fields f)) s = .next (answered s (plainEnding .tableFull (kindByte p.1) (some f.corr))))
      ∧ (s.link.lib = .online → serialOk f.serial = true → (∀ r ∈ s.recs, ¬(r.origin = .channel ∧ r.corr = some f.corr)) →
          (∃ n < 64, ∀ r ∈ s.recs, r.slot ≠ n) → (∃ r ∈ s.recs, r.serial = some f.serial) →
          exec (p.2 (.fields f)) s = .next (answered s (plainEnding .volumeBusy (kindByte p.1) (some f.corr))))

/-- R24: a DISMOUNT acts by the state of the CHANNEL record that the drive table shows holding the drive, and its ending carries the
drive and the reply. A body of the wrong length, or with a drive number of 16 or more (assumption log 35), is answered MALFORMED
and names no drive. The kind byte of its answers is the DISMOUNT frame's own sub-kind (assumption log 65). -/
def Obligations.DismountByState : Prop :=
  ∀ (corr : Corr) (d : Fin 16) (r : Rec) (slot : Nat) (s : State), ready s →
    (s.drives[d].holding = none →
        exec (.dismount (.fields { corr := corr, drive := d.val })) s =
          .next (answered s (.ending { endingOf .noSuchRequest 0x04 (some corr) with drive := some d.val })))
      ∧ (s.drives[d].holding = some slot → s.rec? slot = some r → r.origin = .internal →
          exec (.dismount (.fields { corr := corr, drive := d.val })) s =
            .next (answered s (.ending { endingOf .noSuchRequest 0x04 (some corr) with drive := some d.val })))
      ∧ (s.drives[d].holding = some slot → s.rec? slot = some r → r.origin = .channel → r.state = .staged ∨ r.state = .loading →
          exec (.dismount (.fields { corr := corr, drive := d.val })) s =
            .next (answered (s.updRec slot (fun r => { r with dismountPending := true }))
              (.ending { endingOf .taken 0x04 (some corr) with drive := some d.val })))
      ∧ (s.drives[d].holding = some slot → s.rec? slot = some r → r.origin = .channel → r.state = .mounted →
          exec (.dismount (.fields { corr := corr, drive := d.val })) s =
            .next { answered ({ s with drives := s.drives.set d { s.drives[d] with state := .unloading } }.updRec slot (fun r =>
                { r with
                  state := .unloading, dismountPending := false, holdSecs := holdBetween r.holdStart s.acct.seconds }))
                (.ending { endingOf .taken 0x04 (some corr) with drive := some d.val }) with sent := [.unload d] })
      ∧ (s.drives[d].holding = some slot → s.rec? slot = some r → r.origin = .channel →
          r.state = .unloading ∨ r.state = .stowing ∨ r.state = .faultwait →
          exec (.dismount (.fields { corr := corr, drive := d.val })) s =
            .next (answered s (.ending { endingOf .taken 0x04 (some corr) with drive := some d.val })))
      ∧ (∀ n, 16 ≤ n → exec (.dismount (.fields { corr := corr, drive := n })) s =
          .next (answered s (plainEnding .malformed 0x04 (some corr))))
      ∧ ∀ c, exec (.dismount (.wrongLength c)) s = .next (answered s (plainEnding .malformed 0x04 c))

/-- R20 to R23, R95, R96, R109, R141: a CANCEL that is taken sets the outcome CANCELLED and acts by the record's state. A HELD record,
one in SUPPLY, and a QUEUED or STAGED one whose reel is in its cell end, their prompt and their claim on a station position dropped and
their drive released; a reel at the station is to be collected, one on the shelf or aboard goes back where it came from; a RING record
goes home; LOADING leaves a dismount pending; MOUNTED unloads. In the trip, the drop of a leg aboard leaves the stops and the PLACE of
its return stands last (R109), and a leg not in hand leaves the trip with its stops (R96). From UNLOADING on, and in ADMITTED, a CANCEL
has no effect; without such a record it is answered NO_SUCH_REQUEST; a body of the wrong length is malformed. Where a record ends the
clauses have fewer than two ordinary entries available: its final ending waits for them in the same command (assumption log 7). Where the
leg of a STAGED record is withdrawn it leaves its accessor's queue and its reservation is EMPTY (R22, R96); where a leg home is made,
that one stands READY in the queue of its accessor (R95); and a leg aboard that goes back to its cell gives its reservation up (R109).
The station scan of a supply that ends is withdrawn while it is requested, and is a late one, its order as it was, when it is in flight
(R141). A record that ends is charged to its account (R170 to R173). The kind byte of its answers is the CANCEL frame's own sub-kind
(assumption log 65). -/
def Obligations.CancelByState : Prop :=
  ∀ (c : Corr) (s : State), ready s →
    let taken := plainEnding .taken 0x05 (some c)
    let gone := fun n : Nat => s.console.queue.filter (fun x => x.num ≠ n)
    let noClaims := s.rail.shelfWait = [] ∧ s.station.resWait = [] ∧ s.station.supplyWait = []
    (∀ r : Rec, s.byCorrelator c = some r → s.rec? r.slot = some r → calm s →
      let next := fun t : State => exec (.cancel (.fields c)) s = .next t
      let ended := fun t u : State => s.link.available < 2 → ∃ q v,
        q = { r with
          state := .posting, outcome := some .cancelled, drive := none, leg := none, nextLeg := none, approve := .none,
          usage := some v, notices := q.notices }
          ∧ v.outcome = .cancelled ∧ v.loaded = r.loaded ∧ v.slot = r.slot
          ∧ t.link = { (answered s taken).link with flags := t.link.flags }
          ∧ lasting { t with acct := s.acct, link := s.link } = lasting (u.updRec r.slot (fun _ => q))
          ∧ endsIn t (answered u taken) r .cancelled
      let went := fun (t u : State) (f : Rec → Rec) =>
        lasting t = lasting (answered (u.updRec r.slot (fun x => { f x with outcome := some .cancelled })) taken)
      let collected := fun (u : State) (p : Fin 8) => s.console.queue.length < 16 →
        ∃ t y, next t ∧ t.console.queue = s.console.queue ++ [y] ∧ y.kind = .collect ∧ y.subject = .slot r.slot
          ∧ y.template = 12 ∧ y.fields.position = some p
          ∧ went { t with console := s.console }
              (u.updPos p (fun x => { x with owner := some r.slot, flow := some .collect, prompt := .up y.num }))
              (fun x => { x with state := .collect, drive := none, leg := none, nextLeg := none })
      let homeward := fun (t u : State) (p : Fin 4) (by' : Acc) =>
        (∀ h, s.recHome r = some h →
            went t u (fun x => { x with
              state := .returning, drive := none, nextLeg := none,
              leg := some (legOf r (accOfColumn h.col) (.shelf (some p)) (.cell h)) }))
          ∧ (s.recHome r = none →
              went t u (fun x => { x with
                state := .returning, drive := none, nextLeg := none, leg := some (legOf r by' (.shelf (some p)) (.station none)) }))
      let settles := settlesTo (.cancel (.fields c)) s
      let unscanned := fun (t : State) (p : Fin 8) =>
        (∀ x ∈ t.rail.scanReqs, x.pos ≠ p) ∧ (∀ acc, (t.acc acc).scan ≠ some (.station p .supply false))
          ∧ ∀ acc late, (s.acc acc).scan = some (.station p .supply late) →
              (t.acc acc).scan = some (.station p .supply true)
                ∧ ∀ o, (s.acc acc).order = some o → (t.acc acc).order = some o
      let onTrip := fun (l : Leg) (tr : Trip) =>
        let drop : Stop := ⟨.place, .record r.slot⟩
        let changed := fun left : List Nat × List Stop =>
          ∃ u : State, exec (.cancel (.fields c)) s = .next u.commit ∧ tripOf u l.acc = some left
        (l.onBoard = true → changed (tr.legs, tr.stops.filter (fun x => x ≠ drop) ++ [drop]))
          ∧ (l.onBoard = false → (s.acc l.acc).state ≠ .gathering ∨ (∃ m ∈ tr.legs, m ≠ r.slot) →
              changed (tripLess tr (.record r.slot)))
      (r.state = .held → nothingOwed (s.updRec r.slot (fun x => { x with approve := .none })) →
          (∀ n, r.approve = .up n → (∃ y, s.prompt? n = some y ∧ y.block = .requestTable) →
              ∃ t, next t ∧ t.console.queue = gone n ∧ ended t { s with console := t.console })
            ∧ ((∀ n, r.approve ≠ .up n) → ∃ t, next t ∧ ended t s))
        ∧ (∀ p, r.state = .supply → s.expecting r.slot = some p → noClaims →
            nothingOwed (s.updPos p (fun x => { x with prompt := .none })) →
            let left := s.updPos p (fun _ => StationPos.initial)
            (∀ n, s.station.pos[p].prompt = .up n → (∃ y, s.prompt? n = some y ∧ y.block = .stationUnit) →
                ∃ t, next t ∧ t.console.queue = gone n ∧ unscanned t p ∧ ended t { left with console := t.console })
              ∧ ((∀ n, s.station.pos[p].prompt ≠ .up n) → ∃ t, next t ∧ unscanned t p ∧ ended t left))
        ∧ (r.state = .supply → s.expecting r.slot = none →
            ∃ t, next t ∧ ended t { s with
              station := { s.station with supplyWait := s.station.supplyWait.filter (fun n => n ≠ r.slot) } })
        ∧ (r.state = .queued → r.drive = none → r.leg = none → r.nextLeg = none →
            (s.heldAt r.slot = none → s.reelOnShelf r = none → ∃ t, next t ∧ ended t s)
              ∧ (∀ p, s.heldAt r.slot = some p → collected s p)
              ∧ (∀ p by', s.heldAt r.slot = none → s.reelOnShelf r = some (p, by') →
                  (∃ t, next t ∧ homeward t s p by')
                    ∧ settles (fun u => joinedQueue s u (((s.recHome r).map (fun h => accOfColumn h.col)).getD by') r.slot)))
        ∧ (∀ d l, r.state = .staged → r.drive = some d → r.leg = some l → noClaims → s.drives[d].due = false → noneQueued s →
            let freed := { s with drives := s.drives.set d { s.drives[d] with
              state := if s.drives[d].state = .faulted then .faulted else .free, holding := none } }
            (l.onBoard = true → (∃ t, next t
                ∧ went t freed (fun x => { x with
                    state := .returning, drive := none, nextLeg := none, leg := some { l with dst := l.src.unnamed } }))
                  ∧ ∀ h, l.src = .cell h → settles (fun u => reservationEnded s u r.slot))
              ∧ (∀ h, l.onBoard = false → l.src = .cell h → (∃ t, next t ∧ ended t freed)
                  ∧ (s.link.available < 2 → withdrawn (.cancel (.fields c)) s l.acc r.slot))
              ∧ (∀ tr, (s.acc l.acc).trip = some tr → onTrip l tr)
              ∧ (∀ p ser, l.onBoard = false → l.src = .station (some p) → s.station.pos[p].state = .holding ser →
                  collected freed p ∧ withdrawn (.cancel (.fields c)) s l.acc r.slot)
              ∧ (∀ p by', l.onBoard = false → l.src = .shelf (some p) → s.reelOnShelf r = some (p, by') →
                  (∃ t, next t ∧ homeward t freed p by')
                    ∧ let home := ((s.recHome r).map (fun h => accOfColumn h.col)).getD by'
                      settles (fun u => reservationEnded s u r.slot ∧ joinedQueue s u home r.slot
                        ∧ (home ≠ l.acc → u.rail.queues.get l.acc = (s.rail.queues.get l.acc).filter (fun m => m ≠ r.slot)))))
        ∧ (∀ l, r.state = .staged → r.drive = none → r.leg = some l → noClaims →
            (l.onBoard = true → (∃ t, next t
                ∧ went t s (fun x => { x with
                    state := .returning, drive := none, nextLeg := none, leg := some { l with dst := l.src.unnamed } }))
                  ∧ ∀ h, l.src = .cell h → settles (fun u => reservationEnded s u r.slot))
              ∧ (∀ h, l.onBoard = false → l.src = .cell h → (∃ t, next t ∧ ended t s)
                  ∧ (s.link.available < 2 → withdrawn (.cancel (.fields c)) s l.acc r.slot))
              ∧ (∀ tr, (s.acc l.acc).trip = some tr → onTrip l tr))
        ∧ (∀ p n, r.state = .ring → s.heldAt r.slot = some p → s.station.pos[p].prompt = .up n →
            (∃ y, s.prompt? n = some y ∧ y.block = .stationUnit) →
            nothingOwed (s.updPos p (fun x => { x with prompt := .none })) →
            (∀ h, s.recHome r = some h →
                (∃ t, next t ∧ t.console.queue = gone n
                  ∧ went { t with console := s.console } (s.updPos p (fun x => { x with flow := some .pickup, prompt := .none }))
                      (fun x => { x with
                        state := .returning, nextLeg := none,
                        leg := some (legOf r (accOfColumn h.col) (.station (some p)) (.cell h)) }))
                  ∧ settles (fun u => joinedQueue s u (accOfColumn h.col) r.slot))
              ∧ (s.recHome r = none → s.console.queue.length ≤ 16 →
                  ∃ t y, next t ∧ t.console.queue = gone n ++ [y] ∧ y.kind = .collect ∧ y.subject = .slot r.slot
                    ∧ went { t with console := s.console }
                        (s.updPos p (fun x => { x with owner := some r.slot, flow := some .collect, prompt := .up y.num }))
                        (fun x => { x with state := .collect, leg := none, nextLeg := none })))
        ∧ (r.state = .loading → ∃ t, next t ∧ went t s (fun x => { x with dismountPending := true }))
        ∧ ∀ d, r.state = .mounted → r.drive = some d →
            ∃ t more, next t ∧ t.sent = .unload d :: more
              ∧ went t { s with drives := s.drives.set d { s.drives[d] with state := .unloading } } (fun x => { x with
                  state := .unloading, dismountPending := false, holdSecs := holdBetween r.holdStart s.acct.seconds }))
      ∧ (∀ r : Rec, s.byCorrelator c = some r →
          r.state = .admitted ∨ r.state = .unloading ∨ r.state = .stowing ∨ r.state = .returning ∨ r.state = .faultwait
            ∨ r.state = .collect ∨ r.state = .posting →
          exec (.cancel (.fields c)) s = .next (answered s (plainEnding .notCancellable 0x05 (some c))))
      ∧ (s.byCorrelator c = none →
          exec (.cancel (.fields c)) s = .next (answered s (plainEnding .noSuchRequest 0x05 (some c))))
      ∧ ∀ corr, exec (.cancel (.wrongLength corr)) s = .next (answered s (plainEnding .malformed 0x05 corr))

/-- R25, R26, R182: the two QUERY forms answer from the open record and from the directory, and change nothing else; a body of the
wrong length is malformed. That an answer about a serial carries no correlator is assumption log 48, and that of two records that hold the
serial the older one's slot and state are answered is assumption log 54; that the kind byte of every answer, one about a record
among them, is the QUERY frame's own sub-kind is assumption log 65. -/
def Obligations.QueryAnswers : Prop :=
  ∀ (c : Corr) (ser : Serial) (s : State), ready s →
    (s.byCorrelator c = none →
        exec (.queryByCorrelator (.fields c)) s = .next (answered s (plainEnding .noSuchRequest 0x06 (some c))))
      ∧ (∀ r, s.byCorrelator c = some r → ∃ (leg : Option LegState) (acc : Option Acc) (place : Option Nat),
          exec (.queryByCorrelator (.fields c)) s =
            .next (answered s (.ending { endingOf .queryRecord 0x06 (some c) with
              slot := some r.slot, disposition := r.disposition, drive := r.drive.map Fin.val,
              tail := .record r.state r.prio.val r.urgency.val leg acc place }))
            ∧ leg = r.leg.map (·.state) ∧ acc = r.leg.map (·.acc)
            ∧ (∀ l, r.leg = some l → l.state = .ready → r.slot ∈ s.rail.queues.get l.acc →
                ∃ k, place = some (k + 1) ∧ (s.rail.queues.get l.acc)[k]? = some r.slot)
            ∧ ((∀ l, r.leg = some l → l.state ≠ .ready) → place = none))
      ∧ (∀ corr, exec (.queryByCorrelator (.wrongLength corr)) s = .next (answered s (plainEnding .malformed 0x06 corr))
          ∧ exec (.queryBySerial (.wrongLength corr)) s = .next (answered s (plainEnding .malformed 0x06 corr)))
      ∧ (serialOk ser = false →
          exec (.queryBySerial (.fields ser)) s = .next (answered s (plainEnding .malformed 0x06 none)))
      ∧ (serialOk ser = true → s.entry? ser = none →
          exec (.queryBySerial (.fields ser)) s = .next (answered s (plainEnding .unknownVolume 0x06 none)))
      ∧ (∀ e, serialOk ser = true → s.entry? ser = some e →
          exec (.queryBySerial (.fields ser)) s =
            .next (answered s (.ending { endingOf .queryVolume 0x06 none with
              slot := (s.recs.find? (fun r => r.serial = some ser)).map (·.slot), serial := some ser,
              tail := .volume e.loc (if (e.home.map s.auditAhead).getD false then .auditPending else e.verif) e.ring
                ((s.recs.find? (fun r => r.serial = some ser)).map (·.state)) })))

/-! ## Classification -/

/-- R36: the ladder of urgency `u` has positions 1 to `u` set, position `p` at bit `p - 1`, so that caring for position `a` set means
`u` is at least `a`, and caring for positions `b + 1` to 7 clear means `u` is at most `b`; the BASIC key holds the ladder of the
record's urgency and the ROUTE key that of the urgency pass 1 wrote. -/
def Obligations.LadderStatesBounds : Prop :=
  (∀ u p : Fin 8, 1 ≤ p.val → (ladderBits u.val).getLsbD (p.val - 1) = decide (p.val ≤ u.val))
    ∧ (∀ u a : Fin 8, 1 ≤ a.val →
        (fieldMatches 7 (ladderBits u.val) { value := 1#32 <<< (a.val - 1), care := 1#32 <<< (a.val - 1) } = true ↔
          a.val ≤ u.val))
    ∧ (∀ u b : Fin 8,
        (fieldMatches 7 (ladderBits u.val) { value := 0, care := ladderBits 7 &&& ~~~(ladderBits b.val) } = true ↔
          u.val ≤ b.val))
    ∧ (∀ u a b : Fin 8, 1 ≤ a.val → a.val ≤ b.val →
        (fieldMatches 7 (ladderBits u.val)
            { value := 1#32 <<< (a.val - 1),
              care := 1#32 <<< (a.val - 1) ||| (ladderBits 7 &&& ~~~(ladderBits b.val)) } = true ↔
          a.val ≤ u.val ∧ u.val ≤ b.val))
    ∧ ∀ (r : Rec) (hits : BitVec 32) (p : Pass1Result) (b : Budget) (pools : BitVec 8),
        (basicKey r hits)[2]? = some (ladderBits r.urgency.val)
          ∧ (routeKey r p b pools)[1]? = some (ladderBits p.urgency.val)

/-- R35, R43: an entry matches a key of its kind when every one of its fields does: a choice, set, flag, ladder or number field when value
and key agree at every position the care mask selects, the kind giving each field its positions (R38 to R42), and the serial field when
each of the six characters whose care mark is set is the serial's. Of the valid entries of the pass's key kind that match the key, the one
with the lowest starting slot wins; with none there is no winner and the default applies. -/
def Obligations.LowestStartingSlotWins : Prop :=
  (∀ (s : State) (kind : KeyKind) (key : List (BitVec 32)) (ser : Option Serial), ruleLaw s →
    (∀ e, winner s.cls.rules kind key ser = some e →
        ∃ r ∈ s.cls.rules, r.entry = e ∧ e.kind = kind ∧ entryMatches kind key ser e = true
          ∧ ∀ q ∈ s.cls.rules, entryMatches kind key ser q.entry = true → r.start ≤ q.start)
      ∧ (winner s.cls.rules kind key ser = none ↔ ∀ q ∈ s.cls.rules, entryMatches kind key ser q.entry = false)
      ∧ ∀ (d1 : Pass1) (d2 : Pass2), pass1Action d1 none = d1 ∧ pass2Action d2 none = d2)
    ∧ (∀ (kind : KeyKind) (key : List (BitVec 32)) (ser : Option Serial) (e : RuleEntry),
        key.length = (kindWidths kind).length → e.fields.length = (kindWidths kind).length →
        (entryMatches kind key ser e = true ↔
          e.kind = kind
            ∧ (∀ (i width : Nat) (k : BitVec 32) (p : FieldPat), (kindWidths kind)[i]? = some width → key[i]? = some k →
                e.fields[i]? = some p → ∀ j < width, p.care.getLsbD j = true → p.value.getLsbD j = k.getLsbD j)
            ∧ ∀ p, e.serial = some p → ∃ x, ser = some x
                ∧ ∀ i : Fin 6, p.care.getLsbD i.val = true → (serialBytes p.chars)[i.val]? = (serialBytes x)[i.val]?))
    ∧ kindWidths .full = [3, 16, 7, 1, 8, 8, 1, 9, 4, 4, 8, 1, 1, 16, 17, 9, 7, 1] ∧ kindWidths .basic = (kindWidths .full).take 7
    ∧ kindWidths .volume = (kindWidths .full).take 13 ∧ kindWidths .routeWide = [12, 7, 3, 8, 1, 3, 9, 4, 4, 4, 8]
    ∧ kindWidths .route = (kindWidths .routeWide).take 6

/-- R48 to R51: the first four overrides, applied in order to the pass-2 disposition. That an ENTER of a FOREIGN volume that is not
OUTSIDE is refused with VOLUME_BUSY is assumption log 57. -/
def Obligations.FirstFourOverrides : Prop :=
  ∀ (kind : ReqKind) (e : Entry) (full : Bool) (d : Disposition),
    overrides kind none full .refuse = .refuse .byRule ∧ overrides kind (some e) full .refuse = .refuse .byRule
      ∧ (d ≠ .refuse → kind = .eject ∨ kind = .enter → overrides kind none full d = .refuse .unknownVolume)
      ∧ (d = .robot ∨ d = .stationFirst → overrides .mount none full d = .refuse .unknownVolume)
      ∧ overrides .mount none full .manual = (if full then .refuse .directoryFull else .go .manual true)
      ∧ overrides .mount none full .hold = .go .hold false
      ∧ (kind = .mount ∧ (d = .robot ∨ d = .stationFirst) ∨ kind = .eject ∧ d ≠ .hold ∧ d ≠ .refuse →
          (e.loc = .missing → overrides kind (some e) full d = .refuse .volumeMissing)
            ∧ (e.loc = .outside → overrides kind (some e) full d = .refuse .volumeOutside)
            ∧ (e.loc ≠ .missing → e.loc ≠ .outside →
                overrides kind (some e) full d = .go (if kind = .eject then .robot else d) false))
      ∧ (d = .manual ∨ d = .hold → overrides .mount (some e) full d = .go d false)
      ∧ overrides .eject (some e) full .hold = .go .hold false
      ∧ (d ≠ .refuse →
          (e.loc ≠ .outside → overrides .enter (some e) full d = .refuse .volumeBusy)
            ∧ (e.loc = .outside → e.foreign = true → overrides .enter (some e) full d = .refuse .unknownVolume)
            ∧ (e.loc = .outside → e.foreign = false → overrides .enter (some e) full d = .go d false))

/-- R27, R28, R37 to R46, R48, R52: what the two passes read and what acceptance writes into the record. Each pass takes the action of its
winning entry, or its default, under the key of its kind: the selector's for pass 1, the pass-1 action's next key kind for pass 2. The
keys hold the fields of R38 to R42 in order, and the range-hit set holds checker `c` at position `c` when its source has a value within
its bounds. The account, group index, classified urgency and next key kind come from the sources that the pass-1 action names, with their
fallbacks. The verdict is what the overrides leave of the pass-2 action's disposition, for the record's kind, its volume's entry and
whether the directory is full. With the account LIMITED at the event, the disposition neither HOLD nor REFUSE and the exempt mark clear,
the request is held, and its held disposition is the one the overrides left. -/
def Obligations.AcceptanceWritesTheRecord : Prop :=
  ∀ (c : Classified) (d : Disposition) (r : Rec),
    let q := acceptFields c d r
    q.account = c.pass1.account ∧ q.group = c.pass1.group ∧ q.clsUrgency = c.pass1.urgency ∧ q.exempt = c.action.exempt
      ∧ (∀ x, c.action.useReq = true → r.reqPool = some x → q.pool = x)
      ∧ (c.action.useReq = false ∨ r.reqPool = none → c.action.pool ≤ 7 → q.pool.val = c.action.pool)
      ∧ (c.action.prio ≤ 3 → q.prio.val = c.action.prio) ∧ (c.action.template ≤ 11 → q.template.val = c.action.template)
      ∧ (c.budget = .limited ∧ d ≠ .hold ∧ d ≠ .refuse ∧ c.action.exempt = false →
          q.disposition = some .hold ∧ q.heldDisp = some d ∧ q.budgetHeld = true)
      ∧ (¬(c.budget = .limited ∧ d ≠ .hold ∧ d ≠ .refuse ∧ c.action.exempt = false) →
          q.disposition = some d ∧ q.heldDisp = none ∧ q.budgetHeld = false)
      ∧ { q with account := r.account, group := r.group, clsUrgency := r.clsUrgency, exempt := r.exempt, pool := r.pool,
                 prio := r.prio, template := r.template, disposition := r.disposition, heldDisp := r.heldDisp,
                 budgetHeld := r.budgetHeld } = r
      ∧ (∀ (a : Pass1) (e : Option Entry) (v : Entry),
          (a.acctSrc = 0 ∨ (a.acctSrc = 1 ∧ e = none) ∨ (a.acctSrc = 2 ∧ r.hint = none) → a.n ≤ 127 →
              (applyPass1 a r e).account.val = a.n)
            ∧ (a.acctSrc = 1 → (applyPass1 a r (some v)).account = v.account)
            ∧ (∀ h, a.acctSrc = 2 → r.hint = some h → (applyPass1 a r e).account = h)
            ∧ (a.groupSrc = 0 → (applyPass1 a r e).group = a.k)
            ∧ (a.groupSrc = 1 → (applyPass1 a r (some v)).group = v.group ∧ (applyPass1 a r none).group = 0)
            ∧ (a.groupSrc = 2 → (applyPass1 a r e).group = r.system.val)
            ∧ (a.urgMode = 0 → (applyPass1 a r e).urgency = r.urgency)
            ∧ (a.urgMode = 1 → a.v ≤ 7 → (applyPass1 a r e).urgency.val = a.v)
            ∧ (a.next = 3 → (applyPass1 a r e).next = .route) ∧ (a.next = 4 → (applyPass1 a r e).next = .routeWide))
      ∧ (∀ s : State,
          let e := r.serial.bind s.entry?
          let hits := rangeHits s.cls.checkers r
          let out := s.classify r
          let sel := match r.kind with
            | .eject => s.cls.selEject
            | .enter => s.cls.selEnter
            | _ => s.cls.selMount
          let best1 := winner s.cls.rules sel (pass1Key sel r e hits) r.serial
          let best2 := winner s.cls.rules out.pass1.next (pass2Key r e hits out.pass1 out.budget s.freePools) r.serial
          (∀ x a, best1 = some x → x.action = .pass1 a → out.pass1 = applyPass1 a r e)
            ∧ (best1 = none → out.pass1 = applyPass1 s.cls.default1 r e)
            ∧ (∀ x a, best2 = some x → x.action = .pass2 a → out.action = a)
            ∧ (best2 = none → out.action = s.cls.default2) ∧ out.budget = s.acct.accounts[out.pass1.account].budget
            ∧ (∀ x, (out.action.disp, x) ∈ [(0, Disposition.robot), (1, .manual), (2, .stationFirst), (3, .hold), (4, .refuse)] →
                out.verdict = overrides r.kind e (decide (8192 ≤ s.dir.length)) x)
            ∧ ∀ q : Fin 8, s.freePools.getLsbD q.val = true ↔
                ∃ d : Fin 16, s.drives[d].state = .free ∧ s.drives[d].due = false ∧ s.drives[d].pools.getLsbD q.val = true)
      ∧ (∀ (cs : Vector RangeChecker 8) (i : Fin 8),
          (rangeHits cs r).getLsbD i.val = true ↔ ∃ v : Nat, cs[i].low ≤ v ∧ v ≤ cs[i].high
            ∧ match cs[i].source with
              | .suffix => ∃ ser, r.serial = some ser ∧ isDigit ser.c3 = true ∧ isDigit ser.c4 = true ∧ isDigit ser.c5 = true
                  ∧ isDigit ser.c6 = true ∧ v = digitsValue [ser.c3, ser.c4, ser.c5, ser.c6]
              | .jobClass => v = r.jobClass.val
              | .urgency => v = r.urgency.val
              | .hint => ∃ h, r.hint = some h ∧ v = h.val
              | .off => False)
      ∧ ∀ (hits : BitVec 32) (e : Option Entry) (p : Pass1Result) (b : Budget) (pools : BitVec 8),
          let full := pass1Key .full r e hits
          let wide := pass2Key r e hits { p with next := .routeWide } b pools
          let choice := fun (key : List (BitVec 32)) (i n : Nat) =>
            ∃ v : BitVec 32, key[i]? = some v ∧ ∀ j : Nat, v.getLsbD j = true ↔ j = n
          let flag := fun (key : List (BitVec 32)) (i : Nat) (x : Bool) => ∃ v : BitVec 32, key[i]? = some v ∧ v.getLsbD 0 = x
          let ladder := fun (key : List (BitVec 32)) (i n : Nat) =>
            ∃ v : BitVec 32, key[i]? = some v ∧ ∀ j : Fin 7, v.getLsbD j.val = true ↔ j.val + 1 ≤ n
          let number := fun (key : List (BitVec 32)) (i n : Nat) => ∃ v : BitVec 32, key[i]? = some v ∧ v.toNat = n
          let kind := match r.kind with
            | .mount => 0
            | .eject => 1
            | .enter => 2
            | .clean => 3
            | .ret => 4
          let loc := match e.map (·.loc) with
            | some .home => 0
            | some (.inTransit _ _) => 1
            | some (.onShelf _) => 2
            | some (.atStation _) => 3
            | some (.inDrive _) => 4
            | some .outside => 5
            | some .missing => 6
            | some (.misplaced _) => 7
            | none => 8
          let verif := match e.map (·.verif) with
            | some .verified => 0
            | some .unverified => 1
            | some .auditPending => 2
            | none => 3
          let ring := match e.map (·.ring) with
            | some .present => 0
            | some .absent => 1
            | some .unknown => 2
            | none => 3
          let home := match e.bind (·.home) with
            | some c => if c.col ≤ 79 then 0 else if c.col ≤ 119 then 1 else 2
            | none => 3
          full.length = 18 ∧ pass1Key .basic r e hits = full.take 7 ∧ pass1Key .volume r e hits = full.take 13
            ∧ choice full 0 kind ∧ choice full 1 r.jobClass.val ∧ ladder full 2 r.urgency.val ∧ flag full 3 r.writeIntent
            ∧ choice full 4 r.path.val ∧ full[5]? = some hits ∧ flag full 6 r.reqPool.isSome
            ∧ choice full 7 loc ∧ choice full 8 verif ∧ choice full 9 ring
            ∧ ((∀ v, e = some v → v.group ≤ 255) → number full 10 ((e.map (·.group)).getD 0))
            ∧ flag full 11 ((e.map (·.foreign)).getD false) ∧ flag full 12 e.isSome
            ∧ choice full 13 r.system.val ∧ choice full 14 ((r.reqDrive.map Fin.val).getD 16)
            ∧ choice full 15 ((r.reqPool.map Fin.val).getD 8) ∧ number full 16 ((r.hint.map Fin.val).getD 0)
            ∧ flag full 17 r.hint.isSome
            ∧ wide.length = 11 ∧ pass2Key r e hits { p with next := .route } b pools = wide.take 6
            ∧ (p.group ≤ 4095 → number wide 0 p.group) ∧ ladder wide 1 p.urgency.val
            ∧ choice wide 2 (match b with | .normal => 0 | .warned => 1 | .limited => 2)
            ∧ (∃ v : BitVec 32, wide[3]? = some v ∧ ∀ q : Fin 8, v.getLsbD q.val = pools.getLsbD q.val)
            ∧ flag wide 4 r.writeIntent ∧ choice wide 5 kind ∧ choice wide 6 loc ∧ choice wide 7 ring ∧ choice wide 8 home
            ∧ choice wide 9 verif ∧ wide[10]? = some hits

/-- R1, R10, R27, R28, R49, R190: the classification event takes the oldest record of the intake. A refusal answers the request with the
ending of its reason and closes the record, which leaves a DRAINING library with no other open record OFFLINE and its slot to the drives
in return and cleaning wait. An acceptance answers ACCEPTED with the fields written, and the record takes its first state: HELD with an
APPROVE prompt raised, of template 15 when it is budget-held; STAGED with its leg made, for an EJECT; SUPPLY, for an ENTER or a MANUAL
mount, with the lowest EMPTY station position expecting its reel and its SUPPLY prompt raised, or in the supply wait list when none is
EMPTY; QUEUED for a ROBOT or STATION_FIRST mount, here with no drive FREE. A MANUAL mount of an unknown volume has its FOREIGN entry
created, also when the budget holds it (section 2.8.2). -/
def Obligations.ClassificationTakesTheOldest : Prop :=
  ∀ (n : Nat) (rest : List Nat) (r : Rec) (s : State), s.cls.intake = n :: rest → s.rec? n = some r → calm s →
    s.link.keptUsed < 4 →
    (∀ why, (s.classify r).verdict = .refuse why →
        let closed := closedIn (answered s (plainEnding (refusedCode why) (kindByte r.kind) r.corr)) n
        ∃ t, exec .classification s = .next t ∧ recordFreedFrom closed t
          ∧ ((∀ d : Fin 16, s.drives[d].returnWait = false ∧ s.drives[d].cleanWait = false) → lasting t = lasting closed))
      ∧ (∀ d foreign, (s.classify r).verdict = .go d foreign → (acceptFields (s.classify r) d r).disposition = some .hold →
          s.console.queue.length < 16 →
          ∃ t q p, exec .classification s = .next t ∧ t.cls = { s.cls with intake := rest } ∧ t.rec? n = some q
            ∧ q = { acceptFields (s.classify r) d r with state := .held, approve := .up p.num, leg := q.leg }
            ∧ t.console.queue = s.console.queue ++ [p] ∧ p.kind = .approve ∧ p.subject = .slot n ∧ p.block = .requestTable
            ∧ p.template = (if q.budgetHeld then 15 else q.template)
            ∧ t.link = { s.link with outq := s.link.outq ++ [{ kept := true, frame := .ending { endingOf .accepted (kindByte r.kind) r.corr with
                slot := some n, disposition := some .hold, pool := some q.pool } }] }
            ∧ t.dir = s.dir ++ (if foreign = true then r.serial.toList.map (fun y => foreignEntry y (s.classify r).pass1.account) else [])
            ∧ t.drives = s.drives ∧ t.acct = s.acct)
      ∧ (∀ y a, foreignEntry y a =
          { serial := y, home := none, loc := .outside, verif := .unverified, ring := .unknown, account := a, group := 0,
            foreign := true, mounts := 0 })
      ∧ (∀ d foreign y, (s.classify r).verdict = .go d foreign → r.serial = some y →
          let q := acceptFields (s.classify r) d r
          let accepted : Frame := .ending { endingOf .accepted (kindByte r.kind) r.corr with
            slot := some n, disposition := q.disposition, pool := some q.pool }
          let u : State := { s with
            cls := { s.cls with intake := rest },
            dir := s.dir ++ (if foreign = true then [foreignEntry y (s.classify r).pass1.account] else []) }
          let becomes := fun (t v : State) (z : Rec) => lasting t = lasting (answered (v.updRec n (fun _ => z)) accepted)
          (r.kind = .mount → q.disposition = some .robot ∨ q.disposition = some .stationFirst →
              (∀ d : Fin 16, s.drives[d].state ≠ .free) →
              ∃ t, exec .classification s = .next t ∧ becomes t u { q with state := .queued })
            ∧ (r.kind = .eject → q.disposition ≠ some .hold → foreign = false →
                ∃ t, exec .classification s = .next t
                  ∧ becomes t u { q with state := .staged, leg := some (s.ejectLeg q), nextLeg := none })
            ∧ ((r.kind = .mount ∧ q.disposition = some .manual) ∨ (r.kind = .enter ∧ q.disposition ≠ some .hold) →
                (∀ p : Fin 8, s.station.pos[p].state = .empty → (∀ x < p, s.station.pos[x].state ≠ .empty) →
                    s.console.queue.length < 16 →
                    ∃ t x, exec .classification s = .next t ∧ t.console.queue = s.console.queue ++ [x] ∧ x.kind = .supply
                      ∧ x.template = q.template ∧ x.subject = .slot n ∧ x.fields.position = some p ∧ x.fields.serial = some y
                      ∧ becomes { t with console := s.console }
                          (u.updPos p (fun _ => { StationPos.initial with
                            state := .expecting n, flow := some .supply, prompt := .up x.num }))
                          { q with state := .supply })
                  ∧ ((∀ p : Fin 8, s.station.pos[p].state ≠ .empty) →
                      ∃ t, exec .classification s = .next t
                        ∧ becomes t { u with station := { s.station with supplyWait := s.station.supplyWait ++ [n] } }
                            { q with state := .supply })))

/-- R31: a RULE_WRITE with a starting slot above 511, a key kind not one of the five, a misaligned slot or an action value out of range
is refused with BAD_ARGUMENT; one that passes invalidates every overlapped entry whole, stores the new one, and replies the starting slots
it displaced in ascending order. -/
def Obligations.RuleWriteChecksAndStores : Prop :=
  ∀ (tag : Tag) (slot : Nat) (e : RuleEntry) (code : Byte) (s : State), ready s →
    (511 < slot ∨ slot % kindSize e.kind ≠ 0 ∨ actionOk e.action = false →
        exec (.ruleWrite tag slot (.entry e)) s = .next (answered s (replyFrame 0x10 tag .badArgument .nothing)))
      ∧ exec (.ruleWrite tag slot (.unknownKind code)) s = .next (answered s (replyFrame 0x10 tag .badArgument .nothing))
      ∧ (ruleLaw s → slot ≤ 511 → slot % kindSize e.kind = 0 → actionOk e.action = true → ruleShapeOk e = true →
          ∃ rules gone, exec (.ruleWrite tag slot (.entry e)) s =
              .next (answered { s with cls := { s.cls with rules := rules } } (replyFrame 0x10 tag .done (.displaced gone)))
            ∧ (∀ q, q ∈ rules ↔ q = { start := slot, entry := e }
                ∨ (q ∈ s.cls.rules ∧ (q.start + kindSize q.entry.kind ≤ slot ∨ slot + kindSize e.kind ≤ q.start)))
            ∧ gone.Pairwise (· < ·)
            ∧ ∀ n, n ∈ gone ↔ ∃ q ∈ s.cls.rules, q.start = n ∧ q.start < slot + kindSize e.kind
                ∧ slot < q.start + kindSize q.entry.kind)

/-- R32, R33: RULE_READ reports the valid entry that covers the slot and changes nothing; RULE_CLEAR invalidates the entry that
starts at the slot; a slot above 511 refuses both. -/
def Obligations.RuleReadAndClear : Prop :=
  ∀ (tag : Tag) (slot : Nat) (q : StoredRule) (s : State), ready s → ruleLaw s →
    (511 < slot →
        exec (.ruleRead tag slot) s = .next (answered s (replyFrame 0x11 tag .badArgument .nothing))
          ∧ exec (.ruleClear tag slot) s = .next (answered s (replyFrame 0x12 tag .badArgument .nothing)))
      ∧ (slot ≤ 511 → q ∈ s.cls.rules → q.start ≤ slot → slot < q.start + kindSize q.entry.kind →
          exec (.ruleRead tag slot) s = .next (answered s (replyFrame 0x11 tag .done (.ruleEntry q.start q.entry))))
      ∧ (slot ≤ 511 → (∀ x ∈ s.cls.rules, slot < x.start ∨ x.start + kindSize x.entry.kind ≤ slot) →
          exec (.ruleRead tag slot) s = .next (answered s (replyFrame 0x11 tag .done .noEntry)))
      ∧ (slot ≤ 511 → q ∈ s.cls.rules → q.start = slot →
          exec (.ruleClear tag slot) s =
            .next (answered { s with cls := { s.cls with rules := s.cls.rules.filter (fun x => x ≠ q) } }
              (replyFrame 0x12 tag .done (.cleared slot))))
      ∧ (slot ≤ 511 → (∀ x ∈ s.cls.rules, x.start ≠ slot) →
          exec (.ruleClear tag slot) s = .next (answered s (replyFrame 0x12 tag .done .noEntry)))

/-- R37, R44, R47: RANGE_SET, SELECTOR_SET and DEFAULTS_SET store what they give, or refuse it with BAD_ARGUMENT. -/
def Obligations.CheckersSelectorDefaults : Prop :=
  ∀ (tag : Tag) (s : State), ready s →
    (∀ (c : Fin 8) (code low high : Nat) (src : RangeSource), rangeSourceOfCode code = some src →
        exec (.rangeSet tag c.val code low high) s =
          .next (answered { s with cls := { s.cls with
            checkers := s.cls.checkers.set c { source := src, low := low, high := high } } }
              (replyFrame 0x13 tag .done .nothing)))
      ∧ (∀ c code low high, 8 ≤ c ∨ rangeSourceOfCode code = none →
          exec (.rangeSet tag c code low high) s = .next (answered s (replyFrame 0x13 tag .badArgument .nothing)))
      ∧ (∀ (cm cj cn : Nat) (m j n : KeyKind), keyKindOfCode cm = some m → keyKindOfCode cj = some j →
          keyKindOfCode cn = some n → kindPass m = 1 → kindPass j = 1 → kindPass n = 1 →
          exec (.selectorSet tag cm cj cn) s =
            .next (answered { s with cls := { s.cls with selMount := m, selEject := j, selEnter := n } }
              (replyFrame 0x14 tag .done .nothing)))
      ∧ (∀ cm cj cn, 2 < cm ∨ 2 < cj ∨ 2 < cn →
          exec (.selectorSet tag cm cj cn) s = .next (answered s (replyFrame 0x14 tag .badArgument .nothing)))
      ∧ (∀ x, pass1Ok x = true →
          exec (.defaultsSet tag (.pass1 x)) s =
            .next (answered { s with cls := { s.cls with default1 := x } } (replyFrame 0x15 tag .done .nothing)))
      ∧ (∀ x, pass2Ok x = true →
          exec (.defaultsSet tag (.pass2 x)) s =
            .next (answered { s with cls := { s.cls with default2 := x } } (replyFrame 0x15 tag .done .nothing)))
      ∧ (∀ x : Pass1, 2 < x.acctSrc ∨ 127 < x.n ∨ 2 < x.groupSrc ∨ (x.groupSrc = 0 ∧ 4095 < x.k) ∨ 1 < x.urgMode
            ∨ (x.urgMode = 1 ∧ 7 < x.v) ∨ (x.next ≠ 3 ∧ x.next ≠ 4) →
          exec (.defaultsSet tag (.pass1 x)) s = .next (answered s (replyFrame 0x15 tag .badArgument .nothing)))
      ∧ (∀ x : Pass2, 4 < x.disp ∨ 7 < x.pool ∨ 3 < x.prio ∨ 11 < x.template →
          exec (.defaultsSet tag (.pass2 x)) s = .next (answered s (replyFrame 0x15 tag .badArgument .nothing)))
      ∧ exec (.defaultsSet tag .neither) s = .next (answered s (replyFrame 0x15 tag .badArgument .nothing))

/-! ## The directory -/

/-- R65, R66: DIR_PUT checks its values, then busy, full and taken cells, in that order; one that passes creates or replaces the
entry with its location, ring, account and group, FOREIGN clear, the mount count of the entry it replaces, and AUDIT_PENDING when an
audit has its home cell still to pass. That a serial with no entry is taken though an open record holds it is assumption log 56. -/
def Obligations.DirPutWritesTheEntry : Prop :=
  ∀ (tag : Tag) (x : DirPutArgs) (s : State), ready s →
    let ok := serialOk x.serial = true ∧ cellOk x.home = true ∧ (x.loc = 0 ∨ x.loc = 5) ∧ x.ring ≤ 2 ∧ x.account < 128
    let busy := ∃ e, s.entry? x.serial = some e
      ∧ ((∃ r ∈ s.recs, r.serial = some x.serial) ∨ (e.loc ≠ .home ∧ e.loc ≠ .outside))
    let taken := ∃ e ∈ s.dir, e.serial ≠ x.serial ∧ (e.home = some x.home ∨ e.loc = .misplaced x.home)
    (¬ok → exec (.dirPut tag x) s = .next (answered s (replyFrame 0x20 tag .badArgument .nothing)))
      ∧ (ok → busy → exec (.dirPut tag x) s = .next (answered s (replyFrame 0x20 tag .busy .nothing)))
      ∧ (ok → s.entry? x.serial = none → 8192 ≤ s.dir.length →
          exec (.dirPut tag x) s = .next (answered s (replyFrame 0x20 tag .directoryFull .nothing)))
      ∧ (ok → ¬busy → (s.entry? x.serial = none → s.dir.length < 8192) → taken →
          exec (.dirPut tag x) s = .next (answered s (replyFrame 0x20 tag .cellTaken .nothing)))
      ∧ (ok → ¬busy → ¬taken → (s.entry? x.serial = none → s.dir.length < 8192) →
          ∃ e : Entry, e.serial = x.serial ∧ e.home = some x.home ∧ e.loc = (if x.loc = 0 then .home else .outside)
            ∧ e.verif = (if s.auditAhead x.home = true then .auditPending else .unverified)
            ∧ (e.ring = .present ↔ x.ring = 0) ∧ (e.ring = .absent ↔ x.ring = 1) ∧ e.account.val = x.account
            ∧ e.group = x.group ∧ e.foreign = false
            ∧ (s.entry? x.serial = none → e.mounts = 0
                ∧ exec (.dirPut tag x) s = .next (answered { s with dir := s.dir ++ [e] }
                    (replyFrame 0x20 tag .done (.dirPut x.serial true))))
            ∧ (∀ old, s.entry? x.serial = some old → e.mounts = old.mounts
                ∧ exec (.dirPut tag x) s =
                    .next (answered { s with dir := s.dir.map (fun y => if y.serial = x.serial then e else y) }
                      (replyFrame 0x20 tag .done (.dirPut x.serial false)))))

/-- R67, R69, R86: DIR_DELETE deletes an entry that no open record, mechanism place or cleaning-reel list holds, and refuses any other;
CLEAN_LIST_SET replaces the list when each serial given has an entry that is not FOREIGN and none is given twice; its reply queued, every
drive in cleaning wait makes its attempt by the new list, in ascending number (R86). -/
def Obligations.DirDeleteAndCleanList : Prop :=
  ∀ (tag : Tag) (ser : Serial) (l : Vector (Option (Serial × Nat)) 4) (s : State), ready s →
    let good := (∀ (i : Fin 4) y, l[i] = some y →
        serialOk y.1 = true ∧ ∃ e, s.entry? y.1 = some e ∧ e.foreign = false)
      ∧ ∀ (i j : Fin 4) y z, l[i] = some y → l[j] = some z → y.1 = z.1 → i = j
    (s.entry? ser = none ∨ serialOk ser = false →
        exec (.dirDelete tag ser) s = .next (answered s (replyFrame 0x21 tag .badArgument .nothing)))
      ∧ (∀ e, s.entry? ser = some e → serialOk ser = true →
          ((∃ r ∈ s.recs, r.serial = some ser) ∨ e.loc.mechanism = true
              ∨ (∃ (i : Fin 4) (y : CleanReel), s.cleanList[i] = some y ∧ y.serial = ser) →
            exec (.dirDelete tag ser) s = .next (answered s (replyFrame 0x21 tag .busy .nothing)))
          ∧ ((∀ r ∈ s.recs, r.serial ≠ some ser) → e.loc.mechanism = false →
              (∀ (i : Fin 4) (y : CleanReel), s.cleanList[i] = some y → y.serial ≠ ser) →
              exec (.dirDelete tag ser) s =
                .next (answered { s with dir := s.dir.filter (fun x => x.serial ≠ ser) } (replyFrame 0x21 tag .done .nothing))))
      ∧ (¬good → exec (.cleanListSet tag l) s = .next (answered s (replyFrame 0x23 tag .badArgument .nothing)))
      ∧ (good → calm s →
          let listed := answered { s with cleanList := l.map (fun x => x.map (fun y => { serial := y.1, uses := y.2 })) }
            (replyFrame 0x23 tag .done .nothing)
          ∃ t c, exec (.cleanListSet tag l) s = .next t ∧ attemptsMade listed c ∧ lasting t = lasting c
            ∧ ((∀ d : Fin 16, s.drives[d].cleanWait = false) → lasting t = lasting listed))

/-! ## Operations that only report -/

/-- R68, R91, R120, R133, R164, R179: the six operations that report reply what their rules name, refuse a name out of range, and
change no state. PROMPT_LIST lists the queue by urgency now, the earliest raised first among equals, each prompt with its fields, its
place among the raises and whether it is the one SHOWING. -/
def Obligations.ReportingOperations : Prop :=
  ∀ (tag : Tag) (s : State), ready s →
    (∀ ser e, serialOk ser = true → s.entry? ser = some e →
        exec (.dirGet tag (.bySerial ser)) s = .next (answered s (replyFrame 0x22 tag .done (.dirEntry e))))
      ∧ (∀ ser, serialOk ser = false ∨ s.entry? ser = none →
          exec (.dirGet tag (.bySerial ser)) s = .next (answered s (replyFrame 0x22 tag .badArgument .nothing)))
      ∧ (∀ c, exec (.dirGet tag (.byCell c)) s = .next (answered s
          (if cellOk c = true then replyFrame 0x22 tag .done
            (.dirCell (s.dir.find? (fun e => e.home = some c)) (s.dir.find? (fun e => e.loc = .misplaced c)))
          else replyFrame 0x22 tag .badArgument .nothing)))
      ∧ (∀ d : Fin 16, ∃ held : Bool,
          exec (.driveGet tag d.val) s = .next (answered s (replyFrame 0x33 tag .done (.drive d s.drives[d] held)))
            ∧ (held = true ↔ ∃ n p, s.cleanPrompt = .up n ∧ s.prompt? n = some p ∧ p.subject = .drive d))
      ∧ (∀ d, 16 ≤ d → exec (.driveGet tag d) s = .next (answered s (replyFrame 0x33 tag .badArgument .nothing)))
      ∧ (∀ acc n, accOfCode n = some acc → ∃ (legs : List TripLegReport) (zone : ZoneStanding),
          exec (.accessorGet tag n) s = .next (answered s (replyFrame 0x44 tag .done
              (.accessor (s.acc acc) (s.rail.queues.get acc).length legs zone s.rail.shelf)))
            ∧ ((s.acc acc).trip = none → legs = [])
            ∧ (∀ tr, (s.acc acc).trip = some tr → (s.acc acc).state = .gathering →
                legs.map (fun x => (x.stop, x.slot, x.legState, x.place)) = tr.legs.map (fun n =>
                  (StopOp.pick, some n, (s.leg? n).map (·.state), (s.leg? n).map (·.src))))
            ∧ (∀ tr, (s.acc acc).trip = some tr → (s.acc acc).state ≠ .gathering →
                legs.map (·.stop) = tr.stops.map (·.op)
                  ∧ ∀ (i : Nat) (x : TripLegReport) (y : Stop), legs[i]? = some x → tr.stops[i]? = some y →
                      (∀ n, y.ref = .record n → x.slot = some n ∧ x.legState = (s.leg? n).map (·.state)
                          ∧ x.place = (s.leg? n).map (fun l => match y.op with
                              | .pick => l.src
                              | .place => l.dst))
                        ∧ (∀ z h, y.ref = .putBack z h → x.slot = none ∧ x.legState = none
                            ∧ (y.op = .place → x.place = s.dstOf y.ref)))
            ∧ (zone = .holds ↔ s.rail.zone = some acc)
            ∧ (∀ k, zone = .waits k → 1 ≤ k ∧ s.rail.zoneWait[k - 1]? = some acc)
            ∧ (zone = .neither → acc ∉ s.rail.zoneWait))
      ∧ (∀ n, 2 ≤ n → exec (.accessorGet tag n) s = .next (answered s (replyFrame 0x44 tag .badArgument .nothing))
          ∧ exec (.auditGet tag n) s = .next (answered s (replyFrame 0x52 tag .badArgument .nothing)))
      ∧ (∀ acc n, accOfCode n = some acc →
          (s.audits.get acc = none → exec (.auditGet tag n) s = .next (answered s (replyFrame 0x52 tag .done .noAudit)))
            ∧ ∀ x, s.audits.get acc = some x →
                exec (.auditGet tag n) s =
                  .next (answered s (replyFrame 0x52 tag .done (.audit x x.skip.length (rangeSize x.first x.last)))))
      ∧ (∃ q : List PromptReport,
          exec (.promptList tag) s = .next (answered s (replyFrame 0x62 tag .done
              (.prompts s.console.nextNum s.console.queue.length q s.console.expired s.console.templates
                (s.console.inputs.map (fun x => { activeHigh := x.activeHigh, code := x.code, settled := x.settled })))))
            ∧ q.Pairwise (fun a b => b.urgency ≤ a.urgency)
            ∧ (∀ u, (q.filter (fun x => x.urgency = u)).map (·.num) =
                (s.console.queue.filter (fun p => p.urgency = u)).map (·.num))
            ∧ ((s.console.queue.map (·.num)).Nodup → ∀ x ∈ q, (x.showing = true ↔ q.head? = some x)
                ∧ ∃ p, s.console.queue[x.raised]? = some p
                    ∧ x = { num := p.num, kind := p.kind, template := p.template, block := p.block, subject := p.subject,
                            fields := p.fields, initial := p.initial, urgency := p.urgency, left := p.left, reply := p.reply,
                            action := p.action, timer := p.timer, raised := x.raised, showing := x.showing }))
      ∧ (∀ n : Fin 128, exec (.accountRead tag n.val) s =
          .next (answered s (replyFrame 0x71 tag .done (.account n s.acct.accounts[n] s.acct.seconds))))
      ∧ ∀ n, 128 ≤ n → exec (.accountRead tag n) s = .next (answered s (replyFrame 0x71 tag .badArgument .nothing))

/-! ## Drives -/

/-- R87, R89, R90, R160: DRIVE_SET replaces class and pools; DRIVE_OFFLINE is taken in FREE alone and clears the drive's cleaning wait, and
the CLEAN_SUPPLY prompt is withdrawn when no drive is left in cleaning wait; DRIVE_ONLINE makes an OFFLINE drive, or a FAULTED one with
no reel, FREE. A drive that is then FREE looks for a record as DRIVE_RESERVATION does, and a due one with no
CLEAN record QUEUED makes a cleaning attempt as CLEANING_ATTEMPT does (R75, R86, R89; for DRIVE_SET, assumption log 59). That the
search follows in the same command is assumption log 7; the class codes 1 to 3 are assumption log 39. -/
def Obligations.DriveOperations : Prop :=
  ∀ (tag : Tag) (d : Fin 16) (pools : BitVec 8) (s : State), ready s →
    (∀ code c, driveClassOfCode code = some c → calm s → s.drives[d].state ≠ .free ∨ (s.drives[d].due = false ∧ noneQueued s) →
        ∃ t, exec (.driveSet tag d.val code pools) s = .next t
          ∧ lasting t = lasting (answered { s with drives := s.drives.set d { s.drives[d] with cls := c, pools := pools } }
              (replyFrame 0x30 tag .done .nothing)))
      ∧ (∀ code c, driveClassOfCode code = some c → s.drives[d].state = .free →
          let u := answered { s with drives := s.drives.set d { s.drives[d] with cls := c, pools := pools } }
            (replyFrame 0x30 tag .done .nothing)
          ((∃ r, u.chooseRecord d = some r) →
              exec (.driveSet tag d.val code pools) s = exec (.driveReservation (.forDrive d)) u)
            ∧ (u.attemptDue d = true → exec (.driveSet tag d.val code pools) s = exec (.cleaningAttempt d) u))
      ∧ (∀ n code, 16 ≤ n ∨ driveClassOfCode code = none →
          exec (.driveSet tag n code pools) s = .next (answered s (replyFrame 0x30 tag .badArgument .nothing)))
      ∧ (∀ code, (driveClassOfCode code).isSome = true ↔ 1 ≤ code ∧ code ≤ 3)
      ∧ (s.drives[d].state = .free → givesUpQuietly s →
          ∃ t, exec (.driveOffline tag d.val) s = .next t ∧ cleanSupplyLeft s t d
            ∧ { t with console := s.console, cleanPrompt := s.cleanPrompt } =
                answered { s with drives := s.drives.set d { s.drives[d] with state := .offline, cleanWait := false } }
                  (replyFrame 0x31 tag .done .nothing))
      ∧ (s.drives[d].state ≠ .free →
          exec (.driveOffline tag d.val) s = .next (answered s (replyFrame 0x31 tag .busy .nothing)))
      ∧ (s.drives[d].state = .offline ∨ (s.drives[d].state = .faulted ∧ s.drives[d].reel = false) → calm s →
          s.drives[d].due = false → noneQueued s →
          ∃ t, exec (.driveOnline tag d.val) s = .next t
            ∧ lasting t = lasting (answered { s with drives := s.drives.set d { s.drives[d] with state := .free } }
                (replyFrame 0x32 tag .done .nothing)))
      ∧ (s.drives[d].state = .offline ∨ (s.drives[d].state = .faulted ∧ s.drives[d].reel = false) →
          let u := answered { s with drives := s.drives.set d { s.drives[d] with state := .free } }
            (replyFrame 0x32 tag .done .nothing)
          ((∃ r, u.chooseRecord d = some r) →
              exec (.driveOnline tag d.val) s = exec (.driveReservation (.forDrive d)) u)
            ∧ (u.attemptDue d = true → exec (.driveOnline tag d.val) s = exec (.cleaningAttempt d) u))
      ∧ (s.drives[d].state = .free →
          exec (.driveOnline tag d.val) s = .next (answered s (replyFrame 0x32 tag .done .nothing)))
      ∧ (s.drives[d].state ≠ .offline → s.drives[d].state ≠ .free →
          (s.drives[d].state = .faulted → s.drives[d].reel = true) →
          exec (.driveOnline tag d.val) s = .next (answered s (replyFrame 0x32 tag .busy .nothing)))
      ∧ ∀ n, 16 ≤ n →
          exec (.driveOffline tag n) s = .next (answered s (replyFrame 0x31 tag .badArgument .nothing))
            ∧ exec (.driveOnline tag n) s = .next (answered s (replyFrame 0x32 tag .badArgument .nothing))

/-- R11, R16, R17, R63, R70, R81, R85: LOADED of a drive in LOADING mounts its record: the directory takes the ring sense and counts the
mount, and hold starts. For a CLEAN record the list entry of its reel loses one use; for any other the drive counts the mount, or, at its
cleaning interval, is due with its count 0 and CLEANING_DUE raised. A CHANNEL record's MOUNTED ending is queued, or owed while no ordinary
entry is available; an INTERNAL record has none. Drive and record are MOUNTED, or, with a dismount pending, at once UNLOADING with a hold
of 0 and UNLOAD sent. In any other state of the drive, and with no holding record, LOADED is discarded. -/
def Obligations.LoadedMountsTheRecord : Prop :=
  ∀ (d : Fin 16) (ring : Bool) (slot : Nat) (r : Rec) (s : State),
    (s.drives[d].state ≠ .loading ∨ s.drives[d].holding = none → exec (.loaded d ring) s = .next { s with sent := [] })
      ∧ (s.drives[d].state = .loading → s.drives[d].holding = some slot → s.rec? slot = some r → calm s →
          let every := s.acct.rates.interval[driveClassIndex s.drives[d].cls]
          let mounts := min 255 (s.drives[d].mounts + 1)
          let due := r.kind ≠ .clean ∧ every ≠ 0 ∧ every ≤ mounts
          let pending := r.dismountPending = true
          let mounted : Ending := { endingOf .mounted (kindByte r.kind) r.corr with
            ringAbsent := r.writeIntent && !ring, drive := some d.val }
          let u : State := { s.updRec slot (fun r =>
              { r with
                state := if pending then .unloading else .mounted, dismountPending := false, holdStart := s.acct.seconds,
                holdSecs := if pending then 0 else r.holdSecs,
                mountedOwed := decide (r.origin = .channel ∧ s.link.available = 0),
                ringAbsent := r.writeIntent && !ring, mountedDrive := some d }) with
            dir := s.dir.map (fun e =>
              if some e.serial = r.serial then
                { e with ring := if ring then .present else .absent, mounts := min 65535 (e.mounts + 1) }
              else e),
            cleanList := if r.kind = .clean then s.cleanList.map (fun x => x.map (fun y =>
                if some y.serial = r.serial then { y with uses := y.uses - 1 } else y))
              else s.cleanList,
            drives := s.drives.set d { s.drives[d] with
              state := if pending then .unloading else .mounted,
              due := if due then true else s.drives[d].due,
              mounts := if due then 0 else if r.kind = .clean then s.drives[d].mounts else mounts },
            link := { s.link with outq := s.link.outq
              ++ (if r.origin = .channel ∧ s.link.available ≠ 0 then [{ kept := false, frame := .ending mounted }] else []) } }
          ∃ t, exec (.loaded d ring) s = .next t
            ∧ (¬due → lasting t = lasting u)
            ∧ (due → lasting t = lasting (noticed u { kind := .cleaningDue, subject := .drive d }))
            ∧ (pending → ∃ more, t.sent = .unload d :: more))

/-- R18, R77, R79, R82, R83, R87, R96, R109, R160: UNLOADED of a drive in LOADING, MOUNTED or UNLOADING makes it AWAITING_STOW and the
record STOWING with its stow leg made; from LOADING there is no hold and no dismount stays pending, from MOUNTED hold stops and a CLEAN
record's drive is no longer due, and a FAULTED drive stays FAULTED while its record in FAULTWAIT goes STOWING. In any other state it is
discarded, in RESERVED too (assumption log 58). FAULT makes the drive FAULTED with DRIVE_FAULT raised, but changes nothing in FAULTED.
The record of a LOADING, MOUNTED or UNLOADING drive is in FAULTWAIT with DRIVE_FAULT, its hold stopped when MOUNTED; that of an
AWAITING_STOW one goes on with DRIVE_FAULT. The record of a RESERVED drive goes back to QUEUED when its leg is not aboard, here with no
drive FREE, and its leg leaves its accessor's queue, its reservation EMPTY (R96); one whose STATION_FIRST leg is on its way to the
station goes on unchanged; one whose PLACE into the drive is sent goes on with DRIVE_FAULT, and any other leg aboard is turned to the
station with DRIVE_FAULT, where the lowest EMPTY position is reserved for it in place of its reservation on the shelf, which becomes
EMPTY. In the trip, a leg aboard keeps its stops, so that the station PLACE stands in the leg's place (R109), and one not in hand leaves
with its stops (R96). A FREE or OFFLINE drive, and an UNPOLLED one, has no reel, but with return wait it has one; an UNPOLLED one is
settled for the online poll; and the CLEAN_SUPPLY prompt is withdrawn when no drive is left in cleaning wait. -/
def Obligations.UnloadedAndFault : Prop :=
  ∀ (d : Fin 16) (slot : Nat) (r : Rec) (s : State), calm s →
    let st := s.drives[d].state
    let held := s.drives[d].holding = some slot ∧ s.rec? slot = some r
    let onDrive := fun x : Drive => ({ s with drives := s.drives.set d x } : State)
    let near := fun c : Cell => (80 ≤ c.col ∧ c.col ≤ 119) ∨ (c.col < 80 ∧ d.val < 8) ∨ (120 ≤ c.col ∧ 8 ≤ d.val)
    let stowed := fun (x : Drive) (f : Rec → Rec) =>
      ∃ (t : State) (l : Leg) (next : Option Leg), exec (.unloaded d) s = .next t
        ∧ l.src = .drive d ∧ l.acc = driveAcc d ∧ l.expected = (if r.kind = .ret then none else r.serial)
        ∧ (∀ c, r.kind ≠ .ret → r.disposition ≠ some .manual → s.recHome r = some c →
            (near c → l.dst = .cell c ∧ next = none)
              ∧ (¬near c → l.dst = .shelf none
                  ∧ ∃ m, next = some m ∧ m.src = .shelf none ∧ m.dst = .cell c ∧ m.acc = accOfColumn c.col))
        ∧ (r.kind = .ret ∨ r.disposition = some .manual ∨ s.recHome r = none → l.dst = .station none ∧ next = none)
        ∧ lasting t = lasting ((onDrive x).updRec slot
            (fun r => { f r with state := .stowing, leg := some l, nextLeg := next }))
    let notice : Notice := { kind := .driveFault, subject := .drive d }
    let faulted := fun (u : State) => ∃ t, exec (.fault d) s = .next t ∧ lasting t = lasting (noticed u notice)
    let bare : State := onDrive { s.drives[d] with state := .faulted, holding := none, status := none }
    let full : State := onDrive { s.drives[d] with state := .faulted, reel := true, status := none }
    let aboard := fun l : Leg => l.inHand = true ∨ l.state = .aboard
    let settled := fun u : State =>
      let rest := s.link.poll.filter (fun x => x ≠ .drive d)
      { u with link := { u.link with
          poll := rest, lib := if s.link.lib = .goingOnline ∧ rest = [] then .online else s.link.lib } }
    (held →
        (st = .unloading → stowed { s.drives[d] with state := .awaitingStow } id)
          ∧ (st = .loading → stowed { s.drives[d] with state := .awaitingStow } (fun r => { r with dismountPending := false }))
          ∧ (st = .mounted → stowed { s.drives[d] with
                state := .awaitingStow, due := if r.kind = .clean then false else s.drives[d].due }
              (fun r => { r with holdSecs := min 1048575 (s.acct.seconds - r.holdStart).toNat }))
          ∧ (st = .faulted → r.state = .faultwait → stowed s.drives[d] id)
          ∧ (st = .faulted → r.state ≠ .faultwait → exec (.unloaded d) s = .next { s with sent := [] }))
      ∧ (s.drives[d].holding = none ∨ st = .awaitingStow ∨ st = .reserved ∨ st = .free ∨ st = .offline ∨ st = .unpolled →
          exec (.unloaded d) s = .next { s with sent := [] })
      ∧ (held →
          (st = .mounted → faulted (full.updRec slot (fun r => { r with
              state := .faultwait, outcome := some .driveFault,
              holdSecs := min 1048575 (s.acct.seconds - r.holdStart).toNat })))
            ∧ (st = .loading ∨ st = .unloading → faulted (full.updRec slot (fun r => { r with
                state := .faultwait, outcome := some .driveFault })))
            ∧ (st = .awaitingStow → faulted (full.updRec slot (fun r => { r with outcome := some .driveFault })))
            ∧ (st = .reserved → (∀ l, r.leg = some l → ¬aboard l) → (∀ x : Fin 16, s.drives[x].state ≠ .free) →
                noClaims s →
                faulted (bare.updRec slot (fun x => { x with
                  state := .queued, drive := none, leg := none, nextLeg := if r.leg = none then r.nextLeg else none }))
                  ∧ ∀ l, r.leg = some l → withdrawn (.fault d) s l.acc slot)
            ∧ (∀ l tr, st = .reserved → r.leg = some l → (s.acc l.acc).trip = some tr →
                let changed := fun left : List Nat × List Stop =>
                  ∃ u : State, exec (.fault d) s = .next u.commit ∧ tripOf u l.acc = some left
                (aboard l → changed (tr.legs, tr.stops))
                  ∧ (¬aboard l → (s.acc l.acc).state ≠ .gathering ∨ (∃ m ∈ tr.legs, m ≠ slot) →
                      changed (tripLess tr (.record slot))))
            ∧ (∀ l, st = .reserved → r.leg = some l → aboard l →
                let sent := (∃ o, (s.acc l.acc).order = some o ∧ o.op = .place (.record slot))
                  ∨ ∃ f, (s.acc l.acc).failed = some f ∧ f.op = .place (.record slot)
                let toRing := r.disposition = some .stationFirst ∧ (∃ p, l.dst = .station p) ∧ l.diverted = false
                (toRing → faulted (bare.updRec slot (fun r => { r with drive := none })))
                  ∧ (¬toRing → sent → (∃ x, l.dst = .drive x) →
                      faulted (bare.updRec slot (fun r => { r with drive := none, outcome := some .driveFault })))
                  ∧ (¬toRing → ¬(sent ∧ ∃ x, l.dst = .drive x) → noClaims s →
                      faulted (bare.updRec slot (fun r => { r with
                        drive := none, outcome := some .driveFault, nextLeg := none,
                        leg := some { l with diverted := true, dst := .station none } }))
                        ∧ ((∀ p, l.dst ≠ .station p) → settlesTo (.fault d) s (fun u =>
                            (∀ p : Fin 4, s.rail.shelf[p] = .reserved (.record slot) →
                                (∀ q < p, s.rail.shelf[q] ≠ .reserved (.record slot)) → u.rail.shelf[p] = .empty)
                              ∧ ∀ p : Fin 8, s.station.pos[p].state = .empty →
                                  (∀ q < p, s.station.pos[q].state ≠ .empty ∧ s.station.pos[q].state ≠ .reserved (.record slot)) →
                                  u.station.pos[p].state = .reserved (.record slot)
                                    ∧ (u.leg? slot).map (·.dst) = some (.station (some p)))))))
      ∧ (st = .free ∨ st = .offline ∨ (st = .unpolled ∧ s.drives[d].returnWait = false) → givesUpQuietly s →
          let gone := onDrive { s.drives[d] with
            state := .faulted, holding := none, reel := false, cleanWait := false, status := none }
          ∃ t, exec (.fault d) s = .next t ∧ cleanSupplyLeft s t d
            ∧ lasting { t with console := s.console, cleanPrompt := s.cleanPrompt } =
                lasting (noticed (if st = .unpolled then settled gone else gone) notice))
      ∧ (st = .unpolled → s.drives[d].returnWait = true →
          faulted (settled (onDrive { s.drives[d] with state := .faulted, holding := none, reel := true, status := none })))
      ∧ (st = .faulted → ∃ t, exec (.fault d) s = .next t ∧ lasting t = lasting s)

/-- R92, R119, R189: a device answers the online poll, or its limit runs out. "Reel present" opens a RETURN record or leaves return wait
set; "empty" makes the drive FREE; no answer makes it FAULTED with DRIVE_FAULT raised. An accessor's answer of empty holders outside the
Middle segment puts it in service, one of an occupied holder stalls it with faults 2, and no answer leaves it OFFLINE. The answer "reel
present" with a slot free sends UNLOAD at once (R92), and an accessor whose answer shows its holders empty in the Middle segment stays
OFFLINE and is sent a PARK to its own side, for which it needs the lock (R119). Each settles its device, and the last one puts the
library ONLINE. That the expiries act only when the timer reads 0 is assumption log 8, and that the answer "empty" and the silence clear
return wait is assumption log 18. -/
def Obligations.StatusSettlesThePoll : Prop :=
  ∀ (s : State), calm s →
    let settled := fun dev : Device =>
      { s with link := { s.link with
          poll := s.link.poll.filter (fun x => x ≠ dev),
          lib := if s.link.lib = .goingOnline ∧ s.link.poll.filter (fun x => x ≠ dev) = [] then .online else s.link.lib } }
    (∀ (d : Fin 16), s.drives[d].state = .unpolled → s.drives[d].status.isSome = true →
        let with' := fun x : Drive => { settled (.drive d) with drives := s.drives.set d x }
        (∀ k, k < 64 → (∀ r ∈ s.recs, r.slot ≠ k) → (∀ m < k, ∃ r ∈ s.recs, r.slot = m) →
            ∃ (t : State) (r : Rec), exec (.driveStatusAnswer d true) s = .next t
              ∧ r.slot = k ∧ r.origin = .internal ∧ r.kind = .ret ∧ r.state = .unloading ∧ r.drive = some d ∧ r.serial = none
              ∧ (∃ more, t.sent = .unload d :: more)
              ∧ lasting t = lasting { with' { s.drives[d] with
                  state := .unloading, holding := some k, reel := true, returnWait := false, status := none } with
                  recs := s.recs ++ [r] })
          ∧ ((∀ k < 64, ∃ r ∈ s.recs, r.slot = k) →
              ∃ t, exec (.driveStatusAnswer d true) s = .next t
                ∧ lasting t = lasting (with' { s.drives[d] with reel := true, returnWait := true, status := none }))
          ∧ (s.drives[d].due = false → noneQueued s →
              ∃ t, exec (.driveStatusAnswer d false) s = .next t
                ∧ lasting t = lasting (with' { s.drives[d] with
                    state := .free, reel := false, returnWait := false, status := none }))
          ∧ (s.drives[d].status = some 0 →
              ∃ t, exec (.driveStatusTimeout d) s = .next t
                ∧ lasting t = lasting (noticed
                    (with' { s.drives[d] with state := .faulted, reel := false, returnWait := false, status := none })
                    { kind := .driveFault, subject := .drive d })))
      ∧ ∀ (acc : Acc) (o : Order) (col : Nat), (s.acc acc).order = some o → o.op = .status → (s.acc acc).state = .offline →
          (∀ occ : Vector Bool 3, (∃ h : Fin 3, occ[h] = true) →
              ∃ t, exec (.accessorStatusAnswer acc col occ) s = .next t ∧ (t.acc acc).state = .stalled ∧ (t.acc acc).faults = 2
                ∧ (t.acc acc).column = col
                ∧ (∀ h : Fin 3, (t.acc acc).holders[h] = if occ[h] then .unknown else .empty)
                ∧ t.link = (noticed (settled (.accessor acc)) { kind := .accessorStalled, subject := .accessor acc }).link
                ∧ (s.console.queue.length < 16 → ∃ p, t.console.queue = s.console.queue ++ [p] ∧ p.kind = .fault
                    ∧ p.template = 13 ∧ p.subject = .accessor acc ∧ (t.acc acc).prompt = .up p.num))
            ∧ (col < 80 ∨ 120 ≤ col →
                ∃ t, exec (.accessorStatusAnswer acc col (Vector.replicate 3 false)) s = .next t
                  ∧ lasting t = lasting ((settled (.accessor acc)).updAcc acc (fun x =>
                      { x with state := .idle, column := col, holders := Vector.replicate 3 .empty, faults := 0 })))
            ∧ (80 ≤ col → col ≤ 119 →
                ∃ t, exec (.accessorStatusAnswer acc col (Vector.replicate 3 false)) s = .next t
                  ∧ (t.acc acc).state = .offline ∧ parksAside s t acc
                  ∧ lasting t = lasting ((settled (.accessor acc)).updAcc acc (fun x =>
                      { x with column := col, holders := Vector.replicate 3 .empty })))
            ∧ (o.timer = 0 → ∃ t, exec (.accessorStatusTimeout acc) s = .next t
                ∧ lasting t = lasting (settled (.accessor acc)))

/-- R74, R75, R76, R77, R78: a search joins a QUEUED record and a FREE drive. A drive is a candidate for a record when it is FREE, not
due, and serves its pool. The drive chosen for a record that names none is the best candidate by side, mounts and number; for one that
names a drive it is that drive, when it is a candidate, or, for a CLEAN record, when it is FREE. The record chosen for a drive that is not
due is the oldest of the highest class among the QUEUED ones, none of them CLEAN, whose pool it serves and that name no other drive; for a
due drive it is the CLEAN record that names it. The two are joined with the drive RESERVED, the record STAGED, and its first leg and next
leg made by R78 from its pickup place, which R77 gives: from a station or shelf position to the drive, from a cell to the drive, or to the
shelf or the station on the way; an EJECT's leg goes from there to the station. -/
def Obligations.ReservationJoinsDriveAndRecord : Prop :=
  (∀ (r : Rec) (s : State),
      let col := placeColumn (s.pickup r)
      let side := fun d : Fin 16 => decide ((80 ≤ col ∧ col ≤ 119) ∨ (col < 80 ∧ d.val < 8) ∨ (120 ≤ col ∧ 8 ≤ d.val))
      let fits := fun d : Fin 16 => s.drives[d].state = .free ∧ s.drives[d].due = false ∧ s.drives[d].pools.getLsbD r.pool.val = true
      (r.reqDrive = none →
          (s.chooseDrive r = none ↔ ∀ d, ¬fits d)
            ∧ ∀ d, s.chooseDrive r = some d → fits d ∧ ∀ e, fits e →
                (side e = true → side d = true)
                  ∧ (side e = side d → s.drives[d].mounts < s.drives[e].mounts
                      ∨ (s.drives[d].mounts = s.drives[e].mounts ∧ d.val ≤ e.val)))
        ∧ ∀ d, r.reqDrive = some d →
            (r.kind ≠ .clean → (s.chooseDrive r = some d ↔ fits d) ∧ (s.chooseDrive r = none ↔ ¬fits d))
              ∧ (r.kind = .clean → (s.chooseDrive r = some d ↔ s.drives[d].state = .free)
                  ∧ (s.chooseDrive r = none ↔ s.drives[d].state ≠ .free)))
    ∧ (∀ (d : Fin 16) (s : State),
        let suits := fun q : Rec => q.state = .queued ∧ q.kind ≠ .clean ∧ s.drives[d].pools.getLsbD q.pool.val = true
          ∧ (q.reqDrive = none ∨ q.reqDrive = some d)
        let pinned := fun q : Rec => q.state = .queued ∧ q.kind = .clean ∧ q.reqDrive = some d
        (s.drives[d].due = false →
            (s.chooseRecord d = none ↔ ∀ q ∈ s.recs, ¬suits q)
              ∧ ∀ r, s.chooseRecord d = some r → suits r ∧ ∃ older younger, s.recs = older ++ r :: younger
                  ∧ (∀ q ∈ older, suits q → q.prio < r.prio) ∧ ∀ q ∈ younger, suits q → q.prio ≤ r.prio)
          ∧ (s.drives[d].due = true →
              (s.chooseRecord d = none ↔ ∀ q ∈ s.recs, ¬pinned q)
                ∧ ∀ r, s.chooseRecord d = some r → pinned r ∧ ∃ older younger, s.recs = older ++ r :: younger
                    ∧ ∀ q ∈ older, ¬pinned q))
    ∧ (∀ (r : Rec) (ser : Serial) (e : Entry) (s : State), r.serial = some ser → s.entry? ser = some e →
        (∀ c, e.loc = .misplaced c → s.pickup r = .cell c)
          ∧ (∀ p, e.loc = .atStation p → s.heldAt r.slot = some p → s.pickup r = .station (some p))
          ∧ (∀ p by', e.loc = .onShelf p → s.reelOnShelf r = some (p, by') → s.pickup r = .shelf (some p))
          ∧ (∀ c, e.home = some c → (∀ m, e.loc ≠ .misplaced m) → (∀ p, e.loc = .atStation p → s.heldAt r.slot ≠ some p) →
              (∀ p, e.loc = .onShelf p → ∀ by', s.reelOnShelf r ≠ some (p, by')) → s.pickup r = .cell c))
    ∧ (∀ (r : Rec) (s : State),
        (s.ejectLeg r).src = s.pickup r ∧ (s.ejectLeg r).dst = .station none
          ∧ ∀ c, s.pickup r = .cell c → s.ejectLeg r = legOf r (accOfColumn c.col) (.cell c) (.station none))
    ∧ (∀ (r : Rec) (d : Fin 16) (s : State) (p : Place), (∃ q, p = .station (some q)) ∨ (∃ q, p = .shelf (some q)) →
        s.pickup r = p → s.firstLegs r d = (legOf r (driveAcc d) p (.drive d), none))
    ∧ (∀ (r : Rec) (acc : Acc) (src dst : Place), legOf r acc src dst =
        { acc := acc, src := src, dst := dst, expected := r.serial, prio := r.prio, state := .ready, inHand := false,
          front := false, holder := none, diverted := false, refused := [] })
    ∧ (∀ (r : Rec) (d : Fin 16) (s : State) (c : Cell), s.pickup r = .cell c →
        let near := (80 ≤ c.col ∧ c.col ≤ 119) ∨ (c.col < 80 ∧ d.val < 8) ∨ (120 ≤ c.col ∧ 8 ≤ d.val)
        (r.disposition = some .stationFirst →
            s.firstLegs r d = (legOf r (accOfColumn c.col) (.cell c) (.station none), none))
          ∧ (r.disposition ≠ some .stationFirst → near → s.firstLegs r d = (legOf r (driveAcc d) (.cell c) (.drive d), none))
          ∧ (r.disposition ≠ some .stationFirst → ¬near →
              s.firstLegs r d = (legOf r (accOfColumn c.col) (.cell c) (.shelf none),
                some (legOf r (driveAcc d) (.shelf none) (.drive d)))))
    ∧ ∀ (r : Rec) (slot : Nat) (d : Fin 16) (s : State), calm s → s.rec? slot = some r → r.state = .queued →
        let joined := { s with drives := s.drives.set d { s.drives[d] with state := .reserved, holding := some slot } }.updRec slot
          (fun r => { r with state := .staged, drive := some d, driveClass := some s.drives[d].cls,
                             leg := some (s.firstLegs r d).1, nextLeg := (s.firstLegs r d).2 })
        (s.chooseDrive r = some d → ∃ t, exec (.driveReservation (.forRecord slot)) s = .next t ∧ lasting t = lasting joined)
          ∧ (s.drives[d].state = .free → s.chooseRecord d = some r →
              ∃ t, exec (.driveReservation (.forDrive d)) s = .next t ∧ lasting t = lasting joined)
          ∧ (s.chooseDrive r = none → ∃ t, exec (.driveReservation (.forRecord slot)) s = .next t ∧ lasting t = lasting s)

/-- R1, R9, R70, R83, R86, R87, R92: a FREE drive that is due and for which no CLEAN record is QUEUED makes its cleaning attempt, by the
cleaning reel that R70 chooses: of the list entries with uses left whose reel is HOME or MISPLACED and held by no open record, the one
with the most uses, and of equals the lowest. With a reel and a free slot a CLEAN record is opened and reserved to the drive, and the
CLEAN_SUPPLY prompt is withdrawn when no other drive is in cleaning wait; with a reel and no slot, or no reel, the drive waits; and when
no list entry has uses left, the CLEAN_SUPPLY prompt is raised unless the drive table holds one. A drive in return wait opens its RETURN
record when a slot is free and is sent UNLOAD: it is UNLOADING, but a FAULTED one stays FAULTED, its record in FAULTWAIT with
DRIVE_FAULT; with no slot it waits. Each is said of the command and of the operation that other events use too, at a record-freed event
and a change of the cleaning list. That the two commands do nothing when their step is not due is assumption log 7. -/
def Obligations.DriveTableSteps : Prop :=
  ∀ (d : Fin 16) (s : State),
    let usable := fun x : CleanReel => 1 ≤ x.uses
      ∧ (∃ e, s.entry? x.serial = some e ∧ (e.loc = .home ∨ ∃ c, e.loc = .misplaced c)) ∧ ∀ q ∈ s.recs, q.serial ≠ some x.serial
    let waits := { s with drives := s.drives.set d { s.drives[d] with cleanWait := true } }
    let attempts := fun leaves : State → Prop =>
      leaves (s.cleaningAttempt d) ∧ (calm s → ∃ t, exec (.cleaningAttempt d) s = .next t ∧ leaves t)
    (s.attemptDue d = true ↔ s.drives[d].state = .free ∧ s.drives[d].due = true
        ∧ ∀ q ∈ s.recs, ¬(q.state = .queued ∧ q.kind = .clean ∧ q.reqDrive = some d))
      ∧ (s.cleanChoice = none ↔ ∀ (i : Fin 4) (x : CleanReel), s.cleanList[i] = some x → ¬usable x)
      ∧ (∀ x, s.cleanChoice = some x → usable x ∧ ∃ i : Fin 4, s.cleanList[i] = some x
          ∧ ∀ (j : Fin 4) (y : CleanReel), s.cleanList[j] = some y → usable y → y.uses < x.uses ∨ (y.uses = x.uses ∧ i ≤ j))
      ∧ (s.cleanUsesLeft = true ↔ ∃ (i : Fin 4) (x : CleanReel), s.cleanList[i] = some x ∧ 1 ≤ x.uses)
      ∧ (∀ k, s.freeSlot = some k ↔ k < 64 ∧ (∀ r ∈ s.recs, r.slot ≠ k) ∧ ∀ m < k, ∃ r ∈ s.recs, r.slot = m)
      ∧ (s.attemptDue d = true →
          (∀ reel k, s.cleanChoice = some reel → s.freeSlot = some k → givesUpQuietly s → attempts (fun t =>
              ∃ q : Rec, q.slot = k ∧ q.origin = .internal
                ∧ q.kind = .clean ∧ q.serial = some reel.serial ∧ q.account = 0 ∧ q.prio = 3 ∧ q.reqDrive = some d
                ∧ q.state = .staged ∧ q.drive = some d ∧ q.driveClass = some s.drives[d].cls
                ∧ q.leg = some (s.firstLegs q d).1 ∧ q.nextLeg = (s.firstLegs q d).2 ∧ cleanSupplyLeft s t d
                ∧ lasting { t with console := s.console, cleanPrompt := s.cleanPrompt } = lasting { s with
                    recs := s.recs ++ [q],
                    drives := s.drives.set d { s.drives[d] with state := .reserved, holding := some k, cleanWait := false } }))
            ∧ (∀ reel, s.cleanChoice = some reel → s.freeSlot = none → attempts (fun t => lasting t = lasting waits))
            ∧ (s.cleanChoice = none → s.cleanUsesLeft = true ∨ s.cleanPrompt ≠ .none →
                attempts (fun t => lasting t = lasting waits))
            ∧ (s.cleanChoice = none → s.cleanUsesLeft = false → s.cleanPrompt = .none → s.console.queue.length < 16 →
                attempts (fun t => ∃ x k,
                  askedFor s.console.queue t.console.queue .cleanSupply 14 (.drive x)
                      { serial := none, drive := some x, position := none, account := none } k
                  ∧ (x = d ∨ s.drives[x].cleanWait = true) ∧ (∀ y < x, y ≠ d ∧ s.drives[y].cleanWait = false)
                  ∧ lasting { t with console := s.console } = lasting { waits with cleanPrompt := .up k })))
      ∧ (s.attemptDue d = false → s.cleaningAttempt d = s ∧ exec (.cleaningAttempt d) s = .next { s with sent := [] })
      ∧ (∀ k, s.freeSlot = some k →
          let faulted := s.drives[d].state = .faulted
          let opens := fun t : State => ∃ q : Rec, q.slot = k ∧ q.origin = .internal ∧ q.kind = .ret
            ∧ q.serial = none ∧ q.state = (if faulted then .faultwait else .unloading)
            ∧ q.outcome = (if faulted then some .driveFault else none) ∧ q.drive = some d ∧ .unload d ∈ t.sent
            ∧ lasting t = lasting { s with
                recs := s.recs ++ [q],
                drives := s.drives.set d { s.drives[d] with
                  state := if faulted then .faulted else .unloading, holding := some k, returnWait := false } }
          opens (s.returnOpen d)
            ∧ (s.drives[d].returnWait = true → calm s → ∃ t, exec (.returnRecordOpen d) s = .next t ∧ opens t))
      ∧ (s.freeSlot = none →
          s.returnOpen d = { s with drives := s.drives.set d { s.drives[d] with returnWait := true } })
      ∧ (s.drives[d].returnWait = false ∨ s.freeSlot = none → exec (.returnRecordOpen d) s = .next { s with sent := [] })

/-! ## Accessors -/

/-- R117, R118, R131, R147: ACCESSOR_SET, ACCESSOR_OFFLINE, ACCESSOR_ONLINE and ACCESSOR_RECOVER by the accessor's state. ONLINE makes a
STATUS, and RECOVER a RECOVER, the next order of the accessor; OFFLINE and RECOVER withdraw its FAULT prompt, and OFFLINE ends the trip
of a STALLED one, whose legs go back to their queue READY with the front mark and without their reservations, and whose failed scan is
handed back to its owner: the audit goes on, SUSPENDED from SUSPENDING, or ends by a pending abort with AUDIT_DONE raised (R131), and a
station scan is requested again unless its supply has ended (R147). Held back for the zone lock means standing in its wait list
(assumption log 52). That the limits are checked before the state is assumption log 26, and that RECOVER with no prompt is DONE is
assumption log 25. -/
def Obligations.AccessorOperations : Prop :=
  ∀ (tag : Tag) (n : Nat) (acc : Acc) (x : AccessorArgs) (s : State), ready s → accOfCode n = some acc →
    let st := (s.acc acc).state
    let limits := x.pick ≠ 0 ∧ x.place ≠ 0 ∧ x.scan ≠ 0 ∧ x.recover ≠ 0
    let waiting := fun op : OrderOp => (∃ o, (s.acc acc).order = some o ∧ o.op = op)
      ∨ ((s.acc acc).todo = some op ∧ acc ∈ s.rail.zoneWait)
    let empty := ∀ h : Fin 3, (s.acc acc).holders[h] = .empty
    let unprompted := fun f : AccRec → AccRec => s.updAcc acc (fun r => { f r with prompt := .none })
    (¬limits → exec (.accessorSet tag n x) s = .next (answered s (replyFrame 0x40 tag .badArgument .nothing)))
      ∧ (limits → st = .gathering ∨ st = .running ∨ st = .waitingZone →
          exec (.accessorSet tag n x) s = .next (answered s (replyFrame 0x40 tag .busy .nothing)))
      ∧ (limits → st = .idle ∨ st = .stalled ∨ st = .offline → calm s →
          ∃ t, exec (.accessorSet tag n x) s = .next t
            ∧ lasting t = lasting (answered (s.updAcc acc (fun r =>
                { r with
                  gather := x.gather, limPick := x.pick, limPlace := x.place, limScan := x.scan, limRecover := x.recover }))
                (replyFrame 0x40 tag .done .nothing)))
      ∧ (st = .offline → exec (.accessorOffline tag n) s = .next (answered s (replyFrame 0x41 tag .done .nothing)))
      ∧ (st = .idle → (s.acc acc).scan = none → (s.acc acc).trip = none → (s.acc acc).prompt = .none → calm s →
          ∃ t, exec (.accessorOffline tag n) s = .next t
            ∧ lasting t = lasting (answered (s.updAcc acc (fun r => { r with state := .offline, faults := 0, failed := none }))
                (replyFrame 0x41 tag .done .nothing)))
      ∧ (st = .stalled → empty → ¬waiting .recover → calm s → s.rail.shelfWait = [] →
          s.station.resWait = [] → s.station.supplyWait = [] →
          (∀ r ∈ s.recs, ∀ l, r.leg = some l → l.state = .assigned → l.holder = none) → nothingOwed (unprompted (fun r => r)) →
          let left := answered (unprompted (fun r => { r with state := .offline, faults := 0, failed := none }))
            (replyFrame 0x41 tag .done .nothing)
          let back := fun t : State => ∀ tr m l, (s.acc acc).trip = some tr → m ∈ tr.legs → ownLeg s acc m l → l.state = .assigned →
            backInQueue s t acc m l
          let scanned := fun x : Audit => (∃ c, (s.acc acc).scan = some (.cell c)) ∧ s.audits.get acc = some x ∧ x.state ≠ .done
          let lasts := fun t : State =>
            ((∀ x, scanned x → x.abortPending = false) → lasting t = lasting left)
              ∧ ∀ x, scanned x → x.abortPending = true → lasting t = lasting (noticed
                  { left with
                    audits := s.audits.set acc (some { x with
                      state := .done, endedBy := some .abort, cursor := none, skip := [], inFlight := false, abortPending := false }),
                    dir := s.dir.map (fun e =>
                      if e.verif = .auditPending ∧ ∃ k, e.home = some k ∧ inRange x.first x.last k = true then
                        { e with verif := .unverified }
                      else e) }
                  { kind := .auditDone, subject := .accessor acc })
          let handedBack := fun t : State => (t.acc acc).scan = none
            ∧ (∀ x, scanned x → x.abortPending = false → ∃ st, t.audits.get acc = some { x with state := st, inFlight := false }
                ∧ (x.state = .scanning → (s.acc acc).trip = none → st = .scanning) ∧ (x.state ≠ .scanning → st = .suspended))
            ∧ (∀ p kind, (s.acc acc).scan = some (.station p kind false) → (∀ q ∈ s.rail.scanReqs, q.pos ≠ p) →
                (∃ q ∈ t.rail.scanReqs, q.pos = p ∧ q.kind = kind) ∨ ∃ who, (t.acc who).scan = some (.station p kind false))
            ∧ ((∀ p kind, (s.acc acc).scan ≠ some (.station p kind false)) → ∀ q ∈ t.rail.scanReqs, q ∈ s.rail.scanReqs)
          (∀ k, (s.acc acc).prompt = .up k → (∃ y, s.prompt? k = some y ∧ y.block = .railScheduler) →
              ∃ t, exec (.accessorOffline tag n) s = .next t ∧ t.console.queue = s.console.queue.filter (fun y => y.num ≠ k)
                ∧ (t.acc acc).trip = none ∧ back t ∧ handedBack t ∧ lasts { t with console := s.console })
            ∧ ((∀ k, (s.acc acc).prompt ≠ .up k) →
                ∃ t, exec (.accessorOffline tag n) s = .next t ∧ (t.acc acc).trip = none ∧ back t ∧ handedBack t ∧ lasts t))
      ∧ (st = .gathering ∨ st = .running ∨ st = .waitingZone ∨ (st = .idle ∧ (s.acc acc).scan ≠ none)
            ∨ (st = .stalled ∧ (¬empty ∨ waiting .recover)) →
          exec (.accessorOffline tag n) s = .next (answered s (replyFrame 0x41 tag .busy .nothing)))
      ∧ (st = .offline → ¬waiting .status → ¬waiting .park →
          exec (.accessorOnline tag n) s =
            .next (answered (s.updAcc acc (fun r => { r with todo := some .status })) (replyFrame 0x42 tag .done .nothing)).commit)
      ∧ (st = .idle → exec (.accessorOnline tag n) s = .next (answered s (replyFrame 0x42 tag .done .nothing)))
      ∧ ((st ≠ .offline ∧ st ≠ .idle) ∨ (st = .offline ∧ (waiting .status ∨ waiting .park)) →
          exec (.accessorOnline tag n) s = .next (answered s (replyFrame 0x42 tag .busy .nothing)))
      ∧ (st = .stalled → (s.acc acc).order = none → (s.acc acc).prompt = .none →
          exec (.accessorRecover tag n) s =
            .next (answered (s.updAcc acc (fun r => { r with todo := some .recover })) (replyFrame 0x43 tag .done .nothing)).commit)
      ∧ (∀ k, st = .stalled → (s.acc acc).order = none → (s.acc acc).prompt = .up k →
          (∃ y, s.prompt? k = some y ∧ y.block = .railScheduler) → nothingOwed (unprompted (fun r => r)) →
          ∃ u : State, exec (.accessorRecover tag n) s = .next u.commit
            ∧ u.console.queue = s.console.queue.filter (fun y => y.num ≠ k)
            ∧ { u with console := s.console } =
                answered (unprompted (fun r => { r with todo := some .recover })) (replyFrame 0x43 tag .done .nothing))
      ∧ (st = .idle ∨ st = .offline →
          exec (.accessorRecover tag n) s = .next (answered s (replyFrame 0x43 tag .badArgument .nothing)))
      ∧ (st = .gathering ∨ st = .running ∨ st = .waitingZone ∨ (st = .stalled ∧ (s.acc acc).order ≠ none) →
          exec (.accessorRecover tag n) s = .next (answered s (replyFrame 0x43 tag .busy .nothing)))
      ∧ ∀ m, 2 ≤ m →
          exec (.accessorSet tag m x) s = .next (answered s (replyFrame 0x40 tag .badArgument .nothing))
            ∧ exec (.accessorOffline tag m) s = .next (answered s (replyFrame 0x41 tag .badArgument .nothing))
            ∧ exec (.accessorOnline tag m) s = .next (answered s (replyFrame 0x42 tag .badArgument .nothing))
            ∧ exec (.accessorRecover tag m) s = .next (answered s (replyFrame 0x43 tag .badArgument .nothing))

/-! ## Trips, orders and positions -/

/-- R95, R97 to R102: a leg that becomes READY joins its accessor's queue behind the legs that stand ahead of it: those of a higher
class, and of its own class those with the front mark and, when it has no front mark itself, those of older records. A free accessor,
IDLE with no scan in flight and QUIESCE not active, opens a trip when its queue holds an eligible leg: one that no audit holds back by
its yield class, with no end at the station while the latch is OPEN, and whose shelf or station position can be reserved. The eligible
legs join in queue order while the trip holds fewer than three, each ASSIGNED, out of the queue, without its front mark and with the
lowest EMPTY position reserved, and no leg that is not eligible joins; a leg is passed over only when it is not eligible or the legs that
joined ahead of it have taken every position it needs, and keeps its place in the queue. More join so while it gathers. A window that has
counted out starts the trip, or, while QUIESCE is active, sets its run-out mark and leaves it GATHERING; and the start puts the pickups
first, nearest to the accessor first, then the drops, nearest to the last pickup first. No other leg, position, queue or accessor, no
audit, and neither the zone lock nor a wait list is changed by the opening or the joining. Each command does its own step alone, and
changes nothing but the list of sent orders when it is not due: TRIP_OPEN with the accessor not free or no leg eligible; LEG_JOINS_TRIP
outside GATHERING, with three legs in the trip, or with no leg eligible; TRIP_START outside GATHERING, during QUIESCE, or with the window
not run out, fewer than three legs and none of class 3; GATHER_WINDOW_EXPIRY outside GATHERING, with the window still counting, or with
the run-out mark set (assumption logs 7 and 8). -/
def Obligations.TripsGatherAndStart : Prop :=
  ∀ (acc : Acc) (s : State),
    let queue := s.rail.queues.get acc
    let nothing := fun c : Instr => exec c s = .next { s with sent := [] }
    let startDue := fun tr : Trip =>
      tr.runOut = true ∨ 3 ≤ tr.legs.length ∨ ∃ m ∈ tr.legs, ∃ l, s.leg? m = some l ∧ l.prio = 3
    let others := fun (t : State) (legs : List Nat) =>
      t.acc (otherAcc acc) = s.acc (otherAcc acc) ∧ t.rail.queues.get (otherAcc acc) = s.rail.queues.get (otherAcc acc)
        ∧ t.rail.zone = s.rail.zone ∧ t.rail.zoneWait = s.rail.zoneWait ∧ t.rail.scanReqs = s.rail.scanReqs
        ∧ t.rail.shelfWait = s.rail.shelfWait ∧ t.station.resWait = s.station.resWait ∧ t.audits = s.audits
        ∧ (∀ m, m ∉ legs → t.rec? m = s.rec? m)
        ∧ (∀ p : Fin 4, t.rail.shelf[p] = s.rail.shelf[p]
            ∨ (s.rail.shelf[p] = .empty ∧ ∃ k ∈ legs, t.rail.shelf[p] = .reserved (.record k)))
        ∧ ∀ p : Fin 8, t.station.pos[p] = s.station.pos[p]
            ∨ (s.station.pos[p].state = .empty
                ∧ ∃ k ∈ legs, t.station.pos[p] = { StationPos.initial with state := .reserved (.record k) })
    let takes := fun (t : State) (legs : List Nat) (room : Nat) =>
      legs.Sublist queue ∧ legs.length ≤ room ∧ t.rail.queues.get acc = queue.filter (fun m => m ∉ legs)
        ∧ (∀ m ∈ legs, s.eligible acc m = true) ∧ others t legs
        ∧ (∀ m ∈ legs, ∃ j dst, s.leg? m = some j ∧ t.leg? m = some { j with state := .assigned, front := false, dst := dst }
            ∧ (j.dst = .shelf none → ∃ p : Fin 4, dst = .shelf (some p) ∧ s.rail.shelf[p] = .empty
                ∧ t.rail.shelf[p] = .reserved (.record m) ∧ ∀ q < p, t.rail.shelf[q] ≠ .empty)
            ∧ (j.dst = .station none → ∃ p : Fin 8, dst = .station (some p) ∧ s.station.pos[p].state = .empty
                ∧ t.station.pos[p].state = .reserved (.record m) ∧ ∀ q < p, t.station.pos[q].state ≠ .empty)
            ∧ (j.dst ≠ .shelf none → j.dst ≠ .station none → dst = j.dst))
        ∧ ∃ seen left, queue = seen ++ left ∧ (∀ m ∈ legs, m ∈ seen) ∧ (left = [] ∨ legs.length = room)
            ∧ ∀ m ∈ seen, m ∉ legs → s.eligible acc m = false
              ∨ ∃ ahead behind l, queue = ahead ++ m :: behind ∧ s.leg? m = some l
                ∧ ((l.dst = .shelf none ∧ ∀ p : Fin 4, s.rail.shelf[p] = .empty →
                      ∃ k ∈ ahead, k ∈ legs ∧ t.rail.shelf[p] = .reserved (.record k))
                  ∨ (l.dst = .station none ∧ ∀ p : Fin 8, s.station.pos[p].state = .empty →
                      ∃ k ∈ ahead, k ∈ legs ∧ t.station.pos[p].state = .reserved (.record k)))
    (s.free acc = true ↔ (s.acc acc).state = .idle ∧ (s.acc acc).scan = none ∧ s.rail.quiesce = false)
      ∧ (∀ m, s.eligible acc m = true ↔ ∃ l, s.leg? m = some l
          ∧ (∀ x, s.audits.get acc = some x → x.state ≠ .done → x.yieldClass ≤ l.prio.val)
          ∧ (s.station.latchOpen = true → ∀ p, l.src ≠ .station p ∧ l.dst ≠ .station p)
          ∧ (l.dst = .shelf none → ∃ p : Fin 4, s.rail.shelf[p] = .empty)
          ∧ (l.dst = .station none → ∃ p : Fin 8, s.station.pos[p].state = .empty))
      ∧ (s.free acc = true → (∃ m ∈ queue, s.eligible acc m = true) →
          ∃ t legs, exec (.tripOpen acc) s = .next t ∧ legs ≠ [] ∧ takes t legs 3 ∧ t.sent = [] ∧ lasting t = lasting s
            ∧ t.acc acc = { s.acc acc with
                state := .gathering,
                trip := some { legs := legs, putBacks := [], stops := [], window := (s.acc acc).gather,
                               runOut := decide ((s.acc acc).gather = 0) } })
      ∧ (s.free acc = false ∨ (∀ m ∈ queue, s.eligible acc m = false) → nothing (.tripOpen acc))
      ∧ ((s.acc acc).state ≠ .gathering ∨ (∃ tr, (s.acc acc).trip = some tr ∧ 3 ≤ tr.legs.length)
            ∨ (∀ m ∈ queue, s.eligible acc m = false) → nothing (.legJoinsTrip acc))
      ∧ ((s.acc acc).state ≠ .gathering ∨ s.rail.quiesce = true ∨ (∀ tr, (s.acc acc).trip = some tr → ¬startDue tr) →
          nothing (.tripStart acc))
      ∧ ((s.acc acc).state ≠ .gathering ∨ (∀ tr, (s.acc acc).trip = some tr → tr.window ≠ 0 ∨ tr.runOut = true) →
          nothing (.gatherWindowExpiry acc))
      ∧ (∀ tr, (s.acc acc).state = .gathering → (s.acc acc).trip = some tr →
          ∃ t legs, exec (.legJoinsTrip acc) s = .next t ∧ takes t legs (3 - tr.legs.length) ∧ t.sent = [] ∧ lasting t = lasting s
            ∧ t.acc acc = { s.acc acc with trip := some { tr with legs := tr.legs ++ legs } })
      ∧ (∀ tr, (s.acc acc).state = .gathering → (s.acc acc).trip = some tr → tr.window = 0 → tr.runOut = false →
          exec (.gatherWindowExpiry acc) s =
            .next ({ s with sent := [] }.updAcc acc (fun x => { x with trip := some { tr with runOut := true } })).commit)
      ∧ (∀ tr, calm s → (s.acc acc).state = .gathering → (s.acc acc).trip = some tr → tr.window = 0 → tr.runOut = false →
          s.rail.quiesce = true ∨ (tr.legs ≠ [] ∧ ∀ m ∈ tr.legs, (s.leg? m).isSome = true) →
          ∃ t tr' more, exec (.gatherWindowExpiry acc) s = .next t ∧ (t.acc acc).trip = some tr' ∧ tr'.legs = tr.legs ++ more
            ∧ tr'.window = 0 ∧ tr'.runOut = true
            ∧ (s.rail.quiesce = true → (t.acc acc).state = .gathering)
            ∧ (s.rail.quiesce = false →
                ((t.acc acc).state = .running ∨ (t.acc acc).state = .waitingZone) ∧ tr'.stops ≠ []))
      ∧ (∀ tr, (s.acc acc).state = .gathering → s.rail.quiesce = false → (s.acc acc).trip = some tr → tr.legs ≠ [] →
          (∀ m ∈ tr.legs, (s.leg? m).isSome = true) → startDue tr →
          ∃ (picks places : List Nat) (last : Leg),
            exec (.tripStart acc) s =
              .next ({ s with sent := [] }.updAcc acc (fun x => { x with state := .running, trip := some { tr with
                window := 0, stops := picks.map (fun m => (⟨.pick, .record m⟩ : Stop))
                  ++ places.map (fun m => (⟨.place, .record m⟩ : Stop)) } }))
              ∧ picks.Perm tr.legs ∧ places.Perm tr.legs ∧ picks.getLast?.bind s.leg? = some last
              ∧ picks.Pairwise (fun m k => ∀ l j, s.leg? m = some l → s.leg? k = some j →
                  nearer (s.acc acc).column l.src j.src = true)
              ∧ places.Pairwise (fun m k => ∀ l j, s.leg? m = some l → s.leg? k = some j →
                  nearer (placeColumn last.src) l.dst j.dst = true))
      ∧ (∀ (n : Nat) (l : Leg), s.leg? n = some l →
          let t := s.legReady n
          let ahead := fun m : Nat => ∀ j, s.leg? m = some j → l.prio < j.prio
            ∨ (j.prio = l.prio ∧ (j.front = true ∨ (l.front = false ∧ s.agePlace m < s.agePlace n)))
          t.leg? n = some { l with state := .ready } ∧ t.rail.queues.get (otherAcc l.acc) = s.rail.queues.get (otherAcc l.acc)
            ∧ ∃ before after, s.rail.queues.get l.acc = before ++ after ∧ t.rail.queues.get l.acc = before ++ n :: after
                ∧ (∀ m ∈ before, ahead m) ∧ ∀ m, after.head? = some m → ¬ahead m)
      ∧ ∀ (base : Nat) (p q : Place), nearer base p q = true ↔
          distance (placeColumn p) base < distance (placeColumn q) base
            ∨ (distance (placeColumn p) base = distance (placeColumn q) base
                ∧ (placeColumn p < placeColumn q ∨ (placeColumn p = placeColumn q ∧ placeNumber p ≤ placeNumber q)))

/-- R94, R97, R103, R110, R111, R112, R134, R136: the order of a stop is sent when its gates allow it, with the zone lock taken for a column
in 80..119, its holder named and its motion-limit timer at the limit of its kind, and a PICK's leg is then in hand; an OPEN guard or latch
holds it back, and a lock held by the other accessor makes the accessor wait for it. An order outside the stops, a SCAN, a PARK to the own
side, a RECOVER or a STATUS, passes the same gates (assumption log 16): it goes to its column under its limit, PARK under the PLACE and
STATUS under the PICK limit, and a PARK needs the lock while the accessor stands in 80..119. A stop whose PLACE needs a position not yet
reserved has the lowest EMPTY one reserved; with none EMPTY it moves behind the others; and when no stop left can have one the accessor
waits, one of its stops in the wait list of its position, none joining when one of the trip stands there already, and one that holds the
lock is sent a PARK first (assumption log 14). -/
def Obligations.OrdersPassTheirGates : Prop :=
  (∀ (acc : Acc) (n : Nat) (l : Leg) (x : Stop) (rest : List Stop) (h : Fin 3) (s : State),
    (s.acc acc).order = none → (s.acc acc).todo = none → (s.acc acc).state = .running ∨ (s.acc acc).state = .waitingZone →
    s.stops acc = x :: rest → x.ref = .record n → s.leg? n = some l →
    let place := match x.op with
      | .pick => l.src
      | .place => l.dst
    let holder := match x.op with
      | .pick => (s.acc acc).emptyHolder
      | .place => l.holder
    let col := placeColumn place
    let middle := 80 ≤ col ∧ col ≤ 119
    (x.op = .place → l.dst ≠ .shelf none ∧ l.dst ≠ .station none) → holder = some h →
    (s.guardOpen col = false → (col = 100 → s.station.latchOpen = false) →
        ¬middle ∨ s.rail.zone = some acc ∨ (s.rail.zone = none ∧ s.rail.middleOpen = false) →
        ∃ (t : State) (o : Order), exec (.orderSend acc) s = .next t
          ∧ o.op = (match x.op with
              | .pick => .pick n
              | .place => .place (.record n))
          ∧ o.col = col ∧ o.place = some place ∧ o.holder = some h
          ∧ o.timer = (match x.op with
              | .pick => (s.acc acc).limPick
              | .place => (s.acc acc).limPlace)
          ∧ t.sent = [.accessor acc o] ∧ t.acc acc = { s.acc acc with state := .running, order := some o }
          ∧ t.leg? n = some (match x.op with
              | .pick => { l with inHand := true }
              | .place => l)
          ∧ t.rail.zone = (if middle then some acc else s.rail.zone) ∧ lasting t = lasting s)
      ∧ (s.guardOpen col = true ∨ (col = 100 ∧ s.station.latchOpen = true) →
          ∃ t, exec (.orderSend acc) s = .next t ∧ t.sent = [] ∧ (t.acc acc).order = none ∧ lasting t = lasting s)
      ∧ (middle → s.rail.zone = some (otherAcc acc) →
          ∃ t, exec (.orderSend acc) s = .next t ∧ t.sent = [] ∧ (t.acc acc).state = .waitingZone
            ∧ t.rail.zone = some (otherAcc acc)
            ∧ t.rail.zoneWait = (if acc ∈ s.rail.zoneWait then s.rail.zoneWait else s.rail.zoneWait ++ [acc]) ∧ lasting t = lasting s))
    ∧ (∀ (acc : Acc) (o : Order) (s : State), (s.acc acc).order = none → (s.acc acc).todo = some o.op → o.holder = none →
        let x := s.acc acc
        (o.op = .scan ∧ o.timer = x.limScan
            ∧ ((∃ c, x.scan = some (.cell c) ∧ o.place = some (.cell c) ∧ o.col = c.col)
              ∨ ∃ p k late, x.scan = some (.station p k late) ∧ o.place = some (.station (some p)) ∧ o.col = 100))
          ∨ (o.op = .park ∧ o.timer = x.limPlace ∧ o.place = none ∧ o.col = (if acc = .a then 79 else 120))
          ∨ (o.op = .recover ∧ o.timer = x.limRecover ∧ o.place = none ∧ o.col = x.column)
          ∨ (o.op = .status ∧ o.timer = x.limPick ∧ o.place = none ∧ o.col = x.column) →
        let at' := if o.op = .park then x.column else o.col
        let lock := 80 ≤ at' ∧ at' ≤ 119
        let unsent := fun t : State => t.sent = [] ∧ (t.acc acc).order = none ∧ (t.acc acc).todo = some o.op ∧ lasting t = lasting s
        (s.guardOpen o.col = false → (o.col = 100 → s.station.latchOpen = false) →
            ¬lock ∨ s.rail.zone = some acc ∨ (s.rail.zone = none ∧ s.rail.middleOpen = false) →
            ∃ t, exec (.orderSend acc) s = .next t ∧ t.sent = [.accessor acc o]
              ∧ t.acc acc = { x with
                  state := if x.state = .waitingZone then .running else x.state, order := some o, todo := none }
              ∧ t.rail.zone = (if lock then some acc else s.rail.zone) ∧ lasting t = lasting s)
          ∧ (s.guardOpen o.col = true ∨ (o.col = 100 ∧ s.station.latchOpen = true) →
              ∃ t, exec (.orderSend acc) s = .next t ∧ unsent t)
          ∧ (lock → s.rail.zone = some (otherAcc acc) ∨ (s.rail.zone = none ∧ s.rail.middleOpen = true) →
              ∃ t, exec (.orderSend acc) s = .next t ∧ unsent t ∧ t.rail.zone = s.rail.zone
                ∧ (t.acc acc).state = (if x.state = .running then .waitingZone else x.state)
                ∧ t.rail.zoneWait = (if acc ∈ s.rail.zoneWait then s.rail.zoneWait else s.rail.zoneWait ++ [acc])))
    ∧ ∀ (acc : Acc) (x : Stop) (rest : List Stop) (s : State), (s.acc acc).order = none → (s.acc acc).todo = none →
        (s.acc acc).state = .running ∨ (s.acc acc).state = .waitingZone → s.stops acc = x :: rest →
        let toShelf := fun y : Stop => y.op = .place ∧ s.dstOf y.ref = some (.shelf none)
        let toStation := fun y : Stop => y.op = .place ∧ s.dstOf y.ref = some (.station none)
        let noShelf := ∀ p : Fin 4, s.rail.shelf[p] ≠ .empty
        let noStation := ∀ p : Fin 8, s.station.pos[p].state ≠ .empty
        let same := fun u : State => exec (.orderSend acc) s = exec (.orderSend acc) u
        let stuck := fun y : Stop => (toShelf y ∧ noShelf) ∨ (toStation y ∧ noStation)
        (∀ p : Fin 4, toShelf x → s.rail.shelf[p] = .empty → (∀ q < p, s.rail.shelf[q] ≠ .empty) →
            same ((s.setShelf p (.reserved x.ref)).setDst x.ref (.shelf (some p))))
          ∧ (∀ p : Fin 8, toStation x → s.station.pos[p].state = .empty → (∀ q < p, s.station.pos[q].state ≠ .empty) →
              same ((s.updPos p (fun _ => { StationPos.initial with state := .reserved x.ref })).setDst x.ref (.station (some p))))
          ∧ (stuck x → (∃ y ∈ rest, ¬toShelf y ∧ ¬toStation y) → same (s.updStops acc (fun _ => rest ++ [x])))
          ∧ ((∀ y ∈ x :: rest, stuck y) →
              let stands := ∃ y ∈ x :: rest, y.ref ∈ s.rail.shelfWait ∨ y.ref ∈ s.station.resWait
              let u : State := { s with
                sent := [],
                rail := { s.rail with shelfWait := s.rail.shelfWait ++ (if ¬stands ∧ toShelf x then [x.ref] else []) },
                station := { s.station with resWait := s.station.resWait ++ (if ¬stands ∧ toStation x then [x.ref] else []) } }
              (s.rail.zone ≠ some acc → exec (.orderSend acc) s = .next u)
                ∧ (s.rail.zone = some acc → same (u.updAcc acc (fun r => { r with todo := some .park }))))

/-- R97, R98, R110, R136, R137, R138: the zone lock, when it is free and GUARD_MIDDLE CLOSED, goes to the accessor that has
waited longest; an EMPTY shelf position goes to the stop that has waited longest; an EMPTY station position to the first of
the reservation wait list, then of the supply wait list, whose record then expects its reel there and has its SUPPLY prompt
asked for. A free accessor takes the oldest station scan while the latch is CLOSED and sends it under the zone lock. That
these commands do their own step alone, and nothing when it is not due, is assumption log 7. -/
def Obligations.LockPositionsAndScans : Prop :=
  ∀ (s : State),
    (∀ who others, s.rail.zoneWait = who :: others →
        (s.rail.zone = none → s.rail.middleOpen = false →
            ∃ t, exec .zoneLockGrant s = .next t ∧ t.rail.zone = some who ∧ t.rail.zoneWait = others
              ∧ (t.acc who).state ≠ .waitingZone ∧ lasting t = lasting s)
          ∧ (s.rail.zone ≠ none ∨ s.rail.middleOpen = true → exec .zoneLockGrant s = .next { s with sent := [] }))
      ∧ (∀ (p : Fin 4) ref rest l, s.rail.shelf[p] = .empty → (∀ q < p, s.rail.shelf[q] ≠ .empty) → s.rail.shelfWait = ref :: rest →
        s.dstOf ref = some l →
        ∃ t, exec .shelfPositionClaim s = .next t ∧ t.rail.shelf = s.rail.shelf.set p (.reserved ref)
          ∧ t.rail.shelfWait = rest ∧ t.dstOf ref = some (.shelf (some p)) ∧ t.station = s.station)
      ∧ (s.rail.shelfWait = [] ∨ (∀ p : Fin 4, s.rail.shelf[p] ≠ .empty) →
          exec .shelfPositionClaim s = .next { s with sent := [] })
      ∧ (∀ p : Fin 8, s.station.pos[p].state = .empty → (∀ q < p, s.station.pos[q].state ≠ .empty) →
          (∀ ref rest l, s.station.resWait = ref :: rest → s.dstOf ref = some l →
              ∃ t, exec .stationPositionClaim s = .next t ∧ t.station.pos[p].state = .reserved ref ∧ t.station.resWait = rest
                ∧ t.dstOf ref = some (.station (some p)) ∧ t.rail.shelf = s.rail.shelf)
            ∧ (∀ slot rest r, s.station.resWait = [] → s.station.supplyWait = slot :: rest → s.rec? slot = some r →
                s.console.queue.length < 16 →
                ∃ t q, exec .stationPositionClaim s = .next t ∧ t.station.supplyWait = rest
                  ∧ t.console.queue = s.console.queue ++ [q] ∧ q.kind = .supply ∧ q.subject = .slot slot
                  ∧ q.fields.position = some p ∧ q.fields.serial = r.serial ∧ q.template = r.template
                  ∧ t.station.pos[p] = { state := .expecting slot, owner := none, flow := some .supply, misses := 0,
                                         scan := .none, prompt := .up q.num }
                  ∧ t.recs = s.recs))
      ∧ (∀ acc q rest, s.free acc = true → s.station.latchOpen = false → s.rail.scanReqs = q :: rest → (s.acc acc).order = none →
          s.rail.middleOpen = false → s.rail.zone = none ∨ s.rail.zone = some acc →
          ∃ t, exec (.stationScanTaken acc) s = .next t ∧ t.rail.scanReqs = rest
            ∧ (t.acc acc).scan = some (.station q.pos q.kind false) ∧ t.station.pos[q.pos].scan = .inFlight q.kind
            ∧ t.rail.zone = some acc
            ∧ t.sent = [.accessor acc { op := .scan, col := 100, place := some (.station (some q.pos)), holder := none,
                                        timer := (s.acc acc).limScan }]
            ∧ lasting t = lasting s)
      ∧ ∀ acc, s.free acc = false ∨ s.station.latchOpen = true ∨ s.rail.scanReqs = [] →
          exec (.stationScanTaken acc) s = .next { s with sent := [] }

/-! ## Completions -/

/-- R15, R19, R56, R57, R79, R84, R97, R104, R105, R130, R136: a PICK completion by what it reads and where. The expected serial: the
reel is aboard and its leg ABOARD in the holder, its entry IN_TRANSIT there and VERIFIED, any other entry with that place MISSING, and
each audit with its home cell ahead skips it when it was AUDIT_PENDING; a drive picked from is released, a shelf or station position
picked from is EMPTY. EMPTY, at any place: the expected entry is MISSING and the record ends with VOLUME_MISSING. Another serial at a
cell: the record ends with WRONG_VOLUME, the reel read is recorded found there and is aboard to be put back by the next stop; at a drive,
shelf or station position, the leg takes it to the station with WRONG_VOLUME, its entry IN_TRANSIT unless another open record holds it.
The PICK of a RETURN record takes the reel whose label it reads: with the home cell near, or on the opposite side and a shelf position
EMPTY, its leg goes there or to the shelf; otherwise, and with no home cell, no entry, or an entry that another open record holds, to the
station. A released drive finds nothing to take up here. The PICK stop leaves the trip's stops and the leg stays in the trip; where the
record ends, its leg leaves the trip with both its stops, and the put-back's PLACE stands next (R105). A record that ends is charged to
its account (R170 to R173). That an older pair for the cell gives way to the new one is assumption log 61; with no PICK in flight the
completion is discarded (assumption log 10). -/
def Obligations.PickCompletion : Prop :=
  ∀ (acc : Acc) (o : Order) (n : Nat) (l : Leg) (r : Rec) (h : Fin 3) (y : Serial) (s : State), calm s →
    let col := fun (u : State) => u.updAcc acc (fun x => { x with column := o.col })
    let holds := fun (z : Serial) (u : State) => u.updAcc acc (fun x => { x with holders := x.holders.set h (.reel z) })
    let moved := fun (z : Serial) (e : Entry) (u : State) => { u with
      dir := dirMoved u.dir z (.inTransit acc h) (fun f => { f with verif := .verified }),
      audits := { a := u.audits.a.map (skipsPicked e), b := u.audits.b.map (skipsPicked e) } }
    let fromDrive : Bool := match l.src with
      | .drive _ => true
      | _ => false
    let released := fun (u : State) => match r.drive with
      | some d => { u with drives := s.drives.set d { s.drives[d] with
          state := if s.drives[d].state = .faulted then .faulted else .free, holding := none,
          reel := if fromDrive = true then false else s.drives[d].reel } }
      | none => u
    let left := fun (u : State) => match l.src with
      | .shelf (some p) => { u with rail := { u.rail with shelf := u.rail.shelf.set p .empty } }
      | .station (some p) => u.updPos p (fun _ => StationPos.initial)
      | .drive _ => released u
      | _ => u
    let heldElsewhere := fun z : Serial => ∃ q ∈ s.recs, q.serial = some z ∧ q.slot ≠ n
    let quiet := noClaims s ∧ ∀ d, r.drive = some d → findsNothing s d
    let aboard := fun t : State => (∀ who, n ∉ s.rail.queues.get who) → (t.leg? n).map (·.state) = some .aboard
    let done : Stop := ⟨.pick, .record n⟩
    ((∀ o m, (s.acc acc).order = some o → o.op ≠ .pick m) → ∀ label, exec (.pickCompletion acc label) s = .next { s with sent := [] })
      ∧ (∀ tr, (s.acc acc).order = some o → o.op = .pick n → o.holder = some h → s.rec? n = some r → r.leg = some l → l.acc = acc →
          (s.acc acc).trip = some tr → (s.acc acc).state ≠ .gathering →
          let less := tripLess tr (.record n)
          (∀ z, (∀ c x, l.src = .cell c → l.expected = some x → z = x) →
              leavesTrip (.pickCompletion acc (some z)) s acc (tr.legs, tr.stops.filter (fun x => x ≠ done)))
            ∧ leavesTrip (.pickCompletion acc none) s acc less
            ∧ ∀ c x z, l.src = .cell c → l.expected = some x → z ≠ x →
                leavesTrip (.pickCompletion acc (some z)) s acc (less.1, ⟨.place, .putBack acc h⟩ :: less.2))
      ∧ ((s.acc acc).order = some o → o.op = .pick n → o.holder = some h → s.rec? n = some r → r.leg = some l → l.acc = acc → quiet →
          (∀ e, l.expected = some y → s.entry? y = some e →
              ∃ t, exec (.pickCompletion acc (some y)) s = .next t ∧ aboard t
                ∧ lasting t = lasting (left (moved y e (holds y (col (s.updRec n (fun r => { r with
                    drive := if fromDrive = true then none else r.drive, leg := some { l with holder := some h } })))))))
            ∧ (s.link.available < 2 →
                ∃ t, exec (.pickCompletion acc none) s = .next t
                  ∧ endsIn t (left (released { col s with dir := dirMissing s.dir l.expected })) r .volumeMissing)
            ∧ (∀ c x z tr, l.src = .cell c → l.expected = some x → z ≠ x → s.link.available < 2 → (s.acc acc).state = .running →
                (s.acc acc).trip = some tr →
                ∃ t tr', exec (.pickCompletion acc (some z)) s = .next t
                  ∧ endsIn t (released { holds z (col s) with dir := dirFound (dirMissing s.dir (some x)) z c }) r .wrongVolume
                  ∧ (t.acc acc).trip = some tr' ∧ (∃ b ∈ tr'.putBacks, b.holder = h ∧ b.serial = z)
                  ∧ ((∀ b ∈ tr.putBacks, b.holder ≠ h) → tr'.stops.head? = some ⟨.place, .putBack acc h⟩
                      ∧ (⟨h, z, .cell c⟩ : PutBack) ∈ tr'.putBacks))
            ∧ (∀ x z, (∀ c, l.src ≠ .cell c) → l.expected = some x → z ≠ x →
                let u := left (released (holds z (col { s.updRec n (fun r => { r with
                    drive := none, nextLeg := none, outcome := some .wrongVolume,
                    leg := some { l with holder := some h, dst := .station none, diverted := true } }) with
                  dir := dirMissing s.dir (some x) })))
                ∃ t, exec (.pickCompletion acc (some z)) s = .next t ∧ aboard t
                  ∧ (s.entry? z = none ∨ heldElsewhere z → lasting t = lasting u)
                  ∧ (∀ e, s.entry? z = some e → ¬heldElsewhere z → lasting t = lasting (moved z e u)))
            ∧ (∀ d, l.src = .drive d → r.drive = some d → l.expected = none →
                let took := fun (dst : Place) (next : Option Leg) => released (holds y (col (s.updRec n (fun r => { r with
                  drive := none, serial := some y, leg := some { l with holder := some h, dst := dst }, nextLeg := next }))))
                let near := fun c : Cell => (80 ≤ c.col ∧ c.col ≤ 119) ∨ (c.col < 80 ∧ d.val < 8) ∨ (120 ≤ c.col ∧ 8 ≤ d.val)
                ∃ t, exec (.pickCompletion acc (some y)) s = .next t ∧ aboard t
                  ∧ (s.entry? y = none ∨ heldElsewhere y → lasting t = lasting (took l.dst r.nextLeg))
                  ∧ (∀ e, s.entry? y = some e → ¬heldElsewhere y →
                      (e.home = none → lasting t = lasting (moved y e (took l.dst r.nextLeg)))
                        ∧ (∀ c, e.home = some c → near c → lasting t = lasting (moved y e (took (.cell c) r.nextLeg)))
                        ∧ (∀ c, e.home = some c → ¬near c → (∃ p : Fin 4, s.rail.shelf[p] = .empty) →
                            lasting t = lasting (moved y e (took (.shelf none)
                              (some { legOf r (accOfColumn c.col) (.shelf none) (.cell c) with expected := some y }))))
                        ∧ (∀ c, e.home = some c → ¬near c → (∀ p : Fin 4, s.rail.shelf[p] ≠ .empty) →
                            lasting t = lasting (moved y e (took l.dst r.nextLeg))))))

/-- R19, R58, R80, R106, R107, R108, R134, R138: a PLACE into the drive RESERVED for the record makes both LOADING and the entry
IN_DRIVE; one into a cell makes the entry HOME or MISPLACED there and ends the record, which is charged to its account (R170 to R173);
each empties the holder and counts a leg. A PLACE on the shelf leaves the entry ON_SHELF and makes READY from there the next leg, or, for
a RETURNING record, the leg to its home cell, or with none to the station by the accessor that placed it; one at the station leaves the
entry AT_STATION and the record in COLLECT, or in RING for a STATION_FIRST mount not diverted, its drive released and its prompt raised
(R15, R19, R142, R143). A PLACE into a FAULTED drive leaves the record in FAULTWAIT holding it; one into a drive FREE by then unloads at
LOADED; one into a drive in any other state is taken as a FAULT of that drive (assumption logs 30 and 31). A put-back reel changes no
record, and no entry in its cell; at the station it is an unowned reel, AT_STATION, with its COLLECT prompt raised (R105, R146).
CELL_OCCUPIED leaves the reel aboard and sends it back to the cell it came from, or, when that cell refused it or it came from no cell,
to the station (assumption logs 6 and 27). A reel with no entry changes none (R58), nor does a RETURN record's whose entry its PICK could
not take (assumption log 32). A supply awaited at a position that a reel comes to goes on at the lowest EMPTY position or waits at the
head of its list (assumption log 31). The leg of a completed PLACE leaves the trip with its stops; after CELL_OCCUPIED the PLACE stands
next as before. A trip whose last stop has completed ends (R108): outside 80..119 the accessor is IDLE, its run over and the lock given
up, unless it finds work; inside, it is RUNNING and sent a PARK to its own side. With no PLACE in flight both are discarded (assumption
log 10). -/
def Obligations.PlaceCompletion : Prop :=
  (∀ (acc : Acc) (o : Order) (n : Nat) (l : Leg) (r : Rec) (h : Fin 3) (y : Serial) (s : State), calm s →
    let tracked := s.entry? y ≠ none
      ∧ (r.kind = .ret → (∃ q ∈ s.recs, q.serial = some y ∧ q.slot ≠ n) → (s.entry? y).map (·.loc) = some (.inTransit acc h))
    let located : Location → State → State := fun loc u => { u with dir := if tracked then dirMoved s.dir y loc id else s.dir }
    let emptied : State → (Rec → Rec) → State := fun u f =>
      (u.updRec n (fun r => { f r with legs := min 15 (r.legs + 1) })).updAcc acc
        (fun x => { x with column := o.col, holders := x.holders.set h .empty })
    let onDrive : State → Fin 16 → Drive → State := fun u d x => { u with drives := s.drives.set d x }
    ((∀ o ref, (s.acc acc).order = some o → o.op ≠ .place ref) →
        exec (.placeCompletion acc) s = .next { s with sent := [] } ∧ exec (.cellOccupied acc) s = .next { s with sent := [] })
      ∧ ((s.acc acc).order = some o → o.op = .place (.record n) → o.holder = some h → s.rec? n = some r → r.leg = some l →
          l.acc = acc →
          ((s.acc acc).holders[h] = .reel y →
              (∀ d, o.place = some (.drive d) → l.dst = .drive d → s.drives[d].state = .reserved → s.drives[d].holding = some n →
                  ∃ t, exec (.placeCompletion acc) s = .next t
                    ∧ lasting t = lasting (emptied
                        (onDrive (located (.inDrive d) s) d { s.drives[d] with state := .loading, reel := true })
                        (fun r => { r with leg := none, loaded := true, state := .loading })))
                ∧ (∀ d, o.place = some (.drive d) → l.dst = .drive d → s.drives[d].state = .faulted →
                    ∃ t, exec (.placeCompletion acc) s = .next t
                      ∧ lasting t = lasting (emptied
                          (onDrive (located (.inDrive d) s) d { s.drives[d] with holding := some n, reel := true })
                          (fun r => { r with
                            leg := none, drive := some d, loaded := true, outcome := some .driveFault, state := .faultwait })))
                ∧ (∀ d, o.place = some (.drive d) → s.drives[d].state = .free → s.cleanPrompt = .none → noClaims s →
                    ∃ t, exec (.placeCompletion acc) s = .next t
                      ∧ lasting t = lasting (emptied
                          (onDrive (located (.inDrive d) s) d
                            { s.drives[d] with state := .loading, holding := some n, reel := true, cleanWait := false })
                          (fun r => { r with
                            leg := none, drive := some d, loaded := true, dismountPending := true, state := .loading })))
                ∧ (∀ d, o.place = some (.drive d) → s.drives[d].holding ≠ some n → s.drives[d].state ≠ .free →
                    s.drives[d].state ≠ .faulted →
                    ∃ t, exec (.placeCompletion acc) s = .next t
                      ∧ t.drives[d].state = .faulted ∧ t.drives[d].holding = some n ∧ t.drives[d].reel = true
                      ∧ t.flagSet .driveFault = true
                      ∧ (s.link.enables.getLsbD 7 = true → 0 < s.link.available →
                          t.link.outq = s.link.outq ++ [{ kept := false, frame := .notice ⟨.driveFault, .drive d⟩ }])
                      ∧ t.rec? n = some { r with
                          leg := none, legs := min 15 (r.legs + 1), drive := some d, loaded := true, outcome := some .driveFault,
                          state := .faultwait }
                      ∧ t.dir = (located (.inDrive d) s).dir ∧ (t.acc acc).holders[h] = .empty ∧ (t.acc acc).column = o.col
                      ∧ ∀ m q, s.drives[d].holding = some m → s.rec? m = some q →
                          (s.drives[d].state = .awaitingStow → (t.rec? m).map (fun z => (z.state, z.outcome)) =
                              some (q.state, some .driveFault))
                            ∧ (s.drives[d].state = .loading ∨ s.drives[d].state = .mounted ∨ s.drives[d].state = .unloading →
                                (t.rec? m).map (fun z => (z.state, z.outcome)) = some (.faultwait, some .driveFault)))
                ∧ (∀ p, o.place = some (.shelf (some p)) → l.dst = .shelf (some p) → r.state = .returning →
                    let next := fun m : Leg => ∃ t, exec (.placeCompletion acc) s = .next t
                      ∧ lasting t = lasting (emptied
                          { located (.onShelf p) s with rail := { s.rail with shelf := s.rail.shelf.set p (.holding y acc) } }
                          (fun r => { r with leg := some m }))
                    (∀ c, s.recHome r = some c → r.nextLeg = none → next (legOf r (accOfColumn c.col) (.shelf (some p)) (.cell c)))
                      ∧ (s.recHome r = none → r.nextLeg = none → next (legOf r acc (.shelf (some p)) (.station none))))
                ∧ (∀ p m, o.place = some (.shelf (some p)) → l.dst = .shelf (some p) → r.state ≠ .returning → r.nextLeg = some m →
                    ∃ t, exec (.placeCompletion acc) s = .next t
                      ∧ lasting t = lasting (emptied
                          { located (.onShelf p) s with rail := { s.rail with shelf := s.rail.shelf.set p (.holding y acc) } }
                          (fun r => { r with leg := some { m with src := .shelf (some p) }, nextLeg := none })))
                ∧ (∀ p, o.place = some (.station (some p)) → l.dst = .station (some p) → s.console.queue.length < 16 →
                    let toRing := r.state = .staged ∧ r.kind = .mount ∧ r.disposition = some .stationFirst ∧ l.diverted = false
                    let fields : DisplayFields := { serial := some y, drive := none, position := some p, account := some r.account }
                    let held := fun (u : State) (w : Flow) (k : Nat) => u.updPos p (fun _ => { StationPos.initial with
                      state := .holding y, owner := some n, flow := some w, prompt := .up k })
                    (¬toRing →
                        ∃ t k, exec (.placeCompletion acc) s = .next t
                          ∧ askedFor s.console.queue t.console.queue .collect 12 (.slot n) fields k
                          ∧ lasting { t with console := s.console } = lasting (emptied
                              (held (located (.atStation p) s) .collect k)
                              (fun r => { r with leg := none, nextLeg := none, state := .collect })))
                      ∧ (toRing → r.serial = some y → (∀ d, r.drive = some d → findsNothing s d) →
                          let released := fun u : State => match r.drive with
                            | some d => onDrive u d { s.drives[d] with
                                state := if s.drives[d].state = .faulted then .faulted else .free, holding := none }
                            | none => u
                          ∃ t k, exec (.placeCompletion acc) s = .next t
                            ∧ askedFor s.console.queue t.console.queue .ring r.template (.slot n) fields k
                            ∧ lasting { t with console := s.console } = lasting (emptied
                                (released (held (located (.atStation p) s) .ring k))
                                (fun r => { r with leg := none, nextLeg := none, drive := none, state := .ring }))))
                ∧ (∀ p tr, o.place = some p → (s.acc acc).trip = some tr →
                    (∀ d, p = .drive d → s.drives[d].state = .free ∨ s.drives[d].state = .faulted
                      ∨ (s.drives[d].state = .reserved ∧ s.drives[d].holding = some n)) →
                    leavesTrip (.placeCompletion acc) s acc (tripLess tr (.record n)))
                ∧ (∀ p m, o.place = some (.station (some p)) → l.dst ≠ .station (some p) → s.station.pos[p].state = .expecting m →
                    (∀ q : Fin 8, s.station.pos[q].state ≠ .reserved (.record n)) →
                    ∃ t, exec (.placeCompletion acc) s = .next t ∧ t.station.pos[p].state = .holding y
                      ∧ (∀ q : Fin 8, s.station.pos[q].state = .empty → (∀ x < q, s.station.pos[x].state ≠ .empty) →
                          t.station.pos[q].state = .expecting m ∧ t.station.supplyWait = s.station.supplyWait)
                      ∧ ((∀ q : Fin 8, s.station.pos[q].state ≠ .empty) → t.station.supplyWait = m :: s.station.supplyWait))
                ∧ (∀ c, o.place = some (.cell c) → l.dst = .cell c → s.link.available < 2 →
                    ∃ t, exec (.placeCompletion acc) s = .next t
                      ∧ endsIn t { s.updAcc acc (fun x => { x with column := o.col, holders := x.holders.set h .empty }) with
                          dir := if tracked then s.dir.map (fun f =>
                            if f.serial = y then
                              { f with loc := if (s.entry? y).bind (·.home) = some c then .home else .misplaced c }
                            else if f.expectedAt c = true then { f with loc := .missing }
                            else f) else s.dir }
                          { r with legs := min 15 (r.legs + 1) } (r.outcome.getD (kindOutcome r.kind))))
            ∧ (∀ c tr, o.place = some (.cell c) → (s.acc acc).trip = some tr →
                leavesTrip (.cellOccupied acc) s acc (tr.legs, tr.stops))
            ∧ (∀ c, o.place = some (.cell c) →
                (∀ c0, l.src = .cell c0 → c0 ≠ c → c0 ∉ l.refused →
                    ∃ t, exec (.cellOccupied acc) s = .next t
                      ∧ lasting t = lasting ((s.updRec n (fun r => { r with
                            leg := some { l with refused := l.refused ++ [c], dst := .cell c0 } })).updAcc acc
                          (fun x => { x with column := o.col })))
                  ∧ ((∀ c0, l.src = .cell c0 → c0 = c ∨ c0 ∈ l.refused) →
                      ∃ t, exec (.cellOccupied acc) s = .next t
                        ∧ lasting t = lasting ((s.updRec n (fun r => { r with
                              leg := some { l with refused := l.refused ++ [c], diverted := true, dst := .station none } })).updAcc acc
                            (fun x => { x with column := o.col })))))
      ∧ ((s.acc acc).order = some o → o.op = .place (.putBack acc h) → o.holder = some h → (s.acc acc).holders[h] = .reel y →
          let put := s.updAcc acc (fun x => { x with column := o.col, holders := x.holders.set h .empty })
          (∀ p tr, o.place = some p → (s.acc acc).trip = some tr →
              leavesTrip (.placeCompletion acc) s acc (tripLess tr (.putBack acc h))
                ∧ ((∃ c, p = .cell c) → leavesTrip (.cellOccupied acc) s acc (tr.legs, tr.stops)))
            ∧ (∀ c, o.place = some (.cell c) →
              (∃ t, exec (.placeCompletion acc) s = .next t ∧ lasting t = lasting put)
                ∧ ∃ t, exec (.cellOccupied acc) s = .next t ∧ lasting t = lasting (s.updAcc acc (fun x => { x with column := o.col }))
                    ∧ ∀ tr, (t.acc acc).trip = some tr → ∀ b ∈ tr.putBacks, b.holder = h → ∃ q, b.dst = .station q)
            ∧ (∀ p, o.place = some (.station (some p)) → s.console.queue.length < 16 →
                ∃ t k, exec (.placeCompletion acc) s = .next t
                  ∧ askedFor s.console.queue t.console.queue .collect 12 (.position p)
                      { serial := some y, drive := none, position := some p, account := none } k
                  ∧ lasting { t with console := s.console } =
                      lasting ({ put with dir := if s.entry? y = none then s.dir else dirMoved s.dir y (.atStation p) id }.updPos p
                        (fun _ => { StationPos.initial with state := .holding y, flow := some .collect, prompt := .up k })))))
    ∧ ∀ (acc : Acc) (tr : Trip) (u : State),
        (u.acc acc).state = .running → (u.acc acc).order = none → (u.acc acc).todo = none → (u.acc acc).trip = some tr → tr.stops = [] →
        let col := (u.acc acc).column
        let side := if acc = .a then 79 else 120
        (col < 80 ∨ 119 < col →
            (u.rail.queues.get acc = [] → u.station.latchOpen = true ∨ u.rail.scanReqs = [] →
                (∀ x, u.audits.get acc = some x → x.state = .done) →
                (∀ d : Fin 16, u.drives[d].returnWait = false ∧ u.drives[d].cleanWait = false) →
                u.commit.acc acc = { u.acc acc with state := .idle, faults := 0, trip := none } ∧ u.commit.rail.zone ≠ some acc)
              ∧ (∀ m l, m ∈ u.rail.queues.get acc → u.leg? m = some l → l.dst ≠ .shelf none → l.dst ≠ .station none →
                  u.eligible acc m = true → u.rail.quiesce = false → (u.acc acc).scan = none →
                  u.station.latchOpen = true ∨ u.rail.scanReqs = [] →
                  ∃ new, (u.commit.acc acc).trip = some new ∧ new.legs ≠ []))
          ∧ (80 ≤ col ∧ col ≤ 119 → u.rail.zone = some acc →
              (u.guardOpen side = true → u.commit.acc acc = { u.acc acc with trip := none, todo := some .park })
                ∧ (u.guardOpen side = false →
                    let park : Order := { op := .park, col := side, place := none, holder := none, timer := (u.acc acc).limPlace }
                    u.commit.acc acc = { u.acc acc with trip := none, order := some park } ∧ .accessor acc park ∈ u.commit.sent))

/-- R60, R61, R62, R98, R103, R108, R114, R126, R128, R129, R140, R141, R143, R145, R146, R189: the result of an audit SCAN changes the
directory and raises the counts as the tables of R62 and R128 give, and the audit goes on, a SUSPENDING one SUSPENDED, or SCANNING again
when its accessor is free with no yielding leg (R129), or is DONE by a pending abort or at its last cell, with AUDIT_DONE raised. A
supply SCAN that reads the record's serial makes the position HOLDING it and the entry AT_STATION and VERIFIED: a mount is QUEUED, an
ENTER is STOWING with its leg home. Any other result is a miss: the first asks for a new SUPPLY prompt, the second ends the record with
NOT_SUPPLIED and gives the position up. A late supply result has no effect unless it reads a label: at an EMPTY position, or one
RESERVED, whose leg loses it, the reel is an unowned one to be collected; at one EXPECTING another record it is a miss of that record,
with no new prompt; at one that is HOLDING by then it has no effect (assumption log 62). A collect SCAN that finds the position empty
makes the entry OUTSIDE, UNVERIFIED and its ring UNKNOWN, or deletes a FOREIGN one, unless another open record holds the serial, and ends
the owning record; any other result asks for a new COLLECT prompt. A record that ends is charged to its account (R170 to R173). A RECOVER
completion after one fault sends the failed order again, and after two, or after an occupied holder, leaves the accessor with empty
holders and no faults: IDLE outside 80..119, its lock given up, unless it finds work, and inside RUNNING and sent a PARK to its own side
(R108, R114); a PARK completion leaves it IDLE, or lets its trip go on, but an OFFLINE accessor that has still to answer the online poll
stays OFFLINE with its STATUS to be sent or sent (assumption log 17). The count of faults at a SCAN completion (assumption log 22), the
failed order kept until its retry (assumption log 23), the lock released outside the Middle segment (assumption log 12) and abort pending
cleared at DONE (assumption log 60) are the model's reading. -/
def Obligations.ScanRecoverAndPark : Prop :=
  ∀ (acc : Acc) (o : Order) (s : State), calm s → (s.acc acc).order = some o →
    let base := s.updAcc acc (fun x => { x with column := o.col, faults := 0 })
    let fieldsAt := fun (p : Fin 8) (ser : Option Serial) (a : Option (Fin 128)) =>
      ({ serial := ser, drive := none, position := some p, account := a } : DisplayFields)
    (∀ (c : Cell) (x : Audit) (res : ScanResult), o.op = .scan → (s.acc acc).scan = some (.cell c) →
        s.audits.get acc = some x → x.state ≠ .done → directoryLaw s →
        let past := auditPast s.dir x c res
        let dir := dirScanned s.dir x c res
        let left := fun (y : Audit) (d : List Entry) => ({ base with audits := s.audits.set acc (some y), dir := d } : State)
        let ended := fun by' : EndedBy =>
          { past with state := .done, endedBy := some by', cursor := none, skip := [], abortPending := false }
        let done : Notice := { kind := .auditDone, subject := .accessor acc }
        ∃ t, exec (.scanCompletion acc res) s = .next t
          ∧ (x.abortPending = true → lasting t = lasting (noticed (left (ended .abort) (dir.map (fun e =>
              if e.verif = .auditPending ∧ ∃ k, e.home = some k ∧ inRange x.first x.last k = true then
                { e with verif := .unverified }
              else e))) done))
          ∧ (x.abortPending = false → c = x.last → lasting t = lasting (noticed (left (ended .lastCell) dir) done))
          ∧ (x.abortPending = false → c ≠ x.last → lasting t = lasting (left past dir)
              ∧ (x.state = .scanning → (t.audits.get acc).map (·.state) = some .scanning)
              ∧ (x.state = .suspending → (s.acc acc).state = .idle ∨ (s.acc acc).trip = none →
                  (t.audits.get acc).map (·.state) = some (
                    if (s.acc acc).state = .idle ∧ s.rail.quiesce = false ∧ s.hasYielding acc x.yieldClass = false then .scanning
                    else .suspended))))
      ∧ (∀ (p : Fin 8) (n : Nat) (r : Rec) (ser : Serial) (e : Entry), o.op = .scan →
          (s.acc acc).scan = some (.station p .supply false) → s.station.pos[p].state = .expecting n →
          s.rec? n = some r → r.serial = some ser → s.entry? ser = some e →
          let u : State := { base.updPos p (fun x => { StationPos.initial with
              state := .holding ser, owner := some n, flow := some .pickup, prompt := x.prompt }) with
            dir := dirMoved s.dir ser (.atStation p) (fun f => { f with verif := .verified }) }
          (r.kind = .mount → (∀ d : Fin 16, s.drives[d].state ≠ .free) →
              ∃ t, exec (.scanCompletion acc (.label ser)) s = .next t
                ∧ lasting t = lasting (u.updRec n (fun r => { r with state := .queued })))
            ∧ (∀ c, r.kind = .enter → e.home = some c →
                ∃ t, exec (.scanCompletion acc (.label ser)) s = .next t
                  ∧ lasting t = lasting (u.updRec n (fun r => { r with
                      state := .stowing, leg := some (legOf r (accOfColumn c.col) (.station (some p)) (.cell c)), nextLeg := none }))))
      ∧ (∀ (p : Fin 8) (n : Nat) (r : Rec) (res : ScanResult), o.op = .scan →
          (s.acc acc).scan = some (.station p .supply false) → s.station.pos[p].state = .expecting n → s.rec? n = some r →
          (∀ ser, res = .label ser → r.serial ≠ some ser) →
          (s.station.pos[p].misses = 0 → s.console.queue.length < 16 →
              ∃ t k, exec (.scanCompletion acc res) s = .next t
                ∧ askedFor s.console.queue t.console.queue .supply r.template (.slot n) (fieldsAt p r.serial (some r.account)) k
                ∧ lasting { t with console := s.console } =
                    lasting (base.updPos p (fun x => { x with misses := 1, scan := .none, prompt := .up k })))
            ∧ (s.station.pos[p].misses ≠ 0 → s.station.pos[p].prompt = .none → s.expecting n = some p → noClaims s →
                s.link.available < 2 →
                ∃ t, exec (.scanCompletion acc res) s = .next t
                  ∧ endsIn t (base.updPos p (fun _ => StationPos.initial)) r .notSupplied))
      ∧ (∀ (p : Fin 8) (late : Bool), o.op = .scan → (s.acc acc).scan = some (.station p .supply late) →
          late = true ∨ (∀ n, s.station.pos[p].state ≠ .expecting n) →
          (∀ res, res = .empty ∨ res = .unreadable →
              ∃ t, exec (.scanCompletion acc res) s = .next t ∧ lasting t = lasting base)
            ∧ (∀ ser, (s.station.pos[p].state = .empty
                  ∨ ∃ ref, s.station.pos[p].state = .reserved ref ∧ ∀ d, s.dstOf ref = some d → ∃ q, d = .station q) →
                s.console.queue.length < 16 →
                ∃ t k, exec (.scanCompletion acc (.label ser)) s = .next t
                  ∧ askedFor s.console.queue t.console.queue .collect 12 (.position p) (fieldsAt p (some ser) none) k
                  ∧ lasting { t with console := s.console } = lasting (base.updPos p (fun _ =>
                      { StationPos.initial with state := .holding ser, flow := some .collect, prompt := .up k }))
                  ∧ ∀ ref q, s.station.pos[p].state = .reserved ref → t.dstOf ref = some (.station (some q)) → q ≠ p)
            ∧ (∀ ser n r, late = true → s.station.pos[p].state = .expecting n → s.rec? n = some r →
                (s.station.pos[p].misses = 0 →
                    ∃ t, exec (.scanCompletion acc (.label ser)) s = .next t
                      ∧ lasting t = lasting (base.updPos p (fun x => { x with misses := 1 })))
                  ∧ (s.station.pos[p].misses ≠ 0 → s.expecting n = some p → noClaims s → s.link.available < 2 →
                      nothingOwed (s.updPos p (fun x => { x with prompt := .none })) →
                      let left := base.updPos p (fun _ => StationPos.initial)
                      (∀ k, s.station.pos[p].prompt = .up k → (∃ y, s.prompt? k = some y ∧ y.block = .stationUnit) →
                          ∃ t, exec (.scanCompletion acc (.label ser)) s = .next t
                            ∧ t.console.queue = s.console.queue.filter (fun x => x.num ≠ k)
                            ∧ endsIn t { left with console := t.console } r .notSupplied)
                        ∧ ((∀ k, s.station.pos[p].prompt ≠ .up k) →
                            ∃ t, exec (.scanCompletion acc (.label ser)) s = .next t ∧ endsIn t left r .notSupplied)))
            ∧ (∀ ser z, s.station.pos[p].state = .holding z →
                ∃ t, exec (.scanCompletion acc (.label ser)) s = .next t ∧ lasting t = lasting base))
      ∧ (∀ (p : Fin 8) (late : Bool) (ser : Serial), o.op = .scan → (s.acc acc).scan = some (.station p .collect late) →
          s.station.pos[p].state = .holding ser →
          let owner := s.station.pos[p].owner
          let kept := ∃ q ∈ s.recs, q.serial = some ser ∧ some q.slot ≠ owner
          let dir := if kept then s.dir else match s.entry? ser with
            | none => s.dir
            | some e =>
              if e.foreign = true then s.dir.filter (fun f => f.serial ≠ ser)
              else s.dir.map (fun f =>
                if f.serial = ser then { f with loc := .outside, verif := .unverified, ring := .unknown } else f)
          let gone : State := { base.updPos p (fun _ => StationPos.initial) with dir := dir }
          (noClaims s →
              (owner = none → ∃ t, exec (.scanCompletion acc .empty) s = .next t ∧ lasting t = lasting gone)
                ∧ (∀ n r, owner = some n → s.rec? n = some r → s.link.available < 2 →
                    ∃ t, exec (.scanCompletion acc .empty) s = .next t
                      ∧ endsIn t gone r (r.outcome.getD (kindOutcome r.kind))))
            ∧ (∀ res, res ≠ .empty → s.station.pos[p].flow = some .collect → s.console.queue.length < 16 →
                let again := fun (subject : PromptSubject) (a : Option (Fin 128)) =>
                  ∃ t k, exec (.scanCompletion acc res) s = .next t
                    ∧ askedFor s.console.queue t.console.queue .collect 12 subject (fieldsAt p (some ser) a) k
                    ∧ lasting { t with console := s.console } =
                        lasting (base.updPos p (fun x => { x with scan := .none, prompt := .up k }))
                (owner = none → again (.position p) none)
                  ∧ ∀ n r, owner = some n → s.rec? n = some r → again (.slot n) (some r.account)))
      ∧ (∀ (col : Nat) (f : Failed), o.op = .recover → (s.acc acc).faults = 1 → (s.acc acc).failed = some f →
          exec (.recoverCompletion acc col) s =
            .next ({ s with sent := [], rail := { s.rail with
                zone := if (80 ≤ col ∧ col ≤ 119) ∨ s.rail.zone ≠ some acc then s.rail.zone else none } }.updAcc acc (fun x =>
              { x with
                order := none, column := col, failed := none, state := f.was,
                todo := match f.op with
                  | .scan => some .scan
                  | .park => some .park
                  | _ => none })).commit)
      ∧ (∀ (col : Nat), o.op = .recover → (s.acc acc).faults ≠ 1 →
          ∃ t, exec (.recoverCompletion acc col) s = .next t
            ∧ lasting t = lasting (s.updAcc acc (fun x => { x with
                state := .idle, column := col, holders := Vector.replicate 3 .empty, faults := 0, failed := none }))
            ∧ (80 ≤ col → col ≤ 119 → parksAside s t acc ∧ (s.rail.zone = some acc → (t.acc acc).state = .running))
            ∧ (col < 80 ∨ 119 < col → (s.acc acc).todo = none → s.rail.queues.get acc = [] →
                s.station.latchOpen = true ∨ s.rail.scanReqs = [] → (∀ x, s.audits.get acc = some x → x.state = .done) →
                (t.acc acc).state = .idle ∧ t.rail.zone ≠ some acc))
      ∧ ∀ (col : Nat), o.op = .park →
          let owing := (s.acc acc).state = .offline ∧ .accessor acc ∈ s.link.poll
          (¬owing → (s.acc acc).trip = none →
              ∃ t, exec (.parkCompletion acc col) s = .next t
                ∧ lasting t = lasting (s.updAcc acc (fun x => { x with state := .idle, column := col, faults := 0 })))
            ∧ (¬owing → (s.acc acc).trip ≠ none →
                ∃ t, exec (.parkCompletion acc col) s = .next t ∧ lasting t = lasting (s.updAcc acc (fun x => { x with column := col })))
            ∧ (owing →
                ∃ t, exec (.parkCompletion acc col) s = .next t ∧ (t.acc acc).state = .offline
                  ∧ ((t.acc acc).todo = some .status ∨ ∃ z, (t.acc acc).order = some z ∧ z.op = .status)
                  ∧ lasting t = lasting (s.updAcc acc (fun x => { x with column := col })))

/-- R59, R111, R113, R115, R126, R131, R132, R147: a motion-limit expiry makes the accessor STALLED. The first of a run keeps the failed
order, a failed scan in flight and the failed stop's leg, returns every other ASSIGNED leg to its queue READY with the front mark and
without its reservation, leaves legs ABOARD aboard, and raises ACCESSOR_STALLED and the FAULT prompt. The second makes the entry of each
reel aboard MISSING, empties the holders, ends the records of the legs aboard with MOTION_FAULT, each charging its account in the order
of the holders (R170 to R173), and releases their drives; the leg of a failed PICK, as every ASSIGNED one, goes back READY with the front
mark; the trip ends; a failed scan is handed back, an audit's as R131 gives and a station one to be requested again unless its supply has
ended; and the FAULT prompt is withdrawn and a new one raised with its urgency at 7, with no new notice. A later one repeats that prompt
alone. Before the limit has run out, and for a STATUS, nothing happens. That an expiry acts only when its timer reads 0 (assumption log
8), that a STATUS has its own expiry (assumption log 11), that the failed order is forgotten at the second fault (assumption log 23),
that a polled accessor that stalls is settled for the online poll (assumption log 17) and that an audit that ends leaves abort pending
clear (assumption log 60) are the model's reading. -/
def Obligations.MotionLimitExpiry : Prop :=
  ∀ (acc : Acc) (o : Order) (s : State), calm s → (s.acc acc).order = some o →
    let rest := s.link.poll.filter (fun x => x ≠ .accessor acc)
    let settled : State := { s with link := { s.link with
      poll := rest,
      lib := if .accessor acc ∈ s.link.poll ∧ s.link.lib = .goingOnline ∧ rest = [] then .online else s.link.lib } }
    let next := fun t : State => exec (.motionLimitExpiry acc) s = .next t
    let gone := s.console.queue.filter (fun y => (s.acc acc).prompt ≠ .up y.num)
    let prompts := (∀ k, (s.acc acc).prompt = .up k → ∃ y, s.prompt? k = some y ∧ y.block = .railScheduler)
      ∧ nothingOwed (s.updAcc acc (fun x => { x with prompt := .none })) ∧ gone.length < 16
    let again := fun (t : State) (p : Prompt) => t.console.queue = gone ++ [p] ∧ p.kind = .fault ∧ p.template = 13
      ∧ p.subject = .accessor acc ∧ p.urgency = 7 ∧ (t.acc acc).prompt = .up p.num
    (o.timer ≠ 0 ∨ o.op = .status → exec (.motionLimitExpiry acc) s = .next { s with sent := [] })
      ∧ (o.timer = 0 → o.op ≠ .status → (s.acc acc).faults = 0 →
          let failed := fun n : Nat => o.op = .pick n ∨ o.op = .place (.record n)
          ∃ t, next t ∧ (t.acc acc).state = .stalled ∧ (t.acc acc).faults = 1
            ∧ (t.acc acc).failed = some { op := o.op, was := (s.acc acc).state } ∧ (t.acc acc).holders = (s.acc acc).holders
            ∧ (t.acc acc).column = (s.acc acc).column ∧ (t.acc acc).scan = (s.acc acc).scan
            ∧ (∀ tr n l, (s.acc acc).trip = some tr → n ∈ tr.legs → ownLeg s acc n l →
                (l.state = .assigned → ¬failed n → backInQueue s t acc n l)
                  ∧ (l.state = .aboard ∨ failed n → (t.leg? n).map (·.state) = some l.state
                      ∧ ∃ tr', (t.acc acc).trip = some tr' ∧ n ∈ tr'.legs))
            ∧ (s.station.supplyWait = [] → s.console.queue.length < 16 →
                ∃ p, t.console.queue = s.console.queue ++ [p] ∧ p.kind = .fault ∧ p.template = 13 ∧ p.subject = .accessor acc
                  ∧ (t.acc acc).prompt = .up p.num)
            ∧ t.link = (noticed settled { kind := .accessorStalled, subject := .accessor acc }).link
            ∧ t.dir = s.dir ∧ t.drives = s.drives ∧ t.acct = s.acct)
      ∧ (o.timer = 0 → o.op ≠ .status → (s.acc acc).faults = 1 → s.link.available < 2 →
          let lost := s.dir.map (fun e =>
            if ∃ h : Fin 3, (s.acc acc).holders[h] = .reel e.serial then { e with loc := .missing } else e)
          let aborts := fun x : Audit => (∃ c, (s.acc acc).scan = some (.cell c)) ∧ s.audits.get acc = some x ∧ x.state ≠ .done
            ∧ x.abortPending = true
          ∃ t, next t ∧ (t.acc acc).state = .stalled ∧ (t.acc acc).faults = 2 ∧ (t.acc acc).failed = none
            ∧ (∀ h : Fin 3, (t.acc acc).holders[h] = .empty) ∧ (t.acc acc).trip = none ∧ (t.acc acc).scan = none
            ∧ (t.acc acc).column = (s.acc acc).column ∧ t.flagSet .accessorStalled = s.flagSet .accessorStalled
            ∧ ((∀ x, ¬aborts x) → t.dir = lost)
            ∧ (∀ x, aborts x →
                t.dir = lost.map (fun e =>
                    if e.verif = .auditPending ∧ ∃ k, e.home = some k ∧ inRange x.first x.last k = true then
                      { e with verif := .unverified }
                    else e)
                  ∧ t.flagSet .auditDone = true
                  ∧ t.audits.get acc = some { x with
                      state := .done, endedBy := some .abort, cursor := none, skip := [], inFlight := false,
                      abortPending := false })
            ∧ (∀ x c, (s.acc acc).scan = some (.cell c) → s.audits.get acc = some x → x.state ≠ .done → x.abortPending = false →
                ∃ st, t.audits.get acc = some { x with state := st, inFlight := false }
                  ∧ (x.state = .scanning → (s.acc acc).trip = none → st = .scanning)
                  ∧ (x.state ≠ .scanning → st = .suspended))
            ∧ (∀ p kind, (s.acc acc).scan = some (.station p kind false) → (∀ q ∈ s.rail.scanReqs, q.pos ≠ p) →
                (∃ q ∈ t.rail.scanReqs, q.pos = p ∧ q.kind = kind) ∨ ∃ who late, (t.acc who).scan = some (.station p kind late))
            ∧ ((∀ p kind, (s.acc acc).scan ≠ some (.station p kind false)) → ∀ q ∈ t.rail.scanReqs, q ∈ s.rail.scanReqs)
            ∧ (∀ tr n l, (s.acc acc).trip = some tr → n ∈ tr.legs → ownLeg s acc n l → l.state = .assigned → backInQueue s t acc n l)
            ∧ (∀ tr n l h, (s.acc acc).trip = some tr → n ∈ tr.legs → s.leg? n = some l → l.state = .aboard → l.holder = some h →
                (∀ m ∈ tr.legs, ∀ k, s.leg? m = some k → k.state = .aboard → k.holder = some h → m = n) →
                (∃ q, t.rec? n = some q ∧ q.state = .posting ∧ q.outcome = some .motionFault ∧ q.leg = none ∧ q.nextLeg = none
                  ∧ q.drive = none)
                ∧ ∀ r d, s.rec? n = some r → r.drive = some d → findsNothing s d → t.drives[d] = { s.drives[d] with
                    state := if s.drives[d].state = .faulted then .faulted else .free, holding := none })
            ∧ ((s.acc acc).trip = none → t.acct = s.acct)
            ∧ (∀ tr, (s.acc acc).trip = some tr →
                (∀ n ∈ tr.legs, ∀ r d, s.rec? n = some r → r.drive = some d → findsNothing s d) →
                let struck := (List.finRange 3).filterMap (fun h =>
                  tr.legs.find? (fun n => (s.leg? n).any (fun l => decide (l.state = .aboard ∧ l.holder = some h))))
                let charged := struck.foldl (fun u n => u.postWith n .motionFault) s
                t.acct = charged.acct ∧ ∀ k, k ≠ .auditDone → t.flagSet k = charged.flagSet k)
            ∧ (prompts → s.station.supplyWait = [] →
                (∀ tr, (s.acc acc).trip = some tr → ∀ n ∈ tr.legs, ∀ r d, s.rec? n = some r → r.drive = some d → findsNothing s d) →
                ∃ p, again t p))
      ∧ (o.timer = 0 → o.op ≠ .status → 2 ≤ (s.acc acc).faults → prompts →
          ∃ t p, next t ∧ again t p
            ∧ lasting { t with console := s.console } = lasting (settled.updAcc acc (fun x => { x with prompt := .up p.num })))

/-! ## Audits -/

/-- R121, R122, R123, R124, R125, R129, R132: AUDIT_START checks the range, the accessor's audit and its reach, in that order, and then marks
every entry whose home cell lies in the range and starts at the first cell, SUSPENDED when the queue holds a yielding leg, one at or above
the yield class, and SCANNING otherwise; the first scan is sent at once by a free accessor with nothing before it. AUDIT_ABORT ends the
audit, which leaves abort pending clear (assumption log 60), or sets abort pending while a scan is in flight. A SUSPENDED audit resumes when
its accessor is free with no yielding leg, and a SCANNING one sends the SCAN of its cursor cell when its accessor is free with nothing
before it; a cell in the Middle segment is scanned under the zone lock (R125). That AUDIT_RESUME only resumes, and the scan that R129 lets
follow is a command of its own, is assumption log 7. An accessor that is neither A nor B is refused. -/
def Obligations.AuditOperations : Prop :=
  ∀ (tag : Tag) (n : Nat) (acc : Acc) (first last : Cell) (y : Nat) (s : State), accOfCode n = some acc →
    let ok := cellOk first = true ∧ cellOk last = true ∧ cellLe first last = true ∧ y ≤ 3
    let running := ∃ x, s.audits.get acc = some x ∧ x.state ≠ .done
    let reach := inReach acc first.col = true ∧ inReach acc last.col = true
    let marked := fun e : Entry => decide (∃ c, e.home = some c ∧ inRange first last c = true)
    let yields := fun cls : Nat => ∃ m ∈ s.rail.queues.get acc, ∃ l, s.leg? m = some l ∧ cls ≤ l.prio.val
    (∀ cls, s.hasYielding acc cls = true ↔ yields cls)
      ∧ (ready s → ¬ok → exec (.auditStart tag n first last y) s = .next (answered s (replyFrame 0x50 tag .badArgument .nothing)))
      ∧ (ready s → ok → running → exec (.auditStart tag n first last y) s = .next (answered s (replyFrame 0x50 tag .busy .nothing)))
      ∧ (ready s → ok → ¬running → (s.acc acc).state = .offline ∨ ¬reach →
          exec (.auditStart tag n first last y) s = .next (answered s (replyFrame 0x50 tag .badArgument .nothing)))
      ∧ (ready s → ok → ¬running → (s.acc acc).state ≠ .offline → reach → calm s →
          let x : Audit := { state := .scanning, first := first, last := last, yieldClass := y, cursor := some first, inFlight := false,
                             abortPending := false, endedBy := none, skip := [], scanned := 0, verified := 0, missing := 0,
                             misplaced := 0, unreadable := 0 }
          ∃ (t : State) (sent : Bool), exec (.auditStart tag n first last y) s = .next t
            ∧ (yields y → sent = false ∧ t.audits.get acc = some { x with state := .suspended })
            ∧ (¬yields y → t.audits.get acc = some { x with inFlight := sent } ∧ (sent = true → (t.acc acc).scan = some (.cell first))
                ∧ (s.free acc = true → s.station.latchOpen = true ∨ s.rail.scanReqs = [] → sent = true))
            ∧ lasting t = lasting (answered { s with
                audits := s.audits.set acc (some x),
                dir := s.dir.map (fun e => if marked e then { e with verif := .auditPending } else e) }
                (replyFrame 0x50 tag .done (.auditStarted (rangeSize first last) (s.dir.filter marked).length))))
      ∧ (ready s → ¬running → exec (.auditAbort tag n) s = .next (answered s (replyFrame 0x51 tag .done .noAudit)))
      ∧ (∀ x, ready s → s.audits.get acc = some x → x.state ≠ .done → x.inFlight = true →
          exec (.auditAbort tag n) s =
            .next (answered { s with audits := s.audits.set acc (some { x with abortPending := true }) }
              (replyFrame 0x51 tag .done (.passed x.scanned))))
      ∧ (∀ x, ready s → s.audits.get acc = some x → x.state ≠ .done → x.inFlight = false → calm s →
          ∃ t, exec (.auditAbort tag n) s = .next t
            ∧ lasting t = lasting (answered (noticed { s with
                audits := s.audits.set acc (some { x with
                  state := .done, endedBy := some .abort, cursor := none, skip := [], abortPending := false }),
                dir := s.dir.map (fun e =>
                  if e.verif = .auditPending ∧ ∃ c, e.home = some c ∧ inRange x.first x.last c = true then
                    { e with verif := .unverified }
                  else e) } { kind := .auditDone, subject := .accessor acc })
                (replyFrame 0x51 tag .done (.passed x.scanned))))
      ∧ (∀ x, s.audits.get acc = some x → x.state = .suspended → s.free acc = true → ¬yields x.yieldClass →
          exec (.auditResume acc) s =
            .next { s with sent := [], audits := s.audits.set acc (some { x with state := .scanning }) })
      ∧ (s.free acc = false ∨ (∀ x, s.audits.get acc = some x → x.state = .suspended → yields x.yieldClass) →
          exec (.auditResume acc) s = .next { s with sent := [] })
      ∧ (s.free acc = false ∨ (∀ x, s.audits.get acc = some x → x.state ≠ .scanning) →
          exec (.auditScanSend acc) s = .next { s with sent := [] })
      ∧ (∀ x c, s.audits.get acc = some x → x.state = .scanning → x.cursor = some c → s.free acc = true →
          s.station.latchOpen = true ∨ s.rail.scanReqs = [] → (∀ m ∈ s.rail.queues.get acc, s.eligible acc m = false) →
          (s.acc acc).order = none → cellOk c = true → s.guardOpen c.col = false →
          (c.col < 80 ∨ 120 ≤ c.col) ∨ s.rail.zone = none ∨ s.rail.zone = some acc →
          ∃ t, exec (.auditScanSend acc) s = .next t ∧ (t.acc acc).scan = some (.cell c)
            ∧ t.audits.get acc = some { x with inFlight := true }
            ∧ t.rail.zone = (if c.col < 80 ∨ 120 ≤ c.col then s.rail.zone else some acc)
            ∧ t.sent = [.accessor acc { op := .scan, col := c.col, place := some (.cell c), holder := none,
                                        timer := (s.acc acc).limScan }]
            ∧ lasting t = lasting s)
      ∧ ∀ m, 2 ≤ m → ready s →
          exec (.auditStart tag m first last y) s = .next (answered s (replyFrame 0x50 tag .badArgument .nothing))
            ∧ exec (.auditAbort tag m) s = .next (answered s (replyFrame 0x51 tag .badArgument .nothing))

/-! ## The console -/

/-- R148, R149, R154, R161, R163: TEMPLATE_SET stores its values, the numbers clamped, with the kind fixed for templates 12 to 15;
INPUT_SET stores polarity and code, codes 5 to 7 as 4, and a polarity that changes the settled state, or code 0 while a period runs,
settles the input at once; a raw change under code 0 settles it at once, under another code begins a debounce period or abandons
one, and at the end of the period the settled state follows the raw level. An input that settles is handed to its owner. A console
line sent leaves. That the end of a period does nothing while none runs is assumption log 8; the codes of the inputs, polarities,
template kinds and expiry actions are assumption log 39. -/
def Obligations.TemplatesInputsAndLines : Prop :=
  ∀ (tag : Tag) (i : PanelInput) (s : State),
    let x := s.console.inputs[inputIndex i]
    let put := fun y : Input => { s with sent := [], console := { s.console with inputs := s.console.inputs.set (inputIndex i) y } }
    let settled := fun (t : State) (y : Input) =>
      t.console.inputs = s.console.inputs.set (inputIndex i) { y with settled := y.raw == y.activeHigh, period := false }
        ∧ (t.station.latchOpen = if i = .station then y.raw == y.activeHigh else s.station.latchOpen)
        ∧ (t.rail.westOpen = if i = .guardWest then y.raw == y.activeHigh else s.rail.westOpen)
        ∧ (t.rail.middleOpen = if i = .guardMiddle then y.raw == y.activeHigh else s.rail.middleOpen)
        ∧ (t.rail.eastOpen = if i = .guardEast then y.raw == y.activeHigh else s.rail.eastOpen)
        ∧ (t.rail.quiesce = if i = .quiesce then y.raw == y.activeHigh else s.rail.quiesce)
        ∧ (i ≠ .attention ∨ y.raw ≠ y.activeHigh → t.console.queue = s.console.queue)
        ∧ (∀ before p after, i = .attention → y.raw = y.activeHigh → s.console.queue = before ++ p :: after →
            (∀ q ∈ before, q.urgency < p.urgency) → (∀ q ∈ after, q.urgency ≤ p.urgency) →
            (∀ q ∈ before ++ after, q.num ≠ p.num) →
            t.console.queue = before ++ { p with timer := p.reply } :: after)
        ∧ t.dir = s.dir ∧ t.drives = s.drives ∧ t.acct = s.acct
    (∀ (n : Fin 16) (a : TemplateArgs) (act : ExpiryAction) (kind : PromptKind), ready s → expiryActionOfCode a.action = some act →
        (n.val < 12 → templateKindOfCode a.kind = some kind) → (n.val = 12 → kind = .collect) → (n.val = 13 → kind = .fault) →
        (n.val = 14 → kind = .cleanSupply) → (n.val = 15 → kind = .approve) →
        ∃ v : Template, exec (.templateSet tag n.val a) s =
            .next (answered { s with console := { s.console with templates := s.console.templates.set n v } }
              (replyFrame 0x60 tag .done (.template n v)))
          ∧ v.kind = kind ∧ v.urgency = min 7 a.urgency ∧ v.reply = max 10 (min 3600 a.reply) ∧ v.steps = min 7 a.steps
          ∧ v.action = act)
      ∧ (∀ n (a : TemplateArgs), ready s →
          16 ≤ n ∨ expiryActionOfCode a.action = none ∨ (n < 12 ∧ templateKindOfCode a.kind = none) →
          exec (.templateSet tag n a) s = .next (answered s (replyFrame 0x60 tag .badArgument .nothing)))
      ∧ (∀ n p code high, ready s → calm s → inputOfCode n = some i → polarityOfCode p = some high → code ≤ 7 →
          high = x.activeHigh → (x.period = true → code ≠ 0) →
          ∃ t, exec (.inputSet tag n p code) s = .next t
            ∧ lasting t = lasting (answered (put { x with activeHigh := high, code := min 4 code })
                (replyFrame 0x61 tag .done (.input i high (min 4 code)))))
      ∧ (∀ n p code high, ready s → inputOfCode n = some i → polarityOfCode p = some high → code ≤ 7 →
          high ≠ x.activeHigh → x.settled = (x.raw == high) → calm s →
          ∃ t, exec (.inputSet tag n p code) s = .next t
            ∧ lasting t = lasting (answered (put { x with activeHigh := high, code := min 4 code, period := false })
                (replyFrame 0x61 tag .done (.input i high (min 4 code)))))
      ∧ (∀ n p code, ready s → inputOfCode n = none ∨ polarityOfCode p = none ∨ 7 < code →
          exec (.inputSet tag n p code) s = .next (answered s (replyFrame 0x61 tag .badArgument .nothing)))
      ∧ exec (.panelInputChange i x.raw) s = .next { s with sent := [] }
      ∧ (∀ high, high ≠ x.raw → x.settled = (high == x.activeHigh) →
          exec (.panelInputChange i high) s = .next (put { x with raw := high, period := false }))
      ∧ (∀ high, high ≠ x.raw → x.settled ≠ (high == x.activeHigh) → x.code ≠ 0 →
          exec (.panelInputChange i high) s = .next (put { x with raw := high, period := true }))
      ∧ (x.period = true → calm s → ∃ t, exec (.debouncePeriodEnd i) s = .next t
          ∧ settled t x ∧ t.link = s.link)
      ∧ (∀ high, high ≠ x.raw → x.settled ≠ (high == x.activeHigh) → x.code = 0 → calm s →
          ∃ t, exec (.panelInputChange i high) s = .next t ∧ settled t { x with raw := high } ∧ t.link = s.link)
      ∧ (∀ n p code high, ready s → calm s → inputOfCode n = some i → polarityOfCode p = some high → code ≤ 7 →
          (high ≠ x.activeHigh ∧ x.settled ≠ (x.raw == high)) ∨ (high = x.activeHigh ∧ x.period = true ∧ code = 0) →
          ∃ t, exec (.inputSet tag n p code) s = .next t ∧ settled t { x with activeHigh := high, code := min 4 code }
            ∧ t.link = (answered s (replyFrame 0x61 tag .done (.input i high (min 4 code)))).link)
      ∧ (x.period = false → exec (.debouncePeriodEnd i) s = .next { s with sent := [] })
      ∧ exec .consoleLineSent s = .next { s with sent := [], console := { s.console with lines := s.console.lines.drop 1 } }

/-- R12, R13, R14, R22, R70, R77, R87, R114, R138, R139, R142, R144, R155, R156: a line that is no answer, or whose word its prompt does
not take, a number never shown and a number that has expired are each told so, with nothing else changed; a valid answer takes the prompt
off the queue, counts in its record and account, in account 0 for a FAULT or CLEAN_SUPPLY prompt and nowhere for an unowned reel's, and
is told ANSWER TAKEN. ACCEPT of an APPROVE prompt lets the HELD record go on: a MOUNT to QUEUED, here with no drive FREE, an EJECT to
STAGED with its leg, an ENTER or a MANUAL mount to SUPPLY with the lowest EMPTY station position and its SUPPLY prompt, or in the supply
wait list; or ends it when the volume it needs cannot be reached; DECLINE ends it with OPERATOR_DECLINED. DONE to a SUPPLY or COLLECT
prompt asks for the scan of its position; DECLINE of a SUPPLY ends the record with OPERATOR_DECLINED and gives its position up, and
DECLINE of a COLLECT asks for a new COLLECT prompt. DONE to a RING prompt makes the ring PRESENT and the record QUEUED; DECLINE sends the
reel home with OPERATOR_DECLINED, or, with no home cell, to be collected. DONE to a CLEAN_SUPPLY prompt restores every exhausted entry to
50 uses, and the drives in cleaning wait then make their attempts (R86, R87); DECLINE leaves the list. The answer is counted before a
record that it ends is charged to its account (R170 to R173). DONE to a FAULT prompt makes a RECOVER the accessor's next order. -/
def Obligations.AnswerLines : Prop :=
  ∀ (line : List Byte) (s : State),
    let told := fun r : ReplyLine =>
      { s with sent := [], console := { s.console with lines :=
        if 16 ≤ (s.console.lines.filter (fun x => !x.isDisplay)).length then s.console.lines
        else s.console.lines ++ [.reply r] } }
    (∀ digits spaces word w, digits ≠ [] → (∀ b ∈ digits, isDigit b = true) → spaces ≠ [] → (∀ b ∈ spaces, b = 0x20) →
        (word = [0x41, 0x43, 0x43, 0x45, 0x50, 0x54] ∧ w = AnswerWord.accept
          ∨ word = [0x44, 0x45, 0x43, 0x4C, 0x49, 0x4E, 0x45] ∧ w = .decline
          ∨ word = [0x44, 0x4F, 0x4E, 0x45] ∧ w = .done) →
        parseAnswer (digits ++ spaces ++ word) = some (digitsValue digits, w))
      ∧ (parseAnswer line = none → exec (.answerLine line) s = .next (told .invalidAnswer))
      ∧ (∀ n w, parseAnswer line = some (n, w) →
          ((∀ p ∈ s.console.queue, p.num ≠ n) →
              exec (.answerLine line) s = .next (told (if n ∈ s.console.expired then .tooLate else .unknownPrompt)))
            ∧ (∀ p, s.prompt? n = some p →
                let invalid := (p.kind = .approve ∧ w = .done) ∨ (p.kind = .fault ∧ w ≠ .done)
                  ∨ (p.kind ≠ .approve ∧ p.kind ≠ .fault ∧ w = .accept)
                (invalid → exec (.answerLine line) s = .next (told .invalidAnswer))
                  ∧ (¬invalid → (s.console.lines.filter (fun x => !x.isDisplay)).length < 16 →
                      ∃ t, exec (.answerLine line) s = .next t ∧ ConsoleLine.reply (.taken n) ∈ t.console.lines))
            ∧ ∀ p, s.prompt? n = some p → calm s →
              let next := fun t : State => exec (.answerLine line) s = .next t
              let gone := s.console.queue.filter (fun q => q.num ≠ n)
              let charged := fun a : Fin 128 => { s.acct with accounts := s.acct.accounts.set a { s.acct.accounts[a] with
                prompts := min 65535 (s.acct.accounts[a].prompts + 1) } }
              let counted := fun (r : Rec) => { r with prompts := min 15 (r.prompts + 1) }
              let fieldsAt := fun (q : Fin 8) (ser : Option Serial) (a : Option (Fin 128)) =>
                ({ serial := ser, drive := none, position := some q, account := a } : DisplayFields)
              let ended := fun (u : State) (r : Rec) (o : FinalOutcome) => s.link.available < 2 → ∃ t, next t
                ∧ t.console.queue = gone ∧ endsIn t { u with console := t.console, acct := charged r.account } (counted r) o
                ∧ t.acct.accounts[r.account].prompts = min 65535 (s.acct.accounts[r.account].prompts + 1)
              let went := fun (t u : State) (a : Fin 128) =>
                t.acct = charged a ∧ lasting { t with console := s.console, acct := s.acct } = lasting u
              let at' := fun (q : Fin 8) => s.station.pos[q].prompt = .up n ∧ ∀ x : Fin 8, s.station.pos[x].prompt = .up n → x = q
              (∀ slot r y d, p.kind = .approve → p.block = .requestTable → p.subject = .slot slot → s.rec? slot = some r →
                  r.state = .held → r.serial = some y → nothingOwed s →
                  d = (if r.budgetHeld = true then r.heldDisp.getD .robot else .robot) →
                  let freed := fun (r : Rec) =>
                    { counted r with approve := .none, disposition := some d, heldDisp := none, budgetHeld := false }
                  let reached := ∃ e, s.entry? y = some e ∧ e.loc ≠ .missing ∧ e.loc ≠ .outside
                  (w = .decline → ended s r .operatorDeclined)
                    ∧ (w = .accept → (r.kind = .mount ∨ r.kind = .eject) → d ≠ .manual →
                        let released := { r with disposition := some d, heldDisp := none, budgetHeld := false }
                        (s.entry? y = none → ended s released .unknownVolume)
                          ∧ (∀ e, s.entry? y = some e → e.loc = .missing → ended s released .volumeMissing)
                          ∧ (∀ e, s.entry? y = some e → e.loc = .outside → ended s released .volumeOutside)
                          ∧ (r.kind = .mount → reached → (∀ x : Fin 16, s.drives[x].state ≠ .free) →
                              ∃ t, next t ∧ t.console.queue = gone
                                ∧ went t (s.updRec slot (fun r => { freed r with state := .queued })) r.account)
                          ∧ (r.kind = .eject → reached →
                              ∃ t, next t ∧ t.console.queue = gone
                                ∧ went t (s.updRec slot (fun r => { freed r with
                                    state := .staged, leg := some (s.ejectLeg r), nextLeg := none })) r.account))
                    ∧ (w = .accept → r.kind = .enter ∨ (r.kind = .mount ∧ d = .manual) →
                        (∀ q : Fin 8, s.station.pos[q].state = .empty → (∀ x < q, s.station.pos[x].state ≠ .empty) →
                            gone.length < 16 →
                            ∃ t k, next t
                              ∧ askedFor gone t.console.queue .supply r.template (.slot slot) (fieldsAt q (some y) (some r.account)) k
                              ∧ went t ((s.updPos q (fun _ => { StationPos.initial with
                                    state := .expecting slot, flow := some .supply, prompt := .up k })).updRec slot
                                  (fun r => { freed r with state := .supply })) r.account)
                          ∧ ((∀ q : Fin 8, s.station.pos[q].state ≠ .empty) →
                              ∃ t, next t ∧ t.console.queue = gone
                                ∧ went t ({ s with station := { s.station with supplyWait := s.station.supplyWait ++ [slot] } }.updRec
                                    slot (fun r => { freed r with state := .supply })) r.account)))
                ∧ (∀ q slot r, p.kind = .supply → p.block = .stationUnit → p.subject = .slot slot → s.rec? slot = some r →
                    s.station.pos[q].state = .expecting slot → at' q → nothingOwed s →
                    (w = .done → (∀ x ∈ s.rail.scanReqs, x.pos ≠ q) →
                        ∃ t, next t ∧ t.console.queue = gone
                          ∧ ((∃ x ∈ t.rail.scanReqs, x.pos = q ∧ x.kind = .supply)
                              ∨ ∃ acc b, (t.acc acc).scan = some (.station q .supply b))
                          ∧ went t ((s.updPos q (fun x => { x with prompt := .none })).updRec slot counted) r.account)
                      ∧ (w = .decline → s.expecting slot = some q → noClaims s →
                          ended (s.updPos q (fun _ => StationPos.initial)) r .operatorDeclined
                            ∧ ∀ t, next t → ∀ x ∈ t.rail.scanReqs, x.pos ≠ q))
                ∧ (∀ q ser, p.kind = .collect → p.block = .stationUnit → s.station.pos[q].state = .holding ser →
                    s.station.pos[q].flow = some .collect → at' q → nothingOwed s →
                    (w = .done → (∀ x ∈ s.rail.scanReqs, x.pos ≠ q) →
                        ∃ t, next t ∧ t.console.queue = gone
                          ∧ ((∃ x ∈ t.rail.scanReqs, x.pos = q ∧ x.kind = .collect)
                              ∨ ∃ acc b, (t.acc acc).scan = some (.station q .collect b))
                          ∧ (∀ slot r, p.subject = .slot slot → s.rec? slot = some r →
                              went t ((s.updPos q (fun x => { x with prompt := .none })).updRec slot counted) r.account)
                          ∧ (p.subject = .position q → t.acct = s.acct
                              ∧ lasting { t with console := s.console } = lasting (s.updPos q (fun x => { x with prompt := .none }))))
                      ∧ (w = .decline → gone.length < 16 →
                          (∀ slot r, p.subject = .slot slot → s.station.pos[q].owner = some slot → s.rec? slot = some r →
                              ∃ t k, next t
                                ∧ askedFor gone t.console.queue .collect 12 (.slot slot) (fieldsAt q (some ser) (some r.account)) k
                                ∧ went t ((s.updPos q (fun x => { x with prompt := .up k })).updRec slot counted) r.account)
                            ∧ (p.subject = .position q → s.station.pos[q].owner = none →
                                ∃ t k, next t
                                  ∧ askedFor gone t.console.queue .collect 12 (.position q) (fieldsAt q (some ser) none) k
                                  ∧ lasting { t with console := s.console } =
                                      lasting (s.updPos q (fun x => { x with prompt := .up k })))))
                ∧ (∀ q slot r ser, p.kind = .ring → p.block = .stationUnit → p.subject = .slot slot → s.rec? slot = some r →
                    r.serial = some ser → s.station.pos[q].state = .holding ser → s.station.pos[q].flow = some .ring →
                    s.station.pos[q].owner = some slot → at' q → nothingOwed s →
                    (w = .done → (∀ x : Fin 16, s.drives[x].state ≠ .free) →
                        ∃ t, next t ∧ t.console.queue = gone
                          ∧ went t { (s.updPos q (fun x => { x with flow := some .pickup, prompt := .none })).updRec slot
                                (fun r => { counted r with state := .queued }) with
                              dir := s.dir.map (fun e => if e.serial = ser then { e with ring := .present } else e) } r.account)
                      ∧ (∀ c, w = .decline → s.recHome r = some c →
                          ∃ t, next t ∧ t.console.queue = gone
                            ∧ went t ((s.updPos q (fun x => { x with flow := some .pickup, prompt := .none })).updRec slot
                                (fun r => { counted r with
                                  state := .returning, outcome := some .operatorDeclined, nextLeg := none,
                                  leg := some (legOf r (accOfColumn c.col) (.station (some q)) (.cell c)) })) r.account)
                      ∧ (w = .decline → s.recHome r = none → gone.length < 16 →
                          ∃ t k, next t
                            ∧ askedFor gone t.console.queue .collect 12 (.slot slot) (fieldsAt q (some ser) (some r.account)) k
                            ∧ went t ((s.updPos q (fun x => { x with flow := some .collect, prompt := .up k })).updRec slot
                                (fun r => { counted r with
                                  state := .collect, outcome := some .operatorDeclined, leg := none, nextLeg := none })) r.account))
                ∧ (p.kind = .cleanSupply → p.block = .driveTable → (∀ m, p.subject ≠ .slot m) → (∀ x, p.subject ≠ .position x) →
                    (w = .done →
                        let restored := s.cleanList.map (fun x => x.map (fun y => if y.uses = 0 then { y with uses := 50 } else y))
                        ∃ t a c, next t ∧ t.acct = charged 0 ∧ t.dir = s.dir ∧ t.cleanList = restored
                          ∧ a = { s with
                              sent := [], cleanPrompt := .none, cleanList := restored, acct := charged 0,
                              console := { s.console with queue := gone, shown := a.console.shown, lines := a.console.lines } }
                          ∧ attemptsMade a c
                          ∧ (nothingOwed c → t.console.queue = c.console.queue
                              ∧ lasting { t with console := s.console } = lasting { c with console := s.console })
                          ∧ ((∀ d : Fin 16, s.drives[d].cleanWait = false) → nothingOwed { s with cleanPrompt := .none } →
                              t.console.queue = gone
                                ∧ went { t with cleanList := s.cleanList } { s with cleanPrompt := .none } 0))
                      ∧ (w = .decline → nothingOwed { s with cleanPrompt := .none } →
                          ∃ t, next t ∧ t.console.queue = gone ∧ went t { s with cleanPrompt := .none } 0))
                ∧ (∀ acc, p.kind = .fault → p.block = .railScheduler → p.subject = .accessor acc →
                    (s.acc acc).state = .stalled → (s.acc acc).order = none → w = .done → nothingOwed s →
                    ∃ u : State, exec (.answerLine line) s = .next u.commit ∧ u.console.queue = gone
                      ∧ u.rail = (s.updAcc acc (fun x => { x with prompt := .none, todo := some .recover })).rail
                      ∧ u.acct = charged 0
                      ∧ u.recs = s.recs ∧ u.dir = s.dir ∧ u.drives = s.drives ∧ u.station = s.station ∧ u.link = s.link))

/-- R87, R114, R139, R142, R144, R148, R151, R152, R157, R158, R159: a prompt whose timer has run out escalates while it has escalations
left; then a REARM one starts over and a FAIL one leaves the queue for the expired list, each with PROMPT_EXPIRED raised. By its kind, a
FAIL expiry ends the HELD record of an APPROVE and the record of a SUPPLY, whose position becomes EMPTY, with OPERATOR_TIMEOUT, charged
to its account (R170 to R173); sends a RING's reel home, or to be collected when it has no home cell; asks at once for a new COLLECT
prompt, or for the FAULT prompt again with the urgency its order gave; and leaves the drive table of a CLEAN_SUPPLY with no prompt. The
space report raises what is owed: first the FAULT prompts of accessors A and B, then the CLEAN_SUPPLY prompt of the lowest drive in
cleaning wait, then the APPROVE prompts of HELD records in age order, then the prompts of station positions in ascending order, until the
queue is full or none of them is owed; it changes nothing but prompts, and raises nothing while the queue is full. That an expiry acts
only when the timer reads 0 is assumption log 8. -/
def Obligations.PromptsExpireAndAreRaised : Prop :=
  ∀ (n : Nat) (p : Prompt) (s : State),
    let expires := fun t : State => exec (.replyTimerExpiry n) s = .next t
    let raises := fun t : State => exec .owedPromptRaise s = .next t
    let gone := s.console.queue.filter (fun q => q.num ≠ n)
    let listed := (if 16 ≤ s.console.expired.length then s.console.expired.drop 1 else s.console.expired) ++ [n]
    let told := fun u : State => noticed u { kind := .promptExpired, subject := .prompt n }
    let fieldsAt := fun (q : Fin 8) (ser : Option Serial) (a : Option (Fin 128)) =>
      ({ serial := ser, drive := none, position := some q, account := a } : DisplayFields)
    let held := fun (r : Rec) => r.state = .held ∧ r.approve = .owed
    (s.prompt? n = some p → p.timer ≠ 0 → exec (.replyTimerExpiry n) s = .next { s with sent := [] })
      ∧ ((∀ q ∈ s.console.queue, q.num ≠ n) → exec (.replyTimerExpiry n) s = .next { s with sent := [] })
      ∧ (s.prompt? n = some p → p.timer = 0 → p.left ≠ 0 →
          ∃ t, expires t
            ∧ t.console.queue = s.console.queue.map (fun q =>
                if q.num = n then { q with urgency := min 7 (q.urgency + 1), left := q.left - 1, timer := q.reply } else q)
            ∧ { t with console := s.console } = { s with sent := [] })
      ∧ (s.prompt? n = some p → p.timer = 0 → p.left = 0 → p.action = .rearm → calm s →
          ∃ t, expires t
            ∧ t.console.queue = s.console.queue.map (fun q =>
                if q.num = n then { q with urgency := q.initial, left := q.steps, timer := q.reply } else q)
            ∧ lasting t = lasting (told { s with console := t.console }))
      ∧ (s.prompt? n = some p → p.timer = 0 → p.left = 0 → p.action = .fail → calm s → nothingOwed s →
          let ended := fun (u : State) (r : Rec) => s.link.available < 2 →
            ∃ t, expires t ∧ t.console.queue = gone ∧ t.console.expired = listed ∧ t.flagSet .promptExpired = true
              ∧ endsIn t { told u with console := t.console } r .operatorTimeout
          let went := fun (t u : State) => lasting { t with console := s.console } = lasting (told u)
          let asked := fun (t : State) (kind : PromptKind) (template : Nat) (subject : PromptSubject) (fields : DisplayFields)
              (k : Nat) =>
            askedFor gone t.console.queue kind template subject fields k
              ∧ t.console.expired = listed.filter (fun x => x ≠ k)
          let at' := fun (q : Fin 8) => s.station.pos[q].prompt = .up n ∧ ∀ x : Fin 8, s.station.pos[x].prompt = .up n → x = q
          (∀ slot r, p.kind = .approve → p.block = .requestTable → p.subject = .slot slot → s.rec? slot = some r →
              r.state = .held → ended s r)
            ∧ (∀ q slot r, p.kind = .supply → p.block = .stationUnit → p.subject = .slot slot → s.rec? slot = some r →
                s.station.pos[q].state = .expecting slot → at' q → s.expecting slot = some q → noClaims s →
                ended (s.updPos q (fun _ => StationPos.initial)) r)
            ∧ (∀ q slot r ser c, p.kind = .ring → p.block = .stationUnit → p.subject = .slot slot → s.rec? slot = some r →
                r.serial = some ser → s.station.pos[q].state = .holding ser → s.station.pos[q].flow = some .ring →
                s.station.pos[q].owner = some slot → at' q → s.recHome r = some c →
                ∃ t, expires t ∧ t.console.queue = gone ∧ t.console.expired = listed
                  ∧ went t ((s.updPos q (fun x => { x with flow := some .pickup, prompt := .none })).updRec slot (fun r =>
                      { r with state := .returning, outcome := some .operatorTimeout, nextLeg := none,
                               leg := some (legOf r (accOfColumn c.col) (.station (some q)) (.cell c)) })))
            ∧ (∀ q slot r ser, p.kind = .ring → p.block = .stationUnit → p.subject = .slot slot → s.rec? slot = some r →
                r.serial = some ser → s.station.pos[q].state = .holding ser → s.station.pos[q].flow = some .ring →
                s.station.pos[q].owner = some slot → at' q → s.recHome r = none → gone.length < 16 →
                ∃ t k, expires t ∧ asked t .collect 12 (.slot slot) (fieldsAt q (some ser) (some r.account)) k
                  ∧ went t ((s.updPos q (fun x => { x with flow := some .collect, prompt := .up k })).updRec slot (fun r =>
                      { r with state := .collect, outcome := some .operatorTimeout, leg := none, nextLeg := none })))
            ∧ (∀ q ser, p.kind = .collect → p.block = .stationUnit → s.station.pos[q].state = .holding ser →
                s.station.pos[q].flow = some .collect → at' q → gone.length < 16 →
                (∀ slot r, p.subject = .slot slot → s.station.pos[q].owner = some slot → s.rec? slot = some r →
                    ∃ t k, expires t ∧ asked t .collect 12 (.slot slot) (fieldsAt q (some ser) (some r.account)) k
                      ∧ went t (s.updPos q (fun x => { x with prompt := .up k })))
                  ∧ (p.subject = .position q → s.station.pos[q].owner = none →
                      ∃ t k, expires t ∧ asked t .collect 12 (.position q) (fieldsAt q (some ser) none) k
                        ∧ went t (s.updPos q (fun x => { x with prompt := .up k }))))
            ∧ (∀ acc, p.kind = .fault → p.block = .railScheduler → p.subject = .accessor acc → gone.length < 16 →
                ∃ t k, expires t ∧ asked t .fault 13 (.accessor acc) noFields k
                  ∧ (∀ x ∈ t.console.queue, x.num = k → x.override = p.override ∧ ∀ u, p.override = some u → x.urgency = u)
                  ∧ went t (s.updAcc acc (fun x => { x with prompt := .up k })))
            ∧ (p.kind = .cleanSupply → p.block = .driveTable → (∀ x, p.subject ≠ .position x) →
                ∃ t, expires t ∧ t.console.queue = gone ∧ t.console.expired = listed ∧ went t { s with cleanPrompt := .none }))
      ∧ (s.console.queue.length < 16 →
          let first := fun (kind : PromptKind) (template : Nat) (subject : PromptSubject) (fields : DisplayFields)
              (holds : State → Nat → Prop) =>
            ∃ t q more, raises t ∧ t.console.queue = s.console.queue ++ q :: more ∧ q.kind = kind ∧ q.template.val = template
              ∧ q.subject = subject ∧ q.fields = fields ∧ (∀ x ∈ s.console.queue, x.num ≠ q.num) ∧ holds t q.num
          let quiet := ∀ acc u, (s.acc acc).prompt ≠ .owed u
          (∀ acc u, (s.acc acc).prompt = .owed u → (acc = .b → ∀ v, (s.acc .a).prompt ≠ .owed v) →
              first .fault 13 (.accessor acc) noFields (fun t k => (t.acc acc).prompt = .up k
                ∧ ∀ v, u = some v → ∀ x ∈ t.console.queue, x.num = k → x.urgency = v))
            ∧ (∀ d : Fin 16, quiet → s.cleanPrompt = .owed → s.drives[d].cleanWait = true →
                (∀ x < d, s.drives[x].cleanWait = false) →
                first .cleanSupply 14 (.drive d) { noFields with drive := some d } (fun t k => t.cleanPrompt = .up k))
            ∧ (∀ before r after, quiet → s.cleanPrompt ≠ .owed → s.recs = before ++ r :: after → s.rec? r.slot = some r → held r →
                (∀ x ∈ before, ¬held x) →
                first .approve (if r.budgetHeld = true then 15 else r.template.val) (.slot r.slot)
                  { noFields with serial := r.serial, account := some r.account }
                  (fun t k => t.rec? r.slot = some { r with approve := .up k }))
            ∧ ∀ q : Fin 8, quiet → s.cleanPrompt ≠ .owed → (∀ r ∈ s.recs, ¬held r) → s.station.pos[q].prompt = .owed →
                (∀ x < q, s.station.pos[x].prompt ≠ .owed) →
                let up := fun (t : State) (k : Nat) => t.station.pos[q] = { s.station.pos[q] with prompt := .up k }
                (∀ slot r, s.station.pos[q].state = .expecting slot → s.rec? slot = some r →
                    first .supply r.template.val (.slot slot) (fieldsAt q r.serial (some r.account)) up)
                  ∧ (∀ slot r ser, s.station.pos[q].state = .holding ser → s.station.pos[q].flow = some .ring →
                      s.station.pos[q].owner = some slot → s.rec? slot = some r →
                      first .ring r.template.val (.slot slot) (fieldsAt q r.serial (some r.account)) up)
                  ∧ (∀ slot r ser, s.station.pos[q].state = .holding ser → s.station.pos[q].flow = some .collect →
                      s.station.pos[q].owner = some slot → s.rec? slot = some r →
                      first .collect 12 (.slot slot) (fieldsAt q (some ser) (some r.account)) up)
                  ∧ (∀ ser, s.station.pos[q].state = .holding ser → s.station.pos[q].flow = some .collect →
                      s.station.pos[q].owner = none → first .collect 12 (.position q) (fieldsAt q (some ser) none) up))
      ∧ (let calmed := fun (x : AccRec) => { x with prompt := .none }
          let unprompted := fun u : State => { u with
            sent := [], console := s.console, cleanPrompt := .none, recs := u.recs.map (fun (r : Rec) => { r with approve := .none }),
            rail := { u.rail with accs := { a := calmed u.rail.accs.a, b := calmed u.rail.accs.b } },
            station := { u.station with pos := u.station.pos.map (fun (x : StationPos) => { x with prompt := .none }) } }
          ∃ t new, raises t ∧ t.console.queue = s.console.queue ++ new ∧ unprompted t = unprompted s
            ∧ (16 ≤ t.console.queue.length
                ∨ (∀ acc u, (t.acc acc).prompt ≠ .owed u) ∧ t.cleanPrompt ≠ .owed
                  ∧ (∀ slot r, t.rec? slot = some r → ¬held r)
                  ∧ ∀ q : Fin 8, t.station.pos[q].prompt = .owed →
                      (∀ slot, t.station.pos[q].state = .expecting slot → t.rec? slot = none)
                        ∧ ∀ ser, t.station.pos[q].state = .holding ser → t.station.pos[q].flow ≠ some .collect
                            ∧ (t.station.pos[q].flow = some .ring → t.station.pos[q].owner.bind t.rec? = none)))
      ∧ (16 ≤ s.console.queue.length → ∃ t, raises t ∧ t.console = s.console)
      ∧ (nothingOwed s → raises { s with sent := [] })

/-! ## Accounting -/

/-- R13, R14, R138, R168, R175, R176, R177, R178, R180: ACCOUNT_SET replaces the two thresholds, recomputes the budget state and raises
its notice; ACCOUNT_READ_CLEAR reports the account and clears it but for its thresholds; RATE_SET stores every value clamped into its
range. An account that leaves LIMITED by either operation, its reply queued, has every HELD record that the budget holds released, and no
other record: its APPROVE prompt is withdrawn, its mark cleared, its held disposition taken, and it goes on as an accepted one does, in
age order. One record so released is shown whole: a MOUNT is QUEUED, here with no drive FREE, an EJECT STAGED with its leg, an ENTER or a
MANUAL mount in SUPPLY with the lowest EMPTY position EXPECTING it and its SUPPLY prompt, or in the supply wait list (R138), and a volume
out of reach ends it, charged to the account as it then stands (R170 to R173). -/
def Obligations.AccountOperations : Prop :=
  ∀ (tag : Tag) (n : Fin 128) (s : State), ready s →
    let x := s.acct.accounts[n]
    let with' := fun y : Account => { s with acct := { s.acct with accounts := s.acct.accounts.set n y } }
    let cleared := { x with acc := 0, saturated := false, mounts := 0, hold := 0, prompts := 0, last := 0, budget := .normal }
    let freed := fun r : Rec => r.state = .held ∧ r.account = n ∧ r.budgetHeld = true
    let released := fun (c : Instr) (reply : Frame) (v : State) =>
      (recordLaw s →
          ∃ t more, exec c s = .next t ∧ t.link.outq = s.link.outq ++ { kept := true, frame := reply } :: more
            ∧ (∀ slot r, s.rec? slot = some r → freed r → ∀ q, t.rec? slot = some q → q.state ≠ .held ∧ q.budgetHeld = false)
            ∧ (∀ slot r, s.rec? slot = some r → r.state = .held → ¬freed r →
                ∃ q, t.rec? slot = some { r with approve := q })
            ∧ ((∀ q : Fin 8, s.station.pos[q].state ≠ .empty) → (∀ r ∈ s.recs, freed r → r.kind = .enter) →
                t.station.supplyWait = s.station.supplyWait ++ (s.recs.filter (fun r => freed r)).map (·.slot)))
        ∧ ∀ slot r y, s.rec? slot = some r → freed r → (∀ q ∈ s.recs, freed q → q = r) → r.serial = some y →
            (∀ k, r.approve = .up k → (s.prompt? k).map (·.block) = some .requestTable) →
            nothingOwed (s.updRec slot (fun r => { r with approve := .none })) →
            let d := r.heldDisp.getD .robot
            let marked := fun r : Rec => { r with disposition := some d, heldDisp := none, budgetHeld := false }
            let goes := fun r : Rec => { marked r with approve := .none }
            let gone := s.console.queue.filter (fun p => r.approve ≠ .up p.num)
            let ended := fun o : FinalOutcome => s.link.available < 2 →
              ∃ t, exec c s = .next t ∧ t.console.queue = gone ∧ endsIn t { v with console := t.console } (marked r) o
            let became := fun u : State =>
              ∃ t, exec c s = .next t ∧ t.console.queue = gone ∧ lasting { t with console := s.console } = lasting u
            let reached := ∃ e, s.entry? y = some e ∧ e.loc ≠ .missing ∧ e.loc ≠ .outside
            ((r.kind = .mount ∨ r.kind = .eject) → d ≠ .manual →
                (s.entry? y = none → ended .unknownVolume)
                  ∧ (∀ e, s.entry? y = some e → e.loc = .missing → ended .volumeMissing)
                  ∧ (∀ e, s.entry? y = some e → e.loc = .outside → ended .volumeOutside)
                  ∧ (r.kind = .mount → reached → (∀ z : Fin 16, s.drives[z].state ≠ .free) →
                      became (v.updRec slot (fun r => { goes r with state := .queued })))
                  ∧ (r.kind = .eject → reached →
                      became (v.updRec slot (fun r => { goes r with state := .staged, leg := some (s.ejectLeg r), nextLeg := none }))))
              ∧ (r.kind = .enter ∨ (r.kind = .mount ∧ d = .manual) →
                  (∀ q : Fin 8, s.station.pos[q].state = .empty → (∀ z < q, s.station.pos[z].state ≠ .empty) → gone.length < 16 →
                      ∃ t k, exec c s = .next t
                        ∧ askedFor gone t.console.queue .supply r.template (.slot slot)
                            { serial := some y, drive := none, position := some q, account := some n } k
                        ∧ lasting { t with console := s.console } = lasting ((v.updPos q (fun _ => { StationPos.initial with
                            state := .expecting slot, flow := some .supply, prompt := .up k })).updRec slot
                              (fun r => { goes r with state := .supply })))
                    ∧ ((∀ q : Fin 8, s.station.pos[q].state ≠ .empty) →
                        became ({ v with station := { v.station with supplyWait := v.station.supplyWait ++ [slot] } }.updRec slot
                          (fun r => { goes r with state := .supply }))))
    (∀ (warn limit : Nat) (b : Budget), calm s →
        (b = .limited ↔ limit ≠ 0 ∧ limit ≤ x.acc) →
        (b = .warned ↔ ¬(limit ≠ 0 ∧ limit ≤ x.acc) ∧ warn ≠ 0 ∧ warn ≤ x.acc) →
        let reply := replyFrame 0x70 tag .done (.accountSet n warn limit x.acc b)
        let u := answered (with' { x with warn := warn, limit := limit, budget := b }) reply
        let warned := noticed u { kind := .budgetWarn, subject := .account n }
        ((x.budget = .limited → b ≠ .limited → ∀ r ∈ s.recs, ¬freed r) →
            ∃ t, exec (.accountSet tag n.val warn limit) s = .next t
              ∧ (b = x.budget ∨ b = .normal → lasting t = lasting u)
              ∧ (b ≠ x.budget → b = .warned → lasting t = lasting warned)
              ∧ (b ≠ x.budget → b = .limited → lasting t = lasting (noticed u { kind := .budgetLimit, subject := .account n })))
          ∧ (x.budget = .limited → b ≠ .limited →
              released (.accountSet tag n.val warn limit) reply (if b = .warned then warned else u)))
      ∧ (calm s →
          let reply := replyFrame 0x72 tag .done (.accountCleared n x s.acct.seconds .normal)
          let u := answered (with' cleared) reply
          ((x.budget = .limited → ∀ r ∈ s.recs, ¬freed r) →
              ∃ t, exec (.accountReadClear tag n.val) s = .next t ∧ lasting t = lasting u)
            ∧ (x.budget = .limited → released (.accountReadClear tag n.val) reply u))
      ∧ (∀ m warn limit, 128 ≤ m →
          exec (.accountSet tag m warn limit) s = .next (answered s (replyFrame 0x70 tag .badArgument .nothing))
            ∧ exec (.accountReadClear tag m) s = .next (answered s (replyFrame 0x72 tag .badArgument .nothing)))
      ∧ ∀ r : Rates, ∃ v : Rates, exec (.rateSet tag r) s =
          .next (answered { s with acct := { s.acct with rates := v } } (replyFrame 0x73 tag .done (.rates v)))
          ∧ (∀ c : Fin 3, v.grace[c] = min 255 r.grace[c] ∧ v.rate[c] = min 4095 r.rate[c]
              ∧ v.interval[c] = min 255 r.interval[c])
          ∧ (∀ p : Fin 8, v.mountFee[p] = min 65535 r.mountFee[p]) ∧ v.legFee = min 255 r.legFee
          ∧ v.promptFee = min 4095 r.promptFee ∧ v.writeFee = min 4095 r.writeFee
          ∧ ∀ q : Fin 4, v.mult[q] = max 4 (min 32 r.mult[q])

/-- R101, R111, R112, R157, R165: a tenth counts the gather windows; every tenth one counts the seconds counter, which wraps,
the reply timers, the drives' STATUS limits and the motion-limit timers, a motion-limit timer only while the guard of its
accessor's segment is CLOSED. Nothing else changes, no order is sent and nothing else of an accessor, its trip or its order. That the
drives' STATUS limits count with the guards OPEN too is assumption log 18. That SECOND_TICK does what a tenth TENTH_TICK does is the
model's choice (assumption log 9). -/
def Obligations.TimeBaseCounts : Prop :=
  ∀ (s : State),
    let open' := fun acc : Acc =>
      ((s.acc acc).column < 80 ∧ s.rail.westOpen = true)
        ∨ (80 ≤ (s.acc acc).column ∧ (s.acc acc).column ≤ 119 ∧ s.rail.middleOpen = true)
        ∨ (120 ≤ (s.acc acc).column ∧ s.rail.eastOpen = true)
    let window := fun acc : Acc => (s.acc acc).trip.map (fun tr =>
      { tr with window := if (s.acc acc).state = .gathering then tr.window - 1 else tr.window })
    let motion := fun acc : Acc => (s.acc acc).order.map (fun o => { o with timer := if open' acc then o.timer else o.timer - 1 })
    let frame := fun t : State =>
      t = { s with sent := [], acct := { s.acct with seconds := t.acct.seconds, tenths := t.acct.tenths }, drives := t.drives,
                   rail := { s.rail with accs := t.rail.accs },
                   console := { s.console with queue := t.console.queue } }
    let second := fun (t : State) => frame t ∧ t.acct.tenths = 0 ∧ t.acct.seconds = s.acct.seconds + 1
      ∧ (∀ acc, t.acc acc = { s.acc acc with trip := window acc, order := motion acc })
      ∧ t.console.queue = s.console.queue.map (fun p => { p with timer := p.timer - 1 })
      ∧ ∀ d : Fin 16, t.drives[d] = { s.drives[d] with status := s.drives[d].status.map (fun n => n - 1) }
    (s.acct.tenths < 9 → ∃ t, exec .tenthTick s = .next t ∧ frame t ∧ t.acct.tenths = s.acct.tenths + 1
        ∧ t.acct.seconds = s.acct.seconds ∧ (∀ acc, t.acc acc = { s.acc acc with trip := window acc })
        ∧ t.console.queue = s.console.queue ∧ t.drives = s.drives)
      ∧ (9 ≤ s.acct.tenths → ∃ t, exec .tenthTick s = .next t ∧ second t)
      ∧ ∃ t, exec .secondTick s = .next t ∧ second t

/-- R171: the charge, in exact integer arithmetic: billable minutes are the seconds beyond the grace rounded up to whole minutes, the base
is the sum of the five fees, the weighted charge is the base times the multiplier over 8 rounded half up, and the charge is cut off at
16,777,215 with the clamped mark set; every usage record carries it; and the values within stay at or below the bounds of the rule's table,
which the largest inputs reach. -/
def Obligations.ChargeIsComputed : Prop :=
  (∀ c : ChargeInputs,
    ∃ m : Nat, billableMinutes c.h c.grace = m ∧ (c.h ≤ c.grace → m = 0)
      ∧ (c.grace < c.h → m = (c.h - c.grace + 59) / 60 ∧ 60 * m < c.h - c.grace + 60 ∧ c.h - c.grace ≤ 60 * m)
      ∧ c.base = c.mountFee + m * c.rate + c.legs * c.legFee + c.prompts * c.promptFee + c.w * c.writeFee
      ∧ c.weighted = (c.base * c.mult + 4) / 8
      ∧ (c.weighted ≤ 16777215 → c.charge = c.weighted ∧ c.clamped = false)
      ∧ (16777215 < c.weighted → c.charge = 16777215 ∧ c.clamped = true)
      ∧ (∀ (r : Rec) (o : FinalOutcome) (a : Account), (usageOf r o c a).charge = c.charge ∧ (usageOf r o c a).clamped = c.clamped
          ∧ (usageOf r o c a).m = m ∧ (usageOf r o c a).base = c.base)
      ∧ (c.h ≤ 1048575 → c.rate ≤ 4095 → c.mountFee ≤ 65535 → c.legs ≤ 15 → c.legFee ≤ 255 → c.prompts ≤ 15 →
          c.promptFee ≤ 4095 → c.w ≤ 1 → c.writeFee ≤ 4095 → c.mult ≤ 32 →
          c.h - c.grace + 59 ≤ 1048634 ∧ m ≤ 17477 ∧ m * c.rate ≤ 71568315 ∧ c.base ≤ 71703195
            ∧ c.base * c.mult ≤ 2294502240 ∧ c.weighted ≤ 286812780))
    ∧ let most : ChargeInputs := { h := 1048575, grace := 0, rate := 4095, mountFee := 65535, legs := 15, legFee := 255,
                                   prompts := 15, promptFee := 4095, w := 1, writeFee := 4095, mult := 32 }
      billableMinutes most.h most.grace = 17477 ∧ 17477 * most.rate = 71568315 ∧ most.base = 71703195
        ∧ most.base * most.mult = 2294502240 ∧ most.weighted = 286812780

/-- R5, R20, R166, R170, R172, R173, R174, R176: a record that enters POSTING has its outcome fixed and its usage record built: the
charge of R171 over the inputs the record and the rate table give is added to its account, each count of the account rises and stops at
its largest value, the budget state is recomputed, and the notices of the build, ACCOUNT_SATURATED before the one of a budget state newly
WARNED or LIMITED, set their flags and stand in the record. Nothing else changes. -/
def Obligations.PostingBuildsTheUsageRecord : Prop :=
  ∀ (slot : Nat) (r : Rec) (s : State), s.rec? slot = some r →
    let c := chargeInputs s.acct.rates r
    let a := s.acct.accounts[r.account]
    let b := (s.enterPosting slot).acct.accounts[r.account]
    c.h = r.holdSecs ∧ c.legs = r.legs ∧ c.prompts = r.prompts ∧ c.legFee = s.acct.rates.legFee
      ∧ c.promptFee = s.acct.rates.promptFee ∧ c.writeFee = s.acct.rates.writeFee ∧ c.mult = s.acct.rates.mult[r.prio]
      ∧ c.mountFee = (if r.loaded then s.acct.rates.mountFee[r.pool] else 0)
      ∧ c.w = (if r.writeIntent = true ∧ r.loaded = true then 1 else 0)
      ∧ (r.driveClass = none → c.grace = 0 ∧ c.rate = 0)
      ∧ (∀ k, r.driveClass = some k →
          c.grace = s.acct.rates.grace[driveClassIndex k] ∧ c.rate = s.acct.rates.rate[driveClassIndex k])
      ∧ b.acc = min 4294967295 (a.acc + c.charge)
      ∧ (b.saturated = true ↔ a.saturated = true ∨ 4294967295 < a.acc + c.charge)
      ∧ b.mounts = (if r.loaded then min 65535 (a.mounts + 1) else a.mounts) ∧ b.hold = min 4294967295 (a.hold + r.holdSecs)
      ∧ b.last = c.charge ∧ b.prompts = a.prompts ∧ b.warn = a.warn ∧ b.limit = a.limit ∧ b.budget = b.budgetNow
      ∧ (∀ m : Fin 128, m ≠ r.account → (s.enterPosting slot).acct.accounts[m] = s.acct.accounts[m])
      ∧ (∃ acct flags q, s.enterPosting slot =
          ({ s with acct := { s.acct with accounts := acct }, link := { s.link with flags := flags } } : State).updRec slot (fun _ => q)
          ∧ (∀ k, (s.enterPosting slot).flagSet k = true ↔ s.flagSet k = true ∨ ∃ x ∈ q.notices, x.kind = k)
          ∧ q.notices = (if a.saturated = false ∧ b.saturated = true then [⟨.accountSaturated, .account r.account⟩] else [])
              ++ (if a.budget ≠ b.budget ∧ b.budget = .warned then [⟨.budgetWarn, .account r.account⟩] else [])
              ++ (if a.budget ≠ b.budget ∧ b.budget = .limited then [⟨.budgetLimit, .account r.account⟩] else []))
      ∧ (b.saturated = true → a.saturated = false → (s.enterPosting slot).flagSet .accountSaturated = true)
      ∧ (b.budget = .warned → a.budget ≠ .warned → (s.enterPosting slot).flagSet .budgetWarn = true)
      ∧ (b.budget = .limited → a.budget ≠ .limited → (s.enterPosting slot).flagSet .budgetLimit = true)
      ∧ ∃ q u, (s.enterPosting slot).rec? slot = some q ∧ q.state = .posting ∧ q.usage = some u ∧ q.leg = none ∧ q.drive = none
          ∧ q.outcome = some u.outcome ∧ (∀ o, r.outcome = some o → u.outcome = o)
          ∧ (r.outcome = none → u.outcome = kindOutcome r.kind)
          ∧ u.slot = r.slot ∧ u.corr = r.corr ∧ u.kind = r.kind ∧ u.serial = r.serial ∧ u.account = r.account
          ∧ u.driveClass = r.driveClass ∧ u.pool = r.pool ∧ u.prio = r.prio ∧ u.loaded = r.loaded ∧ u.h = r.holdSecs
          ∧ u.l = r.legs ∧ u.p = r.prompts ∧ u.base = c.base ∧ u.charge = c.charge ∧ u.clamped = c.clamped
          ∧ u.accAfter = b.acc ∧ u.budgetAfter = b.budget

end Statements
end

