-- ==== Sys2Proof/Laws/State.lean ====
section
/-! SUPPORT. What each primitive update of `State` leaves as it was: one lemma per update and field, each true by unfolding,
and the read-after-write laws of the per-accessor pairs and the tables. -/

namespace Sys2Proof

namespace Machine

/-! ## updRec -/

@[simp] theorem State.updRec_link (s : State) (slot : Nat) (f : Rec → Rec) : (s.updRec slot f).link = s.link := rfl

@[simp] theorem State.updRec_cls (s : State) (slot : Nat) (f : Rec → Rec) : (s.updRec slot f).cls = s.cls := rfl

@[simp] theorem State.updRec_dir (s : State) (slot : Nat) (f : Rec → Rec) : (s.updRec slot f).dir = s.dir := rfl

@[simp] theorem State.updRec_cleanList (s : State) (slot : Nat) (f : Rec → Rec) : (s.updRec slot f).cleanList = s.cleanList := rfl

@[simp] theorem State.updRec_drives (s : State) (slot : Nat) (f : Rec → Rec) : (s.updRec slot f).drives = s.drives := rfl

@[simp] theorem State.updRec_cleanPrompt (s : State) (slot : Nat) (f : Rec → Rec) : (s.updRec slot f).cleanPrompt = s.cleanPrompt := rfl

@[simp] theorem State.updRec_rail (s : State) (slot : Nat) (f : Rec → Rec) : (s.updRec slot f).rail = s.rail := rfl

@[simp] theorem State.updRec_audits (s : State) (slot : Nat) (f : Rec → Rec) : (s.updRec slot f).audits = s.audits := rfl

@[simp] theorem State.updRec_station (s : State) (slot : Nat) (f : Rec → Rec) : (s.updRec slot f).station = s.station := rfl

@[simp] theorem State.updRec_console (s : State) (slot : Nat) (f : Rec → Rec) : (s.updRec slot f).console = s.console := rfl

@[simp] theorem State.updRec_acct (s : State) (slot : Nat) (f : Rec → Rec) : (s.updRec slot f).acct = s.acct := rfl

@[simp] theorem State.updRec_sent (s : State) (slot : Nat) (f : Rec → Rec) : (s.updRec slot f).sent = s.sent := rfl

@[simp] theorem State.updRec_raised (s : State) (slot : Nat) (f : Rec → Rec) : (s.updRec slot f).raised = s.raised := rfl

@[simp] theorem State.updRec_pending (s : State) (slot : Nat) (f : Rec → Rec) : (s.updRec slot f).pending = s.pending := rfl

/-! ## updLeg -/

@[simp] theorem State.updLeg_link (s : State) (slot : Nat) (f : Leg → Leg) : (s.updLeg slot f).link = s.link := rfl

@[simp] theorem State.updLeg_cls (s : State) (slot : Nat) (f : Leg → Leg) : (s.updLeg slot f).cls = s.cls := rfl

@[simp] theorem State.updLeg_dir (s : State) (slot : Nat) (f : Leg → Leg) : (s.updLeg slot f).dir = s.dir := rfl

@[simp] theorem State.updLeg_cleanList (s : State) (slot : Nat) (f : Leg → Leg) : (s.updLeg slot f).cleanList = s.cleanList := rfl

@[simp] theorem State.updLeg_drives (s : State) (slot : Nat) (f : Leg → Leg) : (s.updLeg slot f).drives = s.drives := rfl

@[simp] theorem State.updLeg_cleanPrompt (s : State) (slot : Nat) (f : Leg → Leg) : (s.updLeg slot f).cleanPrompt = s.cleanPrompt := rfl

@[simp] theorem State.updLeg_rail (s : State) (slot : Nat) (f : Leg → Leg) : (s.updLeg slot f).rail = s.rail := rfl

@[simp] theorem State.updLeg_audits (s : State) (slot : Nat) (f : Leg → Leg) : (s.updLeg slot f).audits = s.audits := rfl

@[simp] theorem State.updLeg_station (s : State) (slot : Nat) (f : Leg → Leg) : (s.updLeg slot f).station = s.station := rfl

@[simp] theorem State.updLeg_console (s : State) (slot : Nat) (f : Leg → Leg) : (s.updLeg slot f).console = s.console := rfl

@[simp] theorem State.updLeg_acct (s : State) (slot : Nat) (f : Leg → Leg) : (s.updLeg slot f).acct = s.acct := rfl

@[simp] theorem State.updLeg_sent (s : State) (slot : Nat) (f : Leg → Leg) : (s.updLeg slot f).sent = s.sent := rfl

@[simp] theorem State.updLeg_raised (s : State) (slot : Nat) (f : Leg → Leg) : (s.updLeg slot f).raised = s.raised := rfl

@[simp] theorem State.updLeg_pending (s : State) (slot : Nat) (f : Leg → Leg) : (s.updLeg slot f).pending = s.pending := rfl

/-! ## openRec -/

@[simp] theorem State.openRec_link (s : State) (r : Rec) : (s.openRec r).link = s.link := rfl

@[simp] theorem State.openRec_cls (s : State) (r : Rec) : (s.openRec r).cls = s.cls := rfl

@[simp] theorem State.openRec_dir (s : State) (r : Rec) : (s.openRec r).dir = s.dir := rfl

@[simp] theorem State.openRec_cleanList (s : State) (r : Rec) : (s.openRec r).cleanList = s.cleanList := rfl

@[simp] theorem State.openRec_drives (s : State) (r : Rec) : (s.openRec r).drives = s.drives := rfl

@[simp] theorem State.openRec_cleanPrompt (s : State) (r : Rec) : (s.openRec r).cleanPrompt = s.cleanPrompt := rfl

@[simp] theorem State.openRec_rail (s : State) (r : Rec) : (s.openRec r).rail = s.rail := rfl

@[simp] theorem State.openRec_audits (s : State) (r : Rec) : (s.openRec r).audits = s.audits := rfl

@[simp] theorem State.openRec_station (s : State) (r : Rec) : (s.openRec r).station = s.station := rfl

@[simp] theorem State.openRec_console (s : State) (r : Rec) : (s.openRec r).console = s.console := rfl

@[simp] theorem State.openRec_acct (s : State) (r : Rec) : (s.openRec r).acct = s.acct := rfl

@[simp] theorem State.openRec_sent (s : State) (r : Rec) : (s.openRec r).sent = s.sent := rfl

@[simp] theorem State.openRec_raised (s : State) (r : Rec) : (s.openRec r).raised = s.raised := rfl

@[simp] theorem State.openRec_pending (s : State) (r : Rec) : (s.openRec r).pending = s.pending := rfl

/-! ## updAcc -/

@[simp] theorem State.updAcc_link (s : State) (acc : Acc) (f : AccRec → AccRec) : (s.updAcc acc f).link = s.link := rfl

@[simp] theorem State.updAcc_recs (s : State) (acc : Acc) (f : AccRec → AccRec) : (s.updAcc acc f).recs = s.recs := rfl

@[simp] theorem State.updAcc_cls (s : State) (acc : Acc) (f : AccRec → AccRec) : (s.updAcc acc f).cls = s.cls := rfl

@[simp] theorem State.updAcc_dir (s : State) (acc : Acc) (f : AccRec → AccRec) : (s.updAcc acc f).dir = s.dir := rfl

@[simp] theorem State.updAcc_cleanList (s : State) (acc : Acc) (f : AccRec → AccRec) : (s.updAcc acc f).cleanList = s.cleanList := rfl

@[simp] theorem State.updAcc_drives (s : State) (acc : Acc) (f : AccRec → AccRec) : (s.updAcc acc f).drives = s.drives := rfl

@[simp] theorem State.updAcc_cleanPrompt (s : State) (acc : Acc) (f : AccRec → AccRec) : (s.updAcc acc f).cleanPrompt = s.cleanPrompt := rfl

@[simp] theorem State.updAcc_audits (s : State) (acc : Acc) (f : AccRec → AccRec) : (s.updAcc acc f).audits = s.audits := rfl

@[simp] theorem State.updAcc_station (s : State) (acc : Acc) (f : AccRec → AccRec) : (s.updAcc acc f).station = s.station := rfl

@[simp] theorem State.updAcc_console (s : State) (acc : Acc) (f : AccRec → AccRec) : (s.updAcc acc f).console = s.console := rfl

@[simp] theorem State.updAcc_acct (s : State) (acc : Acc) (f : AccRec → AccRec) : (s.updAcc acc f).acct = s.acct := rfl

@[simp] theorem State.updAcc_sent (s : State) (acc : Acc) (f : AccRec → AccRec) : (s.updAcc acc f).sent = s.sent := rfl

@[simp] theorem State.updAcc_raised (s : State) (acc : Acc) (f : AccRec → AccRec) : (s.updAcc acc f).raised = s.raised := rfl

@[simp] theorem State.updAcc_pending (s : State) (acc : Acc) (f : AccRec → AccRec) : (s.updAcc acc f).pending = s.pending := rfl

/-! ## setQueue -/

@[simp] theorem State.setQueue_link (s : State) (acc : Acc) (q : List Nat) : (s.setQueue acc q).link = s.link := rfl

@[simp] theorem State.setQueue_recs (s : State) (acc : Acc) (q : List Nat) : (s.setQueue acc q).recs = s.recs := rfl

@[simp] theorem State.setQueue_cls (s : State) (acc : Acc) (q : List Nat) : (s.setQueue acc q).cls = s.cls := rfl

@[simp] theorem State.setQueue_dir (s : State) (acc : Acc) (q : List Nat) : (s.setQueue acc q).dir = s.dir := rfl

@[simp] theorem State.setQueue_cleanList (s : State) (acc : Acc) (q : List Nat) : (s.setQueue acc q).cleanList = s.cleanList := rfl

@[simp] theorem State.setQueue_drives (s : State) (acc : Acc) (q : List Nat) : (s.setQueue acc q).drives = s.drives := rfl

@[simp] theorem State.setQueue_cleanPrompt (s : State) (acc : Acc) (q : List Nat) : (s.setQueue acc q).cleanPrompt = s.cleanPrompt := rfl

@[simp] theorem State.setQueue_audits (s : State) (acc : Acc) (q : List Nat) : (s.setQueue acc q).audits = s.audits := rfl

@[simp] theorem State.setQueue_station (s : State) (acc : Acc) (q : List Nat) : (s.setQueue acc q).station = s.station := rfl

@[simp] theorem State.setQueue_console (s : State) (acc : Acc) (q : List Nat) : (s.setQueue acc q).console = s.console := rfl

@[simp] theorem State.setQueue_acct (s : State) (acc : Acc) (q : List Nat) : (s.setQueue acc q).acct = s.acct := rfl

@[simp] theorem State.setQueue_sent (s : State) (acc : Acc) (q : List Nat) : (s.setQueue acc q).sent = s.sent := rfl

@[simp] theorem State.setQueue_raised (s : State) (acc : Acc) (q : List Nat) : (s.setQueue acc q).raised = s.raised := rfl

@[simp] theorem State.setQueue_pending (s : State) (acc : Acc) (q : List Nat) : (s.setQueue acc q).pending = s.pending := rfl

/-! ## setShelf -/

@[simp] theorem State.setShelf_link (s : State) (p : Fin 4) (x : ShelfPos) : (s.setShelf p x).link = s.link := rfl

@[simp] theorem State.setShelf_recs (s : State) (p : Fin 4) (x : ShelfPos) : (s.setShelf p x).recs = s.recs := rfl

@[simp] theorem State.setShelf_cls (s : State) (p : Fin 4) (x : ShelfPos) : (s.setShelf p x).cls = s.cls := rfl

@[simp] theorem State.setShelf_dir (s : State) (p : Fin 4) (x : ShelfPos) : (s.setShelf p x).dir = s.dir := rfl

@[simp] theorem State.setShelf_cleanList (s : State) (p : Fin 4) (x : ShelfPos) : (s.setShelf p x).cleanList = s.cleanList := rfl

@[simp] theorem State.setShelf_drives (s : State) (p : Fin 4) (x : ShelfPos) : (s.setShelf p x).drives = s.drives := rfl

@[simp] theorem State.setShelf_cleanPrompt (s : State) (p : Fin 4) (x : ShelfPos) : (s.setShelf p x).cleanPrompt = s.cleanPrompt := rfl

@[simp] theorem State.setShelf_audits (s : State) (p : Fin 4) (x : ShelfPos) : (s.setShelf p x).audits = s.audits := rfl

@[simp] theorem State.setShelf_station (s : State) (p : Fin 4) (x : ShelfPos) : (s.setShelf p x).station = s.station := rfl

@[simp] theorem State.setShelf_console (s : State) (p : Fin 4) (x : ShelfPos) : (s.setShelf p x).console = s.console := rfl

@[simp] theorem State.setShelf_acct (s : State) (p : Fin 4) (x : ShelfPos) : (s.setShelf p x).acct = s.acct := rfl

@[simp] theorem State.setShelf_sent (s : State) (p : Fin 4) (x : ShelfPos) : (s.setShelf p x).sent = s.sent := rfl

@[simp] theorem State.setShelf_raised (s : State) (p : Fin 4) (x : ShelfPos) : (s.setShelf p x).raised = s.raised := rfl

@[simp] theorem State.setShelf_pending (s : State) (p : Fin 4) (x : ShelfPos) : (s.setShelf p x).pending = s.pending := rfl

/-! ## updDrive -/

@[simp] theorem State.updDrive_link (s : State) (d : Fin 16) (f : Drive → Drive) : (s.updDrive d f).link = s.link := rfl

@[simp] theorem State.updDrive_recs (s : State) (d : Fin 16) (f : Drive → Drive) : (s.updDrive d f).recs = s.recs := rfl

@[simp] theorem State.updDrive_cls (s : State) (d : Fin 16) (f : Drive → Drive) : (s.updDrive d f).cls = s.cls := rfl

@[simp] theorem State.updDrive_dir (s : State) (d : Fin 16) (f : Drive → Drive) : (s.updDrive d f).dir = s.dir := rfl

@[simp] theorem State.updDrive_cleanList (s : State) (d : Fin 16) (f : Drive → Drive) : (s.updDrive d f).cleanList = s.cleanList := rfl

@[simp] theorem State.updDrive_cleanPrompt (s : State) (d : Fin 16) (f : Drive → Drive) : (s.updDrive d f).cleanPrompt = s.cleanPrompt := rfl

@[simp] theorem State.updDrive_rail (s : State) (d : Fin 16) (f : Drive → Drive) : (s.updDrive d f).rail = s.rail := rfl

@[simp] theorem State.updDrive_audits (s : State) (d : Fin 16) (f : Drive → Drive) : (s.updDrive d f).audits = s.audits := rfl

@[simp] theorem State.updDrive_station (s : State) (d : Fin 16) (f : Drive → Drive) : (s.updDrive d f).station = s.station := rfl

@[simp] theorem State.updDrive_console (s : State) (d : Fin 16) (f : Drive → Drive) : (s.updDrive d f).console = s.console := rfl

@[simp] theorem State.updDrive_acct (s : State) (d : Fin 16) (f : Drive → Drive) : (s.updDrive d f).acct = s.acct := rfl

@[simp] theorem State.updDrive_sent (s : State) (d : Fin 16) (f : Drive → Drive) : (s.updDrive d f).sent = s.sent := rfl

@[simp] theorem State.updDrive_raised (s : State) (d : Fin 16) (f : Drive → Drive) : (s.updDrive d f).raised = s.raised := rfl

@[simp] theorem State.updDrive_pending (s : State) (d : Fin 16) (f : Drive → Drive) : (s.updDrive d f).pending = s.pending := rfl

/-! ## updPos -/

@[simp] theorem State.updPos_link (s : State) (p : Fin 8) (f : StationPos → StationPos) : (s.updPos p f).link = s.link := rfl

@[simp] theorem State.updPos_recs (s : State) (p : Fin 8) (f : StationPos → StationPos) : (s.updPos p f).recs = s.recs := rfl

@[simp] theorem State.updPos_cls (s : State) (p : Fin 8) (f : StationPos → StationPos) : (s.updPos p f).cls = s.cls := rfl

@[simp] theorem State.updPos_dir (s : State) (p : Fin 8) (f : StationPos → StationPos) : (s.updPos p f).dir = s.dir := rfl

@[simp] theorem State.updPos_cleanList (s : State) (p : Fin 8) (f : StationPos → StationPos) : (s.updPos p f).cleanList = s.cleanList := rfl

@[simp] theorem State.updPos_drives (s : State) (p : Fin 8) (f : StationPos → StationPos) : (s.updPos p f).drives = s.drives := rfl

@[simp] theorem State.updPos_cleanPrompt (s : State) (p : Fin 8) (f : StationPos → StationPos) : (s.updPos p f).cleanPrompt = s.cleanPrompt := rfl

@[simp] theorem State.updPos_rail (s : State) (p : Fin 8) (f : StationPos → StationPos) : (s.updPos p f).rail = s.rail := rfl

@[simp] theorem State.updPos_audits (s : State) (p : Fin 8) (f : StationPos → StationPos) : (s.updPos p f).audits = s.audits := rfl

@[simp] theorem State.updPos_console (s : State) (p : Fin 8) (f : StationPos → StationPos) : (s.updPos p f).console = s.console := rfl

@[simp] theorem State.updPos_acct (s : State) (p : Fin 8) (f : StationPos → StationPos) : (s.updPos p f).acct = s.acct := rfl

@[simp] theorem State.updPos_sent (s : State) (p : Fin 8) (f : StationPos → StationPos) : (s.updPos p f).sent = s.sent := rfl

@[simp] theorem State.updPos_raised (s : State) (p : Fin 8) (f : StationPos → StationPos) : (s.updPos p f).raised = s.raised := rfl

@[simp] theorem State.updPos_pending (s : State) (p : Fin 8) (f : StationPos → StationPos) : (s.updPos p f).pending = s.pending := rfl

/-! ## updAudit -/

@[simp] theorem State.updAudit_link (s : State) (acc : Acc) (f : Audit → Audit) : (s.updAudit acc f).link = s.link := rfl

@[simp] theorem State.updAudit_recs (s : State) (acc : Acc) (f : Audit → Audit) : (s.updAudit acc f).recs = s.recs := rfl

@[simp] theorem State.updAudit_cls (s : State) (acc : Acc) (f : Audit → Audit) : (s.updAudit acc f).cls = s.cls := rfl

@[simp] theorem State.updAudit_dir (s : State) (acc : Acc) (f : Audit → Audit) : (s.updAudit acc f).dir = s.dir := rfl

@[simp] theorem State.updAudit_cleanList (s : State) (acc : Acc) (f : Audit → Audit) : (s.updAudit acc f).cleanList = s.cleanList := rfl

@[simp] theorem State.updAudit_drives (s : State) (acc : Acc) (f : Audit → Audit) : (s.updAudit acc f).drives = s.drives := rfl

@[simp] theorem State.updAudit_cleanPrompt (s : State) (acc : Acc) (f : Audit → Audit) : (s.updAudit acc f).cleanPrompt = s.cleanPrompt := rfl

@[simp] theorem State.updAudit_rail (s : State) (acc : Acc) (f : Audit → Audit) : (s.updAudit acc f).rail = s.rail := rfl

@[simp] theorem State.updAudit_station (s : State) (acc : Acc) (f : Audit → Audit) : (s.updAudit acc f).station = s.station := rfl

@[simp] theorem State.updAudit_console (s : State) (acc : Acc) (f : Audit → Audit) : (s.updAudit acc f).console = s.console := rfl

@[simp] theorem State.updAudit_acct (s : State) (acc : Acc) (f : Audit → Audit) : (s.updAudit acc f).acct = s.acct := rfl

@[simp] theorem State.updAudit_sent (s : State) (acc : Acc) (f : Audit → Audit) : (s.updAudit acc f).sent = s.sent := rfl

@[simp] theorem State.updAudit_raised (s : State) (acc : Acc) (f : Audit → Audit) : (s.updAudit acc f).raised = s.raised := rfl

@[simp] theorem State.updAudit_pending (s : State) (acc : Acc) (f : Audit → Audit) : (s.updAudit acc f).pending = s.pending := rfl

/-! ## updAccount -/

@[simp] theorem State.updAccount_link (s : State) (n : Fin 128) (f : Account → Account) : (s.updAccount n f).link = s.link := rfl

@[simp] theorem State.updAccount_recs (s : State) (n : Fin 128) (f : Account → Account) : (s.updAccount n f).recs = s.recs := rfl

@[simp] theorem State.updAccount_cls (s : State) (n : Fin 128) (f : Account → Account) : (s.updAccount n f).cls = s.cls := rfl

@[simp] theorem State.updAccount_dir (s : State) (n : Fin 128) (f : Account → Account) : (s.updAccount n f).dir = s.dir := rfl

@[simp] theorem State.updAccount_cleanList (s : State) (n : Fin 128) (f : Account → Account) : (s.updAccount n f).cleanList = s.cleanList := rfl

@[simp] theorem State.updAccount_drives (s : State) (n : Fin 128) (f : Account → Account) : (s.updAccount n f).drives = s.drives := rfl

@[simp] theorem State.updAccount_cleanPrompt (s : State) (n : Fin 128) (f : Account → Account) : (s.updAccount n f).cleanPrompt = s.cleanPrompt := rfl

@[simp] theorem State.updAccount_rail (s : State) (n : Fin 128) (f : Account → Account) : (s.updAccount n f).rail = s.rail := rfl

@[simp] theorem State.updAccount_audits (s : State) (n : Fin 128) (f : Account → Account) : (s.updAccount n f).audits = s.audits := rfl

@[simp] theorem State.updAccount_station (s : State) (n : Fin 128) (f : Account → Account) : (s.updAccount n f).station = s.station := rfl

@[simp] theorem State.updAccount_console (s : State) (n : Fin 128) (f : Account → Account) : (s.updAccount n f).console = s.console := rfl

@[simp] theorem State.updAccount_sent (s : State) (n : Fin 128) (f : Account → Account) : (s.updAccount n f).sent = s.sent := rfl

@[simp] theorem State.updAccount_raised (s : State) (n : Fin 128) (f : Account → Account) : (s.updAccount n f).raised = s.raised := rfl

@[simp] theorem State.updAccount_pending (s : State) (n : Fin 128) (f : Account → Account) : (s.updAccount n f).pending = s.pending := rfl

/-! ## send -/

@[simp] theorem State.send_link (s : State) (o : MechOrder) : (s.send o).link = s.link := rfl

@[simp] theorem State.send_recs (s : State) (o : MechOrder) : (s.send o).recs = s.recs := rfl

@[simp] theorem State.send_cls (s : State) (o : MechOrder) : (s.send o).cls = s.cls := rfl

@[simp] theorem State.send_dir (s : State) (o : MechOrder) : (s.send o).dir = s.dir := rfl

@[simp] theorem State.send_cleanList (s : State) (o : MechOrder) : (s.send o).cleanList = s.cleanList := rfl

@[simp] theorem State.send_drives (s : State) (o : MechOrder) : (s.send o).drives = s.drives := rfl

@[simp] theorem State.send_cleanPrompt (s : State) (o : MechOrder) : (s.send o).cleanPrompt = s.cleanPrompt := rfl

@[simp] theorem State.send_rail (s : State) (o : MechOrder) : (s.send o).rail = s.rail := rfl

@[simp] theorem State.send_audits (s : State) (o : MechOrder) : (s.send o).audits = s.audits := rfl

@[simp] theorem State.send_station (s : State) (o : MechOrder) : (s.send o).station = s.station := rfl

@[simp] theorem State.send_console (s : State) (o : MechOrder) : (s.send o).console = s.console := rfl

@[simp] theorem State.send_acct (s : State) (o : MechOrder) : (s.send o).acct = s.acct := rfl

@[simp] theorem State.send_raised (s : State) (o : MechOrder) : (s.send o).raised = s.raised := rfl

@[simp] theorem State.send_pending (s : State) (o : MechOrder) : (s.send o).pending = s.pending := rfl

/-! ## start -/

@[simp] theorem State.start_link (s : State) : (s.start).link = s.link := rfl

@[simp] theorem State.start_recs (s : State) : (s.start).recs = s.recs := rfl

@[simp] theorem State.start_cls (s : State) : (s.start).cls = s.cls := rfl

@[simp] theorem State.start_dir (s : State) : (s.start).dir = s.dir := rfl

@[simp] theorem State.start_cleanList (s : State) : (s.start).cleanList = s.cleanList := rfl

@[simp] theorem State.start_drives (s : State) : (s.start).drives = s.drives := rfl

@[simp] theorem State.start_cleanPrompt (s : State) : (s.start).cleanPrompt = s.cleanPrompt := rfl

@[simp] theorem State.start_rail (s : State) : (s.start).rail = s.rail := rfl

@[simp] theorem State.start_audits (s : State) : (s.start).audits = s.audits := rfl

@[simp] theorem State.start_station (s : State) : (s.start).station = s.station := rfl

@[simp] theorem State.start_console (s : State) : (s.start).console = s.console := rfl

@[simp] theorem State.start_acct (s : State) : (s.start).acct = s.acct := rfl

@[simp] theorem State.start_raised (s : State) : (s.start).raised = s.raised := rfl

@[simp] theorem State.start_pending (s : State) : (s.start).pending = s.pending := rfl

/-! ## setFlag -/

@[simp] theorem State.setFlag_recs (s : State) (k : NoticeKind) : (s.setFlag k).recs = s.recs := rfl

@[simp] theorem State.setFlag_cls (s : State) (k : NoticeKind) : (s.setFlag k).cls = s.cls := rfl

@[simp] theorem State.setFlag_dir (s : State) (k : NoticeKind) : (s.setFlag k).dir = s.dir := rfl

@[simp] theorem State.setFlag_cleanList (s : State) (k : NoticeKind) : (s.setFlag k).cleanList = s.cleanList := rfl

@[simp] theorem State.setFlag_drives (s : State) (k : NoticeKind) : (s.setFlag k).drives = s.drives := rfl

@[simp] theorem State.setFlag_cleanPrompt (s : State) (k : NoticeKind) : (s.setFlag k).cleanPrompt = s.cleanPrompt := rfl

@[simp] theorem State.setFlag_rail (s : State) (k : NoticeKind) : (s.setFlag k).rail = s.rail := rfl

@[simp] theorem State.setFlag_audits (s : State) (k : NoticeKind) : (s.setFlag k).audits = s.audits := rfl

@[simp] theorem State.setFlag_station (s : State) (k : NoticeKind) : (s.setFlag k).station = s.station := rfl

@[simp] theorem State.setFlag_console (s : State) (k : NoticeKind) : (s.setFlag k).console = s.console := rfl

@[simp] theorem State.setFlag_acct (s : State) (k : NoticeKind) : (s.setFlag k).acct = s.acct := rfl

@[simp] theorem State.setFlag_sent (s : State) (k : NoticeKind) : (s.setFlag k).sent = s.sent := rfl

@[simp] theorem State.setFlag_raised (s : State) (k : NoticeKind) : (s.setFlag k).raised = s.raised := rfl

@[simp] theorem State.setFlag_pending (s : State) (k : NoticeKind) : (s.setFlag k).pending = s.pending := rfl

/-! ## raise -/

@[simp] theorem State.raise_recs (s : State) (k : NoticeKind) (x : NoticeSubject) : (s.raise k x).recs = s.recs := rfl

@[simp] theorem State.raise_cls (s : State) (k : NoticeKind) (x : NoticeSubject) : (s.raise k x).cls = s.cls := rfl

@[simp] theorem State.raise_dir (s : State) (k : NoticeKind) (x : NoticeSubject) : (s.raise k x).dir = s.dir := rfl

@[simp] theorem State.raise_cleanList (s : State) (k : NoticeKind) (x : NoticeSubject) : (s.raise k x).cleanList = s.cleanList := rfl

@[simp] theorem State.raise_drives (s : State) (k : NoticeKind) (x : NoticeSubject) : (s.raise k x).drives = s.drives := rfl

@[simp] theorem State.raise_cleanPrompt (s : State) (k : NoticeKind) (x : NoticeSubject) : (s.raise k x).cleanPrompt = s.cleanPrompt := rfl

@[simp] theorem State.raise_rail (s : State) (k : NoticeKind) (x : NoticeSubject) : (s.raise k x).rail = s.rail := rfl

@[simp] theorem State.raise_audits (s : State) (k : NoticeKind) (x : NoticeSubject) : (s.raise k x).audits = s.audits := rfl

@[simp] theorem State.raise_station (s : State) (k : NoticeKind) (x : NoticeSubject) : (s.raise k x).station = s.station := rfl

@[simp] theorem State.raise_console (s : State) (k : NoticeKind) (x : NoticeSubject) : (s.raise k x).console = s.console := rfl

@[simp] theorem State.raise_acct (s : State) (k : NoticeKind) (x : NoticeSubject) : (s.raise k x).acct = s.acct := rfl

@[simp] theorem State.raise_sent (s : State) (k : NoticeKind) (x : NoticeSubject) : (s.raise k x).sent = s.sent := rfl

@[simp] theorem State.raise_pending (s : State) (k : NoticeKind) (x : NoticeSubject) : (s.raise k x).pending = s.pending := rfl

/-! ## enqueue -/

@[simp] theorem State.enqueue_recs (s : State) (kept : Bool) (f : Frame) : (s.enqueue kept f).recs = s.recs := rfl

@[simp] theorem State.enqueue_cls (s : State) (kept : Bool) (f : Frame) : (s.enqueue kept f).cls = s.cls := rfl

@[simp] theorem State.enqueue_dir (s : State) (kept : Bool) (f : Frame) : (s.enqueue kept f).dir = s.dir := rfl

@[simp] theorem State.enqueue_cleanList (s : State) (kept : Bool) (f : Frame) : (s.enqueue kept f).cleanList = s.cleanList := rfl

@[simp] theorem State.enqueue_drives (s : State) (kept : Bool) (f : Frame) : (s.enqueue kept f).drives = s.drives := rfl

@[simp] theorem State.enqueue_cleanPrompt (s : State) (kept : Bool) (f : Frame) : (s.enqueue kept f).cleanPrompt = s.cleanPrompt := rfl

@[simp] theorem State.enqueue_rail (s : State) (kept : Bool) (f : Frame) : (s.enqueue kept f).rail = s.rail := rfl

@[simp] theorem State.enqueue_audits (s : State) (kept : Bool) (f : Frame) : (s.enqueue kept f).audits = s.audits := rfl

@[simp] theorem State.enqueue_station (s : State) (kept : Bool) (f : Frame) : (s.enqueue kept f).station = s.station := rfl

@[simp] theorem State.enqueue_console (s : State) (kept : Bool) (f : Frame) : (s.enqueue kept f).console = s.console := rfl

@[simp] theorem State.enqueue_acct (s : State) (kept : Bool) (f : Frame) : (s.enqueue kept f).acct = s.acct := rfl

@[simp] theorem State.enqueue_sent (s : State) (kept : Bool) (f : Frame) : (s.enqueue kept f).sent = s.sent := rfl

@[simp] theorem State.enqueue_raised (s : State) (kept : Bool) (f : Frame) : (s.enqueue kept f).raised = s.raised := rfl

@[simp] theorem State.enqueue_pending (s : State) (kept : Bool) (f : Frame) : (s.enqueue kept f).pending = s.pending := rfl

/-! ## updEntry -/

@[simp] theorem State.updEntry_link (s : State) (ser : Serial) (f : Entry → Entry) : (s.updEntry ser f).link = s.link := rfl

@[simp] theorem State.updEntry_recs (s : State) (ser : Serial) (f : Entry → Entry) : (s.updEntry ser f).recs = s.recs := rfl

@[simp] theorem State.updEntry_cls (s : State) (ser : Serial) (f : Entry → Entry) : (s.updEntry ser f).cls = s.cls := rfl

@[simp] theorem State.updEntry_cleanList (s : State) (ser : Serial) (f : Entry → Entry) : (s.updEntry ser f).cleanList = s.cleanList := rfl

@[simp] theorem State.updEntry_drives (s : State) (ser : Serial) (f : Entry → Entry) : (s.updEntry ser f).drives = s.drives := rfl

@[simp] theorem State.updEntry_cleanPrompt (s : State) (ser : Serial) (f : Entry → Entry) : (s.updEntry ser f).cleanPrompt = s.cleanPrompt := rfl

@[simp] theorem State.updEntry_rail (s : State) (ser : Serial) (f : Entry → Entry) : (s.updEntry ser f).rail = s.rail := rfl

@[simp] theorem State.updEntry_audits (s : State) (ser : Serial) (f : Entry → Entry) : (s.updEntry ser f).audits = s.audits := rfl

@[simp] theorem State.updEntry_station (s : State) (ser : Serial) (f : Entry → Entry) : (s.updEntry ser f).station = s.station := rfl

@[simp] theorem State.updEntry_console (s : State) (ser : Serial) (f : Entry → Entry) : (s.updEntry ser f).console = s.console := rfl

@[simp] theorem State.updEntry_acct (s : State) (ser : Serial) (f : Entry → Entry) : (s.updEntry ser f).acct = s.acct := rfl

@[simp] theorem State.updEntry_sent (s : State) (ser : Serial) (f : Entry → Entry) : (s.updEntry ser f).sent = s.sent := rfl

@[simp] theorem State.updEntry_raised (s : State) (ser : Serial) (f : Entry → Entry) : (s.updEntry ser f).raised = s.raised := rfl

@[simp] theorem State.updEntry_pending (s : State) (ser : Serial) (f : Entry → Entry) : (s.updEntry ser f).pending = s.pending := rfl

/-! ## deleteEntry -/

@[simp] theorem State.deleteEntry_link (s : State) (ser : Serial) : (s.deleteEntry ser).link = s.link := rfl

@[simp] theorem State.deleteEntry_recs (s : State) (ser : Serial) : (s.deleteEntry ser).recs = s.recs := rfl

@[simp] theorem State.deleteEntry_cls (s : State) (ser : Serial) : (s.deleteEntry ser).cls = s.cls := rfl

@[simp] theorem State.deleteEntry_cleanList (s : State) (ser : Serial) : (s.deleteEntry ser).cleanList = s.cleanList := rfl

@[simp] theorem State.deleteEntry_drives (s : State) (ser : Serial) : (s.deleteEntry ser).drives = s.drives := rfl

@[simp] theorem State.deleteEntry_cleanPrompt (s : State) (ser : Serial) : (s.deleteEntry ser).cleanPrompt = s.cleanPrompt := rfl

@[simp] theorem State.deleteEntry_rail (s : State) (ser : Serial) : (s.deleteEntry ser).rail = s.rail := rfl

@[simp] theorem State.deleteEntry_audits (s : State) (ser : Serial) : (s.deleteEntry ser).audits = s.audits := rfl

@[simp] theorem State.deleteEntry_station (s : State) (ser : Serial) : (s.deleteEntry ser).station = s.station := rfl

@[simp] theorem State.deleteEntry_console (s : State) (ser : Serial) : (s.deleteEntry ser).console = s.console := rfl

@[simp] theorem State.deleteEntry_acct (s : State) (ser : Serial) : (s.deleteEntry ser).acct = s.acct := rfl

@[simp] theorem State.deleteEntry_sent (s : State) (ser : Serial) : (s.deleteEntry ser).sent = s.sent := rfl

@[simp] theorem State.deleteEntry_raised (s : State) (ser : Serial) : (s.deleteEntry ser).raised = s.raised := rfl

@[simp] theorem State.deleteEntry_pending (s : State) (ser : Serial) : (s.deleteEntry ser).pending = s.pending := rfl

/-! ## displace -/

@[simp] theorem State.displace_link (s : State) (ser : Serial) (loc : Location) (cell : Option Cell) : (s.displace ser loc cell).link = s.link := rfl

@[simp] theorem State.displace_recs (s : State) (ser : Serial) (loc : Location) (cell : Option Cell) : (s.displace ser loc cell).recs = s.recs := rfl

@[simp] theorem State.displace_cls (s : State) (ser : Serial) (loc : Location) (cell : Option Cell) : (s.displace ser loc cell).cls = s.cls := rfl

@[simp] theorem State.displace_cleanList (s : State) (ser : Serial) (loc : Location) (cell : Option Cell) : (s.displace ser loc cell).cleanList = s.cleanList := rfl

@[simp] theorem State.displace_drives (s : State) (ser : Serial) (loc : Location) (cell : Option Cell) : (s.displace ser loc cell).drives = s.drives := rfl

@[simp] theorem State.displace_cleanPrompt (s : State) (ser : Serial) (loc : Location) (cell : Option Cell) : (s.displace ser loc cell).cleanPrompt = s.cleanPrompt := rfl

@[simp] theorem State.displace_rail (s : State) (ser : Serial) (loc : Location) (cell : Option Cell) : (s.displace ser loc cell).rail = s.rail := rfl

@[simp] theorem State.displace_audits (s : State) (ser : Serial) (loc : Location) (cell : Option Cell) : (s.displace ser loc cell).audits = s.audits := rfl

@[simp] theorem State.displace_station (s : State) (ser : Serial) (loc : Location) (cell : Option Cell) : (s.displace ser loc cell).station = s.station := rfl

@[simp] theorem State.displace_console (s : State) (ser : Serial) (loc : Location) (cell : Option Cell) : (s.displace ser loc cell).console = s.console := rfl

@[simp] theorem State.displace_acct (s : State) (ser : Serial) (loc : Location) (cell : Option Cell) : (s.displace ser loc cell).acct = s.acct := rfl

@[simp] theorem State.displace_sent (s : State) (ser : Serial) (loc : Location) (cell : Option Cell) : (s.displace ser loc cell).sent = s.sent := rfl

@[simp] theorem State.displace_raised (s : State) (ser : Serial) (loc : Location) (cell : Option Cell) : (s.displace ser loc cell).raised = s.raised := rfl

@[simp] theorem State.displace_pending (s : State) (ser : Serial) (loc : Location) (cell : Option Cell) : (s.displace ser loc cell).pending = s.pending := rfl

/-! ## setLib -/

@[simp] theorem State.setLib_recs (s : State) (l : LibState) : (s.setLib l).recs = s.recs := rfl

@[simp] theorem State.setLib_cls (s : State) (l : LibState) : (s.setLib l).cls = s.cls := rfl

@[simp] theorem State.setLib_dir (s : State) (l : LibState) : (s.setLib l).dir = s.dir := rfl

@[simp] theorem State.setLib_cleanList (s : State) (l : LibState) : (s.setLib l).cleanList = s.cleanList := rfl

@[simp] theorem State.setLib_drives (s : State) (l : LibState) : (s.setLib l).drives = s.drives := rfl

@[simp] theorem State.setLib_cleanPrompt (s : State) (l : LibState) : (s.setLib l).cleanPrompt = s.cleanPrompt := rfl

@[simp] theorem State.setLib_rail (s : State) (l : LibState) : (s.setLib l).rail = s.rail := rfl

@[simp] theorem State.setLib_audits (s : State) (l : LibState) : (s.setLib l).audits = s.audits := rfl

@[simp] theorem State.setLib_station (s : State) (l : LibState) : (s.setLib l).station = s.station := rfl

@[simp] theorem State.setLib_console (s : State) (l : LibState) : (s.setLib l).console = s.console := rfl

@[simp] theorem State.setLib_acct (s : State) (l : LibState) : (s.setLib l).acct = s.acct := rfl

@[simp] theorem State.setLib_sent (s : State) (l : LibState) : (s.setLib l).sent = s.sent := rfl

@[simp] theorem State.setLib_raised (s : State) (l : LibState) : (s.setLib l).raised = s.raised := rfl

@[simp] theorem State.setLib_pending (s : State) (l : LibState) : (s.setLib l).pending = s.pending := rfl

/-! ## settle -/

@[simp] theorem State.settle_recs (s : State) (dev : Device) : (s.settle dev).recs = s.recs := rfl

@[simp] theorem State.settle_cls (s : State) (dev : Device) : (s.settle dev).cls = s.cls := rfl

@[simp] theorem State.settle_dir (s : State) (dev : Device) : (s.settle dev).dir = s.dir := rfl

@[simp] theorem State.settle_cleanList (s : State) (dev : Device) : (s.settle dev).cleanList = s.cleanList := rfl

@[simp] theorem State.settle_drives (s : State) (dev : Device) : (s.settle dev).drives = s.drives := rfl

@[simp] theorem State.settle_cleanPrompt (s : State) (dev : Device) : (s.settle dev).cleanPrompt = s.cleanPrompt := rfl

@[simp] theorem State.settle_rail (s : State) (dev : Device) : (s.settle dev).rail = s.rail := rfl

@[simp] theorem State.settle_audits (s : State) (dev : Device) : (s.settle dev).audits = s.audits := rfl

@[simp] theorem State.settle_station (s : State) (dev : Device) : (s.settle dev).station = s.station := rfl

@[simp] theorem State.settle_console (s : State) (dev : Device) : (s.settle dev).console = s.console := rfl

@[simp] theorem State.settle_acct (s : State) (dev : Device) : (s.settle dev).acct = s.acct := rfl

@[simp] theorem State.settle_sent (s : State) (dev : Device) : (s.settle dev).sent = s.sent := rfl

@[simp] theorem State.settle_raised (s : State) (dev : Device) : (s.settle dev).raised = s.raised := rfl

@[simp] theorem State.settle_pending (s : State) (dev : Device) : (s.settle dev).pending = s.pending := rfl

/-! ## setRules -/

@[simp] theorem State.setRules_link (s : State) (rules : List StoredRule) : (s.setRules rules).link = s.link := rfl

@[simp] theorem State.setRules_recs (s : State) (rules : List StoredRule) : (s.setRules rules).recs = s.recs := rfl

@[simp] theorem State.setRules_dir (s : State) (rules : List StoredRule) : (s.setRules rules).dir = s.dir := rfl

@[simp] theorem State.setRules_cleanList (s : State) (rules : List StoredRule) : (s.setRules rules).cleanList = s.cleanList := rfl

@[simp] theorem State.setRules_drives (s : State) (rules : List StoredRule) : (s.setRules rules).drives = s.drives := rfl

@[simp] theorem State.setRules_cleanPrompt (s : State) (rules : List StoredRule) : (s.setRules rules).cleanPrompt = s.cleanPrompt := rfl

@[simp] theorem State.setRules_rail (s : State) (rules : List StoredRule) : (s.setRules rules).rail = s.rail := rfl

@[simp] theorem State.setRules_audits (s : State) (rules : List StoredRule) : (s.setRules rules).audits = s.audits := rfl

@[simp] theorem State.setRules_station (s : State) (rules : List StoredRule) : (s.setRules rules).station = s.station := rfl

@[simp] theorem State.setRules_console (s : State) (rules : List StoredRule) : (s.setRules rules).console = s.console := rfl

@[simp] theorem State.setRules_acct (s : State) (rules : List StoredRule) : (s.setRules rules).acct = s.acct := rfl

@[simp] theorem State.setRules_sent (s : State) (rules : List StoredRule) : (s.setRules rules).sent = s.sent := rfl

@[simp] theorem State.setRules_raised (s : State) (rules : List StoredRule) : (s.setRules rules).raised = s.raised := rfl

@[simp] theorem State.setRules_pending (s : State) (rules : List StoredRule) : (s.setRules rules).pending = s.pending := rfl

/-! ## updInput -/

@[simp] theorem State.updInput_link (s : State) (i : PanelInput) (f : Input → Input) : (s.updInput i f).link = s.link := rfl

@[simp] theorem State.updInput_recs (s : State) (i : PanelInput) (f : Input → Input) : (s.updInput i f).recs = s.recs := rfl

@[simp] theorem State.updInput_cls (s : State) (i : PanelInput) (f : Input → Input) : (s.updInput i f).cls = s.cls := rfl

@[simp] theorem State.updInput_dir (s : State) (i : PanelInput) (f : Input → Input) : (s.updInput i f).dir = s.dir := rfl

@[simp] theorem State.updInput_cleanList (s : State) (i : PanelInput) (f : Input → Input) : (s.updInput i f).cleanList = s.cleanList := rfl

@[simp] theorem State.updInput_drives (s : State) (i : PanelInput) (f : Input → Input) : (s.updInput i f).drives = s.drives := rfl

@[simp] theorem State.updInput_cleanPrompt (s : State) (i : PanelInput) (f : Input → Input) : (s.updInput i f).cleanPrompt = s.cleanPrompt := rfl

@[simp] theorem State.updInput_rail (s : State) (i : PanelInput) (f : Input → Input) : (s.updInput i f).rail = s.rail := rfl

@[simp] theorem State.updInput_audits (s : State) (i : PanelInput) (f : Input → Input) : (s.updInput i f).audits = s.audits := rfl

@[simp] theorem State.updInput_station (s : State) (i : PanelInput) (f : Input → Input) : (s.updInput i f).station = s.station := rfl

@[simp] theorem State.updInput_acct (s : State) (i : PanelInput) (f : Input → Input) : (s.updInput i f).acct = s.acct := rfl

@[simp] theorem State.updInput_sent (s : State) (i : PanelInput) (f : Input → Input) : (s.updInput i f).sent = s.sent := rfl

@[simp] theorem State.updInput_raised (s : State) (i : PanelInput) (f : Input → Input) : (s.updInput i f).raised = s.raised := rfl

@[simp] theorem State.updInput_pending (s : State) (i : PanelInput) (f : Input → Input) : (s.updInput i f).pending = s.pending := rfl

/-! ## updPrompt -/

@[simp] theorem State.updPrompt_link (s : State) (num : Nat) (f : Prompt → Prompt) : (s.updPrompt num f).link = s.link := rfl

@[simp] theorem State.updPrompt_recs (s : State) (num : Nat) (f : Prompt → Prompt) : (s.updPrompt num f).recs = s.recs := rfl

@[simp] theorem State.updPrompt_cls (s : State) (num : Nat) (f : Prompt → Prompt) : (s.updPrompt num f).cls = s.cls := rfl

@[simp] theorem State.updPrompt_dir (s : State) (num : Nat) (f : Prompt → Prompt) : (s.updPrompt num f).dir = s.dir := rfl

@[simp] theorem State.updPrompt_cleanList (s : State) (num : Nat) (f : Prompt → Prompt) : (s.updPrompt num f).cleanList = s.cleanList := rfl

@[simp] theorem State.updPrompt_drives (s : State) (num : Nat) (f : Prompt → Prompt) : (s.updPrompt num f).drives = s.drives := rfl

@[simp] theorem State.updPrompt_cleanPrompt (s : State) (num : Nat) (f : Prompt → Prompt) : (s.updPrompt num f).cleanPrompt = s.cleanPrompt := rfl

@[simp] theorem State.updPrompt_rail (s : State) (num : Nat) (f : Prompt → Prompt) : (s.updPrompt num f).rail = s.rail := rfl

@[simp] theorem State.updPrompt_audits (s : State) (num : Nat) (f : Prompt → Prompt) : (s.updPrompt num f).audits = s.audits := rfl

@[simp] theorem State.updPrompt_station (s : State) (num : Nat) (f : Prompt → Prompt) : (s.updPrompt num f).station = s.station := rfl

@[simp] theorem State.updPrompt_acct (s : State) (num : Nat) (f : Prompt → Prompt) : (s.updPrompt num f).acct = s.acct := rfl

@[simp] theorem State.updPrompt_sent (s : State) (num : Nat) (f : Prompt → Prompt) : (s.updPrompt num f).sent = s.sent := rfl

@[simp] theorem State.updPrompt_raised (s : State) (num : Nat) (f : Prompt → Prompt) : (s.updPrompt num f).raised = s.raised := rfl

@[simp] theorem State.updPrompt_pending (s : State) (num : Nat) (f : Prompt → Prompt) : (s.updPrompt num f).pending = s.pending := rfl

/-! ## replyLine -/

@[simp] theorem State.replyLine_link (s : State) (r : ReplyLine) : (s.replyLine r).link = s.link := rfl

@[simp] theorem State.replyLine_recs (s : State) (r : ReplyLine) : (s.replyLine r).recs = s.recs := rfl

@[simp] theorem State.replyLine_cls (s : State) (r : ReplyLine) : (s.replyLine r).cls = s.cls := rfl

@[simp] theorem State.replyLine_dir (s : State) (r : ReplyLine) : (s.replyLine r).dir = s.dir := rfl

@[simp] theorem State.replyLine_cleanList (s : State) (r : ReplyLine) : (s.replyLine r).cleanList = s.cleanList := rfl

@[simp] theorem State.replyLine_drives (s : State) (r : ReplyLine) : (s.replyLine r).drives = s.drives := rfl

@[simp] theorem State.replyLine_cleanPrompt (s : State) (r : ReplyLine) : (s.replyLine r).cleanPrompt = s.cleanPrompt := rfl

@[simp] theorem State.replyLine_rail (s : State) (r : ReplyLine) : (s.replyLine r).rail = s.rail := rfl

@[simp] theorem State.replyLine_audits (s : State) (r : ReplyLine) : (s.replyLine r).audits = s.audits := rfl

@[simp] theorem State.replyLine_station (s : State) (r : ReplyLine) : (s.replyLine r).station = s.station := rfl

@[simp] theorem State.replyLine_acct (s : State) (r : ReplyLine) : (s.replyLine r).acct = s.acct := rfl

@[simp] theorem State.replyLine_sent (s : State) (r : ReplyLine) : (s.replyLine r).sent = s.sent := rfl

@[simp] theorem State.replyLine_raised (s : State) (r : ReplyLine) : (s.replyLine r).raised = s.raised := rfl

@[simp] theorem State.replyLine_pending (s : State) (r : ReplyLine) : (s.replyLine r).pending = s.pending := rfl

/-! ## setCleanList -/

@[simp] theorem State.setCleanList_link (s : State) (l : Vector (Option (Serial × Nat)) 4) : (s.setCleanList l).link = s.link := rfl

@[simp] theorem State.setCleanList_recs (s : State) (l : Vector (Option (Serial × Nat)) 4) : (s.setCleanList l).recs = s.recs := rfl

@[simp] theorem State.setCleanList_cls (s : State) (l : Vector (Option (Serial × Nat)) 4) : (s.setCleanList l).cls = s.cls := rfl

@[simp] theorem State.setCleanList_dir (s : State) (l : Vector (Option (Serial × Nat)) 4) : (s.setCleanList l).dir = s.dir := rfl

@[simp] theorem State.setCleanList_drives (s : State) (l : Vector (Option (Serial × Nat)) 4) : (s.setCleanList l).drives = s.drives := rfl

@[simp] theorem State.setCleanList_cleanPrompt (s : State) (l : Vector (Option (Serial × Nat)) 4) : (s.setCleanList l).cleanPrompt = s.cleanPrompt := rfl

@[simp] theorem State.setCleanList_rail (s : State) (l : Vector (Option (Serial × Nat)) 4) : (s.setCleanList l).rail = s.rail := rfl

@[simp] theorem State.setCleanList_audits (s : State) (l : Vector (Option (Serial × Nat)) 4) : (s.setCleanList l).audits = s.audits := rfl

@[simp] theorem State.setCleanList_station (s : State) (l : Vector (Option (Serial × Nat)) 4) : (s.setCleanList l).station = s.station := rfl

@[simp] theorem State.setCleanList_console (s : State) (l : Vector (Option (Serial × Nat)) 4) : (s.setCleanList l).console = s.console := rfl

@[simp] theorem State.setCleanList_acct (s : State) (l : Vector (Option (Serial × Nat)) 4) : (s.setCleanList l).acct = s.acct := rfl

@[simp] theorem State.setCleanList_sent (s : State) (l : Vector (Option (Serial × Nat)) 4) : (s.setCleanList l).sent = s.sent := rfl

@[simp] theorem State.setCleanList_raised (s : State) (l : Vector (Option (Serial × Nat)) 4) : (s.setCleanList l).raised = s.raised := rfl

@[simp] theorem State.setCleanList_pending (s : State) (l : Vector (Option (Serial × Nat)) 4) : (s.setCleanList l).pending = s.pending := rfl

/-! ## Read after write -/

@[simp] theorem PerAcc.get_set_self {α : Type} (p : PerAcc α) (acc : Acc) (x : α) : (p.set acc x).get acc = x := by
  cases acc <;> rfl

@[simp] theorem PerAcc.get_set_other {α : Type} (p : PerAcc α) (acc other : Acc) (x : α) (h : other ≠ acc) :
    (p.set acc x).get other = p.get other := by
  cases acc <;> cases other <;> first | rfl | exact absurd rfl h

theorem PerAcc.get_set {α : Type} (p : PerAcc α) (acc other : Acc) (x : α) :
    (p.set acc x).get other = if other = acc then x else p.get other := by
  cases acc <;> cases other <;> rfl

@[simp] theorem State.acc_updAcc_self (s : State) (acc : Acc) (f : AccRec → AccRec) :
    (s.updAcc acc f).acc acc = f (s.acc acc) := by
  cases acc <;> rfl

@[simp] theorem State.acc_updAcc_other (s : State) (acc other : Acc) (f : AccRec → AccRec) (h : other ≠ acc) :
    (s.updAcc acc f).acc other = s.acc other := by
  cases acc <;> cases other <;> first | rfl | exact absurd rfl h

theorem State.acc_updAcc (s : State) (acc other : Acc) (f : AccRec → AccRec) :
    (s.updAcc acc f).acc other = if other = acc then f (s.acc acc) else s.acc other := by
  cases acc <;> cases other <;> rfl

/-- What an update of one accessor's record leaves of the rail. -/
theorem State.updAcc_rail (s : State) (acc : Acc) (f : AccRec → AccRec) :
    (s.updAcc acc f).rail = { s.rail with accs := s.rail.accs.set acc (f (s.acc acc)) } := rfl

@[simp] theorem State.setQueue_acc (s : State) (acc other : Acc) (q : List Nat) : (s.setQueue acc q).acc other = s.acc other := rfl

@[simp] theorem State.setShelf_acc (s : State) (p : Fin 4) (x : ShelfPos) (acc : Acc) : (s.setShelf p x).acc acc = s.acc acc := rfl

@[simp] theorem State.updDrive_self (s : State) (d : Fin 16) (f : Drive → Drive) :
    (s.updDrive d f).drives[d] = f s.drives[d] := by
  simp [State.updDrive]

@[simp] theorem State.updDrive_other (s : State) (d e : Fin 16) (f : Drive → Drive) (h : e ≠ d) :
    (s.updDrive d f).drives[e] = s.drives[e] := by
  have : d.val ≠ e.val := fun x => h (Fin.ext x.symm)
  simp [State.updDrive, this]

@[simp] theorem State.updPos_self (s : State) (p : Fin 8) (f : StationPos → StationPos) :
    (s.updPos p f).station.pos[p] = f s.station.pos[p] := by
  simp [State.updPos]

@[simp] theorem State.updPos_other (s : State) (p q : Fin 8) (f : StationPos → StationPos) (h : q ≠ p) :
    (s.updPos p f).station.pos[q] = s.station.pos[q] := by
  have : p.val ≠ q.val := fun x => h (Fin.ext x.symm)
  simp [State.updPos, this]

@[simp] theorem State.updAccount_self (s : State) (n : Fin 128) (f : Account → Account) :
    (s.updAccount n f).acct.accounts[n] = f s.acct.accounts[n] := by
  simp [State.updAccount]

@[simp] theorem State.updAccount_other (s : State) (n m : Fin 128) (f : Account → Account) (h : m ≠ n) :
    (s.updAccount n f).acct.accounts[m] = s.acct.accounts[m] := by
  have : n.val ≠ m.val := fun x => h (Fin.ext x.symm)
  simp [State.updAccount, this]

/-- An update of a record that keeps its slot is read back at the slot. -/
theorem State.rec?_updRec_self (s : State) (slot : Nat) (f : Rec → Rec) (hf : ∀ r, r.slot = slot → (f r).slot = slot) :
    (s.updRec slot f).rec? slot = (s.rec? slot).map f := by
  simp only [State.rec?, State.updRec]
  induction s.recs with
  | nil => rfl
  | cons r rest ih =>
    by_cases h : r.slot = slot
    · simp [updFirst, h, hf r h]
    · simpa [updFirst, h] using ih

/-- An update of the record in one slot leaves the record in another. -/
theorem State.rec?_updRec_other (s : State) (slot other : Nat) (f : Rec → Rec) (hf : ∀ r, r.slot = slot → (f r).slot = slot)
    (h : other ≠ slot) : (s.updRec slot f).rec? other = s.rec? other := by
  simp only [State.rec?, State.updRec]
  induction s.recs with
  | nil => rfl
  | cons r rest ih =>
    by_cases hr : r.slot = slot
    · have h1 : (f r).slot = slot := hf r hr
      have h2 : slot ≠ other := fun x => h x.symm
      simp [updFirst, hr, h1, h2]
    · by_cases ho : r.slot = other
      · simp [updFirst, ho, h]
      · simpa [updFirst, hr, ho] using ih

/-- A reading of the members that an update of one keeps is kept of the list. -/
theorem updFirst_map {α β : Type} (p : α → Bool) (f : α → α) (g : α → β) (l : List α)
    (h : ∀ x, l.find? p = some x → g (f x) = g x) : (updFirst p f l).map g = l.map g := by
  induction l with
  | nil => rfl
  | cons x rest ih =>
    by_cases hx : p x = true
    · simp [updFirst, hx, h x (by simp [hx])]
    · simp only [updFirst, hx, Bool.false_eq_true, if_false, List.map_cons]
      rw [ih (fun y hy => h y (by simpa [hx] using hy))]

/-- Every member after an update is a member from before, or the changed one. -/
theorem mem_updFirst {α : Type} (p : α → Bool) (f : α → α) (l : List α) (y : α) (h : y ∈ updFirst p f l) :
    y ∈ l ∨ ∃ x ∈ l, p x = true ∧ y = f x := by
  induction l with
  | nil => cases h
  | cons x rest ih =>
    by_cases hx : p x = true
    · rw [updFirst, if_pos hx] at h
      rcases List.mem_cons.mp h with rfl | h
      · exact .inr ⟨x, by simp, hx, rfl⟩
      · exact .inl (List.mem_cons_of_mem _ h)
    · rw [updFirst, if_neg hx] at h
      rcases List.mem_cons.mp h with rfl | h
      · exact .inl (by simp)
      · rcases ih h with h | ⟨z, hz, hp, rfl⟩
        · exact .inl (List.mem_cons_of_mem _ h)
        · exact .inr ⟨z, List.mem_cons_of_mem _ hz, hp, rfl⟩

/-- The leg in play after an update of it. -/
theorem State.leg?_updLeg_self (s : State) (slot : Nat) (f : Leg → Leg) :
    (s.updLeg slot f).leg? slot = (s.leg? slot).map f := by
  unfold State.leg? State.updLeg
  rw [State.rec?_updRec_self s slot _ (by intro r h; exact h)]
  cases s.rec? slot <;> rfl

end Machine

end Sys2Proof
end

