-- ==== Sys2Proof/Laws/Rail.lean ====
section
/-! SUPPORT. Everything the rail scheduler may do when it looks for work keeps the lasting part of the state (`Safety.lasting`):
one lemma for each of its operations, ending in `lasting_railSettle`. -/

namespace Sys2Proof

namespace Machine

open Safety

/-! ## What equal lasting parts share -/

theorem link_of_lasting {s t : State} (h : lasting t = lasting s) : t.link = s.link := (congrArg State.link h :)

theorem cls_of_lasting {s t : State} (h : lasting t = lasting s) : t.cls = s.cls := (congrArg State.cls h :)

theorem dir_of_lasting {s t : State} (h : lasting t = lasting s) : t.dir = s.dir := (congrArg State.dir h :)

theorem cleanList_of_lasting {s t : State} (h : lasting t = lasting s) : t.cleanList = s.cleanList := (congrArg State.cleanList h :)

theorem drives_of_lasting {s t : State} (h : lasting t = lasting s) : t.drives = s.drives := (congrArg State.drives h :)

theorem cleanPrompt_of_lasting {s t : State} (h : lasting t = lasting s) : t.cleanPrompt = s.cleanPrompt := (congrArg State.cleanPrompt h :)

theorem console_of_lasting {s t : State} (h : lasting t = lasting s) : t.console = s.console := (congrArg State.console h :)

theorem acct_of_lasting {s t : State} (h : lasting t = lasting s) : t.acct = s.acct := (congrArg State.acct h :)

theorem raised_of_lasting {s t : State} (h : lasting t = lasting s) : t.raised = s.raised := (congrArg State.raised h :)

theorem pending_of_lasting {s t : State} (h : lasting t = lasting s) : t.pending = s.pending := (congrArg State.pending h :)

theorem acc_of_lasting {s t : State} (h : lasting t = lasting s) (acc : Acc) : lastingAcc (t.acc acc) = lastingAcc (s.acc acc) := by
  cases acc
  · exact congrArg (fun x : State => x.rail.accs.a) h
  · exact congrArg (fun x : State => x.rail.accs.b) h

theorem audit_of_lasting {s t : State} (h : lasting t = lasting s) (acc : Acc) :
    (t.audits.get acc).map lastingAudit = (s.audits.get acc).map lastingAudit := by
  cases acc
  · exact congrArg (fun x : State => x.audits.a) h
  · exact congrArg (fun x : State => x.audits.b) h

theorem pos_of_lasting {s t : State} (h : lasting t = lasting s) (p : Fin 8) :
    lastingPos t.station.pos[p] = lastingPos s.station.pos[p] := by
  have h1 : t.station.pos.map lastingPos = s.station.pos.map lastingPos := congrArg (fun x : State => x.station.pos) h
  have h2 : (t.station.pos.map lastingPos)[p] = (s.station.pos.map lastingPos)[p] := by rw [h1]
  simpa using h2

theorem shelf_of_lasting {s t : State} (h : lasting t = lasting s) (p : Fin 4) :
    lastingShelf t.rail.shelf[p] = lastingShelf s.rail.shelf[p] := by
  have h1 : t.rail.shelf.map lastingShelf = s.rail.shelf.map lastingShelf := congrArg (fun x : State => x.rail.shelf) h
  have h2 : (t.rail.shelf.map lastingShelf)[p] = (s.rail.shelf.map lastingShelf)[p] := by rw [h1]
  simpa using h2

theorem recs_of_lasting {s t : State} (h : lasting t = lasting s) : t.recs.map lastingRec = s.recs.map lastingRec :=
  congrArg State.recs h

/-- The record in a slot, but for its leg's passing marks, is the same in states with equal lasting parts. -/
theorem rec?_of_lasting {s t : State} (h : lasting t = lasting s) (slot : Nat) :
    (t.rec? slot).map lastingRec = (s.rec? slot).map lastingRec := by
  have key : ∀ l : List Rec, (l.find? (fun r => decide (r.slot = slot))).map lastingRec
      = (l.map lastingRec).find? (fun r => decide (r.slot = slot)) := by
    intro l
    induction l with
    | nil => rfl
    | cons r rest ih => by_cases hr : r.slot = slot <;> simp_all [lastingRec]
  unfold State.rec?
  rw [key, key, recs_of_lasting h]

/-! ## Primitive updates -/

theorem lasting_updLeg (s : State) (slot : Nat) (f : Leg → Leg)
    (h : ∀ l, s.leg? slot = some l → lastingLeg (f l) = lastingLeg l) : lasting (s.updLeg slot f) = lasting s := by
  have : (updFirst (fun r => decide (r.slot = slot)) (fun r => { r with leg := r.leg.map f }) s.recs).map lastingRec
      = s.recs.map lastingRec := by
    refine updFirst_map _ _ _ _ (fun r hr => ?_)
    cases hl : r.leg with
    | none => simp [lastingRec, hl]
    | some l =>
      have : s.leg? slot = some l := by simp [State.leg?, State.rec?, hr, hl]
      simp [lastingRec, hl, h l this]
  simp [lasting, State.updLeg, State.updRec, this]

/-- Any update of a leg that changes only its marks, state and position number. -/
theorem lasting_updLeg' (s : State) (slot : Nat) (f : Leg → Leg) (h : ∀ l, lastingLeg (f l) = lastingLeg l) :
    lasting (s.updLeg slot f) = lasting s := lasting_updLeg s slot f (fun l _ => h l)

theorem lasting_updAcc_at (s : State) (acc : Acc) (f : AccRec → AccRec) (h : lastingAcc (f (s.acc acc)) = lastingAcc (s.acc acc)) :
    lasting (s.updAcc acc f) = lasting s := by
  cases acc
  · have h' : lastingAcc (f s.rail.accs.a) = lastingAcc s.rail.accs.a := h
    simp [lasting, State.updAcc, PerAcc.set, PerAcc.get, h']
  · have h' : lastingAcc (f s.rail.accs.b) = lastingAcc s.rail.accs.b := h
    simp [lasting, State.updAcc, PerAcc.set, PerAcc.get, h']

theorem lasting_updAcc (s : State) (acc : Acc) (f : AccRec → AccRec) (h : ∀ x, lastingAcc (f x) = lastingAcc x) :
    lasting (s.updAcc acc f) = lasting s := lasting_updAcc_at s acc f (h _)

/-- An accessor at work that stays at work. -/
theorem lastingAcc_work (x y : AccRec) (hx : outOfWork x.state = false) (hy : outOfWork y.state = false)
    (h : lastingAcc { y with state := x.state, faults := x.faults } = lastingAcc x) : lastingAcc y = lastingAcc x := by
  simp_all [lastingAcc]

@[simp] theorem lasting_setQueue (s : State) (acc : Acc) (q : List Nat) : lasting (s.setQueue acc q) = lasting s := by
  cases acc <;> rfl

theorem lasting_setShelf (s : State) (p : Fin 4) (ref : LegRef) (h : s.rail.shelf[p] = .empty) :
    lasting (s.setShelf p (.reserved ref)) = lasting s := by
  have : (s.rail.shelf.set p (.reserved ref)).map lastingShelf = s.rail.shelf.map lastingShelf := by
    ext i hi
    simp only [Vector.getElem_map, Vector.getElem_set]
    split
    · rename_i e; subst e; exact (congrArg lastingShelf h).symm
    · rfl
  simp [lasting, State.setShelf, this]

theorem lasting_updPos (s : State) (p : Fin 8) (f : StationPos → StationPos)
    (h : lastingPos (f s.station.pos[p]) = lastingPos s.station.pos[p]) : lasting (s.updPos p f) = lasting s := by
  have : (s.station.pos.set p (f s.station.pos[p])).map lastingPos = s.station.pos.map lastingPos := by
    ext i hi
    simp only [Vector.getElem_map, Vector.getElem_set]
    split
    · rename_i e; subst e; exact h
    · rfl
  simp only [lasting, State.updPos, this]

theorem lasting_updAudit (s : State) (acc : Acc) (f : Audit → Audit) (h : ∀ x, lastingAudit (f x) = lastingAudit x) :
    lasting (s.updAudit acc f) = lasting s := by
  cases acc <;> simp [lasting, State.updAudit, PerAcc.set, PerAcc.get, Function.comp_def, h]

@[simp] theorem lasting_send (s : State) (o : MechOrder) : lasting (s.send o) = lasting s := rfl

@[simp] theorem lasting_start (s : State) : lasting s.start = lasting s := rfl

theorem lastingPos_scan (x : StationPos) (y : PosScan) : lastingPos { x with scan := y } = lastingPos x := by
  unfold lastingPos; cases x.state <;> rfl

theorem lastingLeg_unnamed (l : Leg) (dst : Place) (h : dst.unnamed = l.dst.unnamed) :
    lastingLeg { l with dst := dst } = lastingLeg l := by simp [lastingLeg, h]

/-- A position is named to a leg or put-back reel that was to go to one of its kind. -/
theorem lasting_setDst (s : State) (ref : LegRef) (dst : Place) (h : ∀ d, s.dstOf ref = some d → dst.unnamed = d.unnamed) :
    lasting (s.setDst ref dst) = lasting s := by
  cases ref with
  | record slot =>
    refine lasting_updLeg _ _ _ (fun l hl => lastingLeg_unnamed l dst (h l.dst ?_))
    simp [State.dstOf, hl]
  | putBack acc hd => exact lasting_updAcc _ _ _ (fun _ => rfl)

theorem find_finRange_some {n : Nat} {p : Fin n → Bool} {i : Fin n} (h : (List.finRange n).find? p = some i) : p i = true :=
  List.find?_some h

theorem lasting_reserveFor (s t : State) (ref : LegRef) (h : s.reserveFor ref = some t) : lasting t = lasting s := by
  unfold State.reserveFor State.reserveShelf State.reserveStation at h
  split at h
  · rename_i hd
    obtain ⟨p, hp, rfl⟩ := Option.map_eq_some_iff.mp h
    have he : s.rail.shelf[p] = .empty := by simpa using find_finRange_some hp
    have hk : (s.setShelf p (.reserved ref)).dstOf ref = s.dstOf ref := by cases ref <;> rfl
    rw [lasting_setDst, lasting_setShelf _ _ _ he]
    intro d hx
    rw [hk, hd] at hx; cases hx; rfl
  · rename_i hd
    obtain ⟨p, hp, rfl⟩ := Option.map_eq_some_iff.mp h
    have he : s.station.pos[p].state = .empty := by simpa using find_finRange_some hp
    have hk : ∀ f, (s.updPos p f).dstOf ref = s.dstOf ref := by intro f; cases ref <;> rfl
    rw [lasting_setDst, lasting_updPos]
    · have he' : s.station.pos[p.val].state = .empty := he
      simp [lastingPos, he', StationPos.initial]
    · intro d hx
      rw [hk, hd] at hx; cases hx; rfl
  · cases h; rfl

@[simp] theorem lasting_reserveFor_getD (s : State) (ref : LegRef) : lasting ((s.reserveFor ref).getD s) = lasting s := by
  cases h : s.reserveFor ref with
  | none => rfl
  | some t => exact lasting_reserveFor s t ref h

theorem lastingAcc_unwait (x : AccRec) : lastingAcc x.unwait = lastingAcc x := by
  unfold AccRec.unwait
  split
  · rename_i h; exact lastingAcc_work _ _ (by simp [h, outOfWork]) rfl rfl
  · rfl

@[simp] theorem lasting_unwait (s : State) (acc : Acc) : lasting (s.updAcc acc AccRec.unwait) = lasting s :=
  lasting_updAcc _ _ _ lastingAcc_unwait

/-! ## Trips and orders -/

@[simp] theorem lasting_tripJoin (s : State) (acc : Acc) (slot : Nat) : lasting (s.tripJoin acc slot) = lasting s := by
  unfold State.tripJoin
  simp only [lasting_reserveFor_getD]
  rw [lasting_updAcc, lasting_updLeg', lasting_setQueue]
  · intro l; rfl
  · intro x; rfl

/-- A fold of steps that each leave a view leaves it. -/
theorem foldl_view {α β γ : Type} (v : β → γ) (f : β → α → β) (h : ∀ s x, v (f s x) = v s) (l : List α) (s : β) :
    v (l.foldl f s) = v s := by
  induction l generalizing s with
  | nil => rfl
  | cons x l ih => exact (ih _).trans (h s x)

@[simp] theorem lasting_tripFill (s : State) (acc : Acc) : lasting (s.tripFill acc) = lasting s := by
  refine foldl_view lasting _ (fun s x => ?_) _ _
  split <;> simp

@[simp] theorem lasting_tripOpen (s : State) (acc : Acc) : lasting (s.tripOpen acc) = lasting s := by
  unfold State.tripOpen
  split
  · rename_i h
    have hs : (s.acc acc).state = .idle := by
      simp only [State.free, Bool.and_eq_true, decide_eq_true_eq] at h; exact h.1.1.1
    rw [lasting_tripFill, lasting_updAcc_at]
    exact lastingAcc_work _ _ (by simp [hs, outOfWork]) rfl rfl
  · rfl

theorem lasting_tripStart (s : State) (acc : Acc) (h : (s.acc acc).state = .gathering) : lasting (s.tripStart acc) = lasting s :=
  lasting_updAcc_at _ _ _ (lastingAcc_work _ _ (by simp [h, outOfWork]) rfl rfl)

@[simp] theorem lasting_updStops (s : State) (acc : Acc) (f : List Stop → List Stop) : lasting (s.updStops acc f) = lasting s :=
  lasting_updAcc _ _ _ (fun _ => rfl)

@[simp] theorem lasting_joinWait (s : State) (acc : Acc) (x : Stop) : lasting (s.joinWait acc x) = lasting s := by
  unfold State.joinWait
  split
  · rfl
  · split <;> rfl

/-- An accessor with a stop in a wait list has no second one join (R134). -/
theorem joinWait_one (s : State) (acc : Acc) (x : Stop) (h : (s.stops acc).any s.listed = true) : s.joinWait acc x = s := by
  simp [State.joinWait, h]

/-- An accessor that waits for a position holding the zone lock has a PARK to be sent (R103), whatever the wait lists held. -/
theorem awaitPosition_parks (s : State) (acc : Acc) (x : Stop) (h : s.rail.zone = some acc) :
    ((s.awaitPosition acc x).acc acc).todo = some .park := by
  have hz : (s.joinWait acc x).rail.zone = some acc := by
    unfold State.joinWait
    split
    · exact h
    · split <;> exact h
  simp [State.awaitPosition, hz]

@[simp] theorem lasting_awaitPosition (s : State) (acc : Acc) (x : Stop) : lasting (s.awaitPosition acc x) = lasting s := by
  unfold State.awaitPosition
  simp only
  split
  · refine Eq.trans (lasting_updAcc _ _ _ (fun r => ?_)) (lasting_joinWait s acc x)
    rfl
  · exact lasting_joinWait s acc x

@[simp] theorem lasting_chooseStop (s : State) (acc : Acc) (behind todo : List Stop) :
    lasting (s.chooseStop acc behind todo) = lasting s := by
  induction todo generalizing behind with
  | nil => cases behind <;> simp [State.chooseStop]
  | cons x rest ih =>
    unfold State.chooseStop
    split
    · split
      · rename_i h; simp [lasting_reserveFor _ _ _ h]
      · exact ih _
    · simp

@[simp] theorem lasting_sendOrder (s : State) (acc : Acc) (n : NextOrder) : lasting (s.sendOrder acc n) = lasting s := by
  unfold State.sendOrder
  simp only [lasting_send]
  rw [lasting_updAcc]
  · split
    · exact lasting_updLeg' _ _ _ (fun l => rfl)
    · rfl
  · intro x; rfl

@[simp] theorem lasting_askZone (s : State) (acc : Acc) : lasting (s.askZone acc) = lasting s := by
  have h : ∀ x : AccRec, lastingAcc (if x.state = .running then { x with state := .waitingZone } else x) = lastingAcc x := by
    intro x
    split
    · rename_i h; exact lastingAcc_work _ _ (by simp [h, outOfWork]) rfl rfl
    · rfl
  unfold State.askZone
  split
  · rfl
  · split
    · rfl
    · simp only; rw [lasting_updAcc _ _ _ h]; split <;> rfl

@[simp] theorem lasting_bringStop (s : State) (acc : Acc) : lasting (s.bringStop acc) = lasting s := by
  unfold State.bringStop; simp only; split <;> simp

@[simp] theorem lasting_passGates (s : State) (acc : Acc) (n : NextOrder) : lasting (s.passGates acc n) = lasting s := by
  unfold State.passGates
  split
  · simp only; split <;> simp
  · rfl

@[simp] theorem lasting_tryOrder (s : State) (acc : Acc) (n : NextOrder) : lasting (s.tryOrder acc n) = lasting s := by
  unfold State.tryOrder; split <;> simp

@[simp] theorem lasting_sendNext (s : State) (acc : Acc) : lasting (s.sendNext acc) = lasting s := by
  unfold State.sendNext; split <;> simp

@[simp] theorem lasting_orderSend (s : State) (acc : Acc) : lasting (s.orderSend acc) = lasting s := by simp [State.orderSend]

/-! ## Looking for work -/

theorem lastingAudit_resumed (x : Audit) (h : x.state = .suspended) : lastingAudit { x with state := .scanning } = lastingAudit x := by
  simp [lastingAudit, h]

@[simp] theorem lasting_auditResume (s : State) (acc : Acc) : lasting (s.auditResume acc) = lasting s := by
  unfold State.auditResume
  split
  · rename_i x hx
    split
    · rename_i h
      have hs : x.state = .suspended := by simp only [Bool.and_eq_true, decide_eq_true_eq] at h; exact h.1.1
      cases acc <;> simp_all [lasting, State.updAudit, PerAcc.set, PerAcc.get, lastingAudit]
    · rfl
  · rfl

@[simp] theorem lasting_stationScanTaken (s : State) (acc : Acc) : lasting (s.stationScanTaken acc) = lasting s := by
  unfold State.stationScanTaken
  split
  · split
    · rfl
    · simp only [lasting_orderSend]
      rw [lasting_updAcc, lasting_updPos _ _ _ (lastingPos_scan _ _)]
      · rfl
      · intro x; rfl
  · rfl

@[simp] theorem lasting_auditScanSend (s : State) (acc : Acc) : lasting (s.auditScanSend acc) = lasting s := by
  unfold State.auditScanSend
  split
  · split
    · split
      · simp only [lasting_orderSend]
        rw [lasting_updAcc, lasting_updAudit]
        · intro x; rfl
        · intro x; rfl
      · rfl
    · rfl
  · rfl

@[simp] theorem lasting_gather (s : State) (acc : Acc) : lasting (s.gather acc) = lasting s := by
  unfold State.gather; split <;> simp

@[simp] theorem lasting_startIfDue (s : State) (acc : Acc) : lasting (s.startIfDue acc) = lasting s := by
  unfold State.startIfDue
  split
  · rename_i h
    have hs : (s.acc acc).state = .gathering := by
      simp only [State.startDue, Bool.and_eq_true, decide_eq_true_eq] at h; exact h.1.1
    rw [lasting_orderSend, lasting_tripStart _ _ hs]
  · rfl

@[simp] theorem lasting_look (s : State) (acc : Acc) : lasting (s.look acc) = lasting s := by
  unfold State.look
  simp only [lasting_startIfDue, lasting_gather]
  split
  · simp
  · split <;> simp

@[simp] theorem lasting_yieldAudit (s : State) (acc : Acc) (prio : Fin 4) : lasting (s.yieldAudit acc prio) = lasting s := by
  refine lasting_updAudit _ _ _ (fun x => ?_)
  split
  · rename_i h; cases hf : x.inFlight <;> simp [lastingAudit, h.1]
  · rfl

@[simp] theorem lasting_legReady (s : State) (slot : Nat) : lasting (s.legReady slot) = lasting s := by
  unfold State.legReady
  split
  · rfl
  · simp only [lasting_yieldAudit, lasting_setQueue]
    exact lasting_updLeg' _ _ _ (fun l => rfl)

/-! ## The end of an event -/

@[simp] theorem lasting_releaseZone (s : State) (acc : Acc) : lasting (s.releaseZone acc) = lasting s := by
  unfold State.releaseZone; split <;> rfl

theorem lasting_idleOrPark (s : State) (acc : Acc) (h : outOfWork (s.acc acc).state = false) :
    lasting (s.idleOrPark acc) = lasting s := by
  unfold State.idleOrPark
  split
  · exact lasting_updAcc_at _ _ _ (lastingAcc_work _ _ h rfl rfl)
  · rw [lasting_releaseZone, lasting_updAcc_at]
    exact lastingAcc_work _ _ h rfl rfl

@[simp] theorem lasting_endTrip (s : State) (acc : Acc) : lasting (s.endTrip acc) = lasting s := by
  unfold State.endTrip
  simp only
  split
  · rename_i h
    have hs : (s.acc acc).state = .running := by
      simp only [Bool.and_eq_true, decide_eq_true_eq] at h; exact h.1.1.1
    rw [lasting_idleOrPark, lasting_updAcc]
    · intro x; rfl
    · simp [hs, outOfWork]
  · rfl

@[simp] theorem lasting_pruneZone (s : State) (acc : Acc) : lasting (s.pruneZone acc) = lasting s := by
  unfold State.pruneZone
  split
  · rw [lasting_unwait]; rfl
  · rfl

@[simp] theorem lasting_zoneGrant (s : State) : lasting s.zoneGrant = lasting s := by
  unfold State.zoneGrant
  split
  · rfl
  · split
    · rw [lasting_unwait]; rfl
    · rfl

@[simp] theorem lasting_idlePark (s : State) (acc : Acc) : lasting (s.idlePark acc) = lasting s := by
  unfold State.idlePark
  simp only
  split
  · rename_i h
    have hs : (s.acc acc).state = .idle := by
      simp only [Bool.and_eq_true, decide_eq_true_eq] at h; exact h.1.1.1.1
    rw [lasting_orderSend, lasting_idleOrPark _ _ (by simp [hs, outOfWork])]
  · rfl

/-- The rail scheduler's work at the end of an event keeps the lasting part of the state. -/
@[simp] theorem lasting_railSettle (s : State) : lasting s.railSettle = lasting s := by simp [State.railSettle]

/-! ## The end of an event with no waiting record -/

theorem waits_lastingRec (r : Rec) : (lastingRec r).waits = r.waits := rfl

theorem noneWaits_of_lasting {s t : State} (h : lasting t = lasting s) (hs : noneWaits s) : noneWaits t := by
  intro r hr
  have h2 : lastingRec r ∈ s.recs.map lastingRec := recs_of_lasting h ▸ List.mem_map_of_mem hr
  obtain ⟨r', hr', he⟩ := List.mem_map.mp h2
  rw [← waits_lastingRec, ← he, waits_lastingRec]; exact hs r' hr'

theorem oldestWaiting_none {s : State} (h : noneWaits s) : s.oldestWaiting = none := by
  simp only [State.oldestWaiting, List.find?_eq_none]
  intro r hr; simp [h r hr]

theorem serveUpTo_of_noneWaits {s : State} (h : noneWaits s) (n : Nat) : s.serveUpTo n = s := by
  have : s.serveOldest = s := by simp [State.serveOldest, oldestWaiting_none h]
  induction n with
  | zero => rfl
  | succ n ih => simp [State.serveUpTo, this, ih]

theorem serveWaiting_of_noneWaits {s : State} (h : noneWaits s) : s.serveWaiting = s := serveUpTo_of_noneWaits h _

theorem offerNotices_of_nothingRaised {s : State} (h : nothingRaised s) : s.offerNotices = s := by
  cases s
  change _ = [] at h
  subst h
  rfl

/-- The end of an event at which nothing waits at the link unit is the rail scheduler's work alone. -/
theorem commit_of_calm {s : State} (h : calm s) : s.commit = s.railSettle.railSettle := by
  have hw : noneWaits s.railSettle := noneWaits_of_lasting (lasting_railSettle s) h.1
  have hr : nothingRaised s.railSettle := (raised_of_lasting (lasting_railSettle s)).trans h.2
  unfold State.commit
  rw [serveWaiting_of_noneWaits hw, offerNotices_of_nothingRaised hr]

/-- The end of such an event keeps the lasting part of the state. -/
theorem lasting_commit {s : State} (h : calm s) : lasting s.commit = lasting s := by
  rw [commit_of_calm h]; simp

/-- With no record waiting, the end of an event is the rail scheduler's work before and after the notices are offered. -/
theorem commit_of_noneWaits {s : State} (h : noneWaits s) : s.commit = s.railSettle.offerNotices.railSettle := by
  unfold State.commit
  rw [serveWaiting_of_noneWaits (noneWaits_of_lasting (lasting_railSettle s) h)]

theorem lasting_offerNotice (s : State) (n : Notice) : lasting (s.offerNotice n) = (lasting s).offerNotice n := by
  unfold State.offerNotice
  exact apply_ite lasting _ _ _

theorem lasting_foldl_offerNotice (l : List Notice) (s : State) :
    lasting (l.foldl State.offerNotice s) = l.foldl State.offerNotice (lasting s) := by
  induction l generalizing s with
  | nil => rfl
  | cons n l ih => simp [ih, lasting_offerNotice]

theorem lasting_offerNotices (s : State) : lasting s.offerNotices = (lasting s).offerNotices :=
  lasting_foldl_offerNotice s.raised { s with raised := [] }

/-- The end of an event with no waiting record offers the notices raised and keeps the rest of the lasting part. -/
theorem lasting_commit_of_noneWaits {s : State} (h : noneWaits s) : lasting s.commit = lasting s.offerNotices := by
  rw [commit_of_noneWaits h, lasting_railSettle, lasting_offerNotices, lasting_railSettle, lasting_offerNotices]

end Machine

end Sys2Proof
end

