-- ==== Sys2Proof/Laws/Trips.lean ====
section
/-! SUPPORT. What the joining of legs to a trip does (R99, R100): a reservation takes one EMPTY position or none
(`reserveFor_cases`), a leg that joins leaves everything else as it was (`tripJoin_joins`), and the filling of a trip takes eligible
legs only (`tripFill_joins`). -/

namespace Sys2Proof

namespace Machine

open Safety

/-! ## A reservation -/

/-- A reservation that is made changes nothing when the to-place needs none, and otherwise takes one EMPTY position and names it. -/
theorem reserveFor_cases {s t : State} {ref : LegRef} (h : s.reserveFor ref = some t) :
    t = s
      ∨ (∃ p : Fin 4, s.rail.shelf[p] = .empty ∧ t = (s.setShelf p (.reserved ref)).setDst ref (.shelf (some p)))
      ∨ ∃ p : Fin 8, s.station.pos[p].state = .empty
          ∧ t = (s.updPos p (fun _ => { StationPos.initial with state := .reserved ref })).setDst ref (.station (some p)) := by
  unfold State.reserveFor State.reserveShelf State.reserveStation at h
  split at h
  · obtain ⟨p, hp, rfl⟩ := Option.map_eq_some_iff.mp h
    exact .inr (.inl ⟨p, by simpa using find_finRange_some hp, rfl⟩)
  · obtain ⟨p, hp, rfl⟩ := Option.map_eq_some_iff.mp h
    exact .inr (.inr ⟨p, by simpa using find_finRange_some hp, rfl⟩)
  · exact .inl (Option.some.inj h).symm

theorem emptyShelf_isSome (s : State) : s.emptyShelf.isSome = true ↔ ∃ p : Fin 4, s.rail.shelf[p] = .empty := by
  simp [State.emptyShelf, List.find?_isSome]

theorem emptyStation_isSome (s : State) : s.emptyStation.isSome = true ↔ ∃ p : Fin 8, s.station.pos[p].state = .empty := by
  simp [State.emptyStation, List.find?_isSome]

/-! ## What joining leaves alone -/

/-- From `s` to `t` legs of these slots have joined the trip of an accessor: no other record has changed, a position that has changed was
EMPTY and is RESERVED for one of them, and the other accessor, the other queue, the audits, the latch, the zone lock, the scan requests
and the wait lists are as they were. -/
structure Joins (s t : State) (acc : Acc) (legs : List Nat) : Prop where
  other : t.acc (otherAcc acc) = s.acc (otherAcc acc)
  queue : t.rail.queues.get (otherAcc acc) = s.rail.queues.get (otherAcc acc)
  zone : t.rail.zone = s.rail.zone
  zoneWait : t.rail.zoneWait = s.rail.zoneWait
  scanReqs : t.rail.scanReqs = s.rail.scanReqs
  shelfWait : t.rail.shelfWait = s.rail.shelfWait
  resWait : t.station.resWait = s.station.resWait
  latch : t.station.latchOpen = s.station.latchOpen
  audits : t.audits = s.audits
  sent : t.sent = s.sent
  recs : ∀ m, m ∉ legs → t.rec? m = s.rec? m
  shelf : ∀ p : Fin 4, t.rail.shelf[p] = s.rail.shelf[p]
    ∨ (s.rail.shelf[p] = .empty ∧ ∃ k ∈ legs, t.rail.shelf[p] = .reserved (.record k))
  station : ∀ p : Fin 8, t.station.pos[p] = s.station.pos[p]
    ∨ (s.station.pos[p].state = .empty ∧ ∃ k ∈ legs, t.station.pos[p] = { StationPos.initial with state := .reserved (.record k) })

theorem Joins.refl (s : State) (acc : Acc) : Joins s s acc [] := by
  constructor <;> first | rfl | (intros; first | rfl | exact .inl rfl)

theorem Joins.trans {s t u : State} {acc : Acc} {l k : List Nat} (h : Joins s t acc l) (g : Joins t u acc k) :
    Joins s u acc (l ++ k) where
  other := g.other.trans h.other
  queue := g.queue.trans h.queue
  zone := g.zone.trans h.zone
  zoneWait := g.zoneWait.trans h.zoneWait
  scanReqs := g.scanReqs.trans h.scanReqs
  shelfWait := g.shelfWait.trans h.shelfWait
  resWait := g.resWait.trans h.resWait
  latch := g.latch.trans h.latch
  audits := g.audits.trans h.audits
  sent := g.sent.trans h.sent
  recs m hm := by
    rw [List.mem_append, not_or] at hm
    exact (g.recs m hm.2).trans (h.recs m hm.1)
  shelf p := by
    rcases g.shelf p with e | ⟨e, n, hn, en⟩
    · rcases h.shelf p with e' | ⟨e', n, hn, en⟩
      · exact .inl (e.trans e')
      · exact .inr ⟨e', n, by simp [hn], e.trans en⟩
    · rcases h.shelf p with e' | ⟨e', -⟩
      · exact .inr ⟨e' ▸ e, n, by simp [hn], en⟩
      · exact .inr ⟨e', n, by simp [hn], en⟩
  station p := by
    rcases g.station p with e | ⟨e, n, hn, en⟩
    · rcases h.station p with e' | ⟨e', n, hn, en⟩
      · exact .inl (e.trans e')
      · exact .inr ⟨e', n, by simp [hn], e.trans en⟩
    · rcases h.station p with e' | ⟨e', -⟩
      · exact .inr ⟨e' ▸ e, n, by simp [hn], en⟩
      · exact .inr ⟨e', n, by simp [hn], en⟩

/-- A leg that has not joined is eligible after only if it was so before: joining opens no position and no gate (R99). -/
theorem Joins.eligible {s t : State} {acc : Acc} {legs : List Nat} (h : Joins s t acc legs) {m : Nat} (hm : m ∉ legs)
    (e : t.eligible acc m = true) : s.eligible acc m = true := by
  have hl : t.leg? m = s.leg? m := by simp [State.leg?, h.recs m hm]
  have hb : ∀ p, t.heldBack acc p = s.heldBack acc p := by simp [State.heldBack, State.activeAudit, h.audits]
  have hr : ∀ p, t.canReserve p = true → s.canReserve p = true := by
    intro p hp
    unfold State.canReserve at hp ⊢
    split at hp
    · obtain ⟨p, hp⟩ := (emptyShelf_isSome t).mp hp
      refine (emptyShelf_isSome s).mpr ⟨p, ?_⟩
      rcases h.shelf p with x | ⟨x, -⟩
      · exact x ▸ hp
      · exact x
    · obtain ⟨p, hp⟩ := (emptyStation_isSome t).mp hp
      refine (emptyStation_isSome s).mpr ⟨p, ?_⟩
      rcases h.station p with x | ⟨x, -⟩
      · exact x ▸ hp
      · exact x
    · rfl
  unfold State.eligible at e ⊢
  rw [hl] at e
  cases hs : s.leg? m with
  | none => simp [hs] at e
  | some l =>
    simp only [hs, Option.map_some, Option.getD_some, Bool.and_eq_true, hb, h.latch] at e ⊢
    exact ⟨e.1, hr _ e.2⟩

/-! ## A leg joins -/

theorem otherAcc_ne (acc : Acc) : otherAcc acc ≠ acc := by cases acc <;> decide

theorem joins_reserveFor (s : State) (acc : Acc) (slot : Nat) : Joins s ((s.reserveFor (.record slot)).getD s) acc [slot] := by
  have recs : ∀ (u : State) (f : Leg → Leg) (m : Nat), m ∉ [slot] → (u.updLeg slot f).rec? m = u.rec? m := by
    intro u f m hm
    exact State.rec?_updRec_other u slot m _ (fun _ h => h) (by simpa using hm)
  cases h : s.reserveFor (.record slot) with
  | none => exact { Joins.refl s acc with recs := fun m _ => rfl, shelf := fun p => .inl rfl, station := fun p => .inl rfl }
  | some t =>
    rcases reserveFor_cases h with rfl | ⟨p, hp, rfl⟩ | ⟨p, hp, rfl⟩
    · exact { Joins.refl t acc with recs := fun m _ => rfl, shelf := fun p => .inl rfl, station := fun p => .inl rfl }
    · refine ⟨rfl, rfl, rfl, rfl, rfl, rfl, rfl, rfl, rfl, rfl, fun m hm => recs _ _ m hm, fun q => ?_, fun q => .inl rfl⟩
      by_cases hq : p = q
      · subst hq
        exact .inr ⟨hp, slot, by simp, by simp [State.setDst, State.setShelf]⟩
      · have : p.val ≠ q.val := fun x => hq (Fin.ext x)
        exact .inl (by simp [State.setDst, State.setShelf, this])
    · refine ⟨rfl, rfl, rfl, rfl, rfl, rfl, rfl, rfl, rfl, rfl, fun m hm => recs _ _ m hm, fun q => .inl rfl, fun q => ?_⟩
      by_cases hq : p = q
      · subst hq
        exact .inr ⟨hp, slot, by simp, State.updPos_self s p (fun _ => { StationPos.initial with state := .reserved (.record slot) })⟩
      · exact .inl (State.updPos_other s p q (fun _ => { StationPos.initial with state := .reserved (.record slot) }) (Ne.symm hq))

/-- A leg that joins a trip changes its own record and reserves its own position, and leaves the rest (R99). -/
theorem tripJoin_joins (s : State) (acc : Acc) (slot : Nat) : Joins s (s.tripJoin acc slot) acc [slot] := by
  let q := s.setQueue acc ((s.rail.queues.get acc).filter (fun x => x ≠ slot))
  let l := q.updLeg slot (fun l => { l with state := .assigned, front := false })
  let u := l.updAcc acc (fun x => { x with trip := x.trip.map (fun t => { t with legs := t.legs ++ [slot] }) })
  have first : Joins s u acc [slot] :=
    ⟨by simp only [u]; rw [State.acc_updAcc_other _ _ _ _ (otherAcc_ne acc)]; rfl, by cases acc <;> rfl, rfl, rfl, rfl, rfl, rfl, rfl,
      rfl, rfl, fun m hm => State.rec?_updRec_other q slot m _ (fun _ h => h) (by simpa using hm), fun p => .inl rfl, fun p => .inl rfl⟩
  have second : Joins u (s.tripJoin acc slot) acc [slot] := joins_reserveFor u acc slot
  have both := first.trans second
  exact { both with
    recs := fun m hm => both.recs m (by simpa using hm)
    shelf := fun p => by simpa using both.shelf p
    station := fun p => by simpa using both.station p }

/-! ## The filling of a trip -/

/-- The filling of a trip takes legs of the queue in queue order, each eligible as the filling began, and leaves the rest (R99, R100). -/
theorem tripFill_joins (s : State) (acc : Acc) :
    ∃ legs : List Nat, legs.Sublist (s.rail.queues.get acc) ∧ (∀ m ∈ legs, s.eligible acc m = true)
      ∧ Joins s (s.tripFill acc) acc legs := by
  unfold State.tripFill
  have key : ∀ (q : List Nat) (t : State) (had : List Nat), (∀ m ∈ had, s.eligible acc m = true) → Joins s t acc had →
      ∃ legs : List Nat, legs.Sublist q ∧ (∀ m ∈ had ++ legs, s.eligible acc m = true)
        ∧ Joins s (q.foldl (fun s slot => if s.tripSize acc < 3 && s.eligible acc slot then s.tripJoin acc slot else s) t) acc
            (had ++ legs) := by
    intro q
    induction q with
    | nil => intro t had he hj; exact ⟨[], by simp, by simpa using he, by simpa using hj⟩
    | cons x rest ih =>
      intro t had he hj
      rw [List.foldl_cons]
      split
      · rename_i h
        have hx : s.eligible acc x = true := by
          by_cases hm : x ∈ had
          · exact he x hm
          · exact hj.eligible hm (by simp only [Bool.and_eq_true] at h; exact h.2)
        obtain ⟨legs, hs, hl, hr⟩ := ih (t.tripJoin acc x) (had ++ [x])
          (by intro m hm; rcases List.mem_append.mp hm with h | h
              · exact he m h
              · rw [List.mem_singleton.mp h]; exact hx)
          (hj.trans (tripJoin_joins t acc x))
        exact ⟨x :: legs, hs.cons_cons x, by simpa using hl, by simpa using hr⟩
      · obtain ⟨legs, hs, hl, hr⟩ := ih t had he hj
        exact ⟨legs, hs.cons x, hl, hr⟩
  obtain ⟨legs, hs, hl, hr⟩ := key (s.rail.queues.get acc) s [] (by simp) (Joins.refl s acc)
  exact ⟨legs, hs, by simpa using hl, by simpa using hr⟩

/-- With no eligible leg in the queue, or the trip full, nothing joins. -/
theorem tripFill_nothing (s : State) (acc : Acc)
    (h : 3 ≤ s.tripSize acc ∨ ∀ m ∈ s.rail.queues.get acc, s.eligible acc m = false) : s.tripFill acc = s := by
  unfold State.tripFill
  have key : ∀ q : List Nat, (3 ≤ s.tripSize acc ∨ ∀ m ∈ q, s.eligible acc m = false) →
      q.foldl (fun s slot => if s.tripSize acc < 3 && s.eligible acc slot then s.tripJoin acc slot else s) s = s := by
    intro q
    induction q with
    | nil => intro _; rfl
    | cons x rest ih =>
      intro h
      rw [List.foldl_cons, if_neg, ih]
      · exact h.imp id (fun h m hm => h m (List.mem_cons_of_mem _ hm))
      · rcases h with h | h
        · simp; omega
        · simp [h x (by simp)]
  exact key _ h

end Machine

end Sys2Proof
end

