-- ==== Sys2Proof/Laws/Gathering.lean ====
section
/-! SUPPORT. How far an accessor is in its work (`accPhase`), which the rail scheduler's work at the end of an event leaves but for the
accessor's own search for work; and what that does with a trip whose window has run out (R101): `railSettle_starts`,
`railSettle_started` and `railSettle_quiesce`. -/

namespace Sys2Proof

namespace Machine

open Safety

/-- How far an accessor is in its work: its state, WAITING_ZONE read as RUNNING, and of its trip the legs, whether stops are left, the
window and the run-out mark. -/
def AccRec.phase (x : AccRec) : AccState × Option (List Nat × Bool × Nat × Bool) :=
  (if x.state = .waitingZone then .running else x.state,
   x.trip.map (fun t => (t.legs, t.stops.isEmpty, t.window, t.runOut)))

/-- How far an accessor is in its work. -/
abbrev accPhase (s : State) (acc : Acc) : AccState × Option (List Nat × Bool × Nat × Bool) := (s.acc acc).phase

/-- An update of the other accessor leaves it, as does one of its own that keeps it. -/
theorem accPhase_updAcc (s : State) (who acc : Acc) (f : AccRec → AccRec) (h : who = acc → (f (s.acc acc)).phase = (s.acc acc).phase) :
    accPhase (s.updAcc who f) acc = accPhase s acc := by
  unfold accPhase
  rw [State.acc_updAcc]
  split
  · rename_i e; subst e; exact h rfl
  · rfl

theorem accPhase_setDst (s : State) (ref : LegRef) (d : Place) (acc : Acc) : accPhase (s.setDst ref d) acc = accPhase s acc := by
  cases ref with
  | record n => rfl
  | putBack who h =>
    refine accPhase_updAcc _ _ _ _ (fun _ => ?_)
    simp [AccRec.phase, Function.comp_def]

theorem accPhase_reserveFor {s t : State} {ref : LegRef} (h : s.reserveFor ref = some t) (acc : Acc) : accPhase t acc = accPhase s acc := by
  rcases reserveFor_cases h with rfl | ⟨p, -, rfl⟩ | ⟨p, -, rfl⟩
  · rfl
  · rw [accPhase_setDst]; rfl
  · rw [accPhase_setDst]; rfl

theorem accPhase_unwait (x : AccRec) : x.unwait.phase = x.phase := by
  unfold AccRec.unwait; split <;> simp_all [AccRec.phase]

theorem accPhase_joinWait (s : State) (who acc : Acc) (x : Stop) : accPhase (s.joinWait who x) acc = accPhase s acc := by
  unfold State.joinWait; split
  · rfl
  · split <;> rfl

theorem accPhase_awaitPosition (s : State) (who acc : Acc) (x : Stop) : accPhase (s.awaitPosition who x) acc = accPhase s acc := by
  unfold State.awaitPosition
  simp only
  split
  · rw [accPhase_updAcc _ _ _ _ (fun _ => rfl), accPhase_joinWait]
  · exact accPhase_joinWait ..


/-- It tells whether stops are left. -/
theorem stops_of_accPhase {s t : State} {acc : Acc} (h : accPhase t acc = accPhase s acc) : (t.stops acc).isEmpty = (s.stops acc).isEmpty := by
  have h2 := (Prod.mk.inj h).2
  unfold State.stops
  cases ht : (t.acc acc).trip <;> cases hs : (s.acc acc).trip <;> simp_all

theorem accPhase_updStops (s : State) (who acc : Acc) (x : Stop) (l : List Stop) (h : (s.stops who).isEmpty = false) :
    accPhase (s.updStops who (fun _ => x :: l)) acc = accPhase s acc := by
  refine accPhase_updAcc _ _ _ _ (fun e => ?_)
  subst e
  unfold State.stops at h
  cases hs : (s.acc who).trip <;> simp_all [AccRec.phase]

/-- Bringing a stop to the head leaves a stop where one was left (R103). -/
theorem accPhase_chooseStop (s : State) (who acc : Acc) (todo behind : List Stop) (h : todo ≠ [] → (s.stops who).isEmpty = false) :
    accPhase (s.chooseStop who behind todo) acc = accPhase s acc := by
  induction todo generalizing behind with
  | nil => cases behind <;> simp [State.chooseStop, accPhase_awaitPosition]
  | cons x rest ih =>
    have h0 := h (by simp)
    unfold State.chooseStop
    split
    · split
      · rename_i t ht
        rw [accPhase_updStops, accPhase_reserveFor ht]
        rw [stops_of_accPhase (accPhase_reserveFor ht who)]; exact h0
      · exact ih _ (fun _ => h0)
    · exact accPhase_updStops _ _ _ _ _ h0

theorem accPhase_bringStop (s : State) (who acc : Acc) : accPhase (s.bringStop who) acc = accPhase s acc := by
  unfold State.bringStop; simp only; split
  · refine accPhase_chooseStop _ _ _ _ _ (fun h => ?_)
    simpa using h
  · rfl

theorem accPhase_send (s : State) (o : MechOrder) (acc : Acc) : accPhase (s.send o) acc = accPhase s acc := rfl

theorem accPhase_sendOrder (s : State) (who acc : Acc) (n : NextOrder) : accPhase (s.sendOrder who n) acc = accPhase s acc := by
  unfold State.sendOrder
  simp only [accPhase_send]
  rw [accPhase_updAcc]
  · split <;> rfl
  · intro _; rfl

theorem accPhase_wait (x : AccRec) : (if x.state = .running then { x with state := .waitingZone } else x).phase = x.phase := by
  split
  · rename_i h; simp [AccRec.phase, h]
  · rfl

theorem accPhase_askZone (s : State) (who acc : Acc) : accPhase (s.askZone who) acc = accPhase s acc := by
  unfold State.askZone
  split
  · rfl
  · split
    · rfl
    · simp only
      refine Eq.trans (accPhase_updAcc _ who acc (fun x => if x.state = .running then { x with state := .waitingZone } else x)
        (fun _ => accPhase_wait _)) ?_
      split <;> rfl

/-- The sending of an order, of either accessor, leaves how far an accessor is. -/
theorem accPhase_orderSend (s : State) (who acc : Acc) : accPhase (s.orderSend who) acc = accPhase s acc := by
  unfold State.orderSend
  rw [← accPhase_bringStop s who acc]
  generalize s.bringStop who = s
  unfold State.sendNext
  split
  · rfl
  · unfold State.tryOrder
    rename_i n _
    have : ∀ u : State, accPhase (u.passGates who n) acc = accPhase u acc := by
      intro u
      unfold State.passGates
      split
      · simp only
        split
        · rw [accPhase_sendOrder, accPhase_updAcc _ _ _ _ (fun _ => accPhase_unwait _)]
        · rw [accPhase_updAcc _ _ _ _ (fun _ => accPhase_unwait _)]
      · rfl
    rw [this]
    split
    · exact accPhase_askZone ..
    · rfl

theorem accPhase_pruneZone (s : State) (who acc : Acc) : accPhase (s.pruneZone who) acc = accPhase s acc := by
  unfold State.pruneZone
  split
  · rw [accPhase_updAcc _ _ _ _ (fun _ => accPhase_unwait _)]; rfl
  · rfl

theorem accPhase_zoneGrant (s : State) (acc : Acc) : accPhase s.zoneGrant acc = accPhase s acc := by
  unfold State.zoneGrant
  split
  · rfl
  · split
    · rw [accPhase_updAcc _ _ _ _ (fun _ => accPhase_unwait _)]; rfl
    · rfl

theorem accPhase_idleOrPark (s : State) (who acc : Acc) (h : who ≠ acc) : accPhase (s.idleOrPark who) acc = accPhase s acc := by
  unfold State.idleOrPark
  split
  · exact accPhase_updAcc _ _ _ _ (fun e => absurd e h)
  · unfold State.releaseZone
    have := accPhase_updAcc s who acc (fun x => { x with state := .idle, faults := 0 }) (fun e => absurd e h)
    split
    · exact this
    · exact this

/-- An accessor at its trip: GATHERING, or RUNNING or WAITING_ZONE with stops left. -/
def onTrip (s : State) (acc : Acc) : Prop :=
  (s.acc acc).state = .gathering ∨ (((s.acc acc).state = .running ∨ (s.acc acc).state = .waitingZone) ∧ (s.stops acc).isEmpty = false)

theorem onTrip_of_accPhase {s t : State} {acc : Acc} (h : accPhase t acc = accPhase s acc) (b : onTrip s acc) : onTrip t acc := by
  have h1 := (Prod.mk.inj h).1
  rcases b with b | ⟨b, c⟩
  · left; rw [b] at h1; split at h1 <;> simp_all
  · right
    refine ⟨?_, by rw [stops_of_accPhase h]; exact c⟩
    split at h1 <;> split at h1 <;> simp_all

theorem onTrip_not_idle {s : State} {acc : Acc} (b : onTrip s acc) : (s.acc acc).state ≠ .idle := by
  rcases b with b | ⟨b | b, -⟩ <;> simp [b]

theorem accPhase_endTrip (s : State) (who acc : Acc) (b : onTrip s acc) : accPhase (s.endTrip who) acc = accPhase s acc := by
  unfold State.endTrip
  simp only
  split
  · rename_i h
    by_cases e : who = acc
    · subst e
      exfalso
      simp only [Bool.and_eq_true, decide_eq_true_eq] at h
      rcases b with b | ⟨-, c⟩
      · simp_all
      · unfold State.stops at c
        cases ht : (s.acc who).trip <;> simp_all
    · rw [accPhase_idleOrPark _ _ _ e]
      exact accPhase_updAcc _ _ _ _ (fun x => absurd x e)
  · rfl

theorem accPhase_idlePark (s : State) (who acc : Acc) (b : onTrip s acc) : accPhase (s.idlePark who) acc = accPhase s acc := by
  unfold State.idlePark
  simp only
  split
  · rename_i h
    by_cases e : who = acc
    · subst e
      simp only [Bool.and_eq_true, decide_eq_true_eq] at h
      exact absurd h.1.1.1.1 (onTrip_not_idle b)
    · rw [accPhase_orderSend, accPhase_idleOrPark _ _ _ e]
  · rfl

theorem accPhase_auditResume (s : State) (who acc : Acc) : accPhase (s.auditResume who) acc = accPhase s acc := by
  unfold State.auditResume
  split
  · split <;> rfl
  · rfl

theorem accPhase_stationScanTaken (s : State) (who acc : Acc) : accPhase (s.stationScanTaken who) acc = accPhase s acc := by
  unfold State.stationScanTaken
  split
  · split
    · rfl
    · rw [accPhase_orderSend]
      exact accPhase_updAcc _ _ _ _ (fun _ => rfl)
  · rfl

theorem accPhase_auditScanSend (s : State) (who acc : Acc) : accPhase (s.auditScanSend who) acc = accPhase s acc := by
  unfold State.auditScanSend
  split
  · split
    · split
      · rw [accPhase_orderSend]
        exact accPhase_updAcc _ _ _ _ (fun _ => rfl)
      · rfl
    · rfl
  · rfl

theorem accPhase_tripJoin (s : State) (who acc : Acc) (n : Nat) (h : who ≠ acc) : accPhase (s.tripJoin who n) acc = accPhase s acc := by
  have hj := (tripJoin_joins s who n).other
  have : acc = otherAcc who := by cases who <;> cases acc <;> simp_all [otherAcc]
  subst this
  simp [accPhase, hj]

theorem accPhase_tripFill (s : State) (who acc : Acc) (h : who ≠ acc) : accPhase (s.tripFill who) acc = accPhase s acc := by
  obtain ⟨l, -, -, hj⟩ := tripFill_joins s who
  have : acc = otherAcc who := by cases who <;> cases acc <;> simp_all [otherAcc]
  subst this
  simp [accPhase, hj.other]

/-- The search for work of the one accessor leaves how far the other is. -/
theorem accPhase_look_other (s : State) (who acc : Acc) (h : who ≠ acc) : accPhase (s.look who) acc = accPhase s acc := by
  unfold State.look
  have h1 : ∀ u : State, accPhase (u.startIfDue who) acc = accPhase u acc := by
    intro u; unfold State.startIfDue; split
    · rw [accPhase_orderSend]; exact accPhase_updAcc _ _ _ _ (fun e => absurd e h)
    · rfl
  have h2 : ∀ u : State, accPhase (u.gather who) acc = accPhase u acc := by
    intro u; unfold State.gather; split
    · exact accPhase_tripFill _ _ _ h
    · rfl
  have h3 : ∀ u : State, accPhase (u.tripOpen who) acc = accPhase u acc := by
    intro u; unfold State.tripOpen; split
    · rw [accPhase_tripFill _ _ _ h]; exact accPhase_updAcc _ _ _ _ (fun e => absurd e h)
    · rfl
  simp only [h1, h2]
  split
  · rw [accPhase_stationScanTaken, accPhase_auditResume]
  · split
    · rw [h3, accPhase_auditResume]
    · rw [accPhase_auditScanSend, accPhase_auditResume]

/-- An accessor at its trip takes in legs and starts when it is due, and looks for no other work (R98, R100, R101). -/
theorem look_onTrip (s : State) (acc : Acc) (b : onTrip s acc) : s.look acc = (s.gather acc).startIfDue acc := by
  have hi := onTrip_not_idle b
  have hf : s.free acc = false := by simp [State.free, hi]
  have ha : s.auditResume acc = s := by
    unfold State.auditResume; split <;> simp [hf]
  have hc : s.canTakeScan acc = false := by simp [State.canTakeScan, hf]
  have hd : s.auditScanSend acc = s := by unfold State.auditScanSend; simp [hf]
  unfold State.look
  simp [ha, hc, hf, hd]

theorem gathering_of_accPhase {s t : State} {acc : Acc} (h : accPhase t acc = accPhase s acc) (g : (s.acc acc).state = .gathering) :
    (t.acc acc).state = .gathering := by
  have h1 := (Prod.mk.inj h).1
  rw [g] at h1
  split at h1 <;> simp_all

/-- The trip holds these legs and perhaps more that joined, and its window has run out. -/
def windowOut (s : State) (acc : Acc) (legs : List Nat) : Prop :=
  ∃ tr more, (s.acc acc).trip = some tr ∧ tr.legs = legs ++ more ∧ tr.window = 0 ∧ tr.runOut = true

theorem windowOut_of_accPhase {s t : State} {acc : Acc} {legs : List Nat} (h : accPhase t acc = accPhase s acc)
    (g : windowOut s acc legs) : windowOut t acc legs := by
  obtain ⟨tr, more, ht, hl, hw, hr⟩ := g
  have h2 := (Prod.mk.inj h).2
  rw [ht] at h2
  cases hx : (t.acc acc).trip with
  | none => simp [hx] at h2
  | some tr' =>
    simp only [hx, Option.map_some, Option.some.injEq, Prod.mk.injEq] at h2
    exact ⟨tr', more, hx, h2.1.trans hl, h2.2.2.1.trans hw, h2.2.2.2.trans hr⟩

/-- A leg that joins a GATHERING trip stands behind those it holds, and the trip goes on gathering (R100). -/
theorem tripJoin_gathers (s : State) (acc : Acc) (n : Nat) (legs : List Nat)
    (h : (s.acc acc).state = .gathering ∧ windowOut s acc legs) :
    ((s.tripJoin acc n).acc acc).state = .gathering ∧ windowOut (s.tripJoin acc n) acc legs := by
  obtain ⟨hg, tr, more, ht, hl, hw, hr⟩ := h
  let u := ((s.setQueue acc ((s.rail.queues.get acc).filter (fun y => y ≠ n))).updLeg n
    (fun l => { l with state := .assigned, front := false })).updAcc acc
    (fun y => { y with trip := y.trip.map (fun t => { t with legs := t.legs ++ [n] }) })
  have reserved : accPhase (s.tripJoin acc n) acc = accPhase u acc := by
    show accPhase ((u.reserveFor (.record n)).getD u) acc = _
    cases hu : u.reserveFor (.record n) with
    | none => rfl
    | some v => exact accPhase_reserveFor hu acc
  have state : (u.acc acc).state = .gathering := by simp only [u, State.acc_updAcc_self]; exact hg
  have trip : (u.acc acc).trip = some { tr with legs := tr.legs ++ [n] } := by
    simp only [u, State.acc_updAcc_self]
    show Option.map _ (s.acc acc).trip = _
    rw [ht]; rfl
  exact ⟨gathering_of_accPhase reserved state,
    windowOut_of_accPhase reserved ⟨{ tr with legs := tr.legs ++ [n] }, more ++ [n], trip, by simp [hl], hw, hr⟩⟩

/-- Legs that fill a GATHERING trip stand behind those it holds, and it goes on gathering (R100). -/
theorem tripFill_gathers (s : State) (acc : Acc) (legs : List Nat) (hg : (s.acc acc).state = .gathering) (g : windowOut s acc legs) :
    ((s.tripFill acc).acc acc).state = .gathering ∧ windowOut (s.tripFill acc) acc legs := by
  refine List.foldlRecOn (motive := fun t : State => (t.acc acc).state = .gathering ∧ windowOut t acc legs) _ _ ⟨hg, g⟩ ?_
  intro t ht n _
  split
  · exact tripJoin_gathers t acc n legs ht
  · exact ht

/-! ## The stops of a trip that starts -/

theorem insertStop_ne_nil (base : Nat) (x : Place × Stop) (l : List (Place × Stop)) : insertStop base x l ≠ [] := by
  cases l with
  | nil => simp [insertStop]
  | cons y rest => unfold insertStop; split <;> simp

theorem orderStops_ne_nil (base : Nat) {l : List (Place × Stop)} (h : l ≠ []) : orderStops base l ≠ [] := by
  have key : ∀ (l out : List (Place × Stop)), l ≠ [] ∨ out ≠ [] → l.foldl (fun out x => insertStop base x out) out ≠ [] := by
    intro l
    induction l with
    | nil => intro out h; simpa using h
    | cons x rest ih => intro out _; exact ih _ (.inr (insertStop_ne_nil base x out))
  exact key l [] (.inl h)

/-- A trip with a leg in play has stops (R102). -/
theorem stopsOf_ne_nil (s : State) (column : Nat) (legs : List Nat) (n : Nat) (hn : n ∈ legs) (h : (s.leg? n).isSome = true) :
    s.stopsOf column legs ≠ [] := by
  obtain ⟨l, hl⟩ := Option.isSome_iff_exists.mp h
  have hp : s.pickStops legs ≠ [] :=
    List.ne_nil_of_mem (List.mem_filterMap.mpr ⟨n, hn, by rw [hl]; rfl⟩)
  simp [State.stopsOf, orderStops_ne_nil column hp]

/-! ## The end of an event -/

theorem quiesce_of_lasting {s t : State} (h : lasting t = lasting s) : t.rail.quiesce = s.rail.quiesce :=
  (congrArg (fun x : State => x.rail.quiesce) h :)

/-- The end of an event up to the search for work. -/
def beforeLook (s : State) : State :=
  let s := (s.pruneZone .a).pruneZone .b
  let s := (s.endTrip .a).endTrip .b
  let s := s.zoneGrant
  (s.orderSend .a).orderSend .b

theorem accPhase_beforeLook (s : State) (acc : Acc) (b : onTrip s acc) : accPhase (beforeLook s) acc = accPhase s acc := by
  unfold beforeLook
  simp only
  rw [accPhase_orderSend, accPhase_orderSend, accPhase_zoneGrant]
  have h1 : accPhase ((s.pruneZone .a).pruneZone .b) acc = accPhase s acc := by rw [accPhase_pruneZone, accPhase_pruneZone]
  have b1 := onTrip_of_accPhase h1 b
  have h2 := accPhase_endTrip _ .a acc b1
  rw [accPhase_endTrip _ .b acc (onTrip_of_accPhase h2 b1), h2, h1]

/-- What the end of an event does with an accessor at its trip: its own search for work, and nothing else that changes how far it is. -/
theorem railSettle_onTrip (s : State) (acc : Acc) (b : onTrip s acc) :
    ∃ u : State, accPhase u acc = accPhase s acc ∧ lasting u = lasting s ∧
      (onTrip (u.look acc) acc → accPhase s.railSettle acc = accPhase (u.look acc) acc) := by
  have e : s.railSettle = ((((beforeLook s).look .a).look .b).idlePark .a).idlePark .b := rfl
  have hl : lasting (beforeLook s) = lasting s := by simp [beforeLook]
  have park : ∀ v : State, onTrip v acc → accPhase ((v.idlePark .a).idlePark .b) acc = accPhase v acc := by
    intro v bv
    have h := accPhase_idlePark v .a acc bv
    rw [accPhase_idlePark _ .b acc (onTrip_of_accPhase h bv), h]
  cases acc with
  | a =>
    refine ⟨beforeLook s, accPhase_beforeLook s .a b, hl, fun bu => ?_⟩
    have h := accPhase_look_other ((beforeLook s).look .a) .b .a (by decide)
    rw [e, park _ (onTrip_of_accPhase h bu), h]
  | b =>
    have h := accPhase_look_other (beforeLook s) .a .b (by decide)
    refine ⟨(beforeLook s).look .a, by rw [h, accPhase_beforeLook s .b b], by simp [hl], fun bu => ?_⟩
    rw [e, park _ bu]

/-- During QUIESCE a trip whose window has run out goes on gathering (R101). -/
theorem railSettle_quiesce (s : State) (acc : Acc) (legs : List Nat) (hq : s.rail.quiesce = true)
    (g : (s.acc acc).state = .gathering) (k : windowOut s acc legs) :
    (s.railSettle.acc acc).state = .gathering ∧ windowOut s.railSettle acc legs := by
  obtain ⟨u, hp, hl, hs⟩ := railSettle_onTrip s acc (.inl g)
  have gu := gathering_of_accPhase hp g
  have ku := windowOut_of_accPhase hp k
  have f := tripFill_gathers u acc legs gu ku
  have hlook : u.look acc = u.tripFill acc := by
    rw [look_onTrip u acc (.inl gu), State.gather, if_pos gu, State.startIfDue, if_neg]
    have : (u.tripFill acc).rail.quiesce = true := by
      rw [quiesce_of_lasting ((lasting_tripFill u acc).trans hl)]; exact hq
    simp [State.startDue, this]
  rw [hlook] at hs
  have hs := hs (.inl f.1)
  exact ⟨gathering_of_accPhase hs f.1, windowOut_of_accPhase hs f.2⟩

/-- A leg in play stays in play where the lasting part is kept. -/
theorem leg_isSome_of_lasting {s t : State} (h : lasting t = lasting s) {n : Nat} (e : (s.leg? n).isSome = true) : (t.leg? n).isSome = true := by
  have := rec?_of_lasting h n
  unfold State.leg? at e ⊢
  cases hs : s.rec? n <;> cases ht : t.rec? n <;> simp_all
  have := congrArg Rec.leg this
  simp only [lastingRec] at this
  rename_i q r _
  cases hr : r.leg <;> cases hq : q.leg <;> simp_all

/-- The trip has started: the accessor is at its stops. -/
def tripStarted (s : State) (acc : Acc) (legs : List Nat) : Prop :=
  ((s.acc acc).state = .running ∨ (s.acc acc).state = .waitingZone) ∧ (s.stops acc).isEmpty = false ∧ windowOut s acc legs

theorem tripStarted_of_accPhase {s t : State} {acc : Acc} {legs : List Nat} (h : accPhase t acc = accPhase s acc)
    (g : tripStarted s acc legs) : tripStarted t acc legs := by
  have b := onTrip_of_accPhase h (.inr ⟨g.1, g.2.1⟩)
  refine ⟨?_, by rw [stops_of_accPhase h]; exact g.2.1, windowOut_of_accPhase h g.2.2⟩
  rcases b with b | b
  · have := gathering_of_accPhase h.symm b
    rcases g.1 with c | c <;> rw [c] at this <;> cases this
  · exact b.1

/-- A trip that has started, with stops left, is there after the end of an event. -/
theorem railSettle_started (s : State) (acc : Acc) (legs : List Nat) (k : tripStarted s acc legs) : tripStarted s.railSettle acc legs := by
  have b : onTrip s acc := .inr ⟨k.1, k.2.1⟩
  obtain ⟨u, hp, hl, hs⟩ := railSettle_onTrip s acc b
  have ku := tripStarted_of_accPhase hp k
  have hlook : u.look acc = u := by
    have hne : (u.acc acc).state ≠ .gathering := by rcases ku.1 with h | h <;> simp [h]
    rw [look_onTrip u acc (.inr ⟨ku.1, ku.2.1⟩), State.gather, if_neg hne, State.startIfDue, if_neg]
    simp [State.startDue, hne]
  rw [hlook] at hs
  exact tripStarted_of_accPhase (hs (.inr ⟨ku.1, ku.2.1⟩)) ku

/-- A GATHERING trip whose window has run out starts at the end of the event (R101). -/
theorem railSettle_starts (s : State) (acc : Acc) (legs : List Nat) (hq : s.rail.quiesce = false)
    (g : (s.acc acc).state = .gathering) (k : windowOut s acc legs) (n : Nat) (hn : n ∈ legs) (hleg : (s.leg? n).isSome = true) :
    tripStarted s.railSettle acc legs := by
  obtain ⟨u, hp, hl, hs⟩ := railSettle_onTrip s acc (.inl g)
  have gu := gathering_of_accPhase hp g
  have ku := windowOut_of_accPhase hp k
  obtain ⟨f1, tr, more, f2, f3, f4, f5⟩ := tripFill_gathers u acc legs gu ku
  have hlast := (lasting_tripFill u acc).trans hl
  have hqq : (u.tripFill acc).rail.quiesce = false := by rw [quiesce_of_lasting hlast]; exact hq
  have hlook : u.look acc = ((u.tripFill acc).tripStart acc).orderSend acc := by
    rw [look_onTrip u acc (.inl gu), State.gather, if_pos gu, State.startIfDue, if_pos]
    simp [State.startDue, f1, hqq, f2, f5]
  let fill := u.tripFill acc
  let begun : Trip := { tr with window := 0, stops := fill.stopsOf (fill.acc acc).column tr.legs }
  have ht : ((fill.tripStart acc).acc acc).trip = some begun := by
    unfold State.tripStart
    rw [State.acc_updAcc_self]
    simp [fill, f2, begun]
  have hst : tripStarted (fill.tripStart acc) acc legs := by
    refine ⟨.inl (by unfold State.tripStart; rw [State.acc_updAcc_self]), ?_, begun, more, ht, f3, rfl, f5⟩
    have := stopsOf_ne_nil fill (fill.acc acc).column tr.legs n (by rw [f3]; simp [hn]) (leg_isSome_of_lasting hlast hleg)
    simpa [State.stops, ht, begun] using this
  rw [hlook] at hs
  have h3 := tripStarted_of_accPhase (accPhase_orderSend ((u.tripFill acc).tripStart acc) acc acc) hst
  exact tripStarted_of_accPhase (hs (.inr ⟨h3.1, h3.2.1⟩)) h3

end Machine

end Sys2Proof
end

