-- ==== Sys2Proof/Laws/Shared.lean ====
section
/-! SUPPORT. What the shared operations of the console, station, drive and link blocks keep: the books of the part (`books`), that
is, the directory, the accounts, the cleaning-reel list, the tables the host loads, the panel inputs, the receiving side of the
link and the waiting commands. `books_commit` says it of the end of every event. The skip list of an audit keeps one pair for a cell. -/

namespace Sys2Proof

namespace Machine

open Safety

/-- The parts of a state that no block's follow-on work at the end of an event changes. -/
def books (s : State) : State :=
  { State.reset with
    link := { s.link with outq := [], lib := .offline },
    cls := { s.cls with intake := [] },
    dir := s.dir, cleanList := s.cleanList, acct := s.acct, pending := s.pending,
    console := { State.reset.console with templates := s.console.templates, inputs := s.console.inputs },
    rail := { State.reset.rail with
      westOpen := s.rail.westOpen, middleOpen := s.rail.middleOpen, eastOpen := s.rail.eastOpen, quiesce := s.rail.quiesce },
    station := { State.reset.station with latchOpen := s.station.latchOpen },
    drives := s.drives.map (fun d => { Drive.initial with cls := d.cls, pools := d.pools, mounts := d.mounts, due := d.due }) }

theorem books_lasting (s : State) : books (lasting s) = books s := rfl

/-- What keeps the lasting part keeps the books. -/
theorem books_of_lasting {s t : State} (h : lasting t = lasting s) : books t = books s := by
  rw [← books_lasting t, h, books_lasting]

/-! ## Primitive updates -/

@[simp] theorem books_updRec (s : State) (slot : Nat) (f : Rec → Rec) : books (s.updRec slot f) = books s := rfl

@[simp] theorem books_updLeg (s : State) (slot : Nat) (f : Leg → Leg) : books (s.updLeg slot f) = books s := rfl

@[simp] theorem books_recs (s : State) (l : List Rec) : books { s with recs := l } = books s := rfl

@[simp] theorem books_openRec (s : State) (r : Rec) : books (s.openRec r) = books s := rfl

@[simp] theorem books_updAcc (s : State) (acc : Acc) (f : AccRec → AccRec) : books (s.updAcc acc f) = books s := rfl

@[simp] theorem books_setQueue (s : State) (acc : Acc) (q : List Nat) : books (s.setQueue acc q) = books s := rfl

@[simp] theorem books_setShelf (s : State) (p : Fin 4) (x : ShelfPos) : books (s.setShelf p x) = books s := rfl

@[simp] theorem books_updPos (s : State) (p : Fin 8) (f : StationPos → StationPos) : books (s.updPos p f) = books s := rfl

@[simp] theorem books_updAudit (s : State) (acc : Acc) (f : Audit → Audit) : books (s.updAudit acc f) = books s := rfl

@[simp] theorem books_send (s : State) (o : MechOrder) : books (s.send o) = books s := rfl

@[simp] theorem books_start (s : State) : books s.start = books s := rfl

@[simp] theorem books_enqueue (s : State) (kept : Bool) (f : Frame) : books (s.enqueue kept f) = books s := rfl

@[simp] theorem books_cleanPrompt (s : State) (x : PromptRef) : books { s with cleanPrompt := x } = books s := rfl

theorem books_updDrive (s : State) (d : Fin 16) (f : Drive → Drive)
    (h : ∀ x, (f x).cls = x.cls ∧ (f x).pools = x.pools ∧ (f x).mounts = x.mounts ∧ (f x).due = x.due) :
    books (s.updDrive d f) = books s := by
  obtain ⟨h1, h2, h3, h4⟩ := h s.drives[d]
  have : (s.drives.set d (f s.drives[d])).map
        (fun d => { Drive.initial with cls := d.cls, pools := d.pools, mounts := d.mounts, due := d.due })
      = s.drives.map (fun d => { Drive.initial with cls := d.cls, pools := d.pools, mounts := d.mounts, due := d.due }) := by
    ext i hi
    simp only [Vector.getElem_map, Vector.getElem_set]
    split
    · rename_i e; subst e; rw [h1, h2, h3, h4]; rfl
    · rfl
  simp only [books, State.updDrive, this]

/-! ## The console (Machine/Prompts.lean) -/

@[simp] theorem books_redisplay (s : State) : books s.redisplay = books s := by
  unfold State.redisplay; simp only; split <;> rfl

@[simp] theorem books_pushPrompt (s : State) (a : Ask) : books (s.pushPrompt a) = books s := by
  unfold State.pushPrompt; simp only [books_redisplay]; rfl

@[simp] theorem books_ask (s : State) (a : Ask) : books (s.ask a).1 = books s := by
  unfold State.ask; split <;> simp

@[simp] theorem books_askFault (s : State) (acc : Acc) (u : Option Nat) : books (s.askFault acc u) = books s := by
  simp [State.askFault]

@[simp] theorem books_askCleanSupply (s : State) : books s.askCleanSupply = books s := by
  unfold State.askCleanSupply; split <;> simp

@[simp] theorem books_askApprove (s : State) (slot : Nat) : books (s.askApprove slot) = books s := by
  unfold State.askApprove; split <;> simp

@[simp] theorem books_askStation (s : State) (p : Fin 8) : books (s.askStation p) = books s := by
  unfold State.askStation; split <;> simp

@[simp] theorem books_raiseOwedFault (s : State) (acc : Acc) : books (s.raiseOwedFault acc) = books s := by
  unfold State.raiseOwedFault; split <;> simp

@[simp] theorem books_raiseOwedClean (s : State) : books s.raiseOwedClean = books s := by
  unfold State.raiseOwedClean; split <;> simp

@[simp] theorem books_raiseOwedApprove (s : State) (slot : Nat) : books (s.raiseOwedApprove slot) = books s := by
  unfold State.raiseOwedApprove
  split
  · split <;> simp
  · rfl

@[simp] theorem books_raiseOwedStation (s : State) (p : Fin 8) : books (s.raiseOwedStation p) = books s := by
  unfold State.raiseOwedStation; split <;> simp

@[simp] theorem books_spaceReport (s : State) : books s.spaceReport = books s := by
  unfold State.spaceReport
  simp only
  rw [foldl_view books _ books_raiseOwedStation, foldl_view books _ books_raiseOwedApprove, books_raiseOwedClean,
    foldl_view books _ books_raiseOwedFault]

@[simp] theorem books_removePrompt (s : State) (num : Nat) : books (s.removePrompt num) = books s := by
  unfold State.removePrompt; simp only [books_redisplay]; rfl

@[simp] theorem books_withdraw (s : State) (num : Nat) (b : RaisingBlock) : books (s.withdraw num b) = books s := by
  unfold State.withdraw
  split
  · split <;> simp
  · rfl

@[simp] theorem books_dropPrompt (s : State) (r : PromptRef) (b : RaisingBlock) : books (s.dropPrompt r b) = books s := by
  unfold State.dropPrompt; split <;> simp

@[simp] theorem books_dropApprove (s : State) (slot : Nat) : books (s.dropApprove slot) = books s := by
  unfold State.dropApprove; split <;> simp

@[simp] theorem books_dropStation (s : State) (p : Fin 8) : books (s.dropStation p) = books s := by simp [State.dropStation]

@[simp] theorem books_dropFault (s : State) (acc : Acc) : books (s.dropFault acc) = books s := by
  unfold State.dropFault; simp only; split <;> simp

@[simp] theorem books_tidyCleanSupply (s : State) : books s.tidyCleanSupply = books s := by
  unfold State.tidyCleanSupply; split <;> simp

/-! ## Positions and legs (Machine/Positions.lean, Machine/Rail.lean) -/

@[simp] theorem books_setDst (s : State) (ref : LegRef) (dst : Place) : books (s.setDst ref dst) = books s := by
  cases ref <;> rfl

@[simp] theorem books_claimShelf (s : State) (p : Fin 4) : books (s.claimShelf p) = books s := by
  unfold State.claimShelf
  split
  · rfl
  · split
    · simp only [books_setDst, books_setShelf]; rfl
    · rfl

@[simp] theorem books_freeShelf (s : State) (p : Fin 4) : books (s.freeShelf p) = books s := by simp [State.freeShelf]

@[simp] theorem books_supplyAt (s : State) (slot : Nat) (p : Fin 8) : books (s.supplyAt slot p) = books s := by
  simp [State.supplyAt]

@[simp] theorem books_claimStation (s : State) (p : Fin 8) : books (s.claimStation p) = books s := by
  unfold State.claimStation
  split
  · split
    · simp only [books_setDst, books_updPos]; rfl
    · split
      · simp only [books_supplyAt]; rfl
      · rfl
  · rfl

@[simp] theorem books_freeStation (s : State) (p : Fin 8) : books (s.freeStation p) = books s := by simp [State.freeStation]

@[simp] theorem books_freeReservation (s : State) (ref : LegRef) : books (s.freeReservation ref) = books s := by
  unfold State.freeReservation
  simp only
  split <;> split <;> simp <;> rfl

@[simp] theorem books_reserveStation_getD (s : State) (ref : LegRef) : books ((s.reserveStation ref).getD s) = books s := by
  unfold State.reserveStation
  cases s.emptyStation <;> simp

@[simp] theorem books_reserveFor_getD (s : State) (ref : LegRef) : books ((s.reserveFor ref).getD s) = books s :=
  books_of_lasting (lasting_reserveFor_getD s ref)

@[simp] theorem books_sendToStation (s : State) (ref : LegRef) : books (s.sendToStation ref) = books s := by
  simp [State.sendToStation]

@[simp] theorem books_requestScan (s : State) (p : Fin 8) (k : ScanKind) : books (s.requestScan p k) = books s := by
  unfold State.requestScan; simp only; split <;> rfl

@[simp] theorem books_withdrawScan (s : State) (p : Fin 8) : books (s.withdrawScan p) = books s := rfl

@[simp] theorem books_supplyOrWait (s : State) (slot : Nat) (waiting : List Nat) : books (s.supplyOrWait slot waiting) = books s := by
  unfold State.supplyOrWait; split <;> first | rfl | simp

@[simp] theorem books_startSupply (s : State) (slot : Nat) : books (s.startSupply slot) = books s :=
  books_supplyOrWait s slot _

@[simp] theorem books_markScanLate (s : State) (p : Fin 8) : books (s.markScanLate p) = books s := rfl

@[simp] theorem books_endSupply (s : State) (slot : Nat) : books (s.endSupply slot) = books s := by
  unfold State.endSupply; simp only; split <;> first | rfl | (simp; rfl)

@[simp] theorem books_legReady (s : State) (slot : Nat) : books (s.legReady slot) = books s := books_of_lasting (lasting_legReady s slot)

@[simp] theorem books_railSettle (s : State) : books s.railSettle = books s := books_of_lasting (lasting_railSettle s)

@[simp] theorem books_removeLeg (s : State) (slot : Nat) : books (s.removeLeg slot) = books s := by
  unfold State.removeLeg; split <;> simp

@[simp] theorem books_discardLegs (s : State) (slot : Nat) : books (s.discardLegs slot) = books s := by simp [State.discardLegs]

@[simp] theorem books_returnToQueue (s : State) (slot : Nat) : books (s.returnToQueue slot) = books s := by
  unfold State.returnToQueue; split <;> simp

/-! ## Drives (Machine/Drives.lean) -/

@[simp] theorem books_makeLegs (s : State) (slot : Nat) (l : Leg) (n : Option Leg) : books (s.makeLegs slot l n) = books s := by
  simp [State.makeLegs]

@[simp] theorem books_reserve (s : State) (slot : Nat) (d : Fin 16) : books (s.reserve slot d) = books s := by
  unfold State.reserve
  split
  · rfl
  · simp only [books_makeLegs, books_updRec]
    exact books_updDrive _ _ _ (fun x => ⟨rfl, rfl, rfl, rfl⟩)

@[simp] theorem books_allocateForRecord (s : State) (slot : Nat) : books (s.allocateForRecord slot) = books s := by
  unfold State.allocateForRecord
  split
  · rfl
  · split
    · split <;> simp
    · rfl

@[simp] theorem books_returnOpen (s : State) (d : Fin 16) : books (s.returnOpen d) = books s := by
  unfold State.returnOpen
  split
  · exact books_updDrive _ _ _ (fun x => ⟨rfl, rfl, rfl, rfl⟩)
  · simp only [books_send]
    rw [books_updDrive]
    · simp
    · intro x; exact ⟨rfl, rfl, rfl, rfl⟩

@[simp] theorem books_setCleanWait (s : State) (d : Fin 16) (w : Bool) : books (s.setCleanWait d w) = books s :=
  books_updDrive _ _ _ (fun _ => ⟨rfl, rfl, rfl, rfl⟩)

@[simp] theorem books_cleaningAttempt (s : State) (d : Fin 16) : books (s.cleaningAttempt d) = books s := by
  unfold State.cleaningAttempt
  split
  · split
    · split <;> simp
    · simp only; split <;> simp
  · rfl

@[simp] theorem books_cleaningAttempts (s : State) : books s.cleaningAttempts = books s := by
  refine foldl_view books _ (fun s d => ?_) _ _
  split <;> simp

@[simp] theorem books_recordFreed (s : State) : books s.recordFreed = books s := by
  unfold State.recordFreed
  rw [books_cleaningAttempts]
  refine foldl_view books _ (fun s d => ?_) _ _
  split <;> simp

@[simp] theorem books_allocateForDrive (s : State) (d : Fin 16) : books (s.allocateForDrive d) = books s := by
  unfold State.allocateForDrive
  split
  · split <;> simp
  · rfl

@[simp] theorem books_releaseDrive (s : State) (slot : Nat) (taken : Bool) : books (s.releaseDrive slot taken) = books s := by
  unfold State.releaseDrive
  split
  · rfl
  · simp only [books_allocateForDrive]
    rw [books_updDrive]
    · simp
    · intro x; exact ⟨rfl, rfl, rfl, rfl⟩

/-! ## The end of an event (Machine/Ops.lean) -/

@[simp] theorem books_queueMounted (s : State) (r : Rec) : books (s.queueMounted r) = books s := rfl

@[simp] theorem books_queueFrames (s : State) (r : Rec) : books (s.queueFrames r) = books s := by
  unfold State.queueFrames
  simp only [books_enqueue]
  split <;> split <;> rfl

@[simp] theorem books_drained (s : State) : books s.drained = books s := by
  unfold State.drained; split <;> rfl

@[simp] theorem books_close (s : State) (slot : Nat) : books (s.close slot) = books s := by
  unfold State.close
  rw [books_recordFreed, books_drained]; rfl

@[simp] theorem books_offerNotice (s : State) (n : Notice) : books (s.offerNotice n) = books s := by
  unfold State.offerNotice; split <;> rfl

@[simp] theorem books_offerNotices (s : State) : books s.offerNotices = books s := by
  unfold State.offerNotices
  rw [foldl_view books _ books_offerNotice]; rfl

@[simp] theorem books_servePosting (s : State) (r : Rec) : books (s.servePosting r) = books s := by
  unfold State.servePosting
  rw [books_close, foldl_view books _ books_offerNotice, books_queueFrames]

@[simp] theorem books_serveOldest (s : State) : books s.serveOldest = books s := by
  unfold State.serveOldest
  split
  · rfl
  · split
    · split <;> simp
    · rfl

@[simp] theorem books_serveUpTo (s : State) (n : Nat) : books (s.serveUpTo n) = books s := by
  induction n generalizing s with
  | zero => rfl
  | succ n ih => simp [State.serveUpTo, ih]

/-- The end of every event keeps the books. -/
@[simp] theorem books_commit (s : State) : books s.commit = books s := by
  simp [State.commit, State.serveWaiting]

/-! ## The skip list of an audit (R121) -/

/-- No two pairs of a skip list are of one cell (R121). -/
def onePerCell (l : List (Cell × Serial)) : Prop := l.Pairwise (fun p q => p.1 ≠ q.1)

/-- A pair added by a PICK leaves one pair for a cell: its own for its cell (R130). -/
theorem onePerCell_addSkip (a : Audit) (home : Cell) (ser : Serial) (h : onePerCell a.skip) : onePerCell (a.addSkip home ser).skip := by
  unfold Audit.addSkip onePerCell at *
  split
  · refine List.pairwise_append.mpr ⟨h.filter _, List.pairwise_singleton _ _, ?_⟩
    intro p hp q hq
    rw [List.mem_singleton.mp hq]
    simpa using (List.mem_filter.mp hp).2
  · exact h

/-- A pair that a PICK adds stands in the list of each active audit with its home cell ahead (R130). -/
theorem mem_addSkip (a : Audit) (home : Cell) (ser : Serial) (h : a.unpassed home = true) : (home, ser) ∈ (a.addSkip home ser).skip := by
  unfold Audit.addSkip
  split
  · simp
  · rename_i hc
    simpa [h] using hc

/-- The result of a scan takes a pair out of the list or leaves it (R126). -/
theorem onePerCell_passedAudit (s : State) (x : Audit) (c : Cell) (r : ScanResult) (h : onePerCell x.skip) :
    onePerCell (s.passedAudit x c r).skip := by
  unfold State.passedAudit onePerCell at *
  cases r with
  | label ser => exact h.filter _
  | empty => exact h
  | unreadable => exact h

theorem dir_of_books {s t : State} (h : books t = books s) : t.dir = s.dir := (congrArg State.dir h :)

theorem acct_of_books {s t : State} (h : books t = books s) : t.acct = s.acct := (congrArg State.acct h :)

theorem cleanList_of_books {s t : State} (h : books t = books s) : t.cleanList = s.cleanList := (congrArg State.cleanList h :)

theorem pending_of_books {s t : State} (h : books t = books s) : t.pending = s.pending := (congrArg State.pending h :)

theorem rules_of_books {s t : State} (h : books t = books s) : t.cls.rules = s.cls.rules :=
  (congrArg (fun x : State => x.cls.rules) h :)

theorem templates_of_books {s t : State} (h : books t = books s) : t.console.templates = s.console.templates :=
  (congrArg (fun x : State => x.console.templates) h :)

theorem flags_of_books {s t : State} (h : books t = books s) : t.link.flags = s.link.flags :=
  (congrArg (fun x : State => x.link.flags) h :)

end Machine

end Sys2Proof
end

