-- ==== Sys2Proof/Laws/Link.lean ====
section
/-! SUPPORT. The link unit: a frame taken while receive-ready is given, and the immediate frame that answers it, as `answered` states
it; what discarding and offering leave. -/

namespace Sys2Proof

namespace Machine

open Safety

/-! ## Arrival -/

/-- A frame that arrives while receive-ready is given is taken. -/
theorem arrive_of_ready {s : State} (h : ready s) (take : State → State) : s.arrive take = take s.start := by
  have h' : s.link.receiveReady = true := h
  simp [State.arrive, h']

/-- While receive-ready is given a kept entry is free. -/
theorem keptFree_of_ready {s : State} (h : ready s) : s.link.keptFree = true := by
  have h' : s.link.receiveReady = true := h
  simp only [Link.receiveReady, Bool.and_eq_true] at h'; exact h'.1

/-- What an arrival can come to: it is taken, it is discarded, or it is the one late frame. -/
theorem arrive_cases (s : State) (take : State → State) :
    (ready s ∧ s.arrive take = take s.start)
      ∨ (s.link.receiveReady = false ∧ s.link.lateTaken = true
          ∧ s.arrive take = (s.start.raise .checkError .nothing).offerNotices)
      ∨ (s.link.receiveReady = false ∧ s.link.lateTaken = false
          ∧ s.arrive take = take { s.start with link := { s.link with lateTaken := true } }) := by
  unfold State.arrive ready
  by_cases h : s.link.receiveReady = true
  · exact .inl ⟨h, by simp [h]⟩
  · have h' : s.link.receiveReady = false := by simpa using h
    by_cases hl : s.link.lateTaken = true
    · exact .inr (.inl ⟨h', hl, by simp [h', hl]⟩)
    · have hl' : s.link.lateTaken = false := by simpa using hl
      exact .inr (.inr ⟨h', hl', by simp [h', hl']⟩)

/-! ## Immediate frames -/

/-- An immediate frame takes a kept entry when one is free. -/
theorem immediate_of_keptFree {s : State} (h : s.link.keptFree = true) (f : Frame) : s.immediate f = s.enqueue true f := by
  simp [State.immediate, h]

/-- Queuing an immediate frame with a kept entry free gives the answered state. -/
theorem immediate_answered {s : State} (h : s.link.keptFree = true) (hs : s.sent = []) (f : Frame) :
    s.immediate f = answered s f := by
  rw [immediate_of_keptFree h]
  cases s
  subst hs
  rfl

/-- The frame of an immediate answer changes the link alone. -/
theorem immediate_link_only (s : State) (f : Frame) : { s.immediate f with link := s.link } = s := by
  unfold State.immediate; split <;> rfl

@[simp] theorem immediate_recs (s : State) (f : Frame) : (s.immediate f).recs = s.recs := by
  unfold State.immediate; split <;> rfl

@[simp] theorem immediate_cls (s : State) (f : Frame) : (s.immediate f).cls = s.cls := by
  unfold State.immediate; split <;> rfl

@[simp] theorem immediate_dir (s : State) (f : Frame) : (s.immediate f).dir = s.dir := by
  unfold State.immediate; split <;> rfl

@[simp] theorem immediate_cleanList (s : State) (f : Frame) : (s.immediate f).cleanList = s.cleanList := by
  unfold State.immediate; split <;> rfl

@[simp] theorem immediate_drives (s : State) (f : Frame) : (s.immediate f).drives = s.drives := by
  unfold State.immediate; split <;> rfl

@[simp] theorem immediate_rail (s : State) (f : Frame) : (s.immediate f).rail = s.rail := by
  unfold State.immediate; split <;> rfl

@[simp] theorem immediate_console (s : State) (f : Frame) : (s.immediate f).console = s.console := by
  unfold State.immediate; split <;> rfl

@[simp] theorem immediate_acct (s : State) (f : Frame) : (s.immediate f).acct = s.acct := by
  unfold State.immediate; split <;> rfl

@[simp] theorem immediate_raised (s : State) (f : Frame) : (s.immediate f).raised = s.raised := by
  unfold State.immediate; split <;> rfl

@[simp] theorem immediate_pending (s : State) (f : Frame) : (s.immediate f).pending = s.pending := by
  unfold State.immediate; split <;> rfl

/-- An immediate frame leaves what the rail scheduler keeps to itself. -/
theorem lasting_answered {s t : State} (h : lasting t = lasting s) (f : Frame) : lasting (answered t f) = lasting (answered s f) := by
  have key : ∀ u : State, lasting (answered u f) = answered (lasting u) f := fun _ => rfl
  rw [key, key, h]

/-- No immediate frame makes a record wait or raises a notice. -/
theorem calm_answered {s : State} (h : calm s) (f : Frame) : calm (answered s f) := h

end Machine

end Sys2Proof
end

