-- ==== Sys2Proof/Laws/PerInstr.lean ====
section
/-! SUPPORT. The family `Header`: the commands that arrive as a management frame carry an operation code of the manual's list and
arrive as a frame, and a command that answers no REPLY has no header. One lemma for each constructor. -/

namespace Sys2Proof

namespace Laws

/-- The operation codes of section 10.7. -/
def operationCodes : List Byte :=
  [0x01, 0x02, 0x03, 0x04, 0x05, 0x10, 0x11, 0x12, 0x13, 0x14, 0x15, 0x20, 0x21, 0x22, 0x23, 0x30, 0x31, 0x32, 0x33,
   0x40, 0x41, 0x42, 0x43, 0x44, 0x50, 0x51, 0x52, 0x60, 0x61, 0x62, 0x70, 0x71, 0x72, 0x73]

/-- A command's header, if it has one, holds a listed operation code, and the command arrives as a frame. -/
def Header.Statement (c : Instr) : Prop :=
  ∀ op tag, Machine.headerOf c = some (op, tag) → op ∈ operationCodes ∧ Safety.arrivesAsFrame c = true

/-- A command with a header of a listed operation code meets the statement. -/
theorem Header.of_some {c : Instr} {op : Byte} {tag : Tag} (h : Machine.headerOf c = some (op, tag)) (ho : op ∈ operationCodes)
    (hf : Safety.arrivesAsFrame c = true) : Header.Statement c := by
  intro o t he; rw [h] at he; cases he; exact ⟨ho, hf⟩

/-- A command with no header meets the statement. -/
theorem Header.of_none {c : Instr} (h : Machine.headerOf c = none) : Header.Statement c := by
  intro o t he; rw [h] at he; cases he

theorem Header.powerOn : Header.Statement (.powerOn) := of_none rfl

theorem Header.linkReset : Header.Statement (.linkReset) := of_none rfl

theorem Header.frameDiscarded (cause : DiscardCause) : Header.Statement (.frameDiscarded cause) := of_none rfl

theorem Header.requestMalformed (corr : Option Corr) (subKind : Byte) : Header.Statement (.requestMalformed corr subKind) := of_none rfl

theorem Header.unknownOperation (header : Option (Byte × Tag)) : Header.Statement (.unknownOperation header) := of_none rfl

theorem Header.mount (body : Body ReqFields) : Header.Statement (.mount body) := of_none rfl

theorem Header.eject (body : Body ReqFields) : Header.Statement (.eject body) := of_none rfl

theorem Header.enter (body : Body ReqFields) : Header.Statement (.enter body) := of_none rfl

theorem Header.dismount (body : Body DismountFields) : Header.Statement (.dismount body) := of_none rfl

theorem Header.cancel (body : Body Corr) : Header.Statement (.cancel body) := of_none rfl

theorem Header.queryByCorrelator (body : Body Corr) : Header.Statement (.queryByCorrelator body) := of_none rfl

theorem Header.queryBySerial (body : Body Serial) : Header.Statement (.queryBySerial body) := of_none rfl

theorem Header.libraryOnline (tag : Tag) : Header.Statement (.libraryOnline tag) := of_some rfl (by decide) rfl

theorem Header.libraryOffline (tag : Tag) : Header.Statement (.libraryOffline tag) := of_some rfl (by decide) rfl

theorem Header.noticeEnable (tag : Tag) (enables : BitVec 9) : Header.Statement (.noticeEnable tag enables) := of_some rfl (by decide) rfl

theorem Header.noticeSummaryClear (tag : Tag) : Header.Statement (.noticeSummaryClear tag) := of_some rfl (by decide) rfl

theorem Header.identify (tag : Tag) : Header.Statement (.identify tag) := of_some rfl (by decide) rfl

theorem Header.ruleWrite (tag : Tag) (slot : Nat) (entry : RuleOperand) : Header.Statement (.ruleWrite tag slot entry) := of_some rfl (by decide) rfl

theorem Header.ruleRead (tag : Tag) (slot : Nat) : Header.Statement (.ruleRead tag slot) := of_some rfl (by decide) rfl

theorem Header.ruleClear (tag : Tag) (slot : Nat) : Header.Statement (.ruleClear tag slot) := of_some rfl (by decide) rfl

theorem Header.rangeSet (tag : Tag) (checker source low high : Nat) : Header.Statement (.rangeSet tag checker source low high) := of_some rfl (by decide) rfl

theorem Header.selectorSet (tag : Tag) (mount eject enter : Nat) : Header.Statement (.selectorSet tag mount eject enter) := of_some rfl (by decide) rfl

theorem Header.defaultsSet (tag : Tag) (action : DefaultsOperand) : Header.Statement (.defaultsSet tag action) := of_some rfl (by decide) rfl

theorem Header.dirPut (tag : Tag) (args : DirPutArgs) : Header.Statement (.dirPut tag args) := of_some rfl (by decide) rfl

theorem Header.dirDelete (tag : Tag) (serial : Serial) : Header.Statement (.dirDelete tag serial) := of_some rfl (by decide) rfl

theorem Header.dirGet (tag : Tag) (query : DirQuery) : Header.Statement (.dirGet tag query) := of_some rfl (by decide) rfl

theorem Header.cleanListSet (tag : Tag) (list : Vector (Option (Serial × Nat)) 4) : Header.Statement (.cleanListSet tag list) := of_some rfl (by decide) rfl

theorem Header.driveSet (tag : Tag) (drive cls : Nat) (pools : BitVec 8) : Header.Statement (.driveSet tag drive cls pools) := of_some rfl (by decide) rfl

theorem Header.driveOffline (tag : Tag) (drive : Nat) : Header.Statement (.driveOffline tag drive) := of_some rfl (by decide) rfl

theorem Header.driveOnline (tag : Tag) (drive : Nat) : Header.Statement (.driveOnline tag drive) := of_some rfl (by decide) rfl

theorem Header.driveGet (tag : Tag) (drive : Nat) : Header.Statement (.driveGet tag drive) := of_some rfl (by decide) rfl

theorem Header.accessorSet (tag : Tag) (accessor : Nat) (args : AccessorArgs) : Header.Statement (.accessorSet tag accessor args) := of_some rfl (by decide) rfl

theorem Header.accessorOffline (tag : Tag) (accessor : Nat) : Header.Statement (.accessorOffline tag accessor) := of_some rfl (by decide) rfl

theorem Header.accessorOnline (tag : Tag) (accessor : Nat) : Header.Statement (.accessorOnline tag accessor) := of_some rfl (by decide) rfl

theorem Header.accessorRecover (tag : Tag) (accessor : Nat) : Header.Statement (.accessorRecover tag accessor) := of_some rfl (by decide) rfl

theorem Header.accessorGet (tag : Tag) (accessor : Nat) : Header.Statement (.accessorGet tag accessor) := of_some rfl (by decide) rfl

theorem Header.auditStart (tag : Tag) (accessor : Nat) (first last : Cell) (yieldClass : Nat) : Header.Statement (.auditStart tag accessor first last yieldClass) := of_some rfl (by decide) rfl

theorem Header.auditAbort (tag : Tag) (accessor : Nat) : Header.Statement (.auditAbort tag accessor) := of_some rfl (by decide) rfl

theorem Header.auditGet (tag : Tag) (accessor : Nat) : Header.Statement (.auditGet tag accessor) := of_some rfl (by decide) rfl

theorem Header.templateSet (tag : Tag) (template : Nat) (args : TemplateArgs) : Header.Statement (.templateSet tag template args) := of_some rfl (by decide) rfl

theorem Header.inputSet (tag : Tag) (input polarity code : Nat) : Header.Statement (.inputSet tag input polarity code) := of_some rfl (by decide) rfl

theorem Header.promptList (tag : Tag) : Header.Statement (.promptList tag) := of_some rfl (by decide) rfl

theorem Header.accountSet (tag : Tag) (account warn limit : Nat) : Header.Statement (.accountSet tag account warn limit) := of_some rfl (by decide) rfl

theorem Header.accountRead (tag : Tag) (account : Nat) : Header.Statement (.accountRead tag account) := of_some rfl (by decide) rfl

theorem Header.accountReadClear (tag : Tag) (account : Nat) : Header.Statement (.accountReadClear tag account) := of_some rfl (by decide) rfl

theorem Header.rateSet (tag : Tag) (rates : Rates) : Header.Statement (.rateSet tag rates) := of_some rfl (by decide) rfl

theorem Header.classification : Header.Statement (.classification) := of_none rfl

theorem Header.tenthTick : Header.Statement (.tenthTick) := of_none rfl

theorem Header.secondTick : Header.Statement (.secondTick) := of_none rfl

theorem Header.gatherWindowExpiry (acc : Acc) : Header.Statement (.gatherWindowExpiry acc) := of_none rfl

theorem Header.motionLimitExpiry (acc : Acc) : Header.Statement (.motionLimitExpiry acc) := of_none rfl

theorem Header.driveStatusTimeout (drive : Fin 16) : Header.Statement (.driveStatusTimeout drive) := of_none rfl

theorem Header.accessorStatusTimeout (acc : Acc) : Header.Statement (.accessorStatusTimeout acc) := of_none rfl

theorem Header.replyTimerExpiry (prompt : Nat) : Header.Statement (.replyTimerExpiry prompt) := of_none rfl

theorem Header.panelInputChange (input : PanelInput) (high : Bool) : Header.Statement (.panelInputChange input high) := of_none rfl

theorem Header.debouncePeriodEnd (input : PanelInput) : Header.Statement (.debouncePeriodEnd input) := of_none rfl

theorem Header.pickCompletion (acc : Acc) (label : Option Serial) : Header.Statement (.pickCompletion acc label) := of_none rfl

theorem Header.placeCompletion (acc : Acc) : Header.Statement (.placeCompletion acc) := of_none rfl

theorem Header.cellOccupied (acc : Acc) : Header.Statement (.cellOccupied acc) := of_none rfl

theorem Header.scanCompletion (acc : Acc) (result : ScanResult) : Header.Statement (.scanCompletion acc result) := of_none rfl

theorem Header.recoverCompletion (acc : Acc) (column : Nat) : Header.Statement (.recoverCompletion acc column) := of_none rfl

theorem Header.parkCompletion (acc : Acc) (column : Nat) : Header.Statement (.parkCompletion acc column) := of_none rfl

theorem Header.accessorStatusAnswer (acc : Acc) (column : Nat) (occupied : Vector Bool 3) : Header.Statement (.accessorStatusAnswer acc column occupied) := of_none rfl

theorem Header.driveStatusAnswer (drive : Fin 16) (reelPresent : Bool) : Header.Statement (.driveStatusAnswer drive reelPresent) := of_none rfl

theorem Header.loaded (drive : Fin 16) (ring : Bool) : Header.Statement (.loaded drive ring) := of_none rfl

theorem Header.unloaded (drive : Fin 16) : Header.Statement (.unloaded drive) := of_none rfl

theorem Header.fault (drive : Fin 16) : Header.Statement (.fault drive) := of_none rfl

theorem Header.answerLine (line : List Byte) : Header.Statement (.answerLine line) := of_none rfl

theorem Header.frameSent : Header.Statement (.frameSent) := of_none rfl

theorem Header.replyBacklogServed : Header.Statement (.replyBacklogServed) := of_none rfl

theorem Header.postingServed : Header.Statement (.postingServed) := of_none rfl

theorem Header.mountedEndingServed : Header.Statement (.mountedEndingServed) := of_none rfl

theorem Header.owedPromptRaise : Header.Statement (.owedPromptRaise) := of_none rfl

theorem Header.cleaningAttempt (drive : Fin 16) : Header.Statement (.cleaningAttempt drive) := of_none rfl

theorem Header.returnRecordOpen (drive : Fin 16) : Header.Statement (.returnRecordOpen drive) := of_none rfl

theorem Header.libraryDrained : Header.Statement (.libraryDrained) := of_none rfl

theorem Header.driveReservation (search : Search) : Header.Statement (.driveReservation search) := of_none rfl

theorem Header.tripOpen (acc : Acc) : Header.Statement (.tripOpen acc) := of_none rfl

theorem Header.legJoinsTrip (acc : Acc) : Header.Statement (.legJoinsTrip acc) := of_none rfl

theorem Header.tripStart (acc : Acc) : Header.Statement (.tripStart acc) := of_none rfl

theorem Header.orderSend (acc : Acc) : Header.Statement (.orderSend acc) := of_none rfl

theorem Header.zoneLockGrant : Header.Statement (.zoneLockGrant) := of_none rfl

theorem Header.shelfPositionClaim : Header.Statement (.shelfPositionClaim) := of_none rfl

theorem Header.stationPositionClaim : Header.Statement (.stationPositionClaim) := of_none rfl

theorem Header.stationScanTaken (acc : Acc) : Header.Statement (.stationScanTaken acc) := of_none rfl

theorem Header.auditScanSend (acc : Acc) : Header.Statement (.auditScanSend acc) := of_none rfl

theorem Header.auditResume (acc : Acc) : Header.Statement (.auditResume acc) := of_none rfl

theorem Header.consoleLineSent : Header.Statement (.consoleLineSent) := of_none rfl

end Laws

end Sys2Proof
end

