-- ==== Sys2Proof/Tests/Slice0.lean ====
section
/-! SUPPORT. Tests: a small library to test on, the well-formedness smoke tests (each check refuses an ill-formed command), small
tests of single commands with results taken from the manual, and, for each statement of Certificates/Slice0/Obligations.lean with
hypotheses, theorems `witness_<Statement>` that show states and operands meeting them, clause by clause. -/

set_option Elab.async false -- one test after the other: side by side they take more memory than a check may

namespace Sys2Proof

namespace Tests

open Machine Safety

/-! ## A small library -/

/-- The volume VOL0n0. -/
def vol (n : Nat) : Serial := { c1 := 0x56, c2 := 0x4F, c3 := 0x4C, c4 := 0x30, c5 := BitVec.ofNat 8 (0x30 + n), c6 := 0x30 }

/-- A storage cell in the West segment, one column for each volume. -/
def west (n : Nat) : Cell := { col := 10 + n, row := 3 }

/-- A storage cell in the East segment. -/
def east (n : Nat) : Cell := { col := 150 + n, row := 23 }

/-- A directory entry of a volume at home in the West segment, charged to account 5. -/
def entryOf (n : Nat) (loc : Location) : Entry :=
  { serial := vol n, home := some (west n), loc := loc, verif := .verified, ring := .present, account := 5, group := 0,
    foreign := false, mounts := 0 }

/-- A CHANNEL record of a slot for the volume of the same number, charged to account 5, with the slot as its correlator. -/
def recOf (n : Nat) (kind : ReqKind) (st : RecState) : Rec :=
  { internalRec n kind (some (vol n)) 0 st with
    origin := .channel, corr := some (BitVec.ofNat 16 n), reqDrive := none, account := 5, template := 3, prio := 1 }

/-- A READY leg from a volume's home cell to a drive. -/
def legTo (n : Nat) (d : Fin 16) (st : LegState) : Leg :=
  { legOf (recOf n .mount .staged) (driveAcc d) (.cell (west n)) (.drive d) with state := st }

/-- The library ONLINE and empty, with both accessors IDLE at their ends of the rail. -/
def idle : State :=
  let s : State := { State.reset with link := { State.reset.link with lib := .online } }
  (s.updAcc .a (fun x => { x with state := .idle })).updAcc .b (fun x => { x with state := .idle })

/-- With some records open. -/
def withRecs (s : State) (l : List Rec) : State := { s with recs := l }

/-- With some volumes in the directory. -/
def withDir (s : State) (l : List Entry) : State := { s with dir := l }

/-- With the outbound queue holding frames in kept and ordinary entries. -/
def withQueue (s : State) (kept ordinary : Nat) : State :=
  let entry : Bool → OutFrame := fun k => { kept := k, frame := replyFrame 5 0 .done .nothing }
  { s with link := { s.link with outq := List.replicate kept (entry true) ++ List.replicate ordinary (entry false) } }

/-- An accessor RUNNING to a stop, with nothing in flight. -/
def running (s : State) (acc : Acc) (column : Nat) (legs : List Nat) (stops : List Stop) : State :=
  s.updAcc acc (fun x => { x with
    state := .running, column := column,
    trip := some { legs := legs, putBacks := [], stops := stops, window := 0, runOut := true } })

/-- An order in flight. -/
def inFlight (s : State) (acc : Acc) (op : OrderOp) (place : Option Place) (timer : Nat) : State :=
  s.updAcc acc (fun x => { x with
    order := some { op := op, col := ((place.map placeColumn).getD x.column), place := place, holder := some 0, timer := timer } })

/-- A prompt of template 3 for a subject, under a number. -/
def promptAs (kind : PromptKind) (block : RaisingBlock) (subject : PromptSubject) (num left timer : Nat) (action : ExpiryAction) :
    Prompt :=
  { num := num, kind := kind, template := 3, block := block, subject := subject, fields := noFields, override := none, initial := 3,
    urgency := 3, left := left, steps := 2, reply := 300, action := action, timer := timer }

/-- With a prompt at the tail of the queue, shown when it is the first. -/
def promptOn (s : State) (p : Prompt) : State :=
  { s with console := { s.console with
    queue := s.console.queue ++ [p], shown := if s.console.queue = [] then some (p.num, p.urgency) else s.console.shown } }

/-- The next state of a command, or the state itself. -/
def after (c : Instr) (s : State) : State :=
  match exec c s with
  | .next t => t
  | _ => s

/-- Whether an accessor's FAULT prompt is owed. -/
def owes (x : FaultPrompt) : Bool :=
  match x with
  | .owed _ => true
  | _ => false

/-- No accessor owes its FAULT prompt. -/
theorem noFaultOwed (s : State) (h : owes (s.acc .a).prompt = false ∧ owes (s.acc .b).prompt = false) :
    ∀ (acc : Acc) (u : Option Nat), (s.acc acc).prompt ≠ .owed u := by
  intro acc u e
  cases acc <;> simp [e, owes] at h

/-! ## Every check of well-formedness refuses an ill-formed command -/

theorem test_wellFormed_urgency_is_a_byte :
    (Instr.mount (.fields { corr := 1, serial := vol 1, path := 0, system := 0, jobClass := 0, urgency := 256, writeIntent := false,
                            pool := none, drive := none, hint := none })).wellFormed = false := by decide

theorem test_wellFormed_requested_pool_is_a_byte :
    (Instr.eject (.fields { corr := 1, serial := vol 1, path := 0, system := 0, jobClass := 0, urgency := 0, writeIntent := false,
                            pool := some 256, drive := none, hint := none })).wellFormed = false := by decide

theorem test_wellFormed_requested_drive_is_a_byte :
    (Instr.enter (.fields { corr := 1, serial := vol 1, path := 0, system := 0, jobClass := 0, urgency := 0, writeIntent := false,
                            pool := none, drive := some 256, hint := none })).wellFormed = false := by decide

theorem test_wellFormed_hint_is_a_byte :
    (Instr.mount (.fields { corr := 1, serial := vol 1, path := 0, system := 0, jobClass := 0, urgency := 0, writeIntent := false,
                            pool := none, drive := none, hint := some 300 })).wellFormed = false := by decide

theorem test_wellFormed_dismount_drive_is_a_byte :
    (Instr.dismount (.fields { corr := 1, drive := 256 })).wellFormed = false := by decide

/-- A BASIC entry with no fields, whose shape no RULE_WRITE body has. -/
def shapeless : RuleEntry := { kind := .basic, fields := [], serial := none, action := .pass1 pass1Initial }

theorem test_wellFormed_rule_slot_is_two_bytes : (Instr.ruleRead 0 65536).wellFormed = false := by decide
theorem test_wellFormed_rule_clear_slot_is_two_bytes : (Instr.ruleClear 0 65536).wellFormed = false := by decide
theorem test_wellFormed_rule_write_slot_is_two_bytes :
    (Instr.ruleWrite 0 65536 (.unknownKind 9)).wellFormed = false := by decide
theorem test_wellFormed_unknown_kind_is_none_of_the_five : (Instr.ruleWrite 0 0 (.unknownKind 4)).wellFormed = false := by decide
theorem test_wellFormed_rule_entry_has_its_shape : (Instr.ruleWrite 0 0 (.entry shapeless)).wellFormed = false := by decide
theorem test_wellFormed_range_source_is_a_byte : (Instr.rangeSet 0 0 256 0 0).wellFormed = false := by decide
theorem test_wellFormed_range_high_is_two_bytes : (Instr.rangeSet 0 0 0 0 65536).wellFormed = false := by decide
theorem test_wellFormed_selector_codes_are_bytes : (Instr.selectorSet 0 0 256 0).wellFormed = false := by decide
theorem test_wellFormed_pass1_group_is_two_bytes :
    (Instr.defaultsSet 0 (.pass1 { pass1Initial with k := 65536 })).wellFormed = false := by decide
theorem test_wellFormed_pass2_pool_is_a_byte :
    (Instr.defaultsSet 0 (.pass2 { pass2Initial with pool := 256 })).wellFormed = false := by decide
theorem test_wellFormed_home_cell_is_two_bytes :
    (Instr.dirPut 0 { serial := vol 1, home := { col := 256, row := 0 }, loc := 0, ring := 0, account := 0, group := 0 }).wellFormed
      = false := by decide
theorem test_wellFormed_put_account_is_a_byte :
    (Instr.dirPut 0 { serial := vol 1, home := west 1, loc := 0, ring := 0, account := 256, group := 0 }).wellFormed = false := by decide
theorem test_wellFormed_query_cell_is_two_bytes : (Instr.dirGet 0 (.byCell { col := 1, row := 256 })).wellFormed = false := by decide
theorem test_wellFormed_clean_uses_are_a_byte :
    (Instr.cleanListSet 0 (Vector.replicate 4 (some (vol 1, 256)))).wellFormed = false := by decide
theorem test_wellFormed_drive_class_is_a_byte : (Instr.driveSet 0 0 256 0).wellFormed = false := by decide
theorem test_wellFormed_drive_numbers_are_bytes :
    (Instr.driveOffline 0 256).wellFormed = false ∧ (Instr.driveOnline 0 256).wellFormed = false
      ∧ (Instr.driveGet 0 256).wellFormed = false := by decide
theorem test_wellFormed_accessor_limits_are_bytes :
    (Instr.accessorSet 0 0 { gather := 0, pick := 1, place := 1, scan := 1, recover := 256 }).wellFormed = false := by decide
theorem test_wellFormed_accessor_names_are_bytes :
    (Instr.accessorOffline 0 256).wellFormed = false ∧ (Instr.accessorOnline 0 256).wellFormed = false
      ∧ (Instr.accessorRecover 0 256).wellFormed = false ∧ (Instr.accessorGet 0 256).wellFormed = false := by decide
theorem test_wellFormed_audit_operands_are_bytes :
    (Instr.auditStart 0 0 (west 0) (west 1) 256).wellFormed = false ∧ (Instr.auditAbort 0 256).wellFormed = false
      ∧ (Instr.auditGet 0 256).wellFormed = false := by decide
theorem test_wellFormed_template_reply_is_two_bytes :
    (Instr.templateSet 0 0 { kind := 0, urgency := 0, reply := 65536, steps := 0, action := 0 }).wellFormed = false := by decide
theorem test_wellFormed_input_operands_are_bytes : (Instr.inputSet 0 0 0 256).wellFormed = false := by decide
theorem test_wellFormed_thresholds_are_four_bytes : (Instr.accountSet 0 0 4294967296 0).wellFormed = false := by decide
theorem test_wellFormed_account_numbers_are_bytes :
    (Instr.accountRead 0 256).wellFormed = false ∧ (Instr.accountReadClear 0 256).wellFormed = false := by decide
theorem test_wellFormed_prompt_number_is_a_byte : (Instr.replyTimerExpiry 256).wellFormed = false := by decide
theorem test_wellFormed_labels_are_serials :
    (Instr.pickCompletion .a (some { vol 1 with c1 := 0x61 })).wellFormed = false
      ∧ (Instr.scanCompletion .a (.label { vol 1 with c6 := 0x20 })).wellFormed = false := by decide
theorem test_wellFormed_columns_are_of_the_rail :
    (Instr.recoverCompletion .a 200).wellFormed = false ∧ (Instr.parkCompletion .b 200).wellFormed = false
      ∧ (Instr.accessorStatusAnswer .a 200 (Vector.replicate 3 false)).wellFormed = false := by decide
theorem test_wellFormed_answer_line_holds_no_end : (Instr.answerLine [0x31, 0x0D]).wellFormed = false := by decide
theorem test_wellFormed_search_slot_is_a_slot : (Instr.driveReservation (.forRecord 64)).wellFormed = false := by decide

/-! ## Witnesses: power-on, the link and requests -/

def full : State := withQueue idle 4 0

def fullLate : State := { full with link := { full.link with lateTaken := true } }

def inLib (x : LibState) : State := { State.reset with link := { State.reset.link with lib := x } }

/-- The reply to an IDENTIFY, as it might wait in the backlog. -/
def waitingReply : Frame := replyFrame 0x05 9 .done .nothing

theorem witness_FramesDiscardedAndMalformed :
    nothingRaised idle ∧ ready idle ∧ full.link.keptUsed = 4 ∧ full.link.lateTaken = false
    ∧ arrivesAsFrame (Instr.identify 1) = true ∧ fullLate.link.receiveReady = false ∧ fullLate.link.lateTaken = true := by
  decide +kernel

theorem witness_NoticeOperations :
    ready (withQueue idle 3 27) ∧ nothingRaised (withQueue idle 3 27) ∧ ready (withQueue idle 3 28)
    ∧ nothingRaised (withQueue idle 3 28) := by
  decide +kernel

theorem witness_IdentifyReply : ready State.reset := by decide +kernel

theorem witness_LibraryOnlineByState :
    ready (inLib LibState.draining) ∧ (inLib LibState.draining).link.lib = LibState.draining
    ∧ ready (inLib LibState.online) ∧ (inLib LibState.online).link.lib = LibState.online
    ∧ ready (inLib LibState.goingOnline) ∧ (inLib LibState.goingOnline).link.lib = LibState.goingOnline
    ∧ ready State.reset ∧ State.reset.link.lib = LibState.offline ∧ calm State.reset := by
  decide +kernel

theorem witness_LibraryOfflineByState :
    ready (withRecs idle [recOf 1 ReqKind.mount RecState.queued])
    ∧ (withRecs idle [recOf 1 ReqKind.mount RecState.queued]).link.lib = LibState.online ∧ ready idle
    ∧ idle.link.lib = LibState.online ∧ ready (inLib LibState.goingOnline)
    ∧ (inLib LibState.goingOnline).link.lib = LibState.goingOnline ∧ ready (inLib LibState.draining)
    ∧ ((inLib LibState.draining).link.lib = LibState.draining ∨ (inLib LibState.draining).link.lib = LibState.offline)
    ∧ ready State.reset ∧ (State.reset.link.lib = LibState.draining ∨ State.reset.link.lib = LibState.offline)
    ∧ (inLib LibState.draining).link.lib = LibState.draining ∧ (inLib LibState.draining).recs = [] := by
  and_intros <;> decide +kernel

def twoAccepted : List Rec := [recOf 0 .mount .admitted, recOf 2 .enter .queued]

/-- A MOUNT of VOL050 with an urgency, a pool and a hint out of range. -/
def mount5 : ReqFields :=
  { corr := 5, serial := vol 5, path := 7, system := 15, jobClass := 3, urgency := 200, writeIntent := true, pool := some 9,
    drive := some 3, hint := some 128 }

def badSerial5 : ReqFields := { mount5 with serial := { vol 5 with c6 := 0x5B } }

def sameCorr : ReqFields := { mount5 with corr := 2 }

def otherCorr : ReqFields := { mount5 with corr := 200 }

def sameVolume : ReqFields := { mount5 with serial := vol 2 }

/-- Every slot taken. -/
def fullTable : State := withRecs idle ((List.range 64).map (fun n => { recOf n .mount .held with serial := none }))

theorem witness_AdmissionOpensARecord :
    (ReqKind.mount, Instr.mount) ∈ openingRequests ∧ ready (withRecs idle twoAccepted)
    ∧ (withRecs idle twoAccepted).link.lib = LibState.online ∧ serialOk mount5.serial = true
    ∧ (∀ r ∈ (withRecs idle twoAccepted).recs, r.origin = Origin.channel → r.corr ≠ some mount5.corr)
    ∧ (∀ r ∈ (withRecs idle twoAccepted).recs, r.serial ≠ some mount5.serial) ∧ 1 < 64
    ∧ (∀ r ∈ (withRecs idle twoAccepted).recs, r.slot ≠ 1)
    ∧ (∀ m < 1, ∃ r ∈ (withRecs idle twoAccepted).recs, r.slot = m) :=
  ⟨by simp [openingRequests], by and_intros <;> decide +kernel⟩

theorem witness_AdmissionRefusesInOrder :
    (ReqKind.eject, Instr.eject) ∈ openingRequests ∧ ready State.reset ∧ State.reset.link.lib ≠ LibState.online
    ∧ ready idle ∧ idle.link.lib = LibState.online ∧ serialOk badSerial5.serial = false
    ∧ ready (withRecs idle twoAccepted) ∧ (withRecs idle twoAccepted).link.lib = LibState.online
    ∧ serialOk sameCorr.serial = true
    ∧ (∃ r ∈ (withRecs idle twoAccepted).recs, r.origin = Origin.channel ∧ r.corr = some sameCorr.corr)
    ∧ ready fullTable ∧ fullTable.link.lib = LibState.online ∧ serialOk otherCorr.serial = true
    ∧ (∀ r ∈ fullTable.recs, ¬(r.origin = Origin.channel ∧ r.corr = some otherCorr.corr))
    ∧ (∀ n < 64, ∃ r ∈ fullTable.recs, r.slot = n) ∧ serialOk sameVolume.serial = true
    ∧ (∀ r ∈ (withRecs idle twoAccepted).recs, ¬(r.origin = Origin.channel ∧ r.corr = some sameVolume.corr))
    ∧ (∃ n < 64, ∀ r ∈ (withRecs idle twoAccepted).recs, r.slot ≠ n)
    ∧ (∃ r ∈ (withRecs idle twoAccepted).recs, r.serial = some sameVolume.serial) :=
  ⟨by simp [openingRequests], by and_intros <;> decide +kernel⟩

/-- Drive 3 in a state, holding one open record. -/
def mountedOn (r : Rec) (st : DriveState) : State :=
  { withRecs idle [{ r with drive := some 3, driveClass := some .k1 }] with
    drives := idle.drives.set 3 { Drive.initial with state := st, holding := some r.slot, reel := true } }

def onDrive3 (st : RecState) : Rec := { recOf 1 .mount st with drive := some 3, driveClass := some .k1 }

def cleaning3 : Rec := { internalRec 1 .clean none 3 .loading with drive := some 3, driveClass := some .k1 }

/-- The record of slot 1 on drive 3, mounted. -/
def mounted3 : State := mountedOn (recOf 1 .mount .mounted) .mounted

theorem witness_DismountByState :
    ready idle ∧ idle.drives[3].holding = none ∧ ready (mountedOn cleaning3 DriveState.loading)
    ∧ (mountedOn cleaning3 DriveState.loading).drives[3].holding = some 1
    ∧ (mountedOn cleaning3 DriveState.loading).rec? 1 = some cleaning3 ∧ cleaning3.origin = Origin.internal
    ∧ ready (mountedOn (recOf 1 ReqKind.mount RecState.staged) DriveState.reserved)
    ∧ (mountedOn (recOf 1 ReqKind.mount RecState.staged) DriveState.reserved).drives[3].holding = some 1
    ∧ (mountedOn (recOf 1 ReqKind.mount RecState.staged) DriveState.reserved).rec? 1 = some (onDrive3 RecState.staged)
    ∧ (onDrive3 RecState.staged).origin = Origin.channel
    ∧ ((onDrive3 RecState.staged).state = RecState.staged ∨ (onDrive3 RecState.staged).state = RecState.loading)
    ∧ ready mounted3 ∧ mounted3.drives[3].holding = some 1 ∧ mounted3.rec? 1 = some (onDrive3 RecState.mounted)
    ∧ (onDrive3 RecState.mounted).origin = Origin.channel ∧ (onDrive3 RecState.mounted).state = RecState.mounted
    ∧ ready (mountedOn (recOf 1 ReqKind.mount RecState.faultwait) DriveState.faulted)
    ∧ (mountedOn (recOf 1 ReqKind.mount RecState.faultwait) DriveState.faulted).drives[3].holding = some 1
    ∧ (mountedOn (recOf 1 ReqKind.mount RecState.faultwait) DriveState.faulted).rec? 1 = some (onDrive3
      RecState.faultwait)
    ∧ (onDrive3 RecState.faultwait).origin = Origin.channel
    ∧ ((onDrive3 RecState.faultwait).state = RecState.unloading ∨ (onDrive3 RecState.faultwait).state = RecState.stowing ∨
      (onDrive3 RecState.faultwait).state = RecState.faultwait)
    ∧ 16 ≤ 16 := by
  and_intros <;> decide +kernel

def badSerial : Serial := { vol 2 with c1 := 0x40 }

/-- A STAGED record whose leg waits in A's queue. -/
def stagedRec : Rec := { onDrive3 .staged with leg := some (legTo 1 3 .ready) }

def stagedInQueue : State :=
  ({ withRecs idle [stagedRec] with dir := [entryOf 1 .home] } : State).setQueue .a [1]

theorem witness_QueryAnswers :
    ready stagedInQueue ∧ stagedInQueue.byCorrelator 4 = none ∧ stagedInQueue.byCorrelator 1 = some stagedRec
    ∧ serialOk badSerial = false ∧ serialOk (vol 2) = true ∧ stagedInQueue.entry? (vol 2) = none
    ∧ serialOk (vol 1) = true ∧ stagedInQueue.entry? (vol 1) = some (entryOf 1 Location.home)
    ∧ ((∀ l, stagedRec.leg = some l → l.state = .ready ∧ 1 ∈ stagedInQueue.rail.queues.get l.acc)) := by
  decide +kernel

/-! ## Witnesses: waiting records and classification -/

def backedUp : State := { full with link := { full.link with backlog := [waitingReply] } }

def backedUpFree : State :=
  { withQueue idle 3 0 with link := { (withQueue idle 3 0).link with backlog := [waitingReply] } }

def keptReply : OutFrame := { kept := true, frame := waitingReply }

theorem witness_SentFramesAndTheBacklog :
    calm backedUp
    ∧ backedUp.link.outq = { kept := true, frame := replyFrame 5 0 ReplyCode.done Result.nothing } ::
      backedUp.link.outq.tail
    ∧ calm backedUpFree ∧ backedUpFree.link.backlog = [waitingReply] ∧ backedUpFree.link.keptUsed < 4
    ∧ backedUp.link.backlog = [waitingReply] ∧ backedUp.link.keptUsed = 4 ∧ full.link.backlog = [] ∧ calm full := by
  decide +kernel

/-- A MOUNTED record that owes its ending, with one ordinary entry available. -/
def owing : Rec := { recOf 1 .mount .mounted with mountedOwed := true, mountedDrive := some 3 }

def owingState : State := withQueue (withRecs idle [owing]) 0 27

/-- A POSTING record with its usage record built, with two ordinary entries available. -/
def postingUsage : Usage := usageOf (recOf 1 .mount .held) .cancelled (chargeInputs ratesInitial (recOf 1 .mount .held)) Account.initial

def posting : Rec := { recOf 1 .mount .posting with outcome := some .cancelled, usage := some postingUsage }

def postingState : State := withQueue (withRecs idle [recOf 0 .mount .held, posting]) 0 26

theorem witness_WaitingRecordIsServed :
    owingState.oldestWaiting = some owing ∧ owing.needs ≤ owingState.link.available ∧ owing.state ≠ RecState.posting
    ∧ postingState.oldestWaiting = some posting ∧ posting.needs ≤ postingState.link.available
    ∧ posting.state = RecState.posting ∧ posting.mountedOwed = false ∧ posting.usage = some postingUsage
    ∧ posting.notices = [] ∧ nothingRaised postingState
    ∧ (∀ q ∈ postingState.recs, q.waits = true → q.slot = posting.slot) ∧ postingState.link.lib ≠ LibState.draining
    ∧ (∀ (d : Fin 16), postingState.drives[d].returnWait = false ∧ postingState.drives[d].cleanWait = false) := by
  and_intros <;> decide +kernel

theorem witness_LadderStatesBounds :
    1 ≤ ↑1 ∧ 1 ≤ ↑7 ∧ ↑1 ≤ ↑7 ∧ 1 ≤ ↑3 ∧ ↑3 ≤ ↑3 := by
  decide +kernel

/-- Entries that care for nothing. -/
def anyBasic (n : Nat) : RuleEntry :=
  { kind := .basic, fields := List.replicate 7 { value := 0, care := 0 }, serial := none,
    action := .pass1 { pass1Initial with n := n } }

def anyFull : RuleEntry :=
  { kind := .full, fields := List.replicate 18 { value := 0, care := 0 }, serial := some { chars := vol 1, care := 0 },
    action := .pass1 pass1Initial }

def anyRoute : RuleEntry :=
  { kind := .route, fields := List.replicate 6 { value := 0, care := 0 }, serial := none,
    action := .pass2 { pass2Initial with disp := 3, template := 11 } }

def rule8 : StoredRule := ⟨8, anyFull⟩

def rule511 : StoredRule := ⟨511, anyRoute⟩

def ruled : State :=
  { idle with cls := { idle.cls with rules := [⟨3, anyBasic 7⟩, rule8, ⟨200, anyBasic 9⟩, rule511] } }

def basicKey1 : List (BitVec 32) := basicKey (recOf 1 .mount .admitted) 0

theorem witness_LowestStartingSlotWins :
    ruleLaw ruled ∧ winner ruled.cls.rules KeyKind.basic basicKey1 (some (vol 1)) = some (anyBasic 7) := by
  and_intros <;> decide +kernel

def foreign1 : Entry := { entryOf 1 .outside with foreign := true }

theorem witness_FirstFourOverrides :
    Disposition.hold ≠ Disposition.refuse ∧ (ReqKind.eject = ReqKind.eject ∨ ReqKind.eject = ReqKind.enter)
    ∧ (Disposition.stationFirst = Disposition.robot ∨ Disposition.stationFirst = Disposition.stationFirst)
    ∧ (ReqKind.eject = ReqKind.mount ∧ (Disposition.manual = Disposition.robot ∨ Disposition.manual =
      Disposition.stationFirst) ∨ ReqKind.eject = ReqKind.eject ∧ Disposition.manual ≠ Disposition.hold ∧ Disposition.manual ≠
      Disposition.refuse)
    ∧ (entryOf 1 Location.missing).loc = Location.missing
    ∧ (ReqKind.mount = ReqKind.mount ∧ (Disposition.robot = Disposition.robot ∨ Disposition.robot =
      Disposition.stationFirst) ∨ ReqKind.mount = ReqKind.eject ∧ Disposition.robot ≠ Disposition.hold ∧ Disposition.robot ≠
      Disposition.refuse)
    ∧ (entryOf 1 Location.outside).loc = Location.outside ∧ (entryOf 1 Location.home).loc ≠ Location.missing
    ∧ (entryOf 1 Location.home).loc ≠ Location.outside
    ∧ (Disposition.manual = Disposition.manual ∨ Disposition.manual = Disposition.hold)
    ∧ Disposition.robot ≠ Disposition.refuse ∧ foreign1.loc = Location.outside ∧ foreign1.foreign = true
    ∧ (entryOf 1 Location.outside).foreign = false := by
  and_intros <;> decide +kernel

def classifiedAs (b : Budget) (a : Pass2) : Classified :=
  { pass1 := { account := 5, group := 4095, urgency := 7, next := .route }, action := a, verdict := .go .robot false, budget := b }

def lowest2 : Pass2 := { disp := 0, pool := 0, useReq := true, prio := 0, template := 0, exempt := false }

def highest2 : Pass2 := { disp := 0, pool := 7, useReq := false, prio := 3, template := 11, exempt := true }

def asksPool : Rec := { recOf 1 .mount .admitted with reqPool := some 6 }

theorem witness_AcceptanceWritesTheRecord :
    (classifiedAs Budget.limited lowest2).action.useReq = true ∧ asksPool.reqPool = some 6
    ∧ ((classifiedAs Budget.limited highest2).action.useReq = false ∨ asksPool.reqPool = none)
    ∧ (classifiedAs Budget.limited highest2).action.pool ≤ 7
    ∧ ((classifiedAs Budget.limited lowest2).action.useReq = false ∨ (recOf 1 ReqKind.mount RecState.admitted).reqPool =
      none)
    ∧ (classifiedAs Budget.limited lowest2).action.pool ≤ 7 ∧ (classifiedAs Budget.limited highest2).action.prio ≤ 3
    ∧ (classifiedAs Budget.limited highest2).action.template ≤ 11
    ∧ ((classifiedAs Budget.limited lowest2).budget = Budget.limited ∧ Disposition.robot ≠ Disposition.hold ∧
      Disposition.robot ≠ Disposition.refuse ∧ (classifiedAs Budget.limited lowest2).action.exempt = false)
    ∧ (¬((classifiedAs Budget.limited highest2).budget = Budget.limited ∧ Disposition.robot ≠ Disposition.hold ∧
      Disposition.robot ≠ Disposition.refuse ∧ (classifiedAs Budget.limited highest2).action.exempt = false)) := by
  and_intros <;> decide +kernel

/-- One record at the head of the intake. -/
def toClassify : State :=
  let s := withQueue (withRecs idle [recOf 1 .mount .admitted, recOf 2 .enter .admitted]) 3 0
  { s with cls := { s.cls with intake := [1, 2] } }

def toHold : State := { toClassify with cls := { toClassify.cls with default2 := { pass2Initial with disp := 3 } } }

theorem witness_ClassificationTakesTheOldest :
    toClassify.cls.intake = [1, 2] ∧ toClassify.rec? 1 = some (recOf 1 ReqKind.mount RecState.admitted)
    ∧ calm toClassify ∧ toClassify.link.keptUsed < 4
    ∧ (toClassify.classify (recOf 1 ReqKind.mount RecState.admitted)).verdict = Verdict.refuse Refused.byRule
    ∧ toClassify.link.lib ≠ LibState.draining
    ∧ (∀ (d : Fin 16), toClassify.drives[d].returnWait = false ∧ toClassify.drives[d].cleanWait = false)
    ∧ toHold.cls.intake = [1, 2] ∧ toHold.rec? 1 = some (recOf 1 ReqKind.mount RecState.admitted) ∧ calm toHold
    ∧ toHold.link.keptUsed < 4
    ∧ (toHold.classify (recOf 1 ReqKind.mount RecState.admitted)).verdict = Verdict.go Disposition.hold false
    ∧ (acceptFields (toHold.classify (recOf 1 ReqKind.mount RecState.admitted)) Disposition.hold (recOf 1 ReqKind.mount
      RecState.admitted)).disposition = some Disposition.hold
    ∧ toHold.console.queue.length < 16 := by
  and_intros <;> decide +kernel

def wide : RuleEntry := { anyRoute with kind := .routeWide, fields := List.replicate 11 { value := 0, care := 0 } }

def outOfRange : RuleEntry := { anyRoute with action := .pass2 { pass2Initial with template := 12 } }

theorem witness_RuleWriteChecksAndStores :
    ready ruled ∧ (511 < 512 ∨ 512 % kindSize anyRoute.kind ≠ 0 ∨ actionOk anyRoute.action = false)
    ∧ (511 < 511 ∨ 511 % kindSize wide.kind ≠ 0 ∨ actionOk wide.action = false)
    ∧ (511 < 511 ∨ 511 % kindSize outOfRange.kind ≠ 0 ∨ actionOk outOfRange.action = false) ∧ ruleLaw ruled
    ∧ 510 ≤ 511 ∧ 510 % kindSize wide.kind = 0 ∧ actionOk wide.action = true ∧ ruleShapeOk wide = true := by
  and_intros <;> decide +kernel

theorem witness_RuleReadAndClear :
    ready ruled ∧ ruleLaw ruled ∧ 511 < 512 ∧ 511 ≤ 511 ∧ rule511 ∈ ruled.cls.rules ∧ rule511.start ≤ 511
    ∧ 511 < rule511.start + kindSize rule511.entry.kind ∧ 11 ≤ 511 ∧ rule8 ∈ ruled.cls.rules ∧ rule8.start ≤ 11
    ∧ 11 < rule8.start + kindSize rule8.entry.kind ∧ 12 ≤ 511
    ∧ (∀ x ∈ ruled.cls.rules, 12 < x.start ∨ x.start + kindSize x.entry.kind ≤ 12) ∧ 8 ≤ 511 ∧ rule8.start = 8
    ∧ 9 ≤ 511 ∧ (∀ x ∈ ruled.cls.rules, x.start ≠ 9) := by
  and_intros <;> decide +kernel

def widest1 : Pass1 := { acctSrc := 2, n := 127, groupSrc := 0, k := 4095, urgMode := 1, v := 7, next := 4 }

def widest2 : Pass2 := { disp := 4, pool := 7, useReq := true, prio := 3, template := 11, exempt := true }

theorem witness_CheckersSelectorDefaults :
    ready ruled ∧ rangeSourceOfCode 4 = some RangeSource.off ∧ (8 ≤ 8 ∨ rangeSourceOfCode 0 = none)
    ∧ (8 ≤ 0 ∨ rangeSourceOfCode 5 = none) ∧ keyKindOfCode 2 = some KeyKind.full
    ∧ keyKindOfCode 1 = some KeyKind.volume ∧ keyKindOfCode 0 = some KeyKind.basic ∧ kindPass KeyKind.full = 1
    ∧ kindPass KeyKind.volume = 1 ∧ kindPass KeyKind.basic = 1 ∧ (2 < 2 ∨ 2 < 2 ∨ 2 < 3) ∧ pass1Ok widest1 = true
    ∧ pass2Ok widest2 = true := by
  and_intros <;> decide +kernel

/-! ## Witnesses: the directory and the drives -/

def outside2 : Entry := { entryOf 2 .outside with mounts := 65535 }

/-- VOL010 at home, VOL020 outside, VOL030 in drive 3; VOL040 taken from a cell of the East segment. -/
def stocked : State :=
  withDir idle [entryOf 1 .home, outside2, entryOf 3 (.inDrive 3),
    { entryOf 4 (.misplaced (east 4)) with home := some (east 1) }]

def putArgs (n : Nat) (home : Cell) : DirPutArgs :=
  { serial := vol n, home := home, loc := 0, ring := 2, account := 127, group := 255 }

def put5 : DirPutArgs := putArgs 5 { col := 198, row := 23 }

def put5Bad : DirPutArgs := putArgs 5 { col := 99, row := 0 }

def put3 : DirPutArgs := putArgs 3 (west 3)

def put5Taken : DirPutArgs := putArgs 5 (east 4)

def put2 : DirPutArgs := { putArgs 2 (west 2) with loc := 5 }

/-- A directory with 8,192 entries. -/
def fullDir : State := { idle with dir := List.replicate dirCapacity (entryOf 1 .missing) }

theorem witness_DirPutWritesTheEntry :
    ready stocked
    ∧ (¬(serialOk put5Bad.serial = true ∧ cellOk put5Bad.home = true ∧ (put5Bad.loc = 0 ∨ put5Bad.loc = 5) ∧ put5Bad.ring
      ≤ 2 ∧ put5Bad.account < 128))
    ∧ (serialOk put3.serial = true ∧ cellOk put3.home = true ∧ (put3.loc = 0 ∨ put3.loc = 5) ∧ put3.ring ≤ 2 ∧
      put3.account < 128)
    ∧ (∃ (e : Entry), stocked.entry? put3.serial = some e ∧ ((∃ r ∈ stocked.recs, r.serial = some put3.serial) ∨ e.loc ≠
      Location.home ∧ e.loc ≠ Location.outside))
    ∧ ready fullDir
    ∧ (serialOk put5.serial = true ∧ cellOk put5.home = true ∧ (put5.loc = 0 ∨ put5.loc = 5) ∧ put5.ring ≤ 2 ∧
      put5.account < 128)
    ∧ fullDir.entry? put5.serial = none ∧ 8192 ≤ fullDir.dir.length
    ∧ (serialOk put5Taken.serial = true ∧ cellOk put5Taken.home = true ∧ (put5Taken.loc = 0 ∨ put5Taken.loc = 5) ∧
      put5Taken.ring ≤ 2 ∧ put5Taken.account < 128)
    ∧ (¬∃ (e : Entry), stocked.entry? put5Taken.serial = some e ∧ ((∃ r ∈ stocked.recs, r.serial = some put5Taken.serial)
      ∨ e.loc ≠ Location.home ∧ e.loc ≠ Location.outside))
    ∧ (stocked.entry? put5Taken.serial = none → stocked.dir.length < 8192)
    ∧ (∃ e ∈ stocked.dir, e.serial ≠ put5Taken.serial ∧ (e.home = some put5Taken.home ∨ e.loc = Location.misplaced
      put5Taken.home))
    ∧ (¬∃ (e : Entry), stocked.entry? put5.serial = some e ∧ ((∃ r ∈ stocked.recs, r.serial = some put5.serial) ∨ e.loc ≠
      Location.home ∧ e.loc ≠ Location.outside))
    ∧ (¬∃ e ∈ stocked.dir, e.serial ≠ put5.serial ∧ (e.home = some put5.home ∨ e.loc = Location.misplaced put5.home))
    ∧ (stocked.entry? put5.serial = none → stocked.dir.length < 8192)
    ∧ (serialOk put2.serial = true ∧ cellOk put2.home = true ∧ (put2.loc = 0 ∨ put2.loc = 5) ∧ put2.ring ≤ 2 ∧
      put2.account < 128)
    ∧ (¬∃ (e : Entry), stocked.entry? put2.serial = some e ∧ ((∃ r ∈ stocked.recs, r.serial = some put2.serial) ∨ e.loc ≠
      Location.home ∧ e.loc ≠ Location.outside))
    ∧ (¬∃ e ∈ stocked.dir, e.serial ≠ put2.serial ∧ (e.home = some put2.home ∨ e.loc = Location.misplaced put2.home))
    ∧ (stocked.entry? put2.serial = none → stocked.dir.length < 8192) ∧ stocked.entry? put5.serial = none
    ∧ stocked.entry? put2.serial = some outside2 := by
  and_intros <;> decide +kernel

def listed (n : Nat) : Vector (Option (Serial × Nat)) 4 := #v[some (vol n, 50), none, none, some (vol 2, 0)]

def reelListed : State := { stocked with cleanList := #v[none, none, none, some { serial := vol 2, uses := 0 }] }

theorem witness_DirDeleteAndCleanList :
    ready reelListed ∧ (reelListed.entry? (vol 5) = none ∨ serialOk (vol 5) = false)
    ∧ (reelListed.entry? badSerial = none ∨ serialOk badSerial = false)
    ∧ reelListed.entry? (vol 3) = some (entryOf 3 (Location.inDrive 3)) ∧ serialOk (vol 3) = true
    ∧ ((∃ r ∈ reelListed.recs, r.serial = some (vol 3)) ∨ (entryOf 3 (Location.inDrive 3)).loc.mechanism = true ∨ ∃ (i :
      Fin 4) (y : CleanReel), reelListed.cleanList[i] = some y ∧ y.serial = vol 3)
    ∧ reelListed.entry? (vol 2) = some outside2 ∧ serialOk (vol 2) = true
    ∧ ((∃ r ∈ reelListed.recs, r.serial = some (vol 2)) ∨ outside2.loc.mechanism = true ∨ ∃ (i : Fin 4) (y : CleanReel),
      reelListed.cleanList[i] = some y ∧ y.serial = vol 2)
    ∧ reelListed.entry? (vol 1) = some (entryOf 1 Location.home) ∧ serialOk (vol 1) = true
    ∧ (∀ r ∈ reelListed.recs, r.serial ≠ some (vol 1)) ∧ (entryOf 1 Location.home).loc.mechanism = false
    ∧ (∀ (i : Fin 4) (y : CleanReel), reelListed.cleanList[i] = some y → y.serial ≠ vol 1)
    ∧ calm reelListed ∧ (∀ (d : Fin 16), reelListed.drives[d].cleanWait = false) :=
  by and_intros <;> decide +kernel

theorem witness_DirDeleteAndCleanList_lists :
    (¬((∀ (i : Fin 4) (y : Serial × ℕ), (listed 2)[i] = some y → serialOk y.1 = true ∧ ∃ (e : Entry), reelListed.entry?
      y.1 = some e ∧ e.foreign = false) ∧ ∀ (i j : Fin 4) (y z : Serial × ℕ), (listed 2)[i] = some y → (listed 2)[j] = some z →
      y.1 = z.1 → i = j))
    ∧ ((∀ (i : Fin 4) (y : Serial × ℕ), (listed 1)[i] = some y → serialOk y.1 = true ∧ ∃ (e : Entry), reelListed.entry?
      y.1 = some e ∧ e.foreign = false) ∧ ∀ (i j : Fin 4) (y z : Serial × ℕ), (listed 1)[i] = some y → (listed 1)[j] = some z →
      y.1 = z.1 → i = j) :=
  ⟨by intro k; exact absurd (k.2 0 3 _ _ rfl rfl rfl) (by decide),
   by intro i y h; fin_cases i <;> simp [listed] at h <;> subst h <;> exact ⟨by decide, _, rfl, rfl⟩,
   by
    intro i j y z h k e
    fin_cases i <;> fin_cases j <;> simp [listed] at h k <;> subst h <;> subst k <;> first | rfl | exact absurd e (by decide)⟩

def anAudit : Audit :=
  { state := .scanning, first := west 1, last := west 9, yieldClass := 3, cursor := some (west 1), inFlight := false,
    abortPending := false, endedBy := none, skip := [], scanned := 0, verified := 0, missing := 0, misplaced := 0, unreadable := 0 }

def audited : State := { stocked with audits := { a := some anAudit, b := none } }

theorem witness_ReportingOperations :
    ready audited ∧ serialOk (vol 1) = true ∧ audited.entry? (vol 1) = some (entryOf 1 Location.home)
    ∧ (serialOk (vol 9) = false ∨ audited.entry? (vol 9) = none)
    ∧ (serialOk badSerial = false ∨ audited.entry? badSerial = none) ∧ 16 ≤ 16 ∧ accOfCode 1 = some Acc.b ∧ 2 ≤ 2
    ∧ audited.audits.get Acc.b = none ∧ accOfCode 0 = some Acc.a ∧ audited.audits.get Acc.a = some anAudit ∧ 128 ≤ 128 := by
  and_intros <;> decide +kernel

/-! ## Witnesses: drives -/

/-- Drive 3 in a state with nothing in it, the class and pools as set. -/
def driveIn (st : DriveState) (reel : Bool) : State :=
  { idle with drives := idle.drives.set 3 { Drive.initial with state := st, reel := reel, pools := 1 } }

theorem witness_DriveOperations :
    ready (driveIn DriveState.offline false) ∧ driveClassOfCode 3 = some DriveClass.k3
    ∧ calm (driveIn DriveState.offline false)
    ∧ ((driveIn DriveState.offline false).drives[3].state ≠ DriveState.free ∨ (driveIn DriveState.offline
      false).drives[3].due = false ∧ noneQueued (driveIn DriveState.offline false))
    ∧ ready (driveIn DriveState.free false) ∧ driveClassOfCode 1 = some DriveClass.k1
    ∧ calm (driveIn DriveState.free false)
    ∧ ((driveIn DriveState.free false).drives[3].state ≠ DriveState.free ∨ (driveIn DriveState.free false).drives[3].due =
      false ∧ noneQueued (driveIn DriveState.free false))
    ∧ ready idle ∧ (16 ≤ 16 ∨ driveClassOfCode 1 = none) ∧ (16 ≤ 0 ∨ driveClassOfCode 4 = none)
    ∧ (driveIn DriveState.free false).drives[3].state = DriveState.free
    ∧ (driveIn DriveState.free false).cleanPrompt = PromptRef.none ∧ ready (driveIn DriveState.unpolled false)
    ∧ (driveIn DriveState.unpolled false).drives[3].state ≠ DriveState.free
    ∧ ((driveIn DriveState.offline false).drives[3].state = DriveState.offline ∨ (driveIn DriveState.offline
      false).drives[3].state = DriveState.faulted ∧ (driveIn DriveState.offline false).drives[3].reel = false)
    ∧ (driveIn DriveState.offline false).drives[3].due = false ∧ noneQueued (driveIn DriveState.offline false)
    ∧ ready (driveIn DriveState.faulted false)
    ∧ ((driveIn DriveState.faulted false).drives[3].state = DriveState.offline ∨ (driveIn DriveState.faulted
      false).drives[3].state = DriveState.faulted ∧ (driveIn DriveState.faulted false).drives[3].reel = false)
    ∧ calm (driveIn DriveState.faulted false) ∧ (driveIn DriveState.faulted false).drives[3].due = false
    ∧ noneQueued (driveIn DriveState.faulted false) ∧ ready (driveIn DriveState.faulted true)
    ∧ (driveIn DriveState.faulted true).drives[3].state ≠ DriveState.offline
    ∧ (driveIn DriveState.faulted true).drives[3].state ≠ DriveState.free
    ∧ ((driveIn DriveState.faulted true).drives[3].state = DriveState.faulted → (driveIn DriveState.faulted
      true).drives[3].reel = true)
    ∧ 16 ≤ 16 := by
  and_intros <;> decide +kernel

def writing : Rec := { recOf 1 .mount .loading with writeIntent := true }

def writing3 : Rec := { onDrive3 .loading with writeIntent := true }

/-- Drive 3 LOADING the volume of slot 1, at its cleaning interval, with no ordinary entry available. -/
def loading3 : State :=
  let s := withQueue (withDir (mountedOn writing .loading) [entryOf 1 (.inDrive 3), entryOf 2 .home]) 4 28
  { s with acct := { s.acct with rates := { ratesInitial with interval := Vector.replicate 3 1 } } }

def loading3NotDue : State := withDir (mountedOn writing .loading) [entryOf 1 (.inDrive 3), entryOf 2 .home]

theorem witness_LoadedMountsTheRecord :
    idle.drives[3].state ≠ DriveState.loading ∧ loading3.drives[3].state = DriveState.loading
    ∧ loading3.drives[3].holding = some 1 ∧ loading3.rec? 1 = some writing3 ∧ writing3.origin = Origin.channel
    ∧ writing3.kind ≠ ReqKind.clean ∧ writing3.dismountPending = false ∧ calm loading3
    ∧ loading3NotDue.drives[3].state = DriveState.loading ∧ loading3NotDue.drives[3].holding = some 1
    ∧ loading3NotDue.rec? 1 = some writing3 ∧ calm loading3NotDue := by
  and_intros <;> decide +kernel

def unloading3 : State := withDir (mountedOn (recOf 1 .mount .unloading) .unloading) [entryOf 1 (.inDrive 3)]

/-- One whose cell stands in the East segment, and one with no home. -/
def unloadingEast : State :=
  withDir (mountedOn (recOf 1 .mount .unloading) .unloading) [{ entryOf 1 (.inDrive 3) with home := some (east 1) }]

def unloadingReturn : State := mountedOn (internalRec 1 .ret none 3 .unloading) .unloading

def return3 : Rec := { internalRec 1 .ret none 3 .unloading with drive := some 3, driveClass := some .k1 }

theorem witness_UnloadedAndFault :
    calm unloading3 ∧ unloading3.drives[3].state = DriveState.unloading ∧ unloading3.drives[3].holding = some 1
    ∧ unloading3.rec? 1 = some (onDrive3 RecState.unloading) ∧ calm unloadingEast
    ∧ unloadingEast.drives[3].state = DriveState.unloading ∧ unloadingEast.drives[3].holding = some 1
    ∧ unloadingEast.rec? 1 = some (onDrive3 RecState.unloading) ∧ calm unloadingReturn
    ∧ unloadingReturn.drives[3].state = DriveState.unloading ∧ unloadingReturn.drives[3].holding = some 1
    ∧ unloadingReturn.rec? 1 = some return3 ∧ calm idle ∧ idle.drives[3].holding = none ∧ calm mounted3
    ∧ mounted3.drives[3].state = DriveState.mounted ∧ mounted3.drives[3].holding = some 1
    ∧ mounted3.rec? 1 = some (onDrive3 RecState.mounted) ∧ calm (driveIn DriveState.free false)
    ∧ ((driveIn DriveState.free false).drives[3].state = DriveState.free ∨ (driveIn DriveState.free false).drives[3].state
      = DriveState.offline)
    ∧ (driveIn DriveState.free false).cleanPrompt = PromptRef.none ∧ calm (driveIn DriveState.faulted true)
    ∧ (driveIn DriveState.faulted true).drives[3].state = DriveState.faulted
    ∧ unloading3.recHome (onDrive3 .unloading) = some (west 1)
    ∧ unloadingEast.recHome (onDrive3 .unloading) = some (east 1) := by
  and_intros <;> decide +kernel

/-- The online poll under way, and with the table full or a STATUS limit run out. -/
def polling : State := after (.libraryOnline 1) State.reset

def pollingFull : State := { polling with recs := fullTable.recs }

def pollingLate : State :=
  { polling with drives := polling.drives.set 3 { polling.drives[3] with status := some 0 } }

def statusOrder (timer : Nat) : Order := { op := .status, col := 0, place := none, holder := none, timer := timer }

def pollingAccLate : State := polling.updAcc .a (fun x => { x with order := some (statusOrder 0) })

def thirdHeld : Vector Bool 3 := #v[false, false, true]

theorem witness_StatusSettlesThePoll :
    calm polling ∧ polling.drives[3].state = DriveState.unpolled ∧ polling.drives[3].status.isSome = true ∧ 0 < 64
    ∧ (∀ r ∈ polling.recs, r.slot ≠ 0) ∧ (∀ m < 0, ∃ r ∈ polling.recs, r.slot = m) ∧ calm pollingFull
    ∧ pollingFull.drives[3].state = DriveState.unpolled ∧ pollingFull.drives[3].status.isSome = true
    ∧ (∀ k < 64, ∃ r ∈ pollingFull.recs, r.slot = k) ∧ polling.drives[3].due = false ∧ noneQueued polling
    ∧ calm pollingLate ∧ pollingLate.drives[3].state = DriveState.unpolled
    ∧ pollingLate.drives[3].status.isSome = true ∧ pollingLate.drives[3].status = some 0
    ∧ (polling.acc Acc.a).order = some (statusOrder 60) ∧ (statusOrder 60).op = OrderOp.status
    ∧ (polling.acc Acc.a).state = AccState.offline ∧ (∃ (h : Fin 3), thirdHeld[h] = true) ∧ (79 < 80 ∨ 120 ≤ 79)
    ∧ 80 ≤ 119 ∧ 119 ≤ 119 ∧ calm pollingAccLate ∧ (pollingAccLate.acc Acc.a).order = some (statusOrder 0)
    ∧ (statusOrder 0).op = OrderOp.status ∧ (pollingAccLate.acc Acc.a).state = AccState.offline
    ∧ (statusOrder 0).timer = 0 := by
  and_intros <;> decide +kernel

def queued2 : Rec := { recOf 2 .mount .queued with prio := 2 }

/-- Drives 3 and 12 FREE, serving pool 0, and two volumes asked for. -/
def freeDrives : State :=
  let s := withDir (withRecs idle [recOf 1 .mount .queued, queued2])
    [entryOf 1 .home, { entryOf 2 .home with home := some (east 1) }]
  let free : Drive := { Drive.initial with state := .free, pools := 1 }
  { s with drives := (s.drives.set 3 free).set 12 { free with mounts := 2 } }

def noDrives : State := withRecs idle [recOf 1 .mount .queued]

def stationFirst : Rec := { recOf 1 .mount .queued with disposition := some .stationFirst }

theorem witness_ReservationJoinsDriveAndRecord :
    (recOf 1 ReqKind.mount RecState.queued).reqDrive = none
    ∧ freeDrives.chooseDrive (recOf 1 ReqKind.mount RecState.queued) = some 3 ∧ freeDrives.drives[12].due = false
    ∧ freeDrives.chooseRecord 12 = some queued2
    ∧ freeDrives.pickup (recOf 1 ReqKind.mount RecState.queued) = Place.cell (west 1)
    ∧ (recOf 1 ReqKind.mount RecState.queued).disposition ≠ some Disposition.stationFirst
    ∧ (80 ≤ (west 1).col ∧ (west 1).col ≤ 119 ∨ (west 1).col < 80 ∧ ↑7 < 8 ∨ 120 ≤ (west 1).col ∧ 8 ≤ ↑7)
    ∧ (¬(80 ≤ (west 1).col ∧ (west 1).col ≤ 119 ∨ (west 1).col < 80 ∧ ↑8 < 8 ∨ 120 ≤ (west 1).col ∧ 8 ≤ ↑8))
    ∧ freeDrives.pickup stationFirst = Place.cell (west 1) ∧ stationFirst.disposition = some Disposition.stationFirst
    ∧ calm freeDrives ∧ freeDrives.rec? 1 = some (recOf 1 ReqKind.mount RecState.queued)
    ∧ (recOf 1 ReqKind.mount RecState.queued).state = RecState.queued ∧ freeDrives.rec? 2 = some queued2
    ∧ queued2.state = RecState.queued ∧ freeDrives.drives[12].state = DriveState.free ∧ calm noDrives
    ∧ noDrives.rec? 1 = some (recOf 1 ReqKind.mount RecState.queued)
    ∧ noDrives.chooseDrive (recOf 1 ReqKind.mount RecState.queued) = none := by
  and_intros <;> decide +kernel

/-- Drive 3 FREE and due, with a cleaning list. -/
def dueWith (l : Vector (Option CleanReel) 4) : State :=
  { withDir (driveIn .free false) [entryOf 1 .home, entryOf 2 .outside] with
    drives := idle.drives.set 3 { Drive.initial with state := .free, due := true, pools := 1 }, cleanList := l }

def reelOf (n uses : Nat) : Option CleanReel := some { serial := vol n, uses := uses }

def returning3 : State :=
  { idle with drives := idle.drives.set 3 { Drive.initial with state := .unpolled, reel := true, returnWait := true } }

def reel1 : CleanReel := ⟨vol 1, 1⟩

theorem witness_DriveTableSteps :
    calm (dueWith #v[none, reelOf 1 1, reelOf 2 50, none])
    ∧ (dueWith #v[none, reelOf 1 1, reelOf 2 50, none]).freeSlot = some 0
    ∧ (dueWith #v[none, reelOf 1 1, reelOf 2 50, none]).attemptDue 3 = true
    ∧ (dueWith #v[none, reelOf 1 1, reelOf 2 50, none]).cleanPrompt = PromptRef.none
    ∧ (dueWith #v[none, reelOf 1 1, reelOf 2 50, none]).cleanChoice = some reel1
    ∧ calm (dueWith #v[none, reelOf 1 0, reelOf 2 50, none])
    ∧ (dueWith #v[none, reelOf 1 0, reelOf 2 50, none]).freeSlot = some 0
    ∧ (dueWith #v[none, reelOf 1 0, reelOf 2 50, none]).attemptDue 3 = true
    ∧ (dueWith #v[none, reelOf 1 0, reelOf 2 50, none]).cleanPrompt = PromptRef.none
    ∧ (dueWith #v[none, reelOf 1 0, reelOf 2 50, none]).cleanChoice = none
    ∧ (dueWith #v[none, reelOf 1 0, reelOf 2 50, none]).cleanUsesLeft = true
    ∧ calm (dueWith #v[none, reelOf 1 0, none, none]) ∧ (dueWith #v[none, reelOf 1 0, none, none]).freeSlot = some 0
    ∧ (dueWith #v[none, reelOf 1 0, none, none]).attemptDue 3 = true
    ∧ (dueWith #v[none, reelOf 1 0, none, none]).cleanPrompt = PromptRef.none
    ∧ (dueWith #v[none, reelOf 1 0, none, none]).cleanChoice = none
    ∧ (dueWith #v[none, reelOf 1 0, none, none]).cleanUsesLeft = false
    ∧ (dueWith #v[none, reelOf 1 0, none, none]).console.queue.length < 16 ∧ calm idle ∧ idle.freeSlot = some 0
    ∧ idle.attemptDue 3 = false ∧ calm returning3 ∧ returning3.freeSlot = some 0
    ∧ returning3.drives[3].returnWait = true ∧ returning3.drives[3].state ≠ DriveState.faulted
    ∧ idle.drives[3].returnWait = false := by
  and_intros <;> decide +kernel

/-! ## Witnesses: accessors, trips, orders and positions -/

def accIn (st : AccState) : State := idle.updAcc .a (fun x => { x with state := st })

def limits60 : AccessorArgs := { gather := 0, pick := 1, place := 60, scan := 255, recover := 60 }

def noScanLimit : AccessorArgs := { limits60 with scan := 0 }

/-- A STALLED accessor with a reel in hand, one with a RECOVER under way, and an OFFLINE one with a STATUS under way. -/
def stalledHolding : State := (accIn .stalled).updAcc .a (fun x => { x with holders := #v[.empty, .empty, .unknown] })

def recovering : State := inFlight (accIn .stalled) .a .recover none 60

def idleScanning : State := (accIn .idle).updAcc .a (fun x => { x with scan := some (.cell (west 1)) })

def statusUnderWay : State := inFlight (accIn .offline) .a .status none 60

theorem witness_AccessorOperations :
    ready idle ∧ accOfCode 0 = some Acc.a
    ∧ (¬(noScanLimit.pick ≠ 0 ∧ noScanLimit.place ≠ 0 ∧ noScanLimit.scan ≠ 0 ∧ noScanLimit.recover ≠ 0))
    ∧ ready (accIn AccState.waitingZone)
    ∧ (limits60.pick ≠ 0 ∧ limits60.place ≠ 0 ∧ limits60.scan ≠ 0 ∧ limits60.recover ≠ 0)
    ∧ (((accIn AccState.waitingZone).acc Acc.a).state = AccState.gathering ∨ ((accIn AccState.waitingZone).acc
      Acc.a).state = AccState.running ∨ ((accIn AccState.waitingZone).acc Acc.a).state = AccState.waitingZone)
    ∧ ready (accIn AccState.stalled)
    ∧ (((accIn AccState.stalled).acc Acc.a).state = AccState.idle ∨ ((accIn AccState.stalled).acc Acc.a).state =
      AccState.stalled ∨ ((accIn AccState.stalled).acc Acc.a).state = AccState.offline)
    ∧ calm (accIn AccState.stalled) ∧ ready (accIn AccState.offline)
    ∧ ((accIn AccState.offline).acc Acc.a).state = AccState.offline ∧ ready (accIn AccState.idle)
    ∧ ((accIn AccState.idle).acc Acc.a).state = AccState.idle ∧ ((accIn AccState.idle).acc Acc.a).scan = none
    ∧ ((accIn AccState.idle).acc Acc.a).trip = none ∧ ((accIn AccState.idle).acc Acc.a).prompt = FaultPrompt.none
    ∧ calm (accIn AccState.idle) ∧ ready (accIn AccState.gathering)
    ∧ (((accIn AccState.gathering).acc Acc.a).state = AccState.gathering ∨ ((accIn AccState.gathering).acc Acc.a).state =
      AccState.running ∨ ((accIn AccState.gathering).acc Acc.a).state = AccState.waitingZone ∨ ((accIn AccState.gathering).acc
      Acc.a).state = AccState.idle ∧ ((accIn AccState.gathering).acc Acc.a).scan ≠ none ∨ ((accIn AccState.gathering).acc
      Acc.a).state = AccState.stalled ∧ ((¬∀ (h : Fin 3), ((accIn AccState.gathering).acc Acc.a).holders[h] = Holder.empty) ∨ (∃
      (o : Order), ((accIn AccState.gathering).acc Acc.a).order = some o ∧ o.op = OrderOp.recover) ∨ ((accIn
      AccState.gathering).acc Acc.a).todo = some OrderOp.recover))
    ∧ ready idleScanning
    ∧ ((idleScanning.acc Acc.a).state = AccState.gathering ∨ (idleScanning.acc Acc.a).state = AccState.running ∨
      (idleScanning.acc Acc.a).state = AccState.waitingZone ∨ (idleScanning.acc Acc.a).state = AccState.idle ∧ (idleScanning.acc
      Acc.a).scan ≠ none ∨ (idleScanning.acc Acc.a).state = AccState.stalled ∧ ((¬∀ (h : Fin 3), (idleScanning.acc
      Acc.a).holders[h] = Holder.empty) ∨ (∃ (o : Order), (idleScanning.acc Acc.a).order = some o ∧ o.op = OrderOp.recover) ∨
      (idleScanning.acc Acc.a).todo = some OrderOp.recover))
    ∧ ready stalledHolding
    ∧ ((stalledHolding.acc Acc.a).state = AccState.gathering ∨ (stalledHolding.acc Acc.a).state = AccState.running ∨
      (stalledHolding.acc Acc.a).state = AccState.waitingZone ∨ (stalledHolding.acc Acc.a).state = AccState.idle ∧
      (stalledHolding.acc Acc.a).scan ≠ none ∨ (stalledHolding.acc Acc.a).state = AccState.stalled ∧ ((¬∀ (h : Fin 3),
      (stalledHolding.acc Acc.a).holders[h] = Holder.empty) ∨ (∃ (o : Order), (stalledHolding.acc Acc.a).order = some o ∧ o.op =
      OrderOp.recover) ∨ (stalledHolding.acc Acc.a).todo = some OrderOp.recover))
    ∧ ready recovering
    ∧ ((recovering.acc Acc.a).state = AccState.gathering ∨ (recovering.acc Acc.a).state = AccState.running ∨
      (recovering.acc Acc.a).state = AccState.waitingZone ∨ (recovering.acc Acc.a).state = AccState.idle ∧ (recovering.acc
      Acc.a).scan ≠ none ∨ (recovering.acc Acc.a).state = AccState.stalled ∧ ((¬∀ (h : Fin 3), (recovering.acc Acc.a).holders[h]
      = Holder.empty) ∨ (∃ (o : Order), (recovering.acc Acc.a).order = some o ∧ o.op = OrderOp.recover) ∨ (recovering.acc
      Acc.a).todo = some OrderOp.recover))
    ∧ (¬((∃ (o : Order), ((accIn AccState.offline).acc Acc.a).order = some o ∧ o.op = OrderOp.status) ∨ ((accIn
      AccState.offline).acc Acc.a).todo = some OrderOp.status))
    ∧ (¬((∃ (o : Order), ((accIn AccState.offline).acc Acc.a).order = some o ∧ o.op = OrderOp.park) ∨ ((accIn
      AccState.offline).acc Acc.a).todo = some OrderOp.park))
    ∧ ready (accIn AccState.running)
    ∧ (((accIn AccState.running).acc Acc.a).state ≠ AccState.offline ∧ ((accIn AccState.running).acc Acc.a).state ≠
      AccState.idle ∨ ((accIn AccState.running).acc Acc.a).state = AccState.offline ∧ (((∃ (o : Order), ((accIn
      AccState.running).acc Acc.a).order = some o ∧ o.op = OrderOp.status) ∨ ((accIn AccState.running).acc Acc.a).todo = some
      OrderOp.status) ∨ (∃ (o : Order), ((accIn AccState.running).acc Acc.a).order = some o ∧ o.op = OrderOp.park) ∨ ((accIn
      AccState.running).acc Acc.a).todo = some OrderOp.park))
    ∧ ready statusUnderWay
    ∧ ((statusUnderWay.acc Acc.a).state ≠ AccState.offline ∧ (statusUnderWay.acc Acc.a).state ≠ AccState.idle ∨
      (statusUnderWay.acc Acc.a).state = AccState.offline ∧ (((∃ (o : Order), (statusUnderWay.acc Acc.a).order = some o ∧ o.op =
      OrderOp.status) ∨ (statusUnderWay.acc Acc.a).todo = some OrderOp.status) ∨ (∃ (o : Order), (statusUnderWay.acc
      Acc.a).order = some o ∧ o.op = OrderOp.park) ∨ (statusUnderWay.acc Acc.a).todo = some OrderOp.park))
    ∧ ((accIn AccState.stalled).acc Acc.a).state = AccState.stalled
    ∧ ((accIn AccState.stalled).acc Acc.a).order = none
    ∧ ((accIn AccState.stalled).acc Acc.a).prompt = FaultPrompt.none
    ∧ (((accIn AccState.offline).acc Acc.a).state = AccState.idle ∨ ((accIn AccState.offline).acc Acc.a).state =
      AccState.offline)
    ∧ ((recovering.acc Acc.a).state = AccState.gathering ∨ (recovering.acc Acc.a).state = AccState.running ∨
      (recovering.acc Acc.a).state = AccState.waitingZone ∨ (recovering.acc Acc.a).state = AccState.stalled ∧ (recovering.acc
      Acc.a).order ≠ none)
    ∧ accOfCode 1 = some Acc.b ∧ 2 ≤ 2 := by
  and_intros <;> decide +kernel

/-- A STAGED record with a leg from its cell to drive 3, in a leg state. -/
def stagedFor (n : Nat) (prio : Fin 4) (st : LegState) : Rec :=
  { recOf n .mount .staged with drive := some 3, driveClass := some .k1, leg := some { legTo n 3 st with prio := prio } }

def queuedLegs (l : List Nat) : State := (withRecs idle (l.map (fun n => stagedFor n 1 .ready))).setQueue .a l

/-- The same with an audit that holds back the first leg. -/
def heldBackLegs : State :=
  let s := (withRecs idle [stagedFor 1 1 .ready, stagedFor 2 3 .ready]).setQueue .a [1, 2]
  { s with audits := { a := some { anAudit with state := .suspended }, b := none } }

def gathering (runOut : Bool) (legs queue : List Nat) : State :=
  let s := (withRecs idle (legs.map (fun n => stagedFor n 1 .assigned) ++ queue.map (fun n => stagedFor n 1 .ready))).setQueue .a queue
  s.updAcc .a (fun x => { x with
    state := .gathering, trip := some { legs := legs, putBacks := [], stops := [], window := 0, runOut := runOut } })

def gatherTrip (runOut : Bool) (legs : List Nat) : Trip := { legs := legs, putBacks := [], stops := [], window := 0, runOut := runOut }

theorem witness_TripsGatherAndStart :
    (queuedLegs [1, 2]).free Acc.a = true ∧ (queuedLegs [1, 2]).rail.queues.get Acc.a = [] ++ [1, 2]
    ∧ (∀ m ∈ [], (queuedLegs [1, 2]).eligible Acc.a m = false) ∧ (queuedLegs [1, 2]).eligible Acc.a 1 = true
    ∧ heldBackLegs.free Acc.a = true ∧ heldBackLegs.rail.queues.get Acc.a = [1] ++ [2]
    ∧ (∀ m ∈ [1], heldBackLegs.eligible Acc.a m = false) ∧ heldBackLegs.eligible Acc.a 2 = true
    ∧ ((accIn AccState.running).free Acc.a = false ∨ ∀ m ∈ (accIn AccState.running).rail.queues.get Acc.a, (accIn
      AccState.running).eligible Acc.a m = false)
    ∧ (idle.free Acc.a = false ∨ ∀ m ∈ idle.rail.queues.get Acc.a, idle.eligible Acc.a m = false)
    ∧ ((gathering false [4, 5] [1, 2]).acc Acc.a).state = AccState.gathering
    ∧ ((gathering false [4, 5] [1, 2]).acc Acc.a).trip = some (gatherTrip false [4, 5])
    ∧ (gatherTrip false [4, 5]).legs.length < 3 ∧ (gathering false [4, 5] [1, 2]).rail.queues.get Acc.a = [] ++ [1, 2]
    ∧ (∀ m ∈ [], (gathering false [4, 5] [1, 2]).eligible Acc.a m = false)
    ∧ (gathering false [4, 5] [1, 2]).eligible Acc.a 1 = true
    ∧ ((gathering false [4] []).acc Acc.a).state = AccState.gathering
    ∧ ((gathering false [4] []).acc Acc.a).trip = some (gatherTrip false [4]) ∧ (gatherTrip false [4]).window = 0
    ∧ (gatherTrip false [4]).runOut = false ∧ ((gathering true [4] []).acc Acc.a).state = AccState.gathering
    ∧ (gathering true [4] []).rail.quiesce = false
    ∧ ((gathering true [4] []).acc Acc.a).trip = some (gatherTrip true [4]) ∧ (gatherTrip true [4]).legs ≠ []
    ∧ (∀ m ∈ (gatherTrip true [4]).legs, ((gathering true [4] []).leg? m).isSome = true)
    ∧ ((gatherTrip true [4]).runOut = true ∨ 3 ≤ (gatherTrip true [4]).legs.length ∨ ∃ m ∈ (gatherTrip true [4]).legs, ∃
      (l : Leg), (gathering true [4] []).leg? m = some l ∧ l.prio = 3)
    ∧ ((gathering false [4, 1, 2] []).acc Acc.a).state = AccState.gathering
    ∧ (gathering false [4, 1, 2] []).rail.quiesce = false
    ∧ ((gathering false [4, 1, 2] []).acc Acc.a).trip = some (gatherTrip false [4, 1, 2])
    ∧ (gatherTrip false [4, 1, 2]).legs ≠ []
    ∧ (∀ m ∈ (gatherTrip false [4, 1, 2]).legs, ((gathering false [4, 1, 2] []).leg? m).isSome = true)
    ∧ ((gatherTrip false [4, 1, 2]).runOut = true ∨ 3 ≤ (gatherTrip false [4, 1, 2]).legs.length ∨ ∃ m ∈ (gatherTrip false
      [4, 1, 2]).legs, ∃ (l : Leg), (gathering false [4, 1, 2] []).leg? m = some l ∧ l.prio = 3) := by
  and_intros <;> decide +kernel

def pick1 : Stop := ⟨.pick, .record 1⟩

def place1 : Stop := ⟨.place, .record 1⟩

def pickFirst : List Stop := [pick1, place1]

def leg1 : Leg := legTo 1 3 .assigned

/-- A RUNNING at the PICK of a West cell. -/
def atPick : State := running (withRecs idle [stagedFor 1 1 .assigned]) .a 20 [1] pickFirst

def atPickOpen : State := { atPick with rail := { atPick.rail with westOpen := true } }

/-- A RUNNING at the PLACE on shelf position 0. -/
def shelfLeg : Leg :=
  { legTo 1 3 .aboard with holder := some 0, dst := .shelf (some 0), inHand := true }

def atShelf : State :=
  let s := running (withRecs idle [{ stagedFor 1 0 .aboard with leg := some shelfLeg }]) .a 20 [1] [place1]
  s.setShelf 0 (.reserved (.record 1))

def withZone (s : State) (z : Option Acc) (wait : List Acc) : State := { s with rail := { s.rail with zone := z, zoneWait := wait } }

theorem witness_OrdersPassTheirGates :
    (atPick.acc Acc.a).order = none ∧ (atPick.acc Acc.a).todo = none ∧ (atPick.acc Acc.a).state = AccState.running
    ∧ atPick.stops Acc.a = [pick1, place1] ∧ pick1.ref = LegRef.record 1 ∧ atPick.leg? 1 = some leg1
    ∧ (pick1.op = StopOp.place → leg1.dst ≠ Place.shelf none ∧ leg1.dst ≠ Place.station none)
    ∧ (atPick.acc Acc.a).emptyHolder = some 0 ∧ atPick.guardOpen (placeColumn leg1.src) = false
    ∧ (placeColumn leg1.src = 100 → atPick.station.latchOpen = false)
    ∧ (¬(80 ≤ placeColumn leg1.src ∧ placeColumn leg1.src ≤ 119) ∨ atPick.rail.zone = some Acc.a ∨ atPick.rail.zone = none
      ∧ atPick.rail.middleOpen = false)
    ∧ (atShelf.acc Acc.a).order = none ∧ (atShelf.acc Acc.a).todo = none
    ∧ (atShelf.acc Acc.a).state = AccState.running ∧ atShelf.stops Acc.a = [place1] ∧ place1.ref = LegRef.record 1
    ∧ atShelf.leg? 1 = some shelfLeg
    ∧ (place1.op = StopOp.place → shelfLeg.dst ≠ Place.shelf none ∧ shelfLeg.dst ≠ Place.station none)
    ∧ shelfLeg.holder = some 0 ∧ atShelf.guardOpen (placeColumn shelfLeg.dst) = false
    ∧ (placeColumn shelfLeg.dst = 100 → atShelf.station.latchOpen = false)
    ∧ (¬(80 ≤ placeColumn shelfLeg.dst ∧ placeColumn shelfLeg.dst ≤ 119) ∨ atShelf.rail.zone = some Acc.a ∨
      atShelf.rail.zone = none ∧ atShelf.rail.middleOpen = false)
    ∧ (atPickOpen.acc Acc.a).order = none ∧ (atPickOpen.acc Acc.a).todo = none
    ∧ (atPickOpen.acc Acc.a).state = AccState.running ∧ atPickOpen.stops Acc.a = [pick1, place1]
    ∧ atPickOpen.leg? 1 = some leg1 ∧ (atPickOpen.acc Acc.a).emptyHolder = some 0
    ∧ (atPickOpen.guardOpen (placeColumn leg1.src) = true ∨ placeColumn leg1.src = 100 ∧ atPickOpen.station.latchOpen =
      true)
    ∧ ((withZone atShelf (some Acc.b) []).acc Acc.a).order = none
    ∧ ((withZone atShelf (some Acc.b) []).acc Acc.a).todo = none
    ∧ ((withZone atShelf (some Acc.b) []).acc Acc.a).state = AccState.running
    ∧ (withZone atShelf (some Acc.b) []).stops Acc.a = [place1]
    ∧ (withZone atShelf (some Acc.b) []).leg? 1 = some shelfLeg
    ∧ (80 ≤ placeColumn shelfLeg.dst ∧ placeColumn shelfLeg.dst ≤ 119)
    ∧ (withZone atShelf (some Acc.b) []).rail.zone = some (otherAcc Acc.a) := by
  and_intros <;> decide +kernel

/-- A leg that waits for a shelf position, and one that waits for a station position. -/
def toShelf : Rec := { recOf 1 .mount .staged with leg := some { shelfLeg with dst := .shelf none } }

def toStation : Rec := { recOf 1 .mount .staged with leg := some { shelfLeg with dst := .station none } }

def awaitingShelf : State :=
  let s := running (withRecs idle [toShelf]) .a 20 [1] [place1]
  { s with rail := { s.rail with shelfWait := [.record 1], shelf := #v[.holding (vol 7) .a, .empty, .empty, .empty] } }

def awaitingStation : State :=
  let s := running (withRecs idle [toStation]) .a 20 [1] [place1]
  { s with station := { s.station with resWait := [.record 1] } }

def awaitingSupply : State :=
  let s := withRecs idle [recOf 1 .mount .supply]
  { s with station := { s.station with supplyWait := [1] } }

def scanWanted : State :=
  { idle with rail := { idle.rail with scanReqs := [⟨2, .supply⟩] },
              station := { idle.station with pos := idle.station.pos.set 2 { StationPos.initial with
                state := .expecting 1, flow := some .supply, scan := .requested .supply } } }

theorem witness_LockPositionsAndScans :
    (withZone atShelf none [Acc.a]).rail.zoneWait = [Acc.a] ∧ (withZone atShelf none [Acc.a]).rail.zone = none
    ∧ (withZone atShelf none [Acc.a]).rail.middleOpen = false
    ∧ (withZone atShelf (some Acc.b) [Acc.a]).rail.zoneWait = [Acc.a]
    ∧ ((withZone atShelf (some Acc.b) [Acc.a]).rail.zone ≠ none ∨ (withZone atShelf (some Acc.b) [Acc.a]).rail.middleOpen
      = true)
    ∧ awaitingShelf.rail.shelf[1] = ShelfPos.empty
    ∧ (∀ (q : Fin 4), q < 1 → awaitingShelf.rail.shelf[q] ≠ ShelfPos.empty)
    ∧ awaitingShelf.rail.shelfWait = [LegRef.record 1]
    ∧ awaitingShelf.dstOf (LegRef.record 1) = some (Place.shelf none)
    ∧ (idle.rail.shelfWait = [] ∨ ∀ (p : Fin 4), idle.rail.shelf[p] ≠ ShelfPos.empty)
    ∧ awaitingStation.station.pos[0].state = PosState.empty
    ∧ (∀ (q : Fin 8), q < 0 → awaitingStation.station.pos[q].state ≠ PosState.empty)
    ∧ awaitingStation.station.resWait = [LegRef.record 1]
    ∧ awaitingStation.dstOf (LegRef.record 1) = some (Place.station none)
    ∧ awaitingSupply.station.pos[0].state = PosState.empty
    ∧ (∀ (q : Fin 8), q < 0 → awaitingSupply.station.pos[q].state ≠ PosState.empty)
    ∧ awaitingSupply.station.resWait = [] ∧ awaitingSupply.station.supplyWait = [1]
    ∧ awaitingSupply.rec? 1 = some (recOf 1 ReqKind.mount RecState.supply) ∧ awaitingSupply.console.queue.length < 16
    ∧ scanWanted.free Acc.b = true ∧ scanWanted.station.latchOpen = false
    ∧ scanWanted.rail.scanReqs = [{ pos := 2, kind := ScanKind.supply }] ∧ (scanWanted.acc Acc.b).order = none
    ∧ scanWanted.rail.middleOpen = false ∧ (scanWanted.rail.zone = none ∨ scanWanted.rail.zone = some Acc.b)
    ∧ (idle.free Acc.a = false ∨ idle.station.latchOpen = true ∨ idle.rail.scanReqs = []) := by
  and_intros <;> decide +kernel

/-! ## Witnesses: completions, audits, the console and accounting -/

def orderTo (op : OrderOp) (place : Place) (timer : Nat) : Order :=
  { op := op, col := placeColumn place, place := some place, holder := some 0, timer := timer }

def inHandLeg (src dst : Place) : Leg := { legTo 1 3 .assigned with inHand := true, src := src, dst := dst }

def picked (src : Place) : Rec := { stagedFor 1 1 .assigned with leg := some (inHandLeg src (.drive 3)) }

/-- A with the PICK of VOL010 in flight at its home cell, and with one ordinary entry available. -/
def picking : State :=
  let s := running (withDir (withRecs idle [picked (.cell (west 1))]) [entryOf 1 .home, entryOf 2 (.inTransit .a 0)]) .a 20 [1] pickFirst
  withQueue (inFlight s .a (.pick 1) (some (.cell (west 1))) 60) 0 27

/-- A with the PICK of a stow leg in flight at drive 3. -/
def stowed : Rec :=
  { recOf 1 .mount .stowing with drive := some 3, driveClass := some .k1, loaded := true,
                                 leg := some (inHandLeg (.drive 3) (.cell (west 1))) }

def stowPicking : State :=
  let s := running (withDir (mountedOn stowed .awaitingStow) [entryOf 1 (.inDrive 3)]) .a 20 [1] pickFirst
  inFlight s .a (.pick 1) (some (.drive 3)) 60

theorem witness_PickCompletion :
    calm idle ∧ (∀ (o : Order) (m : ℕ), (idle.acc Acc.a).order = some o → o.op ≠ OrderOp.pick m) ∧ calm picking
    ∧ (picking.acc Acc.a).order = some (orderTo (OrderOp.pick 1) (Place.cell (west 1)) 60)
    ∧ (orderTo (OrderOp.pick 1) (Place.cell (west 1)) 60).op = OrderOp.pick 1
    ∧ (orderTo (OrderOp.pick 1) (Place.cell (west 1)) 60).holder = some 0
    ∧ picking.rec? 1 = some (picked (Place.cell (west 1)))
    ∧ (picked (Place.cell (west 1))).leg = some (inHandLeg (Place.cell (west 1)) (Place.drive 3))
    ∧ (inHandLeg (Place.cell (west 1)) (Place.drive 3)).acc = Acc.a
    ∧ (inHandLeg (Place.cell (west 1)) (Place.drive 3)).expected = some (vol 1)
    ∧ (inHandLeg (Place.cell (west 1)) (Place.drive 3)).src = Place.cell (west 1)
    ∧ picking.entry? (vol 1) = some (entryOf 1 Location.home)
    ∧ (entryOf 1 Location.home).verif ≠ Verification.auditPending ∧ calm stowPicking
    ∧ (stowPicking.acc Acc.a).order = some (orderTo (OrderOp.pick 1) (Place.drive 3) 60)
    ∧ (orderTo (OrderOp.pick 1) (Place.drive 3) 60).op = OrderOp.pick 1
    ∧ (orderTo (OrderOp.pick 1) (Place.drive 3) 60).holder = some 0 ∧ stowPicking.rec? 1 = some stowed
    ∧ stowed.leg = some (inHandLeg (Place.drive 3) (Place.cell (west 1)))
    ∧ (inHandLeg (Place.drive 3) (Place.cell (west 1))).acc = Acc.a
    ∧ (inHandLeg (Place.drive 3) (Place.cell (west 1))).expected = some (vol 1)
    ∧ (inHandLeg (Place.drive 3) (Place.cell (west 1))).src = Place.drive 3 ∧ stowed.drive = some 3
    ∧ stowPicking.drives[3].state ≠ DriveState.faulted ∧ stowPicking.drives[3].due = false ∧ noneQueued stowPicking
    ∧ stowPicking.entry? (vol 1) = some (entryOf 1 (Location.inDrive 3))
    ∧ (entryOf 1 (Location.inDrive 3)).verif ≠ Verification.auditPending ∧ picking.link.available < 2 := by
  and_intros <;> first | decide +kernel | (intro o m h; exact absurd h.symm (Option.some_ne_none _))

def aboardLeg (src dst : Place) : Leg := { legTo 1 3 .aboard with inHand := true, holder := some 0, src := src, dst := dst }

def placed (st : RecState) (src dst : Place) : Rec :=
  { recOf 1 .mount st with drive := some 3, driveClass := some .k1, leg := some (aboardLeg src dst) }

/-- A with VOL010 in holder 0 and the PLACE at a place in flight, one ordinary entry available. -/
def placing (st : RecState) (drive : DriveState) (src dst : Place) : State :=
  let s := withDir (mountedOn (placed st src dst) drive) [entryOf 1 (.inTransit .a 0), entryOf 2 .home]
  let s := running s .a 20 [1] [⟨.place, .record 1⟩]
  let s := inFlight s .a (.place (.record 1)) (some dst) 60
  withQueue (s.updAcc .a (fun x => { x with holders := #v[.reel (vol 1), .empty, .empty] })) 0 27

def placingDrive : State := placing .staged .reserved (.cell (west 1)) (.drive 3)

def placingCell : State := placing .returning .free (.cell (west 5)) (.cell (west 1))

def placingHome : State := placing .returning .free (.cell (west 1)) (.cell (west 1))

def inDir1 : Entry := entryOf 1 (.inTransit .a 0)

def placedStaged : Rec := placed .staged (.cell (west 1)) (.drive 3)

def placedReturning : Rec := placed .returning (.cell (west 5)) (.cell (west 1))

def placedHome : Rec := placed .returning (.cell (west 1)) (.cell (west 1))

theorem witness_PlaceCompletion :
    calm idle ∧ (∀ (o : Order) (ref : LegRef), (idle.acc Acc.a).order = some o → o.op ≠ OrderOp.place ref)
    ∧ calm placingDrive
    ∧ (placingDrive.acc Acc.a).order = some (orderTo (OrderOp.place (LegRef.record 1)) (Place.drive 3) 60)
    ∧ (orderTo (OrderOp.place (LegRef.record 1)) (Place.drive 3) 60).op = OrderOp.place (LegRef.record 1)
    ∧ (orderTo (OrderOp.place (LegRef.record 1)) (Place.drive 3) 60).holder = some 0
    ∧ placingDrive.rec? 1 = some placedStaged
    ∧ placedStaged.leg = some (aboardLeg (Place.cell (west 1)) (Place.drive 3))
    ∧ (aboardLeg (Place.cell (west 1)) (Place.drive 3)).acc = Acc.a
    ∧ (placingDrive.acc Acc.a).holders[0] = Holder.reel (vol 1) ∧ placingDrive.entry? (vol 1) = some inDir1
    ∧ (∀ q ∈ placingDrive.recs, q.serial = some (vol 1) → q.slot = 1)
    ∧ (orderTo (OrderOp.place (LegRef.record 1)) (Place.drive 3) 60).place = some (Place.drive 3)
    ∧ placingDrive.drives[3].state = DriveState.reserved ∧ placingDrive.drives[3].holding = some 1 ∧ calm placingCell
    ∧ (placingCell.acc Acc.a).order = some (orderTo (OrderOp.place (LegRef.record 1)) (Place.cell (west 1)) 60)
    ∧ (orderTo (OrderOp.place (LegRef.record 1)) (Place.cell (west 1)) 60).op = OrderOp.place (LegRef.record 1)
    ∧ (orderTo (OrderOp.place (LegRef.record 1)) (Place.cell (west 1)) 60).holder = some 0
    ∧ placingCell.rec? 1 = some placedReturning
    ∧ placedReturning.leg = some (aboardLeg (Place.cell (west 5)) (Place.cell (west 1)))
    ∧ (aboardLeg (Place.cell (west 5)) (Place.cell (west 1))).acc = Acc.a
    ∧ (placingCell.acc Acc.a).holders[0] = Holder.reel (vol 1) ∧ placingCell.entry? (vol 1) = some inDir1
    ∧ (∀ q ∈ placingCell.recs, q.serial = some (vol 1) → q.slot = 1)
    ∧ (orderTo (OrderOp.place (LegRef.record 1)) (Place.cell (west 1)) 60).place = some (Place.cell (west 1))
    ∧ placingCell.link.available < 2
    ∧ (aboardLeg (Place.cell (west 5)) (Place.cell (west 1))).src = Place.cell (west 5) ∧ west 5 ≠ west 1
    ∧ west 5 ∉ (aboardLeg (Place.cell (west 5)) (Place.cell (west 1))).refused ∧ calm placingHome
    ∧ (placingHome.acc Acc.a).order = some (orderTo (OrderOp.place (LegRef.record 1)) (Place.cell (west 1)) 60)
    ∧ placingHome.rec? 1 = some placedHome
    ∧ placedHome.leg = some (aboardLeg (Place.cell (west 1)) (Place.cell (west 1)))
    ∧ (aboardLeg (Place.cell (west 1)) (Place.cell (west 1))).acc = Acc.a
    ∧ (∀ (c0 : Cell), (aboardLeg (Place.cell (west 1)) (Place.cell (west 1))).src = Place.cell c0 → c0 = west 1 ∨ c0 ∈
      (aboardLeg (Place.cell (west 1)) (Place.cell (west 1))).refused) := by
  and_intros <;> first | decide +kernel | (intro o m h; exact absurd h.symm (Option.some_ne_none _)) | (intro c h; exact .inl (Place.cell.inj h).symm)

def scanOrder (place : Place) : Order := { orderTo .scan place 60 with holder := some 0 }

/-- A scanning a cell of its audit, the entry expected there and a pair of another cell to be skipped. -/
def auditNow : Audit := { anAudit with inFlight := true, skip := [(west 1, vol 1), (west 2, vol 2)] }

def auditing : State :=
  let s := withDir { idle with audits := { a := some auditNow, b := none } } [{ entryOf 1 .home with verif := .auditPending }, entryOf 2 .home]
  let s := s.updAcc .a (fun x => { x with scan := some (.cell (west 1)) })
  inFlight s .a .scan (some (.cell (west 1))) 60

def pending1 : Entry := { entryOf 1 .home with verif := .auditPending }

/-- A scanning station position 2, where the record of slot 1 expects its reel. -/
def supplyScan : State :=
  let s := withDir (withRecs idle [recOf 1 .mount .supply]) [entryOf 1 .outside]
  let s := { s with station := { s.station with pos := s.station.pos.set 2 { StationPos.initial with
    state := .expecting 1, flow := some .supply, scan := .inFlight .supply } } }
  let s := s.updAcc .a (fun x => { x with scan := some (.station 2 .supply false) })
  withZone (inFlight s .a .scan (some (.station (some 2))) 60) (some .a) []

def recoverAt (faults : Nat) : State :=
  inFlight ((accIn .stalled).updAcc .a (fun x => { x with
    faults := faults, failed := some { op := .park, was := .running } })) .a .recover none 60

def recoverOrder : Order := { op := .recover, col := 0, place := none, holder := some 0, timer := 60 }

def parking : State := inFlight (accIn .running) .a .park none 60

def parkOrder : Order := { op := .park, col := 0, place := none, holder := some 0, timer := 60 }

theorem witness_ScanRecoverAndPark :
    calm auditing ∧ (auditing.acc Acc.a).order = some (scanOrder (Place.cell (west 1)))
    ∧ (scanOrder (Place.cell (west 1))).op = OrderOp.scan
    ∧ (auditing.acc Acc.a).scan = some (ScanTarget.cell (west 1)) ∧ (auditing.acc Acc.a).state = AccState.idle
    ∧ auditing.audits.get Acc.a = some auditNow ∧ auditNow.state = AuditState.scanning ∧ west 1 ≠ auditNow.last
    ∧ auditNow.abortPending = false ∧ auditing.entry? (vol 1) = some pending1 ∧ pending1.expectedAt (west 1) = true
    ∧ (∀ f ∈ auditing.dir, f.expectedAt (west 1) = true → f = pending1) ∧ calm supplyScan
    ∧ (supplyScan.acc Acc.a).order = some (scanOrder (Place.station (some 2)))
    ∧ (scanOrder (Place.station (some 2))).op = OrderOp.scan
    ∧ (supplyScan.acc Acc.a).scan = some (ScanTarget.station 2 ScanKind.supply false)
    ∧ (supplyScan.acc Acc.a).state = AccState.idle ∧ supplyScan.station.pos[2].state = PosState.expecting 1
    ∧ supplyScan.rec? 1 = some (recOf 1 ReqKind.mount RecState.supply)
    ∧ (recOf 1 ReqKind.mount RecState.supply).serial = some (vol 1)
    ∧ (recOf 1 ReqKind.mount RecState.supply).kind = ReqKind.mount
    ∧ supplyScan.entry? (vol 1) = some (entryOf 1 Location.outside)
    ∧ (∀ (d : Fin 16), supplyScan.drives[d].state ≠ DriveState.free) ∧ calm (recoverAt 1)
    ∧ ((recoverAt 1).acc Acc.a).order = some recoverOrder ∧ recoverOrder.op = OrderOp.recover
    ∧ ((recoverAt 1).acc Acc.a).faults = 1
    ∧ ((recoverAt 1).acc Acc.a).failed = some { op := OrderOp.park, was := AccState.running } ∧ calm (recoverAt 2)
    ∧ ((recoverAt 2).acc Acc.a).order = some recoverOrder ∧ ((recoverAt 2).acc Acc.a).faults ≠ 1 ∧ calm parking
    ∧ (parking.acc Acc.a).order = some parkOrder ∧ parkOrder.op = OrderOp.park ∧ (parking.acc Acc.a).trip = none := by
  and_intros <;> decide +kernel

/-- A with a PLACE in flight whose limit has run out, the reel of slot 1 aboard. -/
def expired (faults timer : Nat) : State :=
  let s := placing .staged .reserved (.cell (west 1)) (.drive 3)
  (s.updAcc .a (fun x => { x with faults := faults, order := some (orderTo (.place (.record 1)) (.drive 3) timer) }))

def expiredOrder (timer : Nat) : Order := orderTo (.place (.record 1)) (.drive 3) timer

theorem witness_MotionLimitExpiry :
    calm (expired 0 1) ∧ ((expired 0 1).acc Acc.a).order = some (expiredOrder 1)
    ∧ ((expiredOrder 1).timer ≠ 0 ∨ (expiredOrder 1).op = OrderOp.status) ∧ calm (expired 0 0)
    ∧ ((expired 0 0).acc Acc.a).order = some (expiredOrder 0) ∧ (expiredOrder 0).timer = 0
    ∧ (expiredOrder 0).op ≠ OrderOp.status ∧ ((expired 0 0).acc Acc.a).faults = 0
    ∧ (expired 0 0).station.supplyWait = [] ∧ (expired 0 0).console.queue.length < 16 ∧ calm (expired 1 0)
    ∧ ((expired 1 0).acc Acc.a).order = some (expiredOrder 0) ∧ ((expired 1 0).acc Acc.a).faults = 1
    ∧ ((expired 1 0).acc Acc.a).scan = none ∧ (expired 1 0).link.available < 2 := by
  and_intros <;> decide +kernel

def auditedBy (x : Audit) : State := { stocked with audits := { a := some x, b := none } }

def otherSide : Cell := east 1

def stockedOffline : State := stocked.updAcc .a (fun x => { x with state := .offline })

/-- The audit of a SUSPENDED and of a SCANNING context, the latter at a West cell. -/
def suspendedAudit : Audit := { anAudit with state := .suspended }

def flyingAudit : Audit := { anAudit with inFlight := true, scanned := 7 }

theorem witness_AuditOperations :
    accOfCode 0 = some Acc.a ∧ ready stocked
    ∧ (¬(cellOk (west 2) = true ∧ cellOk (west 1) = true ∧ cellLe (west 2) (west 1) = true ∧ 3 ≤ 3))
    ∧ ready (auditedBy suspendedAudit)
    ∧ (cellOk (west 1) = true ∧ cellOk (west 9) = true ∧ cellLe (west 1) (west 9) = true ∧ 3 ≤ 3)
    ∧ (∃ (x : Audit), (auditedBy suspendedAudit).audits.get Acc.a = some x ∧ x.state ≠ AuditState.done)
    ∧ ready stockedOffline ∧ (¬∃ (x : Audit), stockedOffline.audits.get Acc.a = some x ∧ x.state ≠ AuditState.done)
    ∧ ((stockedOffline.acc Acc.a).state = AccState.offline ∨ ¬(inReach Acc.a (west 1).col = true ∧ inReach Acc.a (west
      9).col = true))
    ∧ (cellOk (west 1) = true ∧ cellOk otherSide = true ∧ cellLe (west 1) otherSide = true ∧ 3 ≤ 3)
    ∧ (¬∃ (x : Audit), stocked.audits.get Acc.a = some x ∧ x.state ≠ AuditState.done)
    ∧ ((stocked.acc Acc.a).state = AccState.offline ∨ ¬(inReach Acc.a (west 1).col = true ∧ inReach Acc.a otherSide.col =
      true))
    ∧ (stocked.acc Acc.a).state ≠ AccState.offline
    ∧ (inReach Acc.a (west 1).col = true ∧ inReach Acc.a (west 9).col = true) ∧ calm stocked
    ∧ ready (auditedBy flyingAudit) ∧ (auditedBy flyingAudit).audits.get Acc.a = some flyingAudit
    ∧ flyingAudit.state ≠ AuditState.done ∧ flyingAudit.inFlight = true
    ∧ (auditedBy suspendedAudit).audits.get Acc.a = some suspendedAudit ∧ suspendedAudit.state ≠ AuditState.done
    ∧ suspendedAudit.inFlight = false ∧ calm (auditedBy suspendedAudit) ∧ suspendedAudit.state = AuditState.suspended
    ∧ (auditedBy suspendedAudit).free Acc.a = true
    ∧ (auditedBy suspendedAudit).hasYielding Acc.a suspendedAudit.yieldClass = false
    ∧ (auditedBy anAudit).audits.get Acc.a = some anAudit ∧ anAudit.state = AuditState.scanning
    ∧ anAudit.cursor = some (west 1) ∧ (auditedBy anAudit).free Acc.a = true
    ∧ ((auditedBy anAudit).station.latchOpen = true ∨ (auditedBy anAudit).rail.scanReqs = [])
    ∧ (∀ m ∈ (auditedBy anAudit).rail.queues.get Acc.a, (auditedBy anAudit).eligible Acc.a m = false)
    ∧ ((auditedBy anAudit).acc Acc.a).order = none ∧ ((west 1).col < 80 ∨ 120 ≤ (west 1).col)
    ∧ (auditedBy anAudit).guardOpen (west 1).col = false := by
  and_intros <;> decide +kernel

def anInput (i : PanelInput) (x : Input) : State :=
  { idle with console := { idle.console with inputs := idle.console.inputs.set (inputIndex i) x } }

def startingInput : Input := { Input.initial with raw := true, period := true }

def settledInput : Input := { Input.initial with settled := true }

def args0 : TemplateArgs := { kind := 1, urgency := 255, reply := 9, steps := 8, action := 1 }

def args3 : TemplateArgs := { args0 with kind := 3 }

def collect250 : Prompt := promptAs .collect .stationUnit (.slot 1) 250 2 20 .rearm

def ring251 : Prompt := { promptAs .ring .stationUnit (.slot 2) 251 0 1 .fail with urgency := 5 }

/-- Prompts 250 and 251 queued, the second more urgent. -/
def twoPrompts : State :=
  promptOn (promptOn idle collect250) ring251

def attention : State :=
  { twoPrompts with console := { twoPrompts.console with inputs := twoPrompts.console.inputs.set (inputIndex .attention) startingInput } }

theorem witness_TemplatesInputsAndLines :
    ready idle ∧ expiryActionOfCode args0.action = some ExpiryAction.rearm
    ∧ (↑11 < 12 → templateKindOfCode args0.kind = some PromptKind.supply)
    ∧ (↑11 = 12 → PromptKind.supply = PromptKind.collect) ∧ (↑11 = 13 → PromptKind.supply = PromptKind.fault)
    ∧ (↑11 = 14 → PromptKind.supply = PromptKind.cleanSupply) ∧ (↑11 = 15 → PromptKind.supply = PromptKind.approve)
    ∧ expiryActionOfCode args3.action = some ExpiryAction.rearm
    ∧ (↑15 < 12 → templateKindOfCode args3.kind = some PromptKind.approve)
    ∧ (↑15 = 12 → PromptKind.approve = PromptKind.collect) ∧ (↑15 = 13 → PromptKind.approve = PromptKind.fault)
    ∧ (↑15 = 14 → PromptKind.approve = PromptKind.cleanSupply) ∧ (↑15 = 15 → PromptKind.approve = PromptKind.approve)
    ∧ (16 ≤ 16 ∨ expiryActionOfCode args0.action = none ∨ 16 < 12 ∧ templateKindOfCode args0.kind = none)
    ∧ (16 ≤ 11 ∨ expiryActionOfCode args3.action = none ∨ 11 < 12 ∧ templateKindOfCode args3.kind = none)
    ∧ ready (anInput PanelInput.quiesce startingInput) ∧ calm (anInput PanelInput.quiesce startingInput)
    ∧ inputOfCode 4 = some PanelInput.quiesce ∧ polarityOfCode 0 = some true ∧ 7 ≤ 7
    ∧ true = (anInput PanelInput.quiesce startingInput).console.inputs[inputIndex PanelInput.quiesce].activeHigh
    ∧ ((anInput PanelInput.quiesce startingInput).console.inputs[inputIndex PanelInput.quiesce].period = true → 7 ≠ 0)
    ∧ ready (anInput PanelInput.quiesce settledInput) ∧ polarityOfCode 1 = some false ∧ 0 ≤ 7
    ∧ false ≠ (anInput PanelInput.quiesce settledInput).console.inputs[inputIndex PanelInput.quiesce].activeHigh
    ∧ (anInput PanelInput.quiesce settledInput).console.inputs[inputIndex PanelInput.quiesce].settled = ((anInput
      PanelInput.quiesce settledInput).console.inputs[inputIndex PanelInput.quiesce].raw == false)
    ∧ calm (anInput PanelInput.quiesce settledInput) ∧ (inputOfCode 6 = none ∨ polarityOfCode 0 = none ∨ 7 < 0)
    ∧ (inputOfCode 4 = none ∨ polarityOfCode 2 = none ∨ 7 < 0)
    ∧ (inputOfCode 4 = none ∨ polarityOfCode 0 = none ∨ 7 < 8)
    ∧ false ≠ (anInput PanelInput.quiesce startingInput).console.inputs[inputIndex PanelInput.quiesce].raw
    ∧ (anInput PanelInput.quiesce startingInput).console.inputs[inputIndex PanelInput.quiesce].settled = (false ==
      (anInput PanelInput.quiesce startingInput).console.inputs[inputIndex PanelInput.quiesce].activeHigh)
    ∧ true ≠ idle.console.inputs[inputIndex PanelInput.quiesce].raw
    ∧ idle.console.inputs[inputIndex PanelInput.quiesce].settled ≠ (true == idle.console.inputs[inputIndex
      PanelInput.quiesce].activeHigh)
    ∧ idle.console.inputs[inputIndex PanelInput.quiesce].code ≠ 0
    ∧ (anInput PanelInput.guardEast startingInput).console.inputs[inputIndex PanelInput.guardEast].period = true
    ∧ calm (anInput PanelInput.guardEast startingInput)
    ∧ attention.console.inputs[inputIndex PanelInput.attention].period = true ∧ calm attention
    ∧ idle.console.inputs[inputIndex PanelInput.guardEast].period = false
    ∧ attention.console.inputs[inputIndex .attention].raw = attention.console.inputs[inputIndex .attention].activeHigh
    ∧ attention.console.queue = [collect250] ++ ring251 :: [] := by
  and_intros <;> decide +kernel

/-- The lines "7 DECLINE" and "7  DONE", and a line that is no answer. -/
def sevenDecline : List Byte := [0x37] ++ [0x20] ++ [0x44, 0x45, 0x43, 0x4C, 0x49, 0x4E, 0x45]

def sevenDone : List Byte := [0x37] ++ [0x20, 0x20] ++ [0x44, 0x4F, 0x4E, 0x45]

def noAnswer : List Byte := [0x20, 0x37]

def approve7 : Prompt := promptAs .approve .requestTable (.slot 1) 7 0 0 .fail

def fault7 : Prompt := promptAs .fault .railScheduler (.accessor .a) 7 0 5 .rearm

def heldWithPrompt : Rec := { recOf 1 .mount .held with approve := .up 7 }

/-- A HELD record with its APPROVE prompt queued under 7, with one ordinary entry available. -/
def approving : State := withQueue (promptOn (withRecs idle [heldWithPrompt]) approve7) 0 27

def faulting : State := promptOn ((accIn .stalled).updAcc .a (fun x => { x with faults := 1, prompt := .up 7 })) fault7

def expired7 : State := { idle with console := { idle.console with expired := [3, 7] } }

theorem witness_AnswerLines :
    [55] ≠ [] ∧ (∀ b ∈ [55], isDigit b = true) ∧ [32, 32] ≠ [] ∧ (∀ b ∈ [32, 32], b = 32)
    ∧ ([68, 79, 78, 69] = [65, 67, 67, 69, 80, 84] ∧ AnswerWord.done = AnswerWord.accept ∨ [68, 79, 78, 69] = [68, 69, 67,
      76, 73, 78, 69] ∧ AnswerWord.done = AnswerWord.decline ∨ [68, 79, 78, 69] = [68, 79, 78, 69] ∧ AnswerWord.done =
      AnswerWord.done)
    ∧ parseAnswer noAnswer = none ∧ parseAnswer sevenDecline = some (7, AnswerWord.decline)
    ∧ (∀ p ∈ expired7.console.queue, p.num ≠ 7) ∧ parseAnswer sevenDone = some (7, AnswerWord.done)
    ∧ approving.prompt? 7 = some approve7
    ∧ (approve7.kind = PromptKind.approve ∧ AnswerWord.done = AnswerWord.done ∨ approve7.kind = PromptKind.fault ∧
      AnswerWord.done ≠ AnswerWord.done ∨ approve7.kind ≠ PromptKind.approve ∧ approve7.kind ≠ PromptKind.fault ∧
      AnswerWord.done = AnswerWord.accept)
    ∧ approve7.kind = PromptKind.approve ∧ approve7.block = RaisingBlock.requestTable
    ∧ approve7.subject = PromptSubject.slot 1 ∧ approving.rec? 1 = some heldWithPrompt
    ∧ heldWithPrompt.state = RecState.held ∧ AnswerWord.decline = AnswerWord.decline ∧ calm approving
    ∧ nothingOwed approving ∧ approving.link.available < 2 ∧ faulting.prompt? 7 = some fault7
    ∧ fault7.kind = PromptKind.fault ∧ fault7.block = RaisingBlock.railScheduler
    ∧ fault7.subject = PromptSubject.accessor Acc.a ∧ (faulting.acc Acc.a).state = AccState.stalled
    ∧ (faulting.acc Acc.a).order = none ∧ AnswerWord.done = AnswerWord.done ∧ nothingOwed faulting := by
  and_intros <;> first | decide +kernel | (refine noFaultOwed _ ?_; decide +kernel)

def running7 : Prompt := { approve7 with timer := 1 }

def escalating7 : Prompt := { approve7 with left := 1 }

def rearming7 : Prompt := { fault7 with timer := 0 }

def owingFault : State := (accIn .stalled).updAcc .a (fun x => { x with prompt := .owed (some 6) })

def fullPrompts : State :=
  { owingFault with console := { owingFault.console with
    queue := (List.range 16).map (fun n => { fault7 with num := n }), nextNum := 16, shown := some (0, 3) } }

theorem witness_PromptsExpireAndAreRaised :
    (promptOn idle running7).prompt? 7 = some running7 ∧ running7.timer ≠ 0
    ∧ (∀ q ∈ (promptOn idle running7).console.queue, q.num ≠ 8)
    ∧ (promptOn idle escalating7).prompt? 7 = some escalating7 ∧ escalating7.timer = 0 ∧ escalating7.left ≠ 0
    ∧ (promptOn idle rearming7).prompt? 7 = some rearming7 ∧ rearming7.timer = 0 ∧ rearming7.left = 0
    ∧ rearming7.action = ExpiryAction.rearm ∧ calm (promptOn idle rearming7) ∧ approving.prompt? 7 = some approve7
    ∧ approve7.timer = 0 ∧ approve7.left = 0 ∧ approve7.action = ExpiryAction.fail
    ∧ approve7.block = RaisingBlock.requestTable ∧ approve7.subject = PromptSubject.slot 1
    ∧ approving.rec? 1 = some heldWithPrompt ∧ heldWithPrompt.state = RecState.held ∧ calm approving
    ∧ nothingOwed approving ∧ approving.link.available < 2 ∧ (owingFault.acc Acc.a).prompt = FaultPrompt.owed (some 6)
    ∧ owingFault.console.queue.length < 16 ∧ 16 ≤ fullPrompts.console.queue.length := by
  and_intros <;> first | decide +kernel | (refine noFaultOwed _ ?_; decide +kernel)

/-- Account 17 with 98,500 units and thresholds of 100,000 and 120,000, as in the example of section 9.8. -/
def account17 : State :=
  let s := idle.updAccount 17 (fun x => { x with acc := 98500, warn := 100000, limit := 120000 })
  withRecs s [recOf 1 .mount .queued]

def accountAt (b : Budget) (acc : Nat) : State := idle.updAccount 17 (fun x => { x with acc := acc, budget := b })

theorem witness_AccountOperations :
    ready account17 ∧ noneWaits account17 ∧ nothingRaised account17 ∧ (∀ r ∈ account17.recs, r.budgetHeld = false)
    ∧ (Budget.warned = Budget.limited ↔ 98501 ≠ 0 ∧ 98501 ≤ account17.acct.accounts[17].acc)
    ∧ (Budget.warned = Budget.warned ↔ ¬(98501 ≠ 0 ∧ 98501 ≤ account17.acct.accounts[17].acc) ∧ 98500 ≠ 0 ∧ 98500 ≤
      account17.acct.accounts[17].acc)
    ∧ (Budget.limited = Budget.limited ↔ 98500 ≠ 0 ∧ 98500 ≤ account17.acct.accounts[17].acc)
    ∧ (Budget.limited = Budget.warned ↔ ¬(98500 ≠ 0 ∧ 98500 ≤ account17.acct.accounts[17].acc) ∧ 98501 ≠ 0 ∧ 98501 ≤
      account17.acct.accounts[17].acc)
    ∧ ready (accountAt Budget.limited 4294967295) ∧ noneWaits (accountAt Budget.limited 4294967295)
    ∧ nothingRaised (accountAt Budget.limited 4294967295)
    ∧ (∀ r ∈ (accountAt Budget.limited 4294967295).recs, r.budgetHeld = false)
    ∧ (Budget.normal = Budget.limited ↔ 0 ≠ 0 ∧ 0 ≤ (accountAt Budget.limited 4294967295).acct.accounts[17].acc)
    ∧ (Budget.normal = Budget.warned ↔ ¬(0 ≠ 0 ∧ 0 ≤ (accountAt Budget.limited 4294967295).acct.accounts[17].acc) ∧ 0 ≠ 0
      ∧ 0 ≤ (accountAt Budget.limited 4294967295).acct.accounts[17].acc)
    ∧ calm (accountAt Budget.limited 4294967295) ∧ 128 ≤ 128 := by
  and_intros <;> decide +kernel

def atTenths (n : Nat) : State := { parking with acct := { parking.acct with tenths := n, seconds := 4294967295 } }

theorem witness_TimeBaseCounts :
    (atTenths 8).acct.tenths < 9 ∧ 9 ≤ (atTenths 9).acct.tenths := by
  decide +kernel

/-- The record of section 9.8: 3,000 seconds of hold on a K2 drive, and its account just below its warning threshold. -/
def heldLong : Rec :=
  { recOf 1 .mount .held with account := 17, holdSecs := 3000, loaded := true, driveClass := some .k2, writeIntent := true,
                              outcome := some .cancelled }

def postingSoon : State := withRecs account17 [recOf 0 .mount .queued, heldLong]

theorem witness_PostingBuildsTheUsageRecord :
    postingSoon.rec? 1 = some heldLong := by
  decide +kernel

def flagged : State := { idle with link := { idle.link with flags := 0x1FF }, pending := [.linkReset] }

theorem witness_StepRunsFrontCommand :
    flagged.pending = [Instr.linkReset] ∧ idle.pending = [] := by
  decide +kernel

theorem witness_OnlyItsOperationLoadsATable :
    exec Instr.classification toHold = Host.Outcome.next (after Instr.classification toHold) ∧ Instr.classification ≠ .powerOn
    ∧ exec (Instr.selectorSet 3 1 2 1) ruled = Host.Outcome.next (after (Instr.selectorSet 3 1 2 1) ruled)
    ∧ Instr.selectorSet 3 1 2 1 ≠ .powerOn
    ∧ (∀ tag m a, Instr.selectorSet 3 1 2 1 ≠ .templateSet tag m a) ∧ (∀ tag r, Instr.selectorSet 3 1 2 1 ≠ .rateSet tag r) :=
  ⟨rfl, by decide +kernel, rfl, by decide +kernel, nofun, nofun⟩

theorem witness_OnlyTheirCommandsClearAndCount :
    exec Instr.linkReset flagged = Host.Outcome.next (after Instr.linkReset flagged) ∧ Instr.linkReset ≠ Instr.powerOn
    ∧ (∀ (tag : Tag), Instr.linkReset ≠ Instr.noticeSummaryClear tag) ∧ flagged.flagSet NoticeKind.checkError = true
    ∧ Instr.linkReset ≠ Instr.tenthTick ∧ Instr.linkReset ≠ Instr.secondTick :=
  ⟨rfl, by decide +kernel⟩

/-! ## Witnesses: the laws -/

/-- A state of a busy library: rules stored, a record to classify and one QUEUED, an order in flight at the shelf under the zone lock,
two prompts queued, an account over its warning threshold, and the reply of a late frame waiting for a kept entry. -/
def lawful : State :=
  let s := withQueue (withDir (withRecs ruled [recOf 1 .mount .admitted, recOf 2 .mount .queued]) [entryOf 1 .home, entryOf 2 .outside]) 4 3
  let s := withZone (inFlight (accIn .running) .a .scan (some (.shelf (some 0))) 60) (some .a) [.b] |> fun x => { s with rail := x.rail }
  { s with
    cls := { s.cls with intake := [1] },
    link := { s.link with backlog := [waitingReply], lateTaken := true },
    console := { s.console with
      queue := [collect250, ring251], shown := some (251, 5), nextNum := 252, expired := [7] },
    acct := (s.updAccount 17 (fun x => { x with acc := 100000, warn := 100000, limit := 120000, budget := .warned })).acct,
    pending := [.frameSent] }

theorem witness_law_step : ∃ t, step lawful = .next t := ⟨_, rfl⟩

theorem witness_StepKeepsBudgetLaw : budgetLaw lawful ∧ ∃ t, step lawful = .next t :=
  ⟨by unfold budgetLaw; decide +kernel, witness_law_step⟩

theorem witness_StepKeepsDisplayLaw : displayLaw lawful ∧ promptLaw lawful ∧ ∃ t, step lawful = .next t :=
  ⟨.inr ⟨[collect250], ring251, [], rfl, by decide, by decide, rfl⟩, by unfold promptLaw; decide +kernel, witness_law_step⟩

theorem witness_StepKeepsZoneLaw : zoneLaw lawful ∧ (∃ o, (lawful.acc .a).order = some o ∧ 80 ≤ o.col ∧ o.col ≤ 119)
    ∧ ∃ t, step lawful = .next t :=
  ⟨by
    intro acc o h _ _
    cases acc
    · rfl
    · exact absurd h.symm (Option.some_ne_none o), ⟨_, rfl, by decide, by decide⟩, witness_law_step⟩

/-- The two orders of the zone law's second part, B's outside the Middle segment. -/
def bothMoving : State := inFlight lawful .b .scan (some (.cell (east 1))) 60

theorem witness_StepKeepsZoneLaw_two_orders :
    zoneLaw bothMoving ∧ (∃ x, (bothMoving.acc .a).order = some x) ∧ ∃ y, (bothMoving.acc .b).order = some y :=
  ⟨by
    intro acc o h _ hi
    cases acc
    · rfl
    · cases (Option.some.inj (h : some _ = some o))
      exact absurd hi (by decide), ⟨_, rfl⟩, ⟨_, rfl⟩⟩

theorem witness_StepKeepsCapacityLaw : capacityLaw lawful ∧ ∃ t, step lawful = .next t :=
  ⟨by unfold capacityLaw; decide +kernel, witness_law_step⟩

theorem witness_StepKeepsDirectoryLaw : directoryLaw lawful ∧ ∃ t, step lawful = .next t :=
  ⟨⟨by decide +kernel, by
    refine .cons ?_ (.cons (fun _ h => nomatch h) .nil)
    intro f hf
    obtain rfl := List.mem_singleton.1 hf
    refine ⟨by decide, ?_, by decide, ?_⟩
    · intro c h
      cases (Option.some.inj (h : some _ = some c))
      decide
    · intro c _
      rfl⟩, witness_law_step⟩

theorem witness_StepKeepsRecordLaw : recordLaw lawful ∧ ∃ t, step lawful = .next t :=
  ⟨by unfold recordLaw; decide +kernel, witness_law_step⟩

theorem witness_StepKeepsBacklogLaw : recordLaw lawful ∧ capacityLaw lawful ∧ backlogLaw lawful ∧ ∃ t, step lawful = .next t :=
  ⟨by unfold recordLaw; decide +kernel, by unfold capacityLaw; decide +kernel, by unfold backlogLaw; decide +kernel, witness_law_step⟩

theorem witness_StepKeepsTablesInRange :
    ruleLaw lawful ∧ settingsLaw lawful ∧ countLaw lawful ∧ ∃ t, step lawful = .next t :=
  ⟨by unfold ruleLaw; decide +kernel, by unfold settingsLaw; decide +kernel, by unfold countLaw; decide +kernel, witness_law_step⟩

/-- The largest charge, and one of no billable minutes, cut short of the grace by a second. -/
def mostCharged : ChargeInputs :=
  { h := 1048575, grace := 0, rate := 4095, mountFee := 65535, legs := 15, legFee := 255, prompts := 15, promptFee := 4095, w := 1,
    writeFee := 4095, mult := 32 }

def graced : ChargeInputs := { mostCharged with h := 254, grace := 255 }

theorem witness_ChargeIsComputed :
    graced.h ≤ graced.grace ∧ graced.weighted ≤ 16777215 ∧ mostCharged.grace < mostCharged.h ∧ 16777215 < mostCharged.weighted
      ∧ mostCharged.h ≤ 1048575 ∧ mostCharged.rate ≤ 4095 ∧ mostCharged.mountFee ≤ 65535 ∧ mostCharged.legs ≤ 15
      ∧ mostCharged.legFee ≤ 255 ∧ mostCharged.prompts ≤ 15 ∧ mostCharged.promptFee ≤ 4095 ∧ mostCharged.w ≤ 1
      ∧ mostCharged.writeFee ≤ 4095 ∧ mostCharged.mult ≤ 32 := by
  decide +kernel

/-! ## Witnesses: CANCEL, form by form -/

/-- The correlator of slot 1's record. -/
def corr1 : Corr := 1

/-- With no more than one ordinary entry available. -/
def oneEntry (s : State) : State := withQueue s 0 27

/-- What the hypotheses of every form of CANCEL share. -/
abbrev namesRecord (s : State) (r : Rec) : Prop := ready s ∧ calm s ∧ s.byCorrelator corr1 = some r ∧ s.rec? r.slot = some r

def heldOwed : Rec := { recOf 1 .mount .held with approve := .owed }

theorem witness_CancelByState_held :
    namesRecord approving heldWithPrompt ∧ heldWithPrompt.state = .held ∧ heldWithPrompt.approve = .up 7
    ∧ nothingOwed (approving.updRec 1 (fun r => { r with approve := .none }))
    ∧ (approving.prompt? 7).map (·.block) = some .requestTable ∧ approving.link.available < 2
    ∧ namesRecord (oneEntry (withRecs idle [heldOwed])) heldOwed
    ∧ nothingOwed ((oneEntry (withRecs idle [heldOwed])).updRec 1 (fun r => { r with approve := .none })) := by
  and_intros <;> first | decide +kernel | (refine noFaultOwed _ ?_; decide +kernel)

def supplyRec : Rec := recOf 1 .mount .supply

def supply7 : Prompt := promptAs .supply .stationUnit (.slot 1) 7 0 0 .fail

/-- Position 2 expects the record's reel, its scan requested. -/
def expecting2 (prompt : PromptRef) : State :=
  let s := oneEntry (withRecs idle [supplyRec])
  { s with
    station := { s.station with pos := s.station.pos.set 2 { StationPos.initial with
      state := .expecting 1, flow := some .supply, prompt := prompt } } }

def supplyUp : State := promptOn (expecting2 (.up 7)) supply7

def supplyWaits : State := { idle with recs := [supplyRec], station := { idle.station with supplyWait := [1] } }

theorem witness_CancelByState_supply :
    namesRecord supplyUp supplyRec ∧ supplyUp.expecting 1 = some 2 ∧ noClaims supplyUp ∧ supplyUp.link.available < 2
    ∧ nothingOwed (supplyUp.updPos 2 (fun x => { x with prompt := .none }))
    ∧ supplyUp.station.pos[2].prompt = .up 7 ∧ (supplyUp.prompt? 7).map (·.block) = some .stationUnit
    ∧ namesRecord (expecting2 .none) supplyRec ∧ nothingOwed ((expecting2 .none).updPos 2 (fun x => { x with prompt := .none }))
    ∧ namesRecord (oneEntry supplyWaits) supplyRec ∧ (oneEntry supplyWaits).expecting 1 = none := by
  and_intros <;> first | decide +kernel | (refine noFaultOwed _ ?_; decide +kernel)

def queuedRec : Rec := recOf 1 .mount .queued

/-- The reel of slot 1 at position 2 of the station, or on shelf position 1. -/
def atPosition2 (s : State) (flow : Flow) (prompt : PromptRef) : State :=
  { s with
    dir := [entryOf 1 (.atStation 2)],
    station := { s.station with pos := s.station.pos.set 2 { StationPos.initial with
      state := .holding (vol 1), owner := some 1, flow := some flow, prompt := prompt } } }

def onShelf1 (s : State) (home : Option Cell) : State :=
  { s with dir := [{ entryOf 1 (.onShelf 1) with home := home }] }.setShelf 1 (.holding (vol 1) .b)

theorem witness_CancelByState_queued :
    queuedRec.drive = none ∧ queuedRec.leg = none ∧ queuedRec.nextLeg = none
    ∧ namesRecord (oneEntry (withRecs idle [queuedRec])) queuedRec ∧ (oneEntry (withRecs idle [queuedRec])).heldAt 1 = none
    ∧ (oneEntry (withRecs idle [queuedRec])).reelOnShelf queuedRec = none
    ∧ namesRecord (atPosition2 (withRecs idle [queuedRec]) .pickup .none) queuedRec
    ∧ (atPosition2 (withRecs idle [queuedRec]) .pickup .none).heldAt 1 = some 2 ∧ idle.console.queue.length < 16
    ∧ namesRecord (onShelf1 (withRecs idle [queuedRec]) (some (west 1))) queuedRec
    ∧ (onShelf1 (withRecs idle [queuedRec]) (some (west 1))).heldAt 1 = none
    ∧ (onShelf1 (withRecs idle [queuedRec]) (some (west 1))).reelOnShelf queuedRec = some (1, .b)
    ∧ (onShelf1 (withRecs idle [queuedRec]) (some (west 1))).recHome queuedRec = some (west 1)
    ∧ namesRecord (onShelf1 (withRecs idle [queuedRec]) none) queuedRec
    ∧ (onShelf1 (withRecs idle [queuedRec]) none).recHome queuedRec = none := by
  and_intros <;> decide +kernel

def waitingLeg (src : Place) : Leg := { legTo 1 3 .ready with src := src }

/-- A STAGED record on drive 3 with a leg, and an EJECT, which has no drive. -/
def stagedWith (l : Leg) : Rec := { onDrive3 .staged with leg := some l }

def reserved3 (r : Rec) : State :=
  { withRecs idle [r] with drives := idle.drives.set 3 { Drive.initial with state := .reserved, holding := some 1 } }

def inHand1 : Leg := { legTo 1 3 .aboard with holder := some 0 }

def ejectWith (l : Leg) : Rec := { recOf 1 .eject .staged with leg := some { l with dst := .station none } }

def cellLeg : Leg := waitingLeg (.cell (west 1))

def stationLeg : Leg := waitingLeg (.station (some 2))

def onShelfLeg : Leg := waitingLeg (.shelf (some 1))

theorem witness_CancelByState_staged :
    namesRecord (reserved3 (stagedWith inHand1)) (stagedWith inHand1) ∧ noClaims (reserved3 (stagedWith inHand1))
    ∧ (stagedWith inHand1).drive = some 3 ∧ (reserved3 (stagedWith inHand1)).drives[3].due = false
    ∧ noneQueued (reserved3 (stagedWith inHand1)) ∧ inHand1.onBoard = true
    ∧ namesRecord (oneEntry (reserved3 (stagedWith cellLeg))) (stagedWith cellLeg) ∧ cellLeg.onBoard = false
    ∧ namesRecord (atPosition2 (reserved3 (stagedWith stationLeg)) .pickup .none) (stagedWith stationLeg)
    ∧ (atPosition2 (reserved3 (stagedWith stationLeg)) .pickup .none).station.pos[2].state = .holding (vol 1)
    ∧ namesRecord (onShelf1 (reserved3 (stagedWith onShelfLeg)) (some (west 1))) (stagedWith onShelfLeg)
    ∧ (onShelf1 (reserved3 (stagedWith onShelfLeg)) (some (west 1))).reelOnShelf (stagedWith onShelfLeg) = some (1, .b)
    ∧ namesRecord (withRecs idle [ejectWith inHand1]) (ejectWith inHand1) ∧ (ejectWith inHand1).drive = none
    ∧ namesRecord (oneEntry (withRecs idle [ejectWith cellLeg])) (ejectWith cellLeg) := by
  and_intros <;> decide +kernel

def ringRec : Rec := recOf 1 .mount .ring

def ring7 : Prompt := promptAs .ring .stationUnit (.slot 1) 7 0 0 .fail

def ringing : State := promptOn (atPosition2 (withRecs idle [ringRec]) .ring (.up 7)) ring7

def ringingHomeless : State := { ringing with dir := [{ entryOf 1 (.atStation 2) with home := none }] }

theorem witness_CancelByState_ring_and_drive :
    namesRecord ringing ringRec ∧ ringing.heldAt 1 = some 2 ∧ ringing.station.pos[2].prompt = .up 7
    ∧ (ringing.prompt? 7).map (·.block) = some .stationUnit
    ∧ nothingOwed (ringing.updPos 2 (fun x => { x with prompt := .none })) ∧ ringing.recHome ringRec = some (west 1)
    ∧ namesRecord ringingHomeless ringRec ∧ ringingHomeless.recHome ringRec = none
    ∧ ringingHomeless.console.queue.length ≤ 16
    ∧ nothingOwed (ringingHomeless.updPos 2 (fun x => { x with prompt := .none }))
    ∧ namesRecord (mountedOn (recOf 1 .mount .loading) .loading) (onDrive3 .loading)
    ∧ namesRecord mounted3 (onDrive3 .mounted) ∧ (onDrive3 .mounted).drive = some 3
    ∧ (withRecs idle [recOf 1 .mount .posting]).byCorrelator 1 = some (recOf 1 .mount .posting)
    ∧ (withRecs idle [recOf 1 .mount .posting]).byCorrelator 3 = none := by
  and_intros <;> first | decide +kernel | (refine noFaultOwed _ ?_; decide +kernel)

/-! ## Witnesses: further forms of other statements -/

/-- A POSTING record whose build raised two notices, and which owes its MOUNTED ending too. -/
def postingNotices : Rec :=
  { posting with
    mountedOwed := true, mountedDrive := some 3,
    notices := [{ kind := .budgetWarn, subject := .account 5 }, { kind := .accountSaturated, subject := .account 5 }] }

def postingNoticed : State := withQueue (withRecs idle [recOf 0 .mount .held, postingNotices]) 0 25

theorem witness_WaitingRecordIsServed_notices :
    postingNoticed.oldestWaiting = some postingNotices ∧ postingNotices.needs ≤ postingNoticed.link.available
    ∧ postingNotices.usage = some postingUsage ∧ nothingRaised postingNoticed
    ∧ ∀ q ∈ postingNoticed.recs, q.waits = true → q.slot = 1 := by
  and_intros <;> decide +kernel

/-- The record of slot 1 at the head of the intake, under a pass-2 default. -/
def classifying (kind : ReqKind) (disp : Nat) (dir : List Entry) : State :=
  let s := withDir (withRecs idle [recOf 1 kind .admitted]) dir
  { s with cls := { s.cls with intake := [1], default2 := { pass2Initial with disp := disp } } }

def verdictOf (kind : ReqKind) (s : State) : Verdict × Option Disposition :=
  let c := s.classify (recOf 1 kind .admitted)
  match c.verdict with
  | .go d f => (.go d f, (acceptFields c d (recOf 1 kind .admitted)).disposition)
  | v => (v, none)

def stationFull : State :=
  let s := classifying .enter 0 [entryOf 1 .outside]
  { s with station := { s.station with pos := Vector.replicate 8 { StationPos.initial with state := .holding (vol 9) } } }

theorem witness_ClassificationTakesTheOldest_accepted :
    verdictOf .mount (classifying .mount 0 [entryOf 1 .home]) = (.go .robot false, some .robot)
    ∧ (∀ d : Fin 16, (classifying .mount 0 [entryOf 1 .home]).drives[d].state ≠ .free)
    ∧ verdictOf .eject (classifying .eject 0 [entryOf 1 .home]) = (.go .robot false, some .robot)
    ∧ verdictOf .mount (classifying .mount 1 []) = (.go .manual true, some .manual)
    ∧ (classifying .mount 1 []).station.pos[0].state = .empty
    ∧ verdictOf .enter (classifying .enter 0 [entryOf 1 .outside]) = (.go .robot false, some .robot)
    ∧ verdictOf .enter stationFull = (.go .robot false, some .robot)
    ∧ (∀ p : Fin 8, stationFull.station.pos[p].state ≠ .empty)
    ∧ calm (classifying .eject 0 [entryOf 1 .home]) ∧ calm (classifying .mount 1 []) ∧ calm stationFull := by
  and_intros <;> decide +kernel

/-- Drive 3 in a state, and a record QUEUED for it, or its cleaning due. -/
def wanted3 (st : DriveState) : State := withDir (withRecs (driveIn st false) [queuedRec]) [entryOf 1 .home]

def dueIn (st : DriveState) : State :=
  let s := dueWith #v[none, reelOf 1 1, none, none]
  { s with drives := s.drives.set 3 { s.drives[3] with state := st } }

theorem witness_DriveOperations_searches :
    ready (wanted3 .free) ∧ ((wanted3 .free).chooseRecord 3).isSome = true
    ∧ (({ wanted3 .offline with drives := (wanted3 .free).drives } : State).chooseRecord 3).isSome = true
    ∧ ready (dueIn .free) ∧ (dueIn .free).attemptDue 3 = true ∧ ready (dueIn .offline)
    ∧ (dueIn .offline).drives[3].state = .offline := by
  and_intros <;> decide +kernel

def dueFull : State := { dueIn .free with recs := fullTable.recs }

theorem witness_DriveTableSteps_no_slot :
    calm dueFull ∧ dueFull.attemptDue 3 = true ∧ dueFull.cleanPrompt = .none ∧ dueFull.cleanChoice.isSome = true
    ∧ dueFull.freeSlot = none := by
  and_intros <;> decide +kernel

/-- A STALLED with a trip, and with its FAULT prompt up. -/
def stalledTrip : State :=
  (running (withRecs idle [stagedFor 1 1 .assigned]) .a 20 [1] pickFirst).updAcc .a (fun x => { x with
    state := .stalled, faults := 1, failed := some { op := .pick 1, was := .running } })

def stalledUp : State := promptOn (stalledTrip.updAcc .a (fun x => { x with prompt := .up 7 })) fault7

/-- What the forms of a STALLED accessor share. -/
abbrev mayBeTakenOut (s : State) : Prop :=
  ready s ∧ calm s ∧ (s.acc .a).state = .stalled ∧ (∀ h : Fin 3, (s.acc .a).holders[h] = .empty) ∧ (s.acc .a).order = none
    ∧ (s.acc .a).todo = none ∧ noClaims s
    ∧ ∀ r ∈ s.recs, (r.leg.map (fun l => decide (l.state = .assigned → l.holder = none))).getD true = true

theorem witness_AccessorOperations_stalled :
    mayBeTakenOut stalledTrip ∧ (stalledTrip.acc .a).prompt = .none ∧ nothingOwed stalledTrip
    ∧ mayBeTakenOut stalledUp ∧ (stalledUp.acc .a).prompt = .up 7 ∧ (stalledUp.prompt? 7).map (·.block) = some .railScheduler
    ∧ nothingOwed (stalledUp.updAcc .a (fun x => { x with prompt := .none })) := by
  and_intros <;> first | decide +kernel | (refine noFaultOwed _ ?_; decide +kernel)

/-- The PICK of a stow leg at a FAULTED drive, and that of a RETURN record. -/
def stowFaulted : State :=
  { stowPicking with drives := stowPicking.drives.set 3 { stowPicking.drives[3] with state := .faulted } }

def returnRec : Rec :=
  { return3 with
    state := .stowing, leg := some { legOf return3 .a (.drive 3) (.station none) with state := .assigned, inHand := true } }

def returnPicking : State := { stowPicking with recs := [returnRec] }

/-- The reel of slot 2, at home, is the one a PICK may read instead. -/
def pickingOther : State := { picking with dir := [entryOf 1 .home, entryOf 2 .home] }

theorem witness_PickCompletion_other_reels :
    calm pickingOther ∧ pickingOther.entry? (vol 2) = some (entryOf 2 .home) ∧ (entryOf 2 .home).atRest = true ∧ vol 2 ≠ vol 1
    ∧ (pickingOther.acc .a).state = .running ∧ (pickingOther.acc .a).trip.isSome = true ∧ pickingOther.link.available < 2
    ∧ calm stowFaulted ∧ stowFaulted.drives[3].state = .faulted ∧ stowPicking.entry? (vol 2) = none ∧ noClaims stowPicking
    ∧ calm returnPicking ∧ returnPicking.rec? 1 = some returnRec ∧ returnRec.kind = .ret
    ∧ (returnRec.leg.bind (·.expected)) = none ∧ nearDrive (west 1) 3 = true
    ∧ returnPicking.entry? (vol 1) = some (entryOf 1 (.inDrive 3))
    ∧ (∀ q ∈ returnPicking.recs, q.serial = some (vol 1) → q.slot = 1) := by
  and_intros <;> decide +kernel

/-- The PLACE into drive 3 after it faulted or was cancelled, on the shelf, and at the station. -/
def placingFaulted : State :=
  { placingDrive with drives := placingDrive.drives.set 3 { Drive.initial with state := .faulted } }

def placingFree : State := { placingDrive with drives := placingDrive.drives.set 3 { Drive.initial with state := .free } }

def shelfBound : Rec :=
  { placed .staged (.cell (west 1)) (.shelf (some 2)) with
    nextLeg := some (legOf (recOf 1 .mount .staged) .b (.shelf none) (.drive 12)) }

def placingShelf : State := { placing .staged .reserved (.cell (west 1)) (.shelf (some 2)) with recs := [shelfBound] }

def stationBound (kind : ReqKind) (disp : Option Disposition) : Rec :=
  { placed .staged (.cell (west 1)) (.station (some 4)) with kind := kind, disposition := disp }

def placingStation (kind : ReqKind) (disp : Option Disposition) : State :=
  { placing .staged .reserved (.cell (west 1)) (.station (some 4)) with recs := [stationBound kind disp] }

def puttingBack : State := { inFlight placingHome .a (.place (.putBack .a 0)) (some (.cell (west 1))) 60 with recs := [] }

theorem witness_PlaceCompletion_other_places :
    calm placingFaulted ∧ placingFaulted.rec? 1 = some placedStaged ∧ placingFaulted.drives[3].state = .faulted
    ∧ placingFaulted.drives[3].holding = none ∧ calm placingFree ∧ placingFree.drives[3].state = .free
    ∧ placingFree.cleanPrompt = .none ∧ noClaims placingFree
    ∧ calm placingShelf ∧ placingShelf.rec? 1 = some shelfBound ∧ shelfBound.nextLeg.isSome = true
    ∧ (placingShelf.acc .a).order = some (orderTo (.place (.record 1)) (.shelf (some 2)) 60)
    ∧ calm (placingStation .eject none) ∧ (stationBound .eject none).ringFits false = false
    ∧ (placingStation .eject none).console.queue.length < 16
    ∧ (stationBound .mount (some .stationFirst)).ringFits false = true
    ∧ (placingStation .mount (some .stationFirst)).drives[3].state ≠ .faulted
    ∧ (placingStation .mount (some .stationFirst)).drives[3].due = false ∧ noneQueued (placingStation .mount (some .stationFirst))
    ∧ calm puttingBack ∧ (puttingBack.acc .a).order = some (orderTo (.place (.putBack .a 0)) (.cell (west 1)) 60)
    ∧ (puttingBack.acc .a).holders[0] = .reel (vol 1) := by
  and_intros <;> decide +kernel

/-- An audit whose next cell stands in the Middle segment. -/
def middleAudit : Audit := { anAudit with cursor := some ⟨98, 3⟩, last := ⟨150, 2⟩ }

theorem witness_AuditOperations_middle :
    (auditedBy middleAudit).audits.get .a = some middleAudit ∧ cellOk ⟨98, 3⟩ = true ∧ (auditedBy middleAudit).free .a = true
    ∧ (auditedBy middleAudit).guardOpen 98 = false ∧ (auditedBy middleAudit).rail.zone = none ∧ ready (auditedBy middleAudit)
    ∧ 2 ≤ 2 := by
  and_intros <;> decide +kernel

theorem witness_TemplatesInputsAndLines_settles :
    calm (anInput .quiesce { Input.initial with code := 0 })
    ∧ (anInput .quiesce { Input.initial with code := 0 }).console.inputs[inputIndex .quiesce].settled ≠ (true == true)
    ∧ calm (anInput .quiesce Input.initial) ∧ ready (anInput .quiesce Input.initial)
    ∧ false ≠ Input.initial.activeHigh ∧ Input.initial.settled ≠ (Input.initial.raw == false)
    ∧ startingInput.period = true ∧ startingInput.activeHigh = true := by
  and_intros <;> decide +kernel

/-- The line "7 ACCEPT". -/
def sevenAccept : List Byte := [0x37] ++ [0x20] ++ [0x41, 0x43, 0x43, 0x45, 0x50, 0x54]

def acceptable (loc : Location) : State := withDir approving [entryOf 1 loc]

def collect7 : Prompt := promptAs .collect .stationUnit (.slot 1) 7 0 0 .rearm

def collecting : State := promptOn (atPosition2 (withRecs idle [recOf 1 .eject .collect]) .collect (.up 7)) collect7

def clean7 : Prompt := promptAs .cleanSupply .driveTable (.drive 3) 7 0 0 .rearm

def cleanWanted : State := promptOn { dueWith #v[none, reelOf 1 0, none, none] with cleanPrompt := .up 7 } clean7

theorem witness_AnswerLines_further :
    parseAnswer sevenAccept = some (7, .accept) ∧ calm (acceptable .home) ∧ nothingOwed (acceptable .home)
    ∧ (acceptable .home).entry? (vol 1) = some (entryOf 1 .home) ∧ heldWithPrompt.budgetHeld = false
    ∧ (∀ d : Fin 16, (acceptable .home).drives[d].state ≠ .free)
    ∧ (acceptable .missing).entry? (vol 1) = some (entryOf 1 .missing) ∧ (acceptable .missing).link.available < 2
    ∧ supplyUp.prompt? 7 = some supply7 ∧ (∀ p : Fin 8, supplyUp.station.pos[p].prompt = .up 7 → p = 2) ∧ nothingOwed supplyUp
    ∧ supplyUp.rail.scanReqs = [] ∧ collecting.prompt? 7 = some collect7 ∧ calm collecting ∧ nothingOwed collecting
    ∧ (∀ p : Fin 8, collecting.station.pos[p].prompt = .up 7 → p = 2) ∧ ringing.prompt? 7 = some ring7 ∧ nothingOwed ringing
    ∧ (∀ p : Fin 8, ringing.station.pos[p].prompt = .up 7 → p = 2) ∧ calm ringing
    ∧ cleanWanted.prompt? 7 = some clean7 ∧ calm cleanWanted ∧ nothingOwed { cleanWanted with cleanPrompt := .none }
    ∧ (∀ d : Fin 16, cleanWanted.drives[d].cleanWait = false) := by
  and_intros <;> first | decide +kernel | (refine noFaultOwed _ ?_; decide +kernel)

/-! ## Witnesses: the further forms of the statements on drives, mechanisms, the console and accounts -/

/-- The record of slot 1, its leg, and A's order in flight. -/
def theRec (s : State) : Rec := (s.rec? 1).getD (recOf 1 .mount .queued)

def theLeg (s : State) : Leg := (theRec s).leg.getD (legTo 1 3 .ready)

def theOrder (s : State) : Order := ((s.acc .a).order).getD parkOrder

/-- An OFFLINE accessor with its PARK in flight, before the poll and in it. -/
def parkedOffline : State := inFlight State.reset .a .park none 60

theorem witness_LibraryOnlineByState_polled :
    ready parkedOffline ∧ parkedOffline.link.lib = .offline ∧ calm parkedOffline
    ∧ Device.accessor .a ∈ (after (.libraryOnline 1) parkedOffline).link.poll ∧ (parkedOffline.acc .a).order = some parkOrder
    ∧ Device.accessor .b ∈ (after (.libraryOnline 1) parkedOffline).link.poll ∧ (parkedOffline.acc .b).order = none := by
  and_intros <;> decide +kernel

def constant1 : Pass1 := { widest1 with acctSrc := 0, urgMode := 0, v := 255, next := 3 }

def fromDirectory1 : Pass1 := { widest1 with acctSrc := 1, groupSrc := 1 }

def bySystem1 : Pass1 := { widest1 with groupSrc := 2 }

def hinted : Rec := { recOf 1 .mount .admitted with hint := some 127 }

/-- What pass 1 and pass 2 find for the record in the table `ruled`, and in an empty one. -/
def firstBest (s : State) : Option RuleEntry :=
  winner s.cls.rules .basic (pass1Key .basic hinted (s.entry? (vol 1)) (rangeHits s.cls.checkers hinted)) (some (vol 1))

def secondBest (s : State) : Option RuleEntry :=
  let out := s.classify hinted
  winner s.cls.rules out.pass1.next
    (pass2Key hinted (s.entry? (vol 1)) (rangeHits s.cls.checkers hinted) out.pass1 out.budget s.freePools) (some (vol 1))

theorem witness_AcceptanceWritesTheRecord_sources :
    constant1.acctSrc = 0 ∧ constant1.n ≤ 127 ∧ constant1.groupSrc = 0 ∧ constant1.urgMode = 0 ∧ constant1.next = 3
    ∧ fromDirectory1.acctSrc = 1 ∧ fromDirectory1.groupSrc = 1 ∧ bySystem1.acctSrc = 2 ∧ bySystem1.groupSrc = 2
    ∧ hinted.hint = some 127 ∧ (recOf 1 .mount .admitted).hint = none ∧ widest1.urgMode = 1 ∧ widest1.v ≤ 7 ∧ widest1.next = 4
    ∧ ruled.cls.selMount = .basic ∧ firstBest ruled = some (anyBasic 7) ∧ firstBest idle = none
    ∧ (anyBasic 7).action = .pass1 { pass1Initial with n := 7 } ∧ secondBest ruled = some anyRoute
    ∧ anyRoute.action = .pass2 { pass2Initial with disp := 3, template := 11 } ∧ secondBest idle = none
    ∧ (∀ v, some (entryOf 1 .home) = some v → v.group ≤ 255) ∧ 4095 ≤ 4095 := by
  and_intros <;> decide +kernel

theorem witness_CheckersSelectorDefaults_out_of_range :
    127 < ({ widest1 with n := 128 } : Pass1).n ∧ 2 < ({ widest1 with groupSrc := 3 } : Pass1).groupSrc
    ∧ (widest1.groupSrc = 0 ∧ 4095 < ({ widest1 with k := 4096 } : Pass1).k)
    ∧ (widest1.urgMode = 1 ∧ 7 < ({ widest1 with v := 8 } : Pass1).v) ∧ 4 < ({ widest2 with disp := 5 } : Pass2).disp
    ∧ 11 < ({ widest2 with template := 12 } : Pass2).template := by
  and_intros <;> decide

/-- A GATHERING with one leg, and RUNNING with the PICK of that leg and a put-back at its next stops. -/
def shownStops : List Stop := [⟨.pick, .record 1⟩, ⟨.place, .putBack .a 2⟩]

def shownTrip : State := running (withRecs idle [stagedFor 1 1 .assigned]) .a 20 [1] shownStops

theorem witness_ReportingOperations_trips :
    ready (gathering false [1] []) ∧ ((gathering false [1] []).acc .a).trip.isSome = true
    ∧ ((gathering false [1] []).acc .a).state = .gathering ∧ (idle.acc .a).trip = none
    ∧ ready shownTrip ∧ (shownTrip.acc .a).state ≠ .gathering ∧ (shownTrip.acc .a).trip.map (·.stops) = some shownStops
    ∧ shownStops[0]? = some ⟨.pick, .record 1⟩ ∧ shownStops[1]? = some ⟨.place, .putBack .a 2⟩
    ∧ (withZone idle (some .a) []).rail.zone = some .a ∧ (withZone idle none [.b]).rail.zoneWait[1 - 1]? = some .b := by
  and_intros <;> decide +kernel

/-- Drive 3 in a state with the record of slot 1 on it, VOL010 in it. -/
def onThree (st : DriveState) (rs : RecState) (f : Rec → Rec) : State :=
  (withDir (mountedOn (recOf 1 .mount rs) st) [entryOf 1 (.inDrive 3)]).updRec 1 f

/-- What the forms of a report of drive 3 share. -/
abbrev reports (s : State) (st : DriveState) : Prop :=
  calm s ∧ s.drives[3].state = st ∧ s.drives[3].holding = some 1 ∧ s.rec? 1 = some (theRec s)

def loadingClean : State := onThree .loading .loading (fun r => { r with kind := .clean, origin := .internal, corr := none })

def loadingReturn : State := onThree .loading .loading (fun r => { r with kind := .ret, origin := .internal, corr := none })

def loadingPending : State := onThree .loading .loading (fun r => { r with dismountPending := true })

theorem witness_LoadedMountsTheRecord_further :
    reports loadingClean .loading ∧ (theRec loadingClean).kind = .clean ∧ reports loadingReturn .loading
    ∧ (theRec loadingReturn).kind = .ret ∧ (theRec loadingReturn).origin = .internal ∧ reports loadingPending .loading
    ∧ (theRec loadingPending).dismountPending = true ∧ (idle.drives[3].state ≠ .loading ∨ idle.drives[3].holding = none) := by
  and_intros <;> decide +kernel

def mountedAs (disp : Option Disposition) : State := onThree .mounted .mounted (fun r => { r with disposition := disp })

/-- Drive 3 RESERVED for the record of slot 1 with a leg, or with none. -/
def reservedFor (leg : Option Leg) (disp : Option Disposition) : State :=
  onThree .reserved .staged (fun r => { r with leg := leg, disposition := disp })

def toStationLeg : Leg := aboardLeg (.cell (west 1)) (.station none)

theorem witness_UnloadedAndFault_unloaded :
    reports (onThree .loading .loading id) .loading ∧ reports (mountedAs (some .robot)) .mounted
    ∧ (theRec (mountedAs (some .robot))).kind ≠ .ret ∧ (mountedAs (some .robot)).recHome (theRec (mountedAs (some .robot))) = some (west 1)
    ∧ reports (mountedAs (some .manual)) .mounted ∧ (theRec (mountedAs (some .manual))).disposition = some .manual
    ∧ reports (onThree .faulted .faultwait id) .faulted ∧ (theRec (onThree .faulted .faultwait id)).state = .faultwait
    ∧ reports (onThree .faulted .stowing id) .faulted ∧ (theRec (onThree .faulted .stowing id)).state ≠ .faultwait
    ∧ reports (onThree .awaitingStow .stowing id) .awaitingStow ∧ reports (reservedFor none none) .reserved := by
  and_intros <;> decide +kernel

def pollingReturn : State :=
  { polling with drives := polling.drives.set 3 { polling.drives[3] with returnWait := true } }

theorem witness_UnloadedAndFault_fault :
    reports (onThree .loading .loading id) .loading ∧ reports (onThree .unloading .unloading id) .unloading
    ∧ reports (onThree .awaitingStow .stowing id) .awaitingStow
    ∧ reports (reservedFor none none) .reserved ∧ (∀ l, (theRec (reservedFor none none)).leg = some l → False)
    ∧ reports (reservedFor (some (legTo 1 3 .ready)) none) .reserved ∧ (legTo 1 3 .ready).inHand = false
    ∧ (∀ x : Fin 16, (reservedFor (some (legTo 1 3 .ready)) none).drives[x].state ≠ .free)
    ∧ noClaims (reservedFor (some (legTo 1 3 .ready)) none)
    ∧ reports (reservedFor (some toStationLeg) (some .stationFirst)) .reserved ∧ toStationLeg.inHand = true
    ∧ (theRec (reservedFor (some toStationLeg) (some .stationFirst))).disposition = some .stationFirst
    ∧ toStationLeg.dst = .station none ∧ toStationLeg.diverted = false
    ∧ reports placingDrive .reserved ∧ (theRec placingDrive).disposition ≠ some .stationFirst
    ∧ (placingDrive.acc .a).order.map (·.op) = some (.place (.record 1)) ∧ (theLeg placingDrive).dst = .drive 3
    ∧ reports (reservedFor (some inHand1) none) .reserved ∧ inHand1.state = .aboard
    ∧ ((reservedFor (some inHand1) none).acc .a).order = none ∧ ((reservedFor (some inHand1) none).acc .a).failed = none
    ∧ noClaims (reservedFor (some inHand1) none)
    ∧ calm polling ∧ polling.drives[3].state = .unpolled ∧ polling.drives[3].returnWait = false ∧ polling.cleanPrompt = .none
    ∧ calm pollingReturn ∧ pollingReturn.drives[3].returnWait = true := by
  and_intros <;> decide +kernel

/-- The CLEAN record of drive 3, which is due, and a record that names drive 3. -/
def cleanFor3 : Rec := internalRec 1 .clean (some (vol 1)) 3 .queued

def cleanPinned : Rec := { cleanFor3 with reqDrive := some 3 }

def dueWaiting : State := withRecs (dueIn .free) [cleanPinned]

def named3 : Rec := { recOf 1 .mount .queued with reqDrive := some 3 }

theorem witness_ReservationJoinsDriveAndRecord_pinned :
    named3.reqDrive = some 3 ∧ named3.kind ≠ .clean ∧ (withRecs freeDrives [named3]).chooseDrive named3 = some 3
    ∧ cleanPinned.reqDrive = some 3 ∧ cleanPinned.kind = .clean ∧ dueWaiting.drives[3].due = true
    ∧ dueWaiting.chooseRecord 3 = some cleanPinned ∧ dueWaiting.chooseDrive cleanPinned = some 3 := by
  and_intros <;> decide +kernel

/-! ### PICK and PLACE -/

/-- What the forms of a PICK of the record of slot 1 into A's holder 0 share. -/
abbrev picksOne (s : State) : Prop :=
  calm s ∧ (s.acc .a).order = some (theOrder s) ∧ (theOrder s).op = .pick 1 ∧ (theOrder s).holder = some 0
    ∧ s.rec? 1 = some (theRec s) ∧ (theRec s).leg = some (theLeg s) ∧ (theLeg s).acc = .a ∧ noClaims s
    ∧ ∀ d, (theRec s).drive = some d → findsNothing s d

/-- The same PICK with the reel on shelf position 2, at station position 2, or its entry AUDIT_PENDING before an audit. -/
def pickedFrom (src : Place) (loc : Location) : State :=
  let s := picking.updRec 1 (fun r => { r with leg := r.leg.map (fun l => { l with src := src }) })
  withDir s [entryOf 1 loc, entryOf 2 .home]

def shelfPick : State := (pickedFrom (.shelf (some 2)) (.onShelf 2)).setShelf 2 (.holding (vol 1) .b)

def stationPick : State :=
  (pickedFrom (.station (some 2)) (.atStation 2)).updPos 2 (fun _ => { StationPos.initial with
    state := .holding (vol 1), owner := some 1, flow := some .pickup })

def pendingPick : State :=
  { withDir picking [{ entryOf 1 .home with verif := .auditPending }] with audits := { a := some anAudit, b := none } }

theorem witness_PickCompletion_places :
    picksOne picking ∧ picksOne shelfPick ∧ (theLeg shelfPick).src = .shelf (some 2) ∧ (theLeg shelfPick).expected = some (vol 1)
    ∧ shelfPick.entry? (vol 1) = some (entryOf 1 (.onShelf 2)) ∧ picksOne stationPick
    ∧ (theLeg stationPick).src = .station (some 2) ∧ (theLeg stationPick).expected = some (vol 1)
    ∧ stationPick.entry? (vol 1) = some (entryOf 1 (.atStation 2)) ∧ shelfPick.link.available < 2
    ∧ vol 2 ≠ vol 1 ∧ shelfPick.entry? (vol 2) = some (entryOf 2 .home)
    ∧ (∀ q ∈ shelfPick.recs, q.serial = some (vol 2) → q.slot = 1) ∧ shelfPick.entry? (vol 3) = none
    ∧ picksOne pendingPick ∧ (pendingPick.entry? (vol 1)).map (·.verif) = some .auditPending
    ∧ pendingPick.audits.get .a = some anAudit ∧ picksOne stowPicking ∧ (oneEntry stowPicking).link.available < 2 := by
  and_intros <;> decide +kernel

/-- The PICK of a RETURN record, of a reel whose home stands in the East segment, and with no home. -/
def returnFrom (home : Option Cell) : State := withDir returnPicking [{ entryOf 1 (.inDrive 3) with home := home }]

def returnShelfFull : State :=
  let s := returnFrom (some (east 1))
  { s with rail := { s.rail with shelf := Vector.replicate 4 (.holding (vol 9) .a) } }

theorem witness_PickCompletion_returns :
    picksOne (returnFrom (some (east 1))) ∧ (theLeg (returnFrom (some (east 1)))).src = .drive 3
    ∧ (theRec (returnFrom (some (east 1)))).drive = some 3 ∧ (theLeg (returnFrom (some (east 1)))).expected = none
    ∧ (returnFrom (some (east 1))).rail.shelf[0] = .empty ∧ ¬((east 1).col ≤ 119)
    ∧ picksOne (returnFrom none) ∧ picksOne returnShelfFull
    ∧ (∀ p : Fin 4, returnShelfFull.rail.shelf[p] ≠ .empty) ∧ (returnFrom none).entry? (vol 2) = none
    ∧ (oneEntry (returnFrom none)).link.available < 2 := by
  and_intros <;> decide +kernel

/-- What the forms of a PLACE of VOL010 by the record of slot 1 share. -/
abbrev placesOne (s : State) (dst : Place) : Prop :=
  calm s ∧ (s.acc .a).order = some (orderTo (.place (.record 1)) dst 60) ∧ s.rec? 1 = some (theRec s)
    ∧ (theRec s).leg = some (theLeg s) ∧ (theLeg s).acc = .a ∧ (s.acc .a).holders[0] = .reel (vol 1) ∧ (theLeg s).dst = dst

/-- A RETURNING record that places on the shelf, and one with no home cell. -/
def returningShelf (home : Option Cell) : State :=
  withDir (placing .returning .reserved (.cell (west 1)) (.shelf (some 2))) [{ entryOf 1 (.inTransit .a 0) with home := home }]

/-- A PLACE into a drive that another record has by then. -/
def otherIn (st : DriveState) (rs : RecState) : State :=
  let s := { placingDrive with drives := placingDrive.drives.set 3 { Drive.initial with state := st, holding := some 6, reel := true } }
  { s with recs := s.recs ++ [{ recOf 6 .mount rs with drive := some 3 }] }

def putAtStation : State := { inFlight placingHome .a (.place (.putBack .a 0)) (some (.station (some 4))) 60 with recs := [] }

theorem witness_PlaceCompletion_further :
    placesOne (returningShelf (some (east 1))) (.shelf (some 2)) ∧ (theRec (returningShelf (some (east 1)))).state = .returning
    ∧ (theRec (returningShelf (some (east 1)))).nextLeg = none
    ∧ (returningShelf (some (east 1))).recHome (theRec (returningShelf (some (east 1)))) = some (east 1)
    ∧ placesOne (returningShelf none) (.shelf (some 2)) ∧ (returningShelf none).recHome (theRec (returningShelf none)) = none
    ∧ placesOne (otherIn .mounted .mounted) (.drive 3) ∧ (otherIn .mounted .mounted).drives[3].holding = some 6
    ∧ ((otherIn .mounted .mounted).rec? 6).map (·.state) = some .mounted
    ∧ (otherIn .mounted .mounted).link.enables.getLsbD 7 = false
    ∧ placesOne (otherIn .awaitingStow .stowing) (.drive 3) ∧ (otherIn .awaitingStow .stowing).drives[3].state = .awaitingStow
    ∧ calm putAtStation ∧ (putAtStation.acc .a).order = some (orderTo (.place (.putBack .a 0)) (.station (some 4)) 60)
    ∧ (putAtStation.acc .a).holders[0] = .reel (vol 1) ∧ putAtStation.console.queue.length < 16
    ∧ placesOne (placingStation .mount (some .stationFirst)) (.station (some 4))
    ∧ (theRec (placingStation .mount (some .stationFirst))).serial = some (vol 1)
    ∧ (∀ d, (theRec (placingStation .mount (some .stationFirst))).drive = some d →
        findsNothing (placingStation .mount (some .stationFirst)) d) := by
  and_intros <;> decide +kernel

/-! ### Scans -/

/-- A's order in flight is a SCAN. -/
abbrev scans (s : State) : Prop := calm s ∧ (s.acc .a).order = some (theOrder s) ∧ (theOrder s).op = .scan

def auditAt (f : Audit → Audit) : State := { auditing with audits := auditing.audits.set .a (some (f auditNow)) }

theorem witness_ScanRecoverAndPark_audits :
    scans (auditAt id) ∧ ((auditAt id).acc .a).scan = some (.cell (west 1)) ∧ ((auditAt id).audits.get .a).isSome = true
    ∧ auditNow.state ≠ .done ∧ directoryLaw (auditAt id) ∧ auditNow.abortPending = false ∧ west 1 ≠ auditNow.last
    ∧ (auditAt (fun x => { x with last := west 1 })).audits.get .a = some { auditNow with last := west 1 }
    ∧ scans (auditAt (fun x => { x with last := west 1 })) ∧ directoryLaw (auditAt (fun x => { x with last := west 1 }))
    ∧ scans (auditAt (fun x => { x with abortPending := true })) ∧ directoryLaw (auditAt (fun x => { x with abortPending := true }))
    ∧ ((auditAt (fun x => { x with abortPending := true })).audits.get .a).map (·.abortPending) = some true
    ∧ ((auditAt (fun x => { x with state := .suspending })).audits.get .a).map (·.state) = some .suspending := by
  have h : directoryLaw (auditAt id) :=
    ⟨by decide +kernel, by simp [auditAt, auditing, inFlight, withDir, State.updAcc, entryOf, vol, west, Location.mechanism, Entry.expectedAt]⟩
  and_intros <;> first | decide +kernel | exact h.2

/-- The scan of position 2 for a supply of a kind, with its misses so far, on time or late. -/
def supplyAt (kind : ReqKind) (misses : Nat) (late : Bool) : State :=
  ((oneEntry supplyScan).updRec 1 (fun r => { r with kind := kind })).updPos 2 (fun x => { x with misses := misses })
    |>.updAcc .a (fun x => { x with scan := some (.station 2 .supply late) })

theorem witness_ScanRecoverAndPark_supplies :
    scans (supplyAt .enter 0 false) ∧ ((supplyAt .enter 0 false).acc .a).scan = some (.station 2 .supply false)
    ∧ (supplyAt .enter 0 false).station.pos[2].state = .expecting 1 ∧ (theRec (supplyAt .enter 0 false)).kind = .enter
    ∧ (supplyAt .enter 0 false).entry? (vol 1) = some (entryOf 1 .outside) ∧ (entryOf 1 .outside).home = some (west 1)
    ∧ (theRec (supplyAt .mount 0 false)).serial = some (vol 1) ∧ vol 2 ≠ vol 1
    ∧ (supplyAt .mount 0 false).station.pos[2].misses = 0 ∧ (supplyAt .mount 0 false).console.queue.length < 16
    ∧ scans (supplyAt .mount 1 false) ∧ (supplyAt .mount 1 false).station.pos[2].misses ≠ 0
    ∧ (supplyAt .mount 1 false).station.pos[2].prompt = .none ∧ (supplyAt .mount 1 false).expecting 1 = some 2
    ∧ noClaims (supplyAt .mount 1 false) ∧ (supplyAt .mount 1 false).link.available < 2 := by
  and_intros <;> decide +kernel

/-- The late scan of position 2, which is EMPTY, RESERVED or HOLDING by then, or expects its second reel with its prompt up. -/
def lateAt (st : PosState) : State := (supplyAt .mount 0 true).updPos 2 (fun _ => { StationPos.initial with state := st })

def lateUp : State := promptOn ((supplyAt .mount 1 true).updPos 2 (fun x => { x with prompt := .up 7 })) supply7

theorem witness_ScanRecoverAndPark_late :
    scans (lateAt .empty) ∧ ((lateAt .empty).acc .a).scan = some (.station 2 .supply true)
    ∧ (lateAt .empty).station.pos[2].state = .empty ∧ (lateAt .empty).console.queue.length < 16
    ∧ scans (lateAt (.reserved (.record 9))) ∧ (lateAt (.reserved (.record 9))).dstOf (.record 9) = none
    ∧ (lateAt (.reserved (.record 9))).station.pos[2].state = .reserved (.record 9)
    ∧ scans (lateAt (.holding (vol 2))) ∧ (lateAt (.holding (vol 2))).station.pos[2].state = .holding (vol 2)
    ∧ scans (supplyAt .mount 0 true) ∧ (supplyAt .mount 0 true).station.pos[2].state = .expecting 1
    ∧ scans lateUp ∧ lateUp.station.pos[2].misses ≠ 0 ∧ lateUp.expecting 1 = some 2 ∧ noClaims lateUp ∧ lateUp.link.available < 2
    ∧ nothingOwed (lateUp.updPos 2 (fun x => { x with prompt := .none })) ∧ lateUp.station.pos[2].prompt = .up 7
    ∧ (lateUp.prompt? 7).map (·.block) = some .stationUnit
    ∧ (∀ k, (supplyAt .mount 1 true).station.pos[2].prompt ≠ .up k)
    ∧ nothingOwed ((supplyAt .mount 1 true).updPos 2 (fun x => { x with prompt := .none })) := by
  and_intros <;> first | decide +kernel | (refine noFaultOwed _ ?_; decide +kernel) | (intro k h; exact absurd h (by simp [supplyAt, supplyScan, oneEntry, withQueue, State.updPos, State.updAcc, State.updRec, withZone, inFlight, withDir, withRecs, StationPos.initial]))

/-- The collect scan of position 2, owned by the record of slot 1 or by none. -/
def collectAt (owner : Option Nat) : State :=
  let s := (atPosition2 (oneEntry (withRecs idle [recOf 1 .eject .collect])) .collect .none).updPos 2 (fun x => { x with owner := owner })
  withZone (inFlight (s.updAcc .a (fun x => { x with scan := some (.station 2 .collect false) })) .a .scan
    (some (.station (some 2))) 60) (some .a) []

/-- The PARK of an OFFLINE accessor in the poll, and of one that goes on with a trip. -/
def polledPark : State := after (.libraryOnline 1) parkedOffline

def parkingTrip : State := inFlight (running (withRecs idle [stagedFor 1 1 .assigned]) .a 85 [1] shownStops) .a .park none 60

theorem witness_ScanRecoverAndPark_collects_and_parks :
    scans (collectAt (some 1)) ∧ ((collectAt (some 1)).acc .a).scan = some (.station 2 .collect false)
    ∧ (collectAt (some 1)).station.pos[2].state = .holding (vol 1) ∧ (collectAt (some 1)).station.pos[2].owner = some 1
    ∧ (collectAt (some 1)).rec? 1 = some (recOf 1 .eject .collect) ∧ (collectAt (some 1)).link.available < 2
    ∧ noClaims (collectAt (some 1)) ∧ (collectAt (some 1)).station.pos[2].flow = some .collect
    ∧ (collectAt (some 1)).console.queue.length < 16
    ∧ scans (collectAt none) ∧ (collectAt none).station.pos[2].owner = none ∧ noClaims (collectAt none)
    ∧ calm polledPark ∧ (polledPark.acc .a).order = some parkOrder ∧ (polledPark.acc .a).state = .offline
    ∧ Device.accessor .a ∈ polledPark.link.poll
    ∧ calm parkingTrip ∧ (theOrder parkingTrip).op = .park ∧ (parkingTrip.acc .a).trip.isSome = true
    ∧ (parkingTrip.acc .a).state ≠ .offline := by
  and_intros <;> decide +kernel

theorem witness_MotionLimitExpiry_polled :
    calm polledPark ∧ Device.accessor .a ∈ polledPark.link.poll ∧ polledPark.link.lib = .goingOnline
    ∧ (polledPark.acc .a).faults = 0 ∧ polledPark.station.supplyWait = [] ∧ polledPark.console.queue.length < 16 := by
  and_intros <;> decide +kernel

/-! ### Answers, expiries and owed prompts -/

/-- The record of slot 1 HELD with its APPROVE prompt up, of a kind, budget-held with a held disposition or not, its volume somewhere. -/
def heldAs (kind : ReqKind) (held : Option Disposition) (loc : Location) : State :=
  (acceptable loc).updRec 1 (fun r => { r with
    kind := kind, disposition := some .hold, budgetHeld := held.isSome, heldDisp := held })

def full8 (s : State) : State :=
  { s with station := { s.station with pos := Vector.replicate 8 { StationPos.initial with state := .holding (vol 9) } } }

/-- What the answers to the APPROVE prompt share. -/
abbrev approves (s : State) : Prop :=
  s.prompt? 7 = some approve7 ∧ calm s ∧ s.rec? 1 = some (theRec s) ∧ (theRec s).state = .held ∧ (theRec s).serial = some (vol 1)
    ∧ nothingOwed s

theorem witness_AnswerLines_approves :
    approves (heldAs .eject none .home) ∧ (theRec (heldAs .eject none .home)).kind = .eject
    ∧ (heldAs .eject none .home).entry? (vol 1) = some (entryOf 1 .home)
    ∧ approves (withDir (heldAs .mount none .home) []) ∧ (withDir (heldAs .mount none .home) []).entry? (vol 1) = none
    ∧ approves (heldAs .mount none .outside) ∧ (heldAs .mount none .outside).entry? (vol 1) = some (entryOf 1 .outside)
    ∧ (heldAs .mount none .outside).link.available < 2
    ∧ approves (heldAs .mount (some .stationFirst) .home) ∧ (theRec (heldAs .mount (some .stationFirst) .home)).budgetHeld = true
    ∧ approves (heldAs .mount (some .manual) .outside) ∧ (theRec (heldAs .mount (some .manual) .outside)).heldDisp = some .manual
    ∧ (heldAs .mount (some .manual) .outside).station.pos[0].state = .empty
    ∧ approves (heldAs .enter none .outside) ∧ (theRec (heldAs .enter none .outside)).kind = .enter
    ∧ ((heldAs .enter none .outside).console.queue.filter (fun q => q.num ≠ 7)).length < 16
    ∧ approves (full8 (heldAs .enter none .outside))
    ∧ (∀ q : Fin 8, (full8 (heldAs .enter none .outside)).station.pos[q].state ≠ .empty)
    ∧ (approving.console.lines.filter (fun x => !x.isDisplay)).length < 16 := by
  and_intros <;> first | decide +kernel | (refine noFaultOwed _ ?_; decide +kernel)

/-- The COLLECT prompt of an unowned reel at position 2, and a drive in cleaning wait. -/
def collectUnowned7 : Prompt := promptAs .collect .stationUnit (.position 2) 7 0 0 .rearm

def collectingUnowned : State :=
  promptOn ((atPosition2 idle .collect (.up 7)).updPos 2 (fun x => { x with owner := none })) collectUnowned7

theorem witness_AnswerLines_declines :
    parseAnswer sevenDecline = some (7, .decline) ∧ supplyUp.expecting 1 = some 2 ∧ noClaims supplyUp ∧ supplyUp.link.available < 2
    ∧ (collecting.console.queue.filter (fun q => q.num ≠ 7)).length < 16 ∧ collecting.station.pos[2].owner = some 1
    ∧ collecting.station.pos[2].flow = some .collect ∧ collect7.subject = .slot 1
    ∧ collectingUnowned.prompt? 7 = some collectUnowned7 ∧ calm collectingUnowned ∧ nothingOwed collectingUnowned
    ∧ collectUnowned7.subject = .position 2 ∧ collectingUnowned.station.pos[2].owner = none
    ∧ (∀ x : Fin 8, collectingUnowned.station.pos[x].prompt = .up 7 → x = 2)
    ∧ ringing.recHome ringRec = some (west 1) ∧ ringing.station.pos[2].flow = some .ring
    ∧ ringingHomeless.prompt? 7 = some ring7 ∧ calm ringingHomeless ∧ nothingOwed ringingHomeless
    ∧ ringingHomeless.recHome ringRec = none ∧ (ringingHomeless.console.queue.filter (fun q => q.num ≠ 7)).length < 16
    ∧ (∀ x : Fin 8, ringingHomeless.station.pos[x].prompt = .up 7 → x = 2)
    ∧ cleanWanted.prompt? 7 = some clean7 ∧ clean7.subject = .drive 3 := by
  and_intros <;> first | decide +kernel | (refine noFaultOwed _ ?_; decide +kernel)

/-- With every queued prompt's timer run out, no escalations left and a FAIL action. -/
def failing (s : State) : State :=
  { s with console := { s.console with queue := s.console.queue.map (fun p => { p with timer := 0, left := 0, action := .fail }) } }

def failing7 (p : Prompt) : Prompt := { p with timer := 0, left := 0, action := .fail }

/-- What the FAIL expiries share. -/
abbrev fails (s : State) (p : Prompt) : Prop :=
  (failing s).prompt? 7 = some (failing7 p) ∧ calm (failing s) ∧ nothingOwed (failing s)
    ∧ ((failing s).console.queue.filter (fun q => q.num ≠ 7)).length < 16

theorem witness_PromptsExpireAndAreRaised_fails :
    fails supplyUp supply7 ∧ (failing supplyUp).expecting 1 = some 2 ∧ noClaims (failing supplyUp)
    ∧ (failing supplyUp).link.available < 2 ∧ (∀ x : Fin 8, (failing supplyUp).station.pos[x].prompt = .up 7 → x = 2)
    ∧ fails ringing ring7 ∧ (failing ringing).recHome ringRec = some (west 1) ∧ fails ringingHomeless ring7
    ∧ (failing ringingHomeless).recHome ringRec = none ∧ fails collecting collect7
    ∧ fails collectingUnowned collectUnowned7 ∧ fails faulting fault7 ∧ fails cleanWanted clean7 := by
  and_intros <;> first | decide +kernel | (refine noFaultOwed _ ?_; decide +kernel)

/-- A prompt owed by each block, with none owed by the blocks before it. -/
def owingB : State := (accIn .idle).updAcc .b (fun x => { x with state := .stalled, prompt := .owed none })

def owingClean : State :=
  { idle with cleanPrompt := .owed, drives := idle.drives.set 3 { Drive.initial with state := .free, due := true, cleanWait := true } }

def owedRecs : List Rec := [recOf 2 .mount .queued, { heldOwed with budgetHeld := true }, { recOf 4 .eject .held with approve := .owed }]

def owingApprove : State := withRecs idle owedRecs

def owingAt (s : State) : State := s.updPos 2 (fun x => { x with prompt := .owed })

/-- No block before the station unit owes a prompt, and position 2 is the first that does. -/
abbrev owesAtTwo (s : State) : Prop :=
  (∀ acc u, (s.acc acc).prompt ≠ .owed u) ∧ s.cleanPrompt ≠ .owed ∧ (∀ r ∈ s.recs, ¬(r.state = .held ∧ r.approve = .owed))
    ∧ s.station.pos[2].prompt = .owed ∧ (∀ x : Fin 8, x < 2 → s.station.pos[x].prompt ≠ .owed) ∧ s.console.queue.length < 16

theorem witness_PromptsExpireAndAreRaised_owed :
    (owingB.acc .b).prompt = .owed none ∧ (owingB.acc .a).prompt = .none
    ∧ (∀ acc u, (owingClean.acc acc).prompt ≠ .owed u) ∧ owingClean.cleanPrompt = .owed ∧ owingClean.drives[3].cleanWait = true
    ∧ (∀ x : Fin 16, x < 3 → owingClean.drives[x].cleanWait = false)
    ∧ (∀ acc u, (owingApprove.acc acc).prompt ≠ .owed u)
    ∧ owingApprove.recs = owedRecs.take 1 ++ { heldOwed with budgetHeld := true } :: owedRecs.drop 2
    ∧ owingApprove.rec? 1 = some { heldOwed with budgetHeld := true } ∧ owingApprove.cleanPrompt ≠ .owed
    ∧ (∀ x ∈ owedRecs.take 1, ¬(x.state = .held ∧ x.approve = .owed))
    ∧ owesAtTwo (owingAt supplyUp) ∧ (owingAt supplyUp).station.pos[2].state = .expecting 1
    ∧ owesAtTwo (owingAt ringing) ∧ (owingAt ringing).station.pos[2].flow = some .ring
    ∧ owesAtTwo (owingAt collecting) ∧ (owingAt collecting).station.pos[2].owner = some 1
    ∧ owesAtTwo (owingAt collectingUnowned) ∧ (owingAt collectingUnowned).station.pos[2].owner = none := by
  and_intros <;> first | decide +kernel | (refine noFaultOwed _ ?_; decide +kernel)

/-! ### The budget release -/

/-- Account 5 LIMITED with 10 units used, in a state whose HELD record it holds. -/
def limited5 (s : State) : State := s.updAccount 5 (fun x => { x with acc := 10, limit := 8, budget := .limited })

def heldByBudget (kind : ReqKind) (d : Disposition) (loc : Location) : State := limited5 (heldAs kind (some d) loc)

/-- What the releases of one record by ACCOUNT_SET of no limit share. -/
abbrev releasesOne (s : State) : Prop :=
  ready s ∧ calm s ∧ s.acct.accounts[5].budget = .limited ∧ s.rec? 1 = some (theRec s) ∧ (theRec s).state = .held
    ∧ (theRec s).account = 5 ∧ (theRec s).budgetHeld = true ∧ (∀ q ∈ s.recs, q = theRec s) ∧ (theRec s).serial = some (vol 1)
    ∧ (theRec s).approve = .up 7 ∧ (s.prompt? 7).map (·.block) = some .requestTable
    ∧ nothingOwed (s.updRec 1 (fun r => { r with approve := .none }))

theorem witness_AccountOperations_releases :
    (Budget.normal = .limited ↔ 0 ≠ 0 ∧ 0 ≤ (heldByBudget .mount .robot .home).acct.accounts[5].acc)
    ∧ (Budget.warned = .warned ↔ ¬(0 ≠ 0 ∧ 0 ≤ 10) ∧ 10 ≠ 0 ∧ 10 ≤ (heldByBudget .mount .robot .home).acct.accounts[5].acc)
    ∧ releasesOne (heldByBudget .mount .robot .home) ∧ (theRec (heldByBudget .mount .robot .home)).heldDisp = some .robot
    ∧ (heldByBudget .mount .robot .home).entry? (vol 1) = some (entryOf 1 .home)
    ∧ (∀ z : Fin 16, (heldByBudget .mount .robot .home).drives[z].state ≠ .free)
    ∧ releasesOne (heldByBudget .mount .robot .missing) ∧ (heldByBudget .mount .robot .missing).link.available < 2
    ∧ releasesOne (heldByBudget .mount .robot .outside) ∧ releasesOne (withDir (heldByBudget .mount .robot .home) [])
    ∧ releasesOne (heldByBudget .eject .robot .home) ∧ releasesOne (heldByBudget .enter .robot .outside)
    ∧ (heldByBudget .enter .robot .outside).station.pos[0].state = .empty
    ∧ releasesOne (heldByBudget .mount .manual .outside) ∧ releasesOne (full8 (heldByBudget .mount .manual .outside))
    ∧ (∀ q : Fin 8, (full8 (heldByBudget .mount .manual .outside)).station.pos[q].state ≠ .empty) := by
  and_intros <;> first | decide +kernel | (refine noFaultOwed _ ?_; decide +kernel)

/-- Two ENTER records that the budget of account 5 holds, the younger in the lower slot, and one held by a rule. -/
def heldBy5 (n : Nat) (budget : Bool) : Rec :=
  { recOf n .enter .held with disposition := some .hold, budgetHeld := budget, heldDisp := if budget then some .robot else none }

def twoHeld : State := full8 (limited5 (withRecs idle [heldBy5 4 true, heldBy5 6 false, heldBy5 3 true]))

theorem witness_AccountOperations_age_order :
    ready twoHeld ∧ calm twoHeld ∧ twoHeld.acct.accounts[5].budget = .limited ∧ twoHeld.rec? 4 = some (heldBy5 4 true)
    ∧ (heldBy5 4 true).budgetHeld = true ∧ twoHeld.rec? 6 = some (heldBy5 6 false) ∧ (heldBy5 6 false).budgetHeld = false
    ∧ (∀ q : Fin 8, twoHeld.station.pos[q].state ≠ .empty) ∧ (∀ r ∈ twoHeld.recs, r.kind = .enter)
    ∧ (∀ r ∈ twoHeld.recs, r.slot < 64) ∧ (twoHeld.recs.map (·.slot)).Nodup ∧ twoHeld.cls.intake = []
    ∧ twoHeld.recs.Pairwise (fun r q => r.origin = .channel → q.origin = .channel → r.corr ≠ q.corr)
    ∧ (∀ r ∈ (accountAt .warned 5).recs, ¬(r.state = .held ∧ r.account = 17 ∧ r.budgetHeld = true)) := by
  and_intros <;> decide +kernel

theorem test_accountSet_releases_in_age_order :
    (after (.accountSet 7 5 0 0) twoHeld).station.supplyWait = [4, 3] := by decide +kernel

/-- R189: an accessor whose PARK ends while the poll waits for it is sent its STATUS and stays OFFLINE (assumption log 17). -/
theorem test_parkCompletion_in_the_poll :
    ((after (.parkCompletion .a 20) polledPark).acc .a).state = .offline
    ∧ ((after (.parkCompletion .a 20) polledPark).acc .a).order.map (·.op) = some .status := by decide +kernel

/-- A placing at the station, its other leg listed already for a shelf position, with the shelf full and the zone lock held. -/
def lastToShelf : State :=
  let two : Rec := { stagedFor 2 1 .aboard with
    corr := some 2, leg := some { aboardLeg (.cell (west 2)) (.shelf none) with holder := some 1 } }
  let s := { placingStation .eject none with recs := [stationBound .eject none, two] }
  let s := s.updAcc .a (fun x => { x with
    holders := #v[.reel (vol 1), .reel (vol 2), .empty],
    trip := some { legs := [1, 2], putBacks := [], stops := [⟨.place, .record 1⟩, ⟨.place, .record 2⟩], window := 0, runOut := true } })
  let s := { s with rail := { s.rail with shelf := Vector.replicate 4 (.holding (vol 9) .a), shelfWait := [.record 2] } }
  withZone s (some .a) []

/-- R103: the last stop left waits for a shelf position, and the accessor, which holds the zone lock, is first sent a PARK, although
the stop stood in the wait list before. -/
theorem test_placeCompletion_parks_before_a_listed_stop_waits :
    ((after (.placeCompletion .a) lastToShelf).acc .a).order.map (·.op) = some .park
    ∧ (after (.placeCompletion .a) lastToShelf).rail.shelfWait = [.record 2] := by decide +kernel

/-! ### The third review's forms -/

def ordinaryFirst : State :=
  { full with link := { full.link with outq := { kept := false, frame := waitingReply } :: full.link.outq, backlog := [waitingReply] } }

def owingAndPosting : Rec := { posting with mountedOwed := true, mountedDrive := some 3 }

/-- FRAME_SENT and REPLY_BACKLOG_SERVED with a record that waits: one that goes on, one with too few entries, one that ends. -/
theorem witness_SentFramesAndTheBacklog_waiting :
    nothingRaised owingState ∧ owingState.recs = [] ++ owing :: [] ∧ owing.mountedOwed = true ∧ owing.state ≠ .posting
    ∧ owingState.link.outq.head? = some { kept := false, frame := replyFrame 5 0 .done .nothing } ∧ owingState.link.backlog = []
    ∧ recordLaw owingState
    ∧ postingState.recs = [recOf 0 .mount .held] ++ posting :: [] ∧ (recOf 0 .mount .held).waits = false ∧ recordLaw postingState
    ∧ (postingState.link.outq.filter (fun f => !f.kept)).length = 26 ∧ postingState.link.lib ≠ .draining
    ∧ (∀ d : Fin 16, postingState.drives[d].returnWait = false ∧ postingState.drives[d].cleanWait = false)
    ∧ nothingRaised (withQueue postingState 0 28) ∧ ((withQueue postingState 0 28).link.outq.filter (fun f => !f.kept)).length = 28
    ∧ (withRecs idle [owingAndPosting]).recs = [] ++ owingAndPosting :: [] ∧ owingAndPosting.needs = 3
    ∧ nothingRaised ordinaryFirst ∧ ordinaryFirst.link.backlog = [waitingReply]
    ∧ (ordinaryFirst.link.outq.tail.filter (fun f => f.kept)).length = 4
    ∧ nothingRaised backedUp ∧ (backedUp.link.outq.tail.filter (fun f => f.kept)).length < 4 := by
  and_intros <;> decide +kernel

def fullKey1 : List (BitVec 32) := pass1Key .full (recOf 1 .mount .admitted) none 0

theorem witness_LowestStartingSlotWins_fields :
    basicKey1.length = (kindWidths .basic).length ∧ (anyBasic 7).fields.length = (kindWidths .basic).length
    ∧ fullKey1.length = (kindWidths .full).length ∧ anyFull.fields.length = (kindWidths .full).length
    ∧ (kindWidths .full)[17]? = some 1 ∧ (fullKey1[17]?).isSome = true ∧ (anyFull.fields[17]?).isSome = true
    ∧ anyFull.serial = some { chars := vol 1, care := 0 } := by
  and_intros <;> decide +kernel

theorem witness_AcceptanceWritesTheRecord_verdict :
    ((toHold.classify (recOf 1 .mount .admitted)).action.disp, Disposition.hold)
      ∈ [(0, Disposition.robot), (1, .manual), (2, .stationFirst), (3, .hold), (4, .refuse)]
    ∧ ((toClassify.classify (recOf 1 .mount .admitted)).action.disp, Disposition.refuse)
      ∈ [(0, Disposition.robot), (1, .manual), (2, .stationFirst), (3, .hold), (4, .refuse)] := by
  and_intros <;> decide +kernel

/-- Drive 3 in cleaning wait with the CLEAN_SUPPLY prompt up, alone and with drive 5 beside it. -/
def waitsClean (st : DriveState) : State :=
  { cleanWanted with drives := idle.drives.set 3 { Drive.initial with state := st, due := true, cleanWait := true, pools := 1 } }

def waitTwo (st : DriveState) : State :=
  { waitsClean st with drives := (waitsClean st).drives.set 5 { Drive.initial with state := .free, due := true, cleanWait := true } }

/-- What the withdrawal of the CLEAN_SUPPLY prompt asks for. -/
abbrev promptUp (s : State) : Prop :=
  ready s ∧ calm s ∧ s.cleanPrompt = .up 7 ∧ (s.prompt? 7).map (·.block) = some .driveTable ∧ nothingOwed { s with cleanPrompt := .none }

theorem witness_DriveOperations_and_UnloadedAndFault_withdraw :
    promptUp (waitsClean .free) ∧ (waitsClean .free).drives[3].state = .free
    ∧ (∀ x : Fin 16, x ≠ 3 → (waitsClean .free).drives[x].cleanWait = false)
    ∧ promptUp (waitTwo .free) ∧ (waitTwo .free).drives[5].cleanWait = true
    ∧ promptUp (waitsClean .offline) ∧ (waitsClean .offline).drives[3].state = .offline
    ∧ promptUp (waitsClean .unpolled) ∧ (waitsClean .unpolled).drives[3].returnWait = false := by
  and_intros <;> first | decide +kernel | (refine noFaultOwed _ ?_; decide +kernel)

def misplacedReel : State := withDir (withRecs idle [recOf 1 .mount .queued]) [entryOf 1 (.misplaced (west 5))]

def stationReel : State := atPosition2 (withRecs idle [recOf 1 .mount .queued]) .pickup .none

def shelfReel : State :=
  (withDir (withRecs idle [recOf 1 .mount .queued]) [entryOf 1 (.onShelf 1)]).setShelf 1 (.holding (vol 1) .a)

theorem witness_ReservationJoinsDriveAndRecord_pickups :
    (recOf 1 .mount .queued).serial = some (vol 1) ∧ misplacedReel.entry? (vol 1) = some (entryOf 1 (.misplaced (west 5)))
    ∧ stationReel.entry? (vol 1) = some (entryOf 1 (.atStation 2)) ∧ stationReel.heldAt 1 = some 2
    ∧ stationReel.pickup (recOf 1 .mount .queued) = .station (some 2)
    ∧ shelfReel.entry? (vol 1) = some (entryOf 1 (.onShelf 1)) ∧ shelfReel.reelOnShelf (recOf 1 .mount .queued) = some (1, .a)
    ∧ shelfReel.pickup (recOf 1 .mount .queued) = .shelf (some 1)
    ∧ freeDrives.entry? (vol 1) = some (entryOf 1 .home) ∧ (entryOf 1 .home).home = some (west 1) := by
  and_intros <;> decide +kernel

/-- Drive 3 in cleaning wait with a usable reel on the list by now, and FAULTED with a reel in return wait. -/
def suppliedClean : State := { waitsClean .free with cleanList := #v[none, reelOf 1 1, none, none] }

def faultedReturn : State :=
  { idle with drives := idle.drives.set 3 { Drive.initial with state := .faulted, reel := true, returnWait := true } }

theorem witness_DriveTableSteps_further :
    promptUp suppliedClean ∧ suppliedClean.attemptDue 3 = true ∧ suppliedClean.cleanChoice = some reel1
    ∧ suppliedClean.freeSlot = some 0
    ∧ calm (waitsClean .free) ∧ (waitsClean .free).attemptDue 3 = true ∧ (waitsClean .free).cleanChoice = none
    ∧ (waitsClean .free).cleanPrompt ≠ .none
    ∧ calm faultedReturn ∧ faultedReturn.freeSlot = some 0 ∧ faultedReturn.drives[3].returnWait = true
    ∧ faultedReturn.drives[3].state = .faulted := by
  and_intros <;> first | decide +kernel | (refine noFaultOwed _ ?_; decide +kernel)

theorem witness_AccessorOperations_legs :
    (stalledTrip.acc .a).trip.map (·.legs) = some [1] ∧ ownLeg stalledTrip .a 1 leg1 ∧ leg1.state = .assigned
    ∧ (stalledUp.acc .a).trip.map (·.legs) = some [1] ∧ ownLeg stalledUp .a 1 leg1 ∧ ready stalledUp ∧ (stalledUp.acc .a).order = none := by
  and_intros <;> decide +kernel

theorem witness_TripsGatherAndStart_further :
    (∃ m ∈ (queuedLegs [1, 2]).rail.queues.get .a, (queuedLegs [1, 2]).eligible .a m = true)
    ∧ (∃ m ∈ heldBackLegs.rail.queues.get .a, heldBackLegs.eligible .a m = true) ∧ heldBackLegs.eligible .a 1 = false
    ∧ ((gathering false [4, 5] [1, 2]).acc .a).trip = some (gatherTrip false [4, 5])
    ∧ ((gathering false [4, 1, 2] [3]).acc .a).state = .gathering
    ∧ ((gathering false [4, 1, 2] [3]).acc .a).trip = some (gatherTrip false [4, 1, 2]) := by
  and_intros <;> decide +kernel

/-- A GATHERING trip of one leg and a queued leg that an audit holds back by its yield class, or that is bound for the station while the
latch is OPEN. -/
def gatherHeld : State := { gathering false [4] [1] with audits := { a := some { anAudit with state := .suspended }, b := none } }

def gatherLatched : State :=
  let s := (gathering false [4] [1]).updLeg 1 (fun l => { l with dst := .station none })
  { s with station := { s.station with latchOpen := true } }

def gatherQuiesced (runOut : Bool) : State :=
  let s := gathering runOut [4] []
  { s with rail := { s.rail with quiesce := true } }

/-- A GATHERING trip whose window is still counting. -/
def gatherCounting : State :=
  (gathering false [4] []).updAcc .a (fun x => { x with trip := some { gatherTrip false [4] with window := 1 } })

theorem witness_TripsGatherAndStart_not_due :
    (idle.acc .a).state ≠ .gathering
    ∧ ((gathering false [4, 1, 2] [3]).acc .a).trip = some (gatherTrip false [4, 1, 2]) ∧ 3 ≤ (gatherTrip false [4, 1, 2]).legs.length
    ∧ (gatherHeld.acc .a).state = .gathering ∧ gatherHeld.rail.queues.get .a = [1] ∧ gatherHeld.eligible .a 1 = false
    ∧ (gatherLatched.acc .a).state = .gathering ∧ gatherLatched.rail.queues.get .a = [1] ∧ gatherLatched.eligible .a 1 = false
    ∧ ((gatherQuiesced true).acc .a).state = .gathering ∧ (gatherQuiesced true).rail.quiesce = true
    ∧ ((gathering false [4] []).acc .a).trip = some (gatherTrip false [4]) ∧ (gathering false [4] []).rail.quiesce = false
    ∧ (gatherTrip false [4]).runOut = false ∧ ¬3 ≤ (gatherTrip false [4]).legs.length
    ∧ ((gathering false [4] []).leg? 4).map (fun l => decide (l.prio = 3)) = some false
    ∧ (gatherCounting.acc .a).state = .gathering ∧ (gatherCounting.acc .a).trip.map (·.window) = some 1
    ∧ ((gathering true [4] []).acc .a).trip = some (gatherTrip true [4]) ∧ (gatherTrip true [4]).runOut = true := by
  and_intros <;> decide +kernel

theorem witness_TripsGatherAndStart_window :
    calm (gathering false [4] []) ∧ ((gathering false [4] []).acc .a).state = .gathering
    ∧ ((gathering false [4] []).acc .a).trip = some (gatherTrip false [4]) ∧ (gathering false [4] []).rail.quiesce = false
    ∧ (gatherTrip false [4]).legs ≠ [] ∧ (∀ m ∈ (gatherTrip false [4]).legs, ((gathering false [4] []).leg? m).isSome = true)
    ∧ (gatherTrip false [4]).window = 0 ∧ (gatherTrip false [4]).runOut = false
    ∧ calm (gatherQuiesced false) ∧ ((gatherQuiesced false).acc .a).trip = some (gatherTrip false [4])
    ∧ (gatherQuiesced false).rail.quiesce = true := by
  and_intros <;> decide +kernel

/-- A with an order outside a trip to be sent, at a column and in a state. -/
def outside (op : OrderOp) (st : AccState) (column : Nat) (scan : Option ScanTarget) : State :=
  (accIn st).updAcc .a (fun x => { x with column := column, todo := some op, scan := scan })

def scanCellOrder : Order := { op := .scan, col := 11, place := some (.cell (west 1)), holder := none, timer := 60 }

def scanStationOrder : Order := { op := .scan, col := 100, place := some (.station (some 2)), holder := none, timer := 60 }

def parkOut : Order := { op := .park, col := 79, place := none, holder := none, timer := 60 }

def recoverOut (col : Nat) : Order := { op := .recover, col := col, place := none, holder := none, timer := 60 }

def statusOut (col : Nat) : Order := { recoverOut col with op := .status }

/-- An order outside a trip to be sent, its guard and latch closed. -/
abbrev toSend (s : State) (o : Order) : Prop :=
  (s.acc .a).order = none ∧ (s.acc .a).todo = some o.op ∧ o.holder = none ∧ s.guardOpen o.col = false
    ∧ (o.col = 100 → s.station.latchOpen = false)

theorem witness_OrdersPassTheirGates_outside :
    toSend (outside .scan .idle 20 (some (.cell (west 1)))) scanCellOrder ∧ scanCellOrder.timer = (idle.acc .a).limScan
    ∧ toSend (outside .scan .idle 20 (some (.station 2 .supply false))) scanStationOrder
    ∧ (outside .scan .idle 20 (some (.station 2 .supply false))).rail.zone = none
    ∧ toSend (outside .park .running 85 none) parkOut ∧ parkOut.timer = (idle.acc .a).limPlace
    ∧ toSend (withZone (outside .park .running 85 none) (some .b) []) parkOut
    ∧ toSend (outside .recover .stalled 119 none) (recoverOut 119) ∧ (recoverOut 119).timer = (idle.acc .a).limRecover
    ∧ toSend (outside .status .offline 20 none) (statusOut 20) ∧ (statusOut 20).timer = (idle.acc .a).limPick
    ∧ { outside .recover .stalled 20 none with rail := { (outside .recover .stalled 20 none).rail with westOpen := true } }.guardOpen 20
      = true
    ∧ { outside .park .running 85 none with rail := { (outside .park .running 85 none).rail with middleOpen := true } }.guardOpen 79
      = false := by
  and_intros <;> decide +kernel

/-- A RUNNING at the PLACE of a reel with no position reserved, and a PICK after it. -/
def unreserved (first : Rec) (rest : List Stop) : State :=
  running (withRecs idle [first, stagedFor 2 1 .assigned]) .a 20 [1, 2] (place1 :: rest)

def pick2 : Stop := ⟨.pick, .record 2⟩

def shelfFull (s : State) : State := { s with rail := { s.rail with shelf := Vector.replicate 4 (.holding (vol 9) .a) } }

def stationTaken (s : State) : State :=
  { s with station := { s.station with pos := Vector.replicate 8 { StationPos.initial with state := .expecting 60 } } }

/-- A place stop at the head of the list, which waits for a shelf or a station position. -/
abbrev atPlace (s : State) (rest : List Stop) (dst : Place) : Prop :=
  (s.acc .a).order = none ∧ (s.acc .a).todo = none ∧ (s.acc .a).state = .running ∧ s.stops .a = place1 :: rest
    ∧ place1.op = .place ∧ s.dstOf place1.ref = some dst

theorem witness_OrdersPassTheirGates_unreserved :
    atPlace (unreserved toShelf []) [] (.shelf none) ∧ (unreserved toShelf []).rail.shelf[0] = .empty
    ∧ atPlace (unreserved toStation []) [] (.station none) ∧ (unreserved toStation []).station.pos[0].state = .empty
    ∧ atPlace (shelfFull (unreserved toShelf [pick2])) [pick2] (.shelf none) ∧ pick2.op ≠ .place
    ∧ (∀ p : Fin 4, (shelfFull (unreserved toShelf [pick2])).rail.shelf[p] ≠ .empty)
    ∧ atPlace (stationTaken (unreserved toStation [pick2])) [pick2] (.station none)
    ∧ (∀ p : Fin 8, (stationTaken (unreserved toStation [pick2])).station.pos[p].state ≠ .empty)
    ∧ atPlace (shelfFull (unreserved toShelf [])) [] (.shelf none) ∧ (shelfFull (unreserved toShelf [])).rail.zone ≠ some .a
    ∧ atPlace (withZone (shelfFull (unreserved toShelf [])) (some .a) []) [] (.shelf none)
    ∧ atPlace (stationTaken (unreserved toStation [])) [] (.station none)
    ∧ (stationTaken (unreserved toStation [])).rail.zone ≠ some .a := by
  and_intros <;> decide +kernel

/-- A whose order's limit has run out, with the reel of slot 1 aboard and slot 2's leg assigned; the FAULT prompt of its first fault is up. -/
def expiredTwo (faults : Nat) : State :=
  let s := { expired faults 0 with recs := (expired faults 0).recs ++ [stagedFor 2 1 .assigned] }
  s.updAcc .a (fun x => { x with
    trip := some { legs := [1, 2], putBacks := [], stops := [⟨.place, .record 1⟩, ⟨.pick, .record 2⟩, ⟨.place, .record 2⟩],
                   window := 0, runOut := true } })

def expiredUp (faults : Nat) : State := promptOn ((expiredTwo faults).updAcc .a (fun x => { x with prompt := .up 7 })) fault7

def assigned2 : Leg := { legTo 2 3 .assigned with prio := 1 }

/-- A whose SCAN's limit has run out once more. -/
def expiredScan (target : ScanTarget) (place : Place) (x : Option Audit) : State :=
  let s := inFlight (accIn .idle) .a .scan (some place) 0
  { (s.updAcc .a (fun y => { y with faults := 1, scan := some target })) with audits := { a := x, b := none } }

def pendingAbort : Audit := { auditNow with abortPending := true }

def suspendingAudit : Audit := { auditNow with state := .suspending }

/-- The premises under which the FAULT prompt of a second and a third fault stands. -/
abbrev promptsAgain (s : State) : Prop :=
  calm s ∧ (s.acc .a).prompt = .up 7 ∧ (s.prompt? 7).map (·.block) = some .railScheduler
    ∧ nothingOwed (s.updAcc .a (fun x => { x with prompt := .none }))
    ∧ (s.console.queue.filter (fun y => decide ((s.acc .a).prompt ≠ .up y.num))).length < 16

theorem witness_MotionLimitExpiry_legs_and_prompts :
    calm (expiredTwo 0) ∧ ((expiredTwo 0).acc .a).order = some (expiredOrder 0) ∧ ((expiredTwo 0).acc .a).faults = 0
    ∧ ((expiredTwo 0).acc .a).trip.map (·.legs) = some [1, 2] ∧ ownLeg (expiredTwo 0) .a 2 assigned2 ∧ assigned2.state = .assigned
    ∧ ownLeg (expiredTwo 0) .a 1 (theLeg (expiredTwo 0)) ∧ (theLeg (expiredTwo 0)).state = .aboard
    ∧ (expiredOrder 0).op = .place (.record 1)
    ∧ promptsAgain (expiredUp 1) ∧ ((expiredUp 1).acc .a).faults = 1 ∧ (expiredUp 1).link.available < 2
    ∧ (expiredUp 1).station.supplyWait = [] ∧ ownLeg (expiredUp 1) .a 2 assigned2
    ∧ ((expiredUp 1).leg? 1).map (·.holder) = some (some 0) ∧ ((expiredUp 1).leg? 2).map (·.state) = some .assigned
    ∧ (theRec (expiredUp 1)).drive = some 3 ∧ findsNothing (expiredUp 1) 3
    ∧ promptsAgain (expiredUp 2) ∧ 2 ≤ ((expiredUp 2).acc .a).faults := by
  and_intros <;> first | decide +kernel | (refine noFaultOwed _ ?_; decide +kernel)

/-- What the forms of a SCAN that fails for the second time share. -/
abbrev scanFails (s : State) (target : ScanTarget) : Prop :=
  calm s ∧ ((s.acc .a).order.map (fun o => (o.op, o.timer))) = some (.scan, 0) ∧ (s.acc .a).faults = 1 ∧ s.link.available = 28
    ∧ (s.acc .a).scan = some target

theorem witness_MotionLimitExpiry_scans :
    calm (withQueue (expiredScan (.cell (west 1)) (.cell (west 1)) (some pendingAbort)) 0 27)
    ∧ (withQueue (expiredScan (.cell (west 1)) (.cell (west 1)) (some pendingAbort)) 0 27).link.available < 2
    ∧ scanFails (expiredScan (.cell (west 1)) (.cell (west 1)) (some pendingAbort)) (.cell (west 1))
    ∧ pendingAbort.state ≠ .done ∧ pendingAbort.abortPending = true
    ∧ scanFails (expiredScan (.cell (west 1)) (.cell (west 1)) (some auditNow)) (.cell (west 1)) ∧ auditNow.state = .scanning
    ∧ ((expiredScan (.cell (west 1)) (.cell (west 1)) (some auditNow)).acc .a).trip = none
    ∧ scanFails (expiredScan (.cell (west 1)) (.cell (west 1)) (some suspendingAudit)) (.cell (west 1))
    ∧ suspendingAudit.state ≠ .scanning
    ∧ scanFails (expiredScan (.station 2 .supply false) (.station (some 2)) none) (.station 2 .supply false)
    ∧ (∀ q ∈ (expiredScan (.station 2 .supply false) (.station (some 2)) none).rail.scanReqs, q.pos ≠ 2) := by
  and_intros <;> decide +kernel

theorem witness_PickCompletion_aboard : ∀ who : Acc, 1 ∉ picking.rail.queues.get who := by
  intro who; cases who <;> decide +kernel

def suspending : State := auditAt (fun x => { x with state := .suspending })

theorem witness_ScanRecoverAndPark_suspending :
    calm suspending ∧ suspending.audits.get .a = some { auditNow with state := .suspending } ∧ auditNow.abortPending = false
    ∧ west 1 ≠ auditNow.last ∧ (suspending.acc .a).state = .idle ∧ (suspending.acc .a).scan = some (.cell (west 1))
    ∧ directoryLaw suspending := by
  have h : directoryLaw (auditAt id) :=
    ⟨by decide +kernel, by simp [auditAt, auditing, inFlight, withDir, State.updAcc, entryOf, vol, west, Location.mechanism, Entry.expectedAt]⟩
  and_intros <;> first | decide +kernel | exact h.2

/-- An audit asked for while a leg of its class or higher waits, and SUSPENDED while one waits. -/
def startYielding : State := (withRecs stocked [stagedFor 1 1 .ready]).setQueue .a [1]

def resumeYielding : State := { startYielding with audits := { a := some { suspendedAudit with yieldClass := 1 }, b := none } }

theorem witness_AuditOperations_yielding :
    ready startYielding ∧ calm startYielding ∧ (startYielding.acc .a).state ≠ .offline ∧ startYielding.audits.get .a = none
    ∧ startYielding.hasYielding .a 1 = true ∧ startYielding.hasYielding .a 2 = false
    ∧ stocked.hasYielding .a 3 = false ∧ stocked.free .a = true ∧ stocked.rail.scanReqs = []
    ∧ resumeYielding.hasYielding .a 1 = true ∧ (∀ x, some suspendedAudit = some x → x.state = .suspended)
    ∧ (accIn .running).free .a = false ∧ (accIn .running).audits.get .a = none := by
  and_intros <;> decide +kernel

/-- A with two legs in its trip, the first of them claiming already a station position, CELL_OCCUPIED at the cell of the second with
the station full. -/
def twoClaims : State :=
  let s := placing .returning .free (.cell (west 1)) (.cell (west 1))
  let two : Rec := { stagedFor 2 1 .aboard with
    leg := some { aboardLeg (.cell (west 2)) (.station none) with holder := some 1, diverted := true } }
  let s := stationTaken { s with recs := s.recs ++ [two] }
  let s := s.updAcc .a (fun x => { x with
    holders := #v[.reel (vol 1), .reel (vol 2), .empty],
    trip := some { legs := [1, 2], putBacks := [], stops := [⟨.place, .record 1⟩, ⟨.place, .record 2⟩], window := 0, runOut := true } })
  { s with station := { s.station with resWait := [.record 2] } }

/-- R134: the wait list holds one claim of an accessor at most; the leg diverted by CELL_OCCUPIED waits behind the one listed. -/
theorem test_cellOccupied_lists_one_claim_per_accessor :
    (after (.cellOccupied .a) twoClaims).station.resWait = [.record 2]
    ∧ ((after (.cellOccupied .a) twoClaims).leg? 1).map (·.dst) = some (.station none) := by decide +kernel

/-! ### The fourth review's forms: trips -/

/-- A completion of an accessor with this order in flight on a trip that is not GATHERING. -/
abbrev onTrip (s : State) (op : OrderOp) (legs : List Nat) (stops : List Stop) : Prop :=
  calm s ∧ (s.acc .a).order.map (fun o => (o.op, o.holder)) = some (op, some 0) ∧ (s.acc .a).state = .running
    ∧ tripOf s .a = some (legs, stops)

theorem witness_PickCompletion_stops :
    onTrip picking (.pick 1) [1] pickFirst ∧ picking.rec? 1 = some (picked (.cell (west 1)))
    ∧ (picked (.cell (west 1))).leg = some (inHandLeg (.cell (west 1)) (.drive 3))
    ∧ (inHandLeg (.cell (west 1)) (.drive 3)).expected = some (vol 1) ∧ vol 2 ≠ vol 1
    ∧ onTrip stowPicking (.pick 1) [1] pickFirst ∧ stowPicking.rec? 1 = some stowed := by
  and_intros <;> decide +kernel

/-- A with the PLACE of a returning reel in flight at station position 4, which by then awaits the supply of slot 60; slot 61 waits in the
supply wait list. -/
def supplyTaken (other : PosState) : State :=
  let s := placing .returning .free (.cell (west 1)) (.station (some 4))
  let turned := s.recs.map (fun (r : Rec) => { r with leg := r.leg.map (fun (l : Leg) => { l with dst := .cell (west 1) }) })
  let s := { s with recs := turned ++ [{ recOf 60 .enter .supply with corr := some 60 }, { recOf 61 .enter .supply with corr := some 61 }] }
  let elsewhere : StationPos := { StationPos.initial with state := .holding (vol 7), flow := some .collect }
  let pos := (Vector.replicate 8 elsewhere).set 4 { StationPos.initial with state := .expecting 60, flow := some .supply }
  { s with station := { s.station with pos := pos.set 6 { elsewhere with state := other }, supplyWait := [61] } }

theorem witness_PlaceCompletion_stops :
    onTrip placingDrive (.place (.record 1)) [1] [place1] ∧ placingDrive.drives[3].state = .reserved
    ∧ placingDrive.drives[3].holding = some 1
    ∧ onTrip placingCell (.place (.record 1)) [1] [place1] ∧ (placingCell.acc .a).order.bind (·.place) = some (.cell (west 1))
    ∧ calm (supplyTaken .empty) ∧ ((supplyTaken .empty).acc .a).order.bind (·.place) = some (.station (some 4))
    ∧ ((supplyTaken .empty).leg? 1).map (·.dst) = some (.cell (west 1)) ∧ (supplyTaken .empty).station.pos[4].state = .expecting 60
    ∧ (∀ q : Fin 8, (supplyTaken .empty).station.pos[q].state ≠ .reserved (.record 1))
    ∧ (supplyTaken .empty).station.pos[6].state = .empty ∧ (∀ x < (6 : Fin 8), (supplyTaken .empty).station.pos[x].state ≠ .empty)
    ∧ calm (supplyTaken (.holding (vol 8))) ∧ (∀ q : Fin 8, (supplyTaken (.holding (vol 8))).station.pos[q].state ≠ .empty)
    ∧ (supplyTaken (.holding (vol 8))).station.pos[4].state = .expecting 60
    ∧ calm puttingBack ∧ tripOf puttingBack .a = some ([1], [place1])
    ∧ (puttingBack.acc .a).order.map (·.op) = some (.place (.putBack .a 0)) := by
  and_intros <;> decide +kernel

/-- R134: the supply that gives its position up to a reel placed there stands first in the wait list, since its record entered SUPPLY
before the one that waits (assumption log 31). -/
theorem test_placeCompletion_moved_supply_waits_first :
    (after (.placeCompletion .a) (supplyTaken (.holding (vol 8)))).station.supplyWait = [60, 61] := by decide +kernel

/-- A trip whose last stop has completed, at a column. -/
def tripDone (column : Nat) (queue : List Nat) : State := running (queuedLegs queue) .a column [] []

abbrev done (s : State) : Prop :=
  (s.acc .a).state = .running ∧ (s.acc .a).order = none ∧ (s.acc .a).todo = none ∧ tripOf s .a = some ([], [])

/-- The end of a trip (R108): with nothing to do, with an eligible leg waiting, and in the Middle segment with the guard of the accessor's
side CLOSED and OPEN. -/
theorem witness_PlaceCompletion_trip_ends :
    done (tripDone 20 []) ∧ (tripDone 20 []).rail.queues.get .a = [] ∧ (tripDone 20 []).rail.scanReqs = []
    ∧ (tripDone 20 []).audits.get .a = none
    ∧ (∀ d : Fin 16, (tripDone 20 []).drives[d].returnWait = false ∧ (tripDone 20 []).drives[d].cleanWait = false)
    ∧ done (tripDone 79 [1]) ∧ 1 ∈ (tripDone 79 [1]).rail.queues.get .a ∧ (tripDone 79 [1]).eligible .a 1 = true
    ∧ ((tripDone 79 [1]).leg? 1).map (·.dst) = some (.drive 3) ∧ (tripDone 79 [1]).rail.quiesce = false
    ∧ ((tripDone 79 [1]).acc .a).scan = none
    ∧ done (withZone (tripDone 80 []) (some .a) []) ∧ (withZone (tripDone 80 []) (some .a) []).guardOpen 79 = false
    ∧ done { withZone (tripDone 119 []) (some .a) [] with rail := { (withZone (tripDone 119 []) (some .a) []).rail with westOpen := true } }
    ∧ { withZone (tripDone 119 []) (some .a) [] with
        rail := { (withZone (tripDone 119 []) (some .a) []).rail with westOpen := true } }.guardOpen 79 = true := by
  and_intros <;> decide +kernel

/-- A STAGED record with drive 3 and a leg on A's trip. -/
def stagedTrip (l : Leg) (stops : List Stop) : State :=
  let s := mountedOn { recOf 1 .mount .staged with leg := some l } .reserved
  running (withDir s [entryOf 1 .home]) .a 20 [1] stops

theorem witness_CancelByState_and_UnloadedAndFault_stops :
    ready (stagedTrip inHand1 [place1]) ∧ calm (stagedTrip inHand1 [place1]) ∧ inHand1.onBoard = true ∧ inHand1.acc = .a
    ∧ (stagedTrip inHand1 [place1]).byCorrelator 1 = (stagedTrip inHand1 [place1]).rec? 1
    ∧ ((stagedTrip inHand1 [place1]).rec? 1).map (fun r => (r.slot, r.state, r.drive, r.leg)) = some (1, .staged, some 3, some inHand1)
    ∧ tripOf (stagedTrip inHand1 [place1]) .a = some ([1], [place1]) ∧ noClaims (stagedTrip inHand1 [place1])
    ∧ (stagedTrip inHand1 [place1]).drives[3].due = false ∧ noneQueued (stagedTrip inHand1 [place1])
    ∧ (stagedTrip inHand1 [place1]).drives[3].state = .reserved ∧ (stagedTrip inHand1 [place1]).drives[3].holding = some 1
    ∧ ready (stagedTrip leg1 pickFirst) ∧ calm (stagedTrip leg1 pickFirst) ∧ leg1.onBoard = false ∧ leg1.acc = .a
    ∧ ((stagedTrip leg1 pickFirst).rec? 1).map (fun r => (r.state, r.leg)) = some (.staged, some leg1)
    ∧ ((stagedTrip leg1 pickFirst).acc .a).state ≠ .gathering ∧ tripOf (stagedTrip leg1 pickFirst) .a = some ([1], pickFirst) := by
  and_intros <;> decide +kernel

/-! ### The fifth review's forms -/

/-- DRAINING, with drives 3 and 9 in return wait and drives 5 and 7, which are due, in cleaning wait. -/
def drainWait (s : State) : State :=
  let due : Drive := { Drive.initial with state := .free, due := true, cleanWait := true, pools := 1 }
  let reel := fun st : DriveState => { Drive.initial with state := st, reel := true, returnWait := true }
  let drives := ((s.drives.set 3 (reel .faulted)).set 9 (reel .unpolled)).set 5 due
  { s with
    link := { s.link with lib := .draining }, dir := [entryOf 1 .home, entryOf 4 .home],
    cleanList := #v[none, reelOf 4 7, reelOf 1 50, none], drives := drives.set 7 due }

/-- The last open record, POSTING, and the same with a frame at the head of the queue. -/
def lastPosting : State := drainWait (withQueue (withRecs idle [postingNotices]) 0 25)

def lastBehind : State := { lastPosting with link := { lastPosting.link with outq := keptReply :: lastPosting.link.outq } }

/-- The last open record, whose classification refuses it. -/
def lastRefused : State :=
  drainWait { toClassify with recs := [recOf 1 .mount .admitted], cls := { toClassify.cls with intake := [1] } }

theorem witness_StepKeepsRecordLaw_draining : drainLaw lastPosting ∧ lastPosting.link.lib = .draining ∧ drainLaw lawful := by
  unfold drainLaw; decide +kernel

theorem witness_LibraryOfflineByState_closes :
    (∀ q ∈ lastPosting.recs, q.slot = 1) ∧ lastPosting.link.lib = .draining ∧ lastPosting.recs ≠ []
    ∧ (drainWait postingNoticed).link.lib = .draining ∧ (∃ q ∈ (drainWait postingNoticed).recs, q.slot ≠ 1)
    ∧ idle.link.lib = .online := by
  decide +kernel

theorem witness_drained_closes :
    lastPosting.oldestWaiting = some postingNotices ∧ postingNotices.needs ≤ lastPosting.link.available ∧ nothingRaised lastPosting
    ∧ (∀ q ∈ lastPosting.recs, q.waits = true → q.slot = 1)
    ∧ recordLaw lastBehind ∧ nothingRaised lastBehind ∧ lastBehind.link.backlog = []
    ∧ lastBehind.link.outq = keptReply :: lastPosting.link.outq ∧ lastBehind.recs = [postingNotices]
    ∧ lastRefused.cls.intake = [1] ∧ lastRefused.rec? 1 = some (recOf 1 .mount .admitted) ∧ calm lastRefused
    ∧ lastRefused.link.keptUsed < 4 ∧ (lastRefused.classify (recOf 1 .mount .admitted)).verdict = .refuse .byRule
    ∧ lastRefused.drives[3].returnWait = true ∧ lastRefused.drives[7].cleanWait = true := by
  unfold recordLaw; and_intros <;> decide +kernel

/-- R1, R86, R92, R190: the last close of a DRAINING library leaves it OFFLINE, and its slot goes to the drives that wait: 3 and 9 open
RETURN records, which a later close has still to drain, and 5 and 7 CLEAN ones. -/
theorem test_postingServed_drains :
    (after .postingServed lastPosting).link.lib = .offline
    ∧ (after .postingServed lastPosting).recs.map (fun r => (r.slot, r.kind, r.drive)) =
        [(0, .ret, some 3), (1, .ret, some 9), (2, .clean, some 5), (3, .clean, some 7)] := by decide +kernel

theorem witness_AdmissionRefusesInOrder_not_ready : ready State.reset ∧ State.reset.link.lib ≠ .online := by decide +kernel

/-- The scan of position 2 requested, and in flight by B. -/
def scanRequested (s : State) : State :=
  { s with rail := { s.rail with scanReqs := [⟨2, .supply⟩, ⟨4, .collect⟩], quiesce := true } }

def scanFlying (s : State) : State :=
  inFlight (s.updAcc .b (fun x => { x with scan := some (.station 2 .supply false) })) .b .scan (some (.station (some 2))) 50

theorem witness_CancelByState_scans :
    namesRecord (scanRequested supplyUp) supplyRec ∧ (scanRequested supplyUp).expecting 1 = some 2 ∧ noClaims (scanRequested supplyUp)
    ∧ (∃ q ∈ (scanRequested supplyUp).rail.scanReqs, q.pos = 2)
    ∧ nothingOwed ((scanRequested supplyUp).updPos 2 (fun x => { x with prompt := .none }))
    ∧ namesRecord (scanFlying supplyUp) supplyRec ∧ (scanFlying supplyUp).expecting 1 = some 2 ∧ noClaims (scanFlying supplyUp)
    ∧ ((scanFlying supplyUp).acc .b).scan = some (.station 2 .supply false)
    ∧ nothingOwed ((scanFlying supplyUp).updPos 2 (fun x => { x with prompt := .none })) := by
  and_intros <;> first | decide +kernel | (refine noFaultOwed _ ?_; decide +kernel)

/-- R141: the scan in flight for a supply that is cancelled becomes a late one, its order as it was. -/
theorem test_cancel_makes_the_scan_late :
    ((after (.cancel (.fields 1)) (scanFlying supplyUp)).acc .b).scan = some (.station 2 .supply true)
    ∧ ((after (.cancel (.fields 1)) (scanFlying supplyUp)).acc .b).order = ((scanFlying supplyUp).acc .b).order := by decide +kernel

/-- With the leg of slot 1 in A's queue between two others, a shelf and a station position reserved for it. -/
def queuedBetween (s : State) : State :=
  ((s.setQueue .a [9, 1, 8]).setShelf 2 (.reserved (.record 1))).updPos 5 (fun _ =>
    { StationPos.initial with state := .reserved (.record 1) })

/-- What the forms of a leg withdrawn share. -/
abbrev standsBetween (s : State) (r : Rec) (l : Leg) : Prop :=
  namesRecord s r ∧ r.leg = some l ∧ l.acc = .a ∧ s.rail.queues.a = [9, 1, 8] ∧ noClaims s
    ∧ s.rail.shelf[2] = .reserved (.record 1)
    ∧ s.station.pos[5].state = .reserved (.record 1)

/-- The leg of slot 1 aboard A, on its way to a shelf position. -/
def divertedLeg : Leg := { inHand1 with dst := .shelf (some 2) }

theorem witness_CancelByState_withdrawn :
    standsBetween (queuedBetween (oneEntry (reserved3 (stagedWith cellLeg)))) (stagedWith cellLeg) cellLeg
    ∧ (queuedBetween (oneEntry (reserved3 (stagedWith cellLeg)))).link.available < 2
    ∧ standsBetween (queuedBetween (atPosition2 (reserved3 (stagedWith stationLeg)) .pickup .none)) (stagedWith stationLeg) stationLeg
    ∧ standsBetween (queuedBetween (onShelf1 (reserved3 (stagedWith onShelfLeg)) (some (east 1)))) (stagedWith onShelfLeg) onShelfLeg
    ∧ (queuedBetween (onShelf1 (reserved3 (stagedWith onShelfLeg)) (some (east 1)))).recHome (stagedWith onShelfLeg) = some (east 1)
    ∧ standsBetween (queuedBetween (reserved3 (stagedWith inHand1))) (stagedWith inHand1) inHand1 ∧ inHand1.src = .cell (west 1)
    ∧ (queuedBetween (reserved3 (stagedWith cellLeg))).drives[3].state = .reserved
    ∧ (queuedBetween (reserved3 (stagedWith cellLeg))).drives[3].holding = some 1
    ∧ (∀ x : Fin 16, (queuedBetween (reserved3 (stagedWith cellLeg))).drives[x].state ≠ .free) ∧ cellLeg.inHand = false
    ∧ standsBetween (queuedBetween (reserved3 (stagedWith divertedLeg))) (stagedWith divertedLeg) divertedLeg
    ∧ divertedLeg.state = .aboard ∧ (∀ p, divertedLeg.dst ≠ .station p) := by
  and_intros <;> decide +kernel

/-- R22, R96: the leg withdrawn by a FAULT of its drive leaves the queue, and its reservations are EMPTY. -/
theorem test_fault_withdraws_the_leg :
    (after (.fault 3) (queuedBetween (reserved3 (stagedWith cellLeg)))).rail.queues.a = [9, 8]
    ∧ (after (.fault 3) (queuedBetween (reserved3 (stagedWith cellLeg)))).rail.shelf[2] = .empty
    ∧ (after (.fault 3) (queuedBetween (reserved3 (stagedWith cellLeg)))).station.pos[5].state = .empty := by decide +kernel

/-- A MANUAL mount of an unknown volume whose account is LIMITED. -/
def manualHeld : State :=
  let s := classifying .mount 1 [entryOf 2 .home]
  { s with acct := (s.updAccount 0 (fun x => { x with acc := 9, limit := 9, budget := .limited })).acct }

theorem witness_ClassificationTakesTheOldest_manual_held :
    manualHeld.cls.intake = [1] ∧ calm manualHeld ∧ manualHeld.link.keptUsed < 4
    ∧ verdictOf .mount manualHeld = (.go .manual true, some .hold) ∧ manualHeld.console.queue.length < 16 := by
  and_intros <;> decide +kernel

/-- R49, section 2.8.2: its FOREIGN entry is created at its acceptance all the same. -/
theorem test_classification_held_creates_the_entry :
    (after .classification manualHeld).dir.map (fun e => (e.serial, e.foreign)) = [(vol 2, false), (vol 1, true)]
    ∧ (after .classification manualHeld).recs.map (·.state) = [.held] := by decide +kernel

/-- A cleaning-reel list of two volumes. -/
def twoReels : Vector (Option (Serial × Nat)) 4 := #v[some (vol 1, 50), none, none, some (vol 4, 1)]

/-- ONLINE, with drives 5 and 7 in cleaning wait. -/
def listWaits : State := { drainWait idle with link := idle.link }

/-- DONE to the CLEAN_SUPPLY prompt: the list restored, and the state after the attempts of the drives in cleaning wait. -/
def cleanDone : State :=
  let s := (((waitTwo .free).start.removePrompt 7).countAnswer (.drive 3))
  { s with cleanPrompt := .none, cleanList := s.cleanList.map (fun x => x.map (fun y => if y.uses = 0 then { y with uses := 50 } else y)) }

def cleanAttempted : State :=
  (List.finRange 16).foldl (fun s d => if s.drives[d].cleanWait = true then s.cleaningAttempt d else s) cleanDone

theorem witness_cleaning_attempts :
    ready listWaits ∧ calm listWaits ∧ listWaits.drives[5].cleanWait = true ∧ listWaits.drives[7].cleanWait = true
    ∧ (waitTwo .free).prompt? 7 = some clean7 ∧ calm (waitTwo .free) ∧ cleanDone.cleanList = #v[none, reelOf 1 50, none, none]
    ∧ cleanAttempted.recs.map (fun r => (r.kind, r.drive)) = [(.clean, some 3)] ∧ cleanAttempted.drives[5].cleanWait = true
    ∧ nothingOwed cleanAttempted := by
  and_intros <;> first | decide +kernel | (refine noFaultOwed _ ?_; decide +kernel)

theorem witness_DirDeleteAndCleanList_waits :
    (∀ (i : Fin 4) y, twoReels[i] = some y → serialOk y.1 = true ∧ ∃ e, listWaits.entry? y.1 = some e ∧ e.foreign = false)
    ∧ ∀ (i j : Fin 4) y z, twoReels[i] = some y → twoReels[j] = some z → y.1 = z.1 → i = j :=
  ⟨by intro i y h; fin_cases i <;> simp [twoReels] at h <;> subst h <;> exact ⟨by decide, _, rfl, rfl⟩,
   by
    intro i j y z h k e
    fin_cases i <;> fin_cases j <;> simp [twoReels] at h k <;> subst h <;> subst k <;> first | rfl | exact absurd e (by decide)⟩

/-- R86: a new list sends the drives in cleaning wait to their attempts, and so does DONE to the CLEAN_SUPPLY prompt. -/
theorem test_cleaning_attempts :
    (after (.cleanListSet 5 twoReels) listWaits).recs.map (fun r => (r.serial, r.drive)) =
      [(some (vol 1), some 5), (some (vol 4), some 7)]
    ∧ (after (.answerLine sevenDone) (waitTwo .free)).recs.map (fun r => (r.serial, r.drive)) = [(some (vol 1), some 3)] := by
  decide +kernel

/-- With the guard of A's side OPEN or CLOSED. -/
def westGuard (s : State) (isOpen : Bool) : State := { s with rail := { s.rail with westOpen := isOpen } }

/-- An accessor that holds the zone lock, with this order in flight. -/
abbrev parksFrom (s : State) (op : OrderOp) : Prop :=
  calm s ∧ s.rail.zone = some .a ∧ (s.acc .a).order.map (·.op) = some op

theorem witness_parks :
    parksFrom (westGuard (withZone polling (some .a) []) false) .status
    ∧ (westGuard (withZone polling (some .a) []) false).guardOpen 79 = false
    ∧ parksFrom (westGuard (withZone polling (some .a) []) true) .status
    ∧ (westGuard (withZone polling (some .a) []) true).guardOpen 79 = true ∧ (polling.acc .a).state = .offline
    ∧ parksFrom (westGuard (withZone (recoverAt 2) (some .a) []) false) .recover
    ∧ parksFrom (westGuard (withZone (recoverAt 2) (some .a) []) true) .recover ∧ ((recoverAt 2).acc .a).faults = 2
    ∧ ((recoverAt 2).acc .a).todo = none ∧ (recoverAt 2).rail.queues.a = [] ∧ (recoverAt 2).rail.scanReqs = []
    ∧ (recoverAt 2).audits.a = none := by
  and_intros <;> decide +kernel

/-- R108, R114, R119: an accessor left in the Middle segment parks at its own side. -/
theorem test_parks_aside :
    ((after (.accessorStatusAnswer .a 90 (Vector.replicate 3 false)) (withZone polling (some .a) [])).acc .a).order.map
      (fun o => (o.op, o.col)) = some (.park, 79)
    ∧ ((after (.recoverCompletion .a 90) (withZone (recoverAt 2) (some .a) [])).acc .a).order.map (fun o => (o.op, o.col)) =
      some (.park, 79) := by decide +kernel

/-- A STALLED with a failed scan, and an audit of its own or none. -/
def stalledScan (s : State) (target : ScanTarget) (x : Option Audit) : State :=
  { s.updAcc .a (fun y => { y with scan := some target, failed := some { op := .scan, was := .idle } }) with
    audits := { a := x, b := none } }

/-- The same with no trip. -/
def noTrip (s : State) : State := { s.updAcc .a (fun y => { y with trip := none }) with recs := [] }

/-- What the forms of a scan handed back share. -/
abbrev handsBack (s : State) (target : ScanTarget) : Prop :=
  mayBeTakenOut s ∧ (s.acc .a).scan = some target ∧ nothingOwed (s.updAcc .a (fun x => { x with prompt := .none }))

theorem witness_AccessorOperations_hands_back :
    handsBack (stalledScan stalledTrip (.cell (west 1)) (some pendingAbort)) (.cell (west 1))
    ∧ handsBack (stalledScan stalledUp (.cell (west 1)) (some suspendingAudit)) (.cell (west 1)) ∧ suspendingAudit.abortPending = false
    ∧ handsBack (stalledScan (noTrip stalledTrip) (.cell (west 1)) (some auditNow)) (.cell (west 1))
    ∧ ((stalledScan (noTrip stalledTrip) (.cell (west 1)) (some auditNow)).acc .a).trip = none
    ∧ handsBack (stalledScan stalledUp (.station 2 .supply false) none) (.station 2 .supply false)
    ∧ (∀ q ∈ (stalledScan stalledUp (.station 2 .supply false) none).rail.scanReqs, q.pos ≠ 2)
    ∧ handsBack (stalledScan stalledUp (.station 2 .supply true) none) (.station 2 .supply true) := by
  and_intros <;> first | decide +kernel | (refine noFaultOwed _ ?_; decide +kernel)

/-- R131: the pending abort of an audit whose scan is handed back ends it. -/
theorem test_accessorOffline_ends_the_audit :
    (after (.accessorOffline 5 0) (stalledScan stalledTrip (.cell (west 1)) (some pendingAbort))).audits.a.map
      (fun x => (x.state, x.endedBy)) = some (.done, some .abort) := by decide +kernel

/-- Five READY legs in A's queue, class by class, and a sixth that joins them. -/
def joining : State :=
  let leg := fun (n : Nat) (prio : Fin 4) (front : Bool) =>
    { stagedFor n prio .ready with leg := some { legTo n 3 .ready with prio := prio, front := front } }
  (withRecs idle [leg 1 1 true, leg 2 2 false, leg 3 1 false, leg 4 1 false, leg 5 0 false]).setQueue .a [2, 1, 3, 5]

/-- R95: it stands behind the marked leg and the older ones of its class. -/
theorem test_legReady_joins_by_class_and_age : (joining.legReady 4).rail.queues.a = [2, 1, 3, 4, 5] := by decide +kernel

/-- Two legs aboard, whose records are charged to one account, and the first of them for its prompts. -/
def aboardTwo : State :=
  let s := expiredUp 1
  let s := s.updRec 2 (fun r => { r with leg := r.leg.map (fun l => { l with state := .aboard, holder := some 2 }) })
  let s := s.updRec 1 (fun r => { r with prompts := 3 })
  let s : State := { s with acct := { s.acct with rates := { ratesInitial with promptFee := 100 } } }
  (s.updAcc .a (fun x => { x with holders := #v[.reel (vol 1), .empty, .reel (vol 2)] })).updAccount 5 (fun x =>
    { x with acc := 4294967000 })

theorem witness_MotionLimitExpiry_charges :
    calm aboardTwo ∧ (aboardTwo.acc .a).order = some (expiredOrder 0) ∧ (aboardTwo.acc .a).faults = 1 ∧ aboardTwo.link.available < 2
    ∧ (aboardTwo.acc .a).trip.map (·.legs) = some [1, 2]
    ∧ (∀ r ∈ aboardTwo.recs, ∀ d, r.drive = some d → findsNothing aboardTwo d) := by
  and_intros <;> decide +kernel

/-! ## One command at a time

Expected values are the manual's: the worked sequences of sections 1.8, 2.8, 3.9, 4.9, 5.12, 6.10, 8.9, 9.8 and 10.4.1, or the rule
named. -/

/-- What is kept of a reply queued in a kept entry at the tail. -/
def lastFrame (s : State) : Option Frame := s.link.outq.getLast?.map (·.frame)

/-- R189: power-on empties the tables and leaves the library OFFLINE. -/
theorem test_powerOn_empties_the_tables :
    (after .powerOn lawful).recs = [] ∧ (after .powerOn lawful).dir = [] ∧ (after .powerOn lawful).link.lib = .offline
      ∧ (after .powerOn lawful).acct.accounts[17].acc = 0 := by decide +kernel

/-- R183: a link reset keeps the outbound queue and the backlog. -/
theorem test_linkReset_keeps_the_queues :
    let s : State := { lawful with link := { lawful.link with rx := [{ byte := startMark, ready := true }] } }
    (after .linkReset s).link.rx = [] ∧ (after .linkReset s).link.outq = lawful.link.outq
      ∧ (after .linkReset s).link.backlog = lawful.link.backlog := by decide +kernel

/-- R181, R187: a discarded frame raises CHECK_ERROR and gets no reply. -/
theorem test_frameDiscarded_raises_checkError :
    (after (.frameDiscarded .framing) idle).flagSet .checkError = true ∧ (after (.frameDiscarded .framing) idle).link.outq = [] := by
  decide +kernel

/-- R182: a body shorter than three bytes is answered with operation code 00h and tag 0000h. -/
theorem test_unknownOperation_short_body :
    lastFrame (after (.unknownOperation none) idle) = some (replyFrame 0 0 .badArgument .nothing) := by decide +kernel

/-- R181: the check of the digits 1 to 9 is 29B1h, the generator's published check value with this preset. -/
theorem test_crc_check_value :
    crc [0x31, 0x32, 0x33, 0x34, 0x35, 0x36, 0x37, 0x38, 0x39] = 0x29B1 := by decide +kernel

/-- R182: a MANAGEMENT frame of IDENTIFY, received byte by byte, joins the queue as that command. -/
theorem test_receiveByte_takes_a_frame :
    ((envelope 0x02 [0x05, 0x12, 0x34]).foldl State.receiveByte idle).pending = [.identify 0x1234] := by decide +kernel

/-- R181: a frame whose check fails is discarded. -/
theorem test_receiveByte_check_fails :
    (([0xC5, 0x02, 0x03, 0x05, 0x12, 0x34, 0x00, 0x00] : List Byte).foldl State.receiveByte idle).pending
      = [.frameDiscarded .check] := by decide +kernel

/-- R1, R6, R7: the lowest free slot, urgency 200 as 7, a pool and a hint out of range as absent. -/
theorem test_mount_opens_the_lowest_slot :
    ((after (.mount (.fields mount5)) (withRecs idle twoAccepted)).rec? 1).map
        (fun r => (r.state, r.urgency.val, r.reqPool, r.reqDrive.map Fin.val, r.hint))
      = some (.admitted, 7, none, some 3, none) := by decide +kernel

/-- R6: check 3 comes before check 5. -/
theorem test_enter_duplicate_correlator_first :
    lastFrame (after (.enter (.fields { mount5 with corr := 2, serial := vol 2 })) (withRecs idle twoAccepted))
      = some (plainEnding .duplicateCorrelator 0x03 (some 2)) := by decide +kernel

/-- Section 4.9, step 4: hold stops at the DISMOUNT and UNLOAD is sent. -/
theorem test_dismount_unloads :
    let s : State := { mountedOn { recOf 1 .mount .mounted with holdStart := 4294967290 } .mounted with
      acct := { idle.acct with seconds := 5 } }
    (after (.dismount (.fields { corr := 9, drive := 3 })) s).sent = [.unload 3]
      ∧ ((after (.dismount (.fields { corr := 9, drive := 3 })) s).rec? 1).map (fun r => (r.state, r.holdSecs)) = some (.unloading, 11)
    := by decide +kernel

/-- Section 1.8, step 8: QX4410 on shelf position 0, its second leg READY in B's queue, drive 12 reserved. -/
def crossSide : State :=
  let r : Rec := { recOf 7 .mount .staged with drive := some 12, driveClass := some .k2, disposition := some .robot, legs := 1 }
  let leg := legOf r .b (.shelf (some 0)) (.drive 12)
  let s := withDir (withRecs idle [{ r with leg := some leg }]) [{ entryOf 7 (.onShelf 0) with home := some ⟨30, 5⟩ }]
  let s := ((s.setQueue .b [7]).setShelf 0 (.holding (vol 7) .a)).updAcc .b (fun x => { x with state := .stalled, faults := 1 })
  { s with drives := s.drives.set 12 { Drive.initial with state := .reserved, cls := .k2, pools := 4, holding := some 7 } }

theorem test_cancel_on_the_shelf :
    let t := after (.cancel (.fields 7)) crossSide
    (t.rec? 7).map (fun r => (r.state, r.drive, r.driveClass)) = some (.returning, none, some .k2)
      ∧ (t.rec? 7).map (fun r => (r.legs, r.outcome)) = some (1, some .cancelled)
      ∧ (t.leg? 7).map (fun l => (l.acc, l.src, l.dst)) = some (.a, .shelf (some 0), .cell ⟨30, 5⟩)
      ∧ t.drives[12].state = .free ∧ t.rail.queues.b = [] ∧ t.rail.shelf[0] = .holding (vol 7) .a
      ∧ lastFrame t = some (plainEnding .taken 0x05 (some 7)) := by decide +kernel

/-- Section 1.8, step 7: the QUERY before that CANCEL. -/
theorem test_query_reports_the_queue_position :
    ((lastFrame (after (.queryByCorrelator (.fields 7)) crossSide)).map (fun f =>
      match f with
      | .ending e => (e.drive, e.tail)
      | _ => (none, .none))) = some (some 12, .record .staged 1 0 (some .ready) (some .b) (some 1)) := by decide +kernel

/-- Section 6.10, step 5: a QUERY by serial reports AUDIT_PENDING while the audit has the home cell ahead. -/
theorem test_query_reports_audit_pending :
    ((lastFrame (after (.queryBySerial (.fields (vol 5))) { audited with dir := [{ entryOf 5 .home with verif := .unverified }] })).map
      (fun f =>
        match f with
        | .ending e => e.tail
        | _ => .none)) = some (.volume .home .auditPending .present none) := by decide +kernel

/-- Section 10.4.1, step 1: STATUS to both accessors and to all sixteen drives. -/
theorem test_libraryOnline_polls_every_device :
    polling.link.lib = .goingOnline ∧ polling.link.poll.length = 18 ∧ polling.sent.length = 18 := by decide +kernel

/-- Section 10.4.1, step 3: "reel present" opens the RETURN record in slot 0 and sends UNLOAD. -/
theorem test_driveStatusAnswer_reel_present :
    let t := after (.driveStatusAnswer 5 true) polling
    (t.rec? 0).map (fun r => (r.kind, r.state, r.drive)) = some (.ret, .unloading, some 5)
      ∧ t.drives[5].state = .unloading ∧ t.drives[5].holding = some 0 ∧ t.sent = [.unload 5] := by decide +kernel

/-- Section 10.4.1, step 2: A at column 90 with empty holders stays OFFLINE and is sent PARK to column 79 under the zone lock. -/
theorem test_accessorStatusAnswer_in_the_middle :
    let t := after (.accessorStatusAnswer .a 90 (Vector.replicate 3 false)) polling
    (t.acc .a).state = .offline ∧ (t.acc .a).order.map (fun o => (o.op, o.col)) = some (.park, 79) ∧ t.rail.zone = some .a
      ∧ t.link.poll.length = 17 := by decide +kernel

/-- R119: an occupied holder stalls the accessor with faults 2. -/
theorem test_accessorStatusAnswer_occupied :
    let t := after (.accessorStatusAnswer .a 10 thirdHeld) polling
    (t.acc .a).state = .stalled ∧ (t.acc .a).faults = 2 ∧ (t.acc .a).holders[2] = .unknown ∧ t.flagSet .accessorStalled = true := by
  decide +kernel

/-- R190: with the table empty a LIBRARY_OFFLINE puts the library OFFLINE at once. -/
theorem test_libraryOffline_with_no_record : (after (.libraryOffline 1) idle).link.lib = .offline := by decide +kernel

/-- R188: NOTICE_SUMMARY_CLEAR reports the flags as they stood. -/
theorem test_noticeSummaryClear_reports :
    (after (.noticeSummaryClear 3) flagged).link.flags = 0
      ∧ lastFrame (after (.noticeSummaryClear 3) flagged) = some (replyFrame 0x04 3 .done (.flags 0x1FF)) := by decide +kernel

/-- R191: the vendor code is VR and the part code 7300. -/
theorem test_identify_names_the_part :
    ((lastFrame (after (.identify 3) State.reset)).map (fun f =>
      match f with
      | .reply ⟨_, _, _, .identity v n rev _ _⟩ => (v, n, rev)
      | _ => ((0, 0), 0, 0))) = some ((0x56, 0x52), 7300, 0x41) := by decide +kernel

/-! ### The rule table of section 2.8 -/

def noCare : FieldPat := { value := 0, care := 0 }

/-- A rule field that wants one position set, or one clear. -/
def wants (p : Nat) : FieldPat := { value := choiceBits p, care := choiceBits p }

def wantsNot (p : Nat) : FieldPat := { value := 0, care := choiceBits p }

def pass1Of (src group k mode v next : Nat) : Action :=
  .pass1 { acctSrc := src, n := 0, groupSrc := group, k := k, urgMode := mode, v := v, next := next }

def pass2Of (disp pool : Nat) (useReq : Bool) (prio template : Nat) (exempt : Bool) : Action :=
  .pass2 { disp := disp, pool := pool, useReq := useReq, prio := prio, template := template, exempt := exempt }

/-- An entry of a kind that cares for nothing but some fields, given by their places. -/
def ruleOf (kind : KeyKind) (cares : List (Nat × FieldPat)) (action : Action) : RuleEntry :=
  { kind := kind, fields := (List.range (kindWidths kind).length).map (fun i => (cares.lookup i).getD noCare),
    serial := if kindHasSerial kind then some { chars := vol 0, care := 0 } else none, action := action }

/-- The group-index digits. -/
def groupIs (n : Nat) : FieldPat := { value := numberBits n, care := 0xFFF }

/-- All positions of the location field but HOME and MISPLACED clear. -/
def homeOrMisplaced : FieldPat := { value := 0, care := 0x1FF &&& ~~~(choiceBits 0) &&& ~~~(choiceBits 7) }

def rules28 : List StoredRule :=
  [⟨0, ruleOf .basic [(0, wants 1)] (pass1Of 1 0 40 0 0 3)⟩,
   ⟨1, ruleOf .basic [(0, wants 2)] (pass1Of 1 0 41 0 0 3)⟩,
   ⟨4, ruleOf .volume [(12, wantsNot 0)] (pass1Of 2 0 50 1 2 3)⟩,
   ⟨6, ruleOf .volume [(5, wants 0)] (pass1Of 1 1 0 0 0 4)⟩,
   ⟨8, ruleOf .volume [(7, homeOrMisplaced)] (pass1Of 1 1 0 0 0 3)⟩,
   ⟨16, ruleOf .route [(0, groupIs 40)] (pass2Of 0 0 false 1 0 true)⟩,
   ⟨17, ruleOf .route [(0, groupIs 41)] (pass2Of 1 0 false 0 1 false)⟩,
   ⟨18, ruleOf .route [(0, groupIs 50)] (pass2Of 1 3 true 1 2 false)⟩,
   ⟨20, ruleOf .routeWide [(4, wants 0), (7, wantsNot 0), (10, wants 0)] (pass2Of 2 1 false 2 3 false)⟩,
   ⟨22, ruleOf .routeWide [] (pass2Of 0 1 false 2 0 false)⟩,
   ⟨24, ruleOf .route [(1, wants 5)] (pass2Of 0 2 false 3 0 false)⟩,
   ⟨25, ruleOf .route [(3, wants 2)] (pass2Of 0 2 false 1 0 false)⟩,
   ⟨26, ruleOf .route [] (pass2Of 3 2 false 0 4 false)⟩]

def serialOfChars (a b c d e f : Byte) : Serial := { c1 := a, c2 := b, c3 := c, c4 := d, c5 := e, c6 := f }

/-- PR5123, TX0042, AB1234 and CD9001. -/
def pr5123 : Serial := serialOfChars 0x50 0x52 0x35 0x31 0x32 0x33

def tx0042 : Serial := serialOfChars 0x54 0x58 0x30 0x30 0x34 0x32

def ab1234 : Serial := serialOfChars 0x41 0x42 0x31 0x32 0x33 0x34

def cd9001 : Serial := serialOfChars 0x43 0x44 0x39 0x30 0x30 0x31

def entry28 (ser : Serial) (loc : Location) (ring : Ring) (account : Fin 128) (group : Nat) : Entry :=
  { serial := ser, home := some ⟨150, 7⟩, loc := loc, verif := .verified, ring := ring, account := account, group := group,
    foreign := false, mounts := 0 }

/-- The library of section 2.8, one record at the head of the intake; drives 0 and 8 FREE with the pools 0, 1 and 2. -/
def library28 (r : Rec) : State :=
  let s := withDir (withRecs idle [r]) [entry28 pr5123 .home .absent 17 9, entry28 ab1234 .home .present 4 0,
    entry28 cd9001 .missing .present 0 0]
  let limited : Account := { Account.initial with limit := 1, acc := 1, budget := .limited }
  let free : Drive := { Drive.initial with state := .free }
  { s with
    cls := { s.cls with
      intake := [1], rules := rules28, selMount := .volume,
      checkers := (s.cls.checkers.set 0 ⟨.suffix, 5000, 5999⟩).set 1 ⟨.jobClass, 12, 15⟩ },
    drives := (s.drives.set 0 { free with pools := 3 }).set 8 { free with pools := 4 },
    acct := { s.acct with accounts := (s.acct.accounts.set 33 limited).set 4 limited } }

def admitted28 (kind : ReqKind) (ser : Serial) (urgency : Fin 8) (jobClass : Fin 16) : Rec :=
  { recOf 1 kind .admitted with
    serial := some ser, urgency := urgency, jobClass := jobClass, disposition := none, prio := 0, template := 0, account := 0,
    exempt := false }

def payroll : Rec := { admitted28 .mount pr5123 4 13 with writeIntent := true, path := 2 }

def manual : Rec := { admitted28 .mount tx0042 3 2 with reqPool := some 5, hint := some 33 }

/-- Section 2.8.1. -/
theorem test_classification_payroll :
    let t := after .classification (library28 payroll)
    (t.rec? 1).map (fun r => (r.account.val, r.group, r.clsUrgency.val)) = some (17, 9, 4)
      ∧ (t.rec? 1).map (fun r => (r.disposition, r.pool.val, r.prio.val)) = some (some .stationFirst, 1, 2)
      ∧ (t.rec? 1).map (fun r => (r.template.val, r.exempt, r.budgetHeld)) = some (3, false, false) := by
  decide +kernel

/-- Section 2.8.2: the FOREIGN entry, the budget hold, and the APPROVE prompt with template 15. -/
theorem test_classification_manual_limited :
    let t := after .classification (library28 manual)
    (t.rec? 1).map (fun r => (r.state, r.disposition, r.heldDisp)) = some (.held, some .hold, some .manual)
      ∧ (t.rec? 1).map (fun r => (r.account.val, r.group, r.clsUrgency.val)) = some (33, 50, 2)
      ∧ (t.rec? 1).map (fun r => (r.pool.val, r.template.val, r.budgetHeld)) = some (5, 2, true)
      ∧ (t.entry? tx0042).map (fun e => (e.foreign, e.loc, e.ring)) = some (true, .outside, .unknown)
      ∧ (t.entry? tx0042).map (fun e => (e.account.val, e.home)) = some (33, none)
      ∧ t.console.queue.map (fun p => (p.kind, p.template.val)) = [(.approve, 15)] := by
  decide +kernel

/-- Section 2.8.3: the exempt mark lets the EJECT of a LIMITED account through. -/
theorem test_classify_exempt_eject :
    let c := (library28 payroll).classify (admitted28 .eject ab1234 1 0)
    c.verdict = .go .robot false ∧ c.budget = .limited ∧ (acceptFields c .robot payroll).disposition = some .robot := by
  decide +kernel

/-- Section 2.8.4: a MISSING volume, by the pass-1 default and slot 24. -/
theorem test_classify_missing :
    let c := (library28 payroll).classify (admitted28 .mount cd9001 7 5)
    c.verdict = .refuse .volumeMissing ∧ c.action.pool = 2 ∧ c.action.prio = 3 := by decide +kernel

/-- Section 2.8.5: the reply names slots 4 and 6, and the manual MOUNT is then refused with UNKNOWN_VOLUME. -/
def fullAt4 : RuleEntry := ruleOf .full [(13, wants 3)] (pass1Of 2 0 60 0 0 3)

theorem test_ruleWrite_displaces :
    lastFrame (after (.ruleWrite 1 4 (.entry fullAt4)) (library28 manual)) = some (replyFrame 0x10 1 .done (.displaced [4, 6]))
      ∧ ((after (.ruleWrite 1 4 (.entry fullAt4)) (library28 manual)).classify manual).verdict = .refuse .unknownVolume := by
  decide +kernel

/-- R33: the entry that starts at the slot, and no other, is cleared. -/
theorem test_ruleClear_inside_an_entry :
    lastFrame (after (.ruleClear 1 5) (library28 manual)) = some (replyFrame 0x12 1 .done .noEntry) := by decide +kernel

/-- R37: SUFFIX, JOB_CLASS, URGENCY, HINT and OFF are the five sources, so a sixth code is refused. -/
theorem test_rangeSet_source_out_of_range :
    lastFrame (after (.rangeSet 1 0 5 0 0) idle) = some (replyFrame 0x13 1 .badArgument .nothing) := by decide +kernel

/-- R44: a pass-2 kind is no selector. -/
theorem test_selectorSet_pass2_kind :
    lastFrame (after (.selectorSet 1 0 3 0) idle) = some (replyFrame 0x14 1 .badArgument .nothing) := by decide +kernel

/-! ### The directory and the drives -/

/-- R65: column 99 has no storage cell. -/
theorem test_dirPut_column_99 : lastFrame (after (.dirPut 1 put5Bad) stocked) = some (replyFrame 0x20 1 .badArgument .nothing) := by
  decide +kernel

/-- R66: a cell that another entry is MISPLACED in is taken. -/
theorem test_dirPut_taken_cell : lastFrame (after (.dirPut 1 put5Taken) stocked) = some (replyFrame 0x20 1 .cellTaken .nothing) := by
  decide +kernel

/-- Section 4.9, step 2: the third mount at an interval of 3 sets cleaning-due and returns the counter to 0. -/
def thirdMount : State :=
  let s := withDir (mountedOn (recOf 1 .mount .loading) .loading) [entryOf 1 (.inDrive 3)]
  { s with drives := s.drives.set 3 { s.drives[3] with mounts := 2 },
           acct := { s.acct with rates := { ratesInitial with interval := Vector.replicate 3 3 } } }

theorem test_loaded_falls_due :
    let t := after (.loaded 3 true) thirdMount
    t.drives[3].due = true ∧ t.drives[3].mounts = 0 ∧ t.flagSet .cleaningDue = true ∧ t.drives[3].state = .mounted
      ∧ (t.entry? (vol 1)).map (fun e => (e.mounts, e.ring)) = some (1, .present) := by decide +kernel

/-- Section 4.9, step 7: a CLEAN record's drive reports UNLOADED of its own accord. -/
theorem test_unloaded_after_cleaning :
    let s := withDir (mountedOn { internalRec 1 .clean (some (vol 1)) 3 .mounted with loaded := true } .mounted) [entryOf 1 (.inDrive 3)]
    let s : State := { s with drives := s.drives.set 3 { s.drives[3] with due := true } }
    let t := after (.unloaded 3) s
    t.drives[3].due = false ∧ t.drives[3].state = .awaitingStow ∧ (t.rec? 1).map (·.state) = some .stowing
      ∧ (t.leg? 1).map (fun l => (l.src, l.dst, l.acc)) = some (.drive 3, .cell (west 1), .a) := by decide +kernel

/-- Section 4.9, step 5: CLN001 has no uses left, so CLN002 is taken. -/
theorem test_cleaningAttempt_chooses_a_reel :
    let s : State := { dueWith #v[reelOf 1 0, reelOf 2 7, none, none] with dir := [entryOf 1 .home, entryOf 2 .home] }
    let t := after (.cleaningAttempt 3) s
    (t.rec? 0).map (fun r => (r.kind, r.serial, r.state, r.prio.val)) = some (.clean, some (vol 2), .staged, 3)
      ∧ t.drives[3].state = .reserved ∧ t.drives[3].holding = some 0 := by decide +kernel

/-- R82: FAULT of a MOUNTED drive fixes the outcome and raises DRIVE_FAULT. -/
theorem test_fault_of_a_mounted_drive :
    let t := after (.fault 3) mounted3
    t.drives[3].state = .faulted ∧ (t.rec? 1).map (fun r => (r.state, r.outcome)) = some (.faultwait, some .driveFault)
      ∧ t.flagSet .driveFault = true := by decide +kernel

/-! ### The rail, the audit unit and the station -/

/-- Section 5.12, step 3: the stops of the three-leg trip of accessor A at column 60. -/
def threeLegs : State :=
  let leg (src dst : Place) : Leg := { legTo 1 3 .assigned with src := src, dst := dst }
  let r (n : Nat) (l : Leg) : Rec := { recOf n .mount .staged with leg := some l }
  let s := withRecs idle [r 3 (leg (.cell ⟨30, 5⟩) (.drive 3)), r 9 (leg (.cell ⟨72, 10⟩) (.shelf (some 0))),
    r 12 (leg (.drive 6) (.cell ⟨45, 2⟩))]
  s.updAcc .a (fun x => { x with state := .gathering, column := 60, trip := some (gatherTrip false [3, 9, 12]) })

theorem test_tripStart_orders_the_stops :
    let t := after (.tripStart .a) threeLegs
    t.stops .a = [⟨.pick, .record 9⟩, ⟨.pick, .record 3⟩, ⟨.pick, .record 12⟩, ⟨.place, .record 3⟩, ⟨.place, .record 12⟩,
                  ⟨.place, .record 9⟩]
      ∧ (t.acc .a).state = .running := by decide +kernel

/-- R99, R100: a leg below an audit's yield class, or bound for the station while the latch is OPEN, does not join. -/
theorem test_legJoinsTrip_eligible_legs_only :
    tripOf (after (.legJoinsTrip .a) gatherHeld) .a = some ([4], []) ∧ tripOf (after (.legJoinsTrip .a) gatherLatched) .a = some ([4], [])
      ∧ tripOf (after (.legJoinsTrip .a) (gathering false [4] [1])) .a = some ([4, 1], []) := by decide +kernel

/-- R101: a window that runs out starts the trip, and during QUIESCE leaves its run-out mark. -/
theorem test_gatherWindowExpiry :
    ((after (.gatherWindowExpiry .a) (gathering false [4] [])).acc .a).state = .running
      ∧ ((after (.gatherWindowExpiry .a) (gatherQuiesced false)).acc .a).state = .gathering
      ∧ ((after (.gatherWindowExpiry .a) (gatherQuiesced false)).acc .a).trip = some (gatherTrip true [4]) := by decide +kernel

/-- The first of them is then sent, naming the lowest empty holder (R103). -/
theorem test_orderSend_first_stop :
    let t := after (.orderSend .a) (after (.tripStart .a) threeLegs)
    (t.acc .a).order.map (fun o => (o.op, o.col, o.holder, o.timer)) = some (.pick 9, 72, some 0, 60) := by decide +kernel

/-- Section 5.12, step 9: A's PARK releases the lock, and B, waiting for it, sends its PICK at shelf position 0. -/
theorem test_parkCompletion_hands_over_the_lock :
    let l : Leg := { legTo 1 11 .assigned with acc := .b, src := .shelf (some 0), dst := .drive 11 }
    let s := withRecs idle [{ recOf 1 .mount .staged with leg := some l }]
    let s := running s .b 150 [1] pickFirst
    let s := (s.updAcc .b (fun x => { x with state := .waitingZone })).setShelf 0 (.holding (vol 1) .a)
    let s := withZone (inFlight (s.updAcc .a (fun x => { x with state := .running })) .a .park none 60) (some .a) [.b]
    let t := after (.parkCompletion .a 79) s
    (t.acc .a).state = .idle ∧ (t.acc .a).column = 79 ∧ (t.acc .b).state = .running ∧ t.rail.zone = some .b
      ∧ (t.acc .b).order.map (fun o => (o.op, o.col)) = some (.pick 1, 99) := by decide +kernel

/-- Section 3.9, step 2: a PICK at (40, 3) that reads KT2002 in place of KT2001. -/
theorem test_pickCompletion_wrong_reel :
    let s := { picking with dir := [entryOf 1 .home, { entryOf 2 .home with verif := .unverified }] }
    let t := after (.pickCompletion .a (some (vol 2))) s
    (t.entry? (vol 1)).map (·.loc) = some .missing
      ∧ (t.entry? (vol 2)).map (fun e => (e.loc, e.verif)) = some (.misplaced (west 1), .verified)
      ∧ (t.rec? 1).map (fun r => (r.state, r.outcome)) = some (.posting, some .wrongVolume)
      ∧ (t.acc .a).order.map (fun o => (o.op, o.place)) = some (.place (.putBack .a 0), some (.cell (west 1))) := by decide +kernel

/-- R121, R130: the pair of a PICK takes the place of another serial's pair for the cell, and pairs of other cells stay. -/
theorem test_pickCompletion_one_skip_pair_per_cell :
    let s := { pendingPick with audits := { a := some { anAudit with skip := [(west 1, vol 9), (west 2, vol 2)] }, b := none } }
    (after (.pickCompletion .a (some (vol 1))) s).audits.a.map (·.skip) = some [(west 2, vol 2), (west 1, vol 1)] := by decide +kernel

/-- Section 3.9, step 4: KT2002 read at the cell it is MISPLACED in, and KT2001, whose home it is, no longer pending. -/
def swapped : State :=
  { auditing with dir := [{ entryOf 1 .missing with verif := .auditPending },
                          { entryOf 2 (.misplaced (west 1)) with verif := .auditPending }] }

theorem test_scanCompletion_misplaced :
    let t := after (.scanCompletion .a (.label (vol 2))) swapped
    (t.entry? (vol 1)).map (fun e => (e.loc, e.verif)) = some (.missing, .unverified)
      ∧ (t.entry? (vol 2)).map (fun e => (e.loc, e.verif)) = some (.misplaced (west 1), .verified) := by decide +kernel

/-- Section 6.10, step 3: EMPTY where an entry was expected; the cursor moves on and the next SCAN is sent. -/
theorem test_scanCompletion_empty :
    let t := after (.scanCompletion .a .empty) auditing
    (t.entry? (vol 1)).map (·.loc) = some .missing
      ∧ t.audits.a.map (fun x => (x.scanned, x.missing, x.cursor)) = some (1, 1, some ⟨11, 4⟩)
      ∧ (t.acc .a).order.map (fun o => (o.op, o.place)) = some (.scan, some (.cell ⟨11, 4⟩)) := by decide +kernel

/-- R124: the cell after the last of column 98 is the first of column 101, and the library holds 4,704 cells. -/
theorem test_scan_order : nextCell ⟨98, 23⟩ = ⟨101, 0⟩ ∧ rangeSize ⟨1, 0⟩ ⟨198, 23⟩ = 4704 ∧ rangeSize ⟨50, 0⟩ ⟨50, 5⟩ = 6 := by
  decide

/-- Section 7.6, step 4: a supply SCAN that reads the record's reel. -/
theorem test_scanCompletion_supply :
    let t := after (.scanCompletion .a (.label (vol 1))) supplyScan
    (t.entry? (vol 1)).map (fun e => (e.loc, e.verif)) = some (.atStation 2, .verified)
      ∧ (t.rec? 1).map (·.state) = some .queued ∧ t.station.pos[2].flow = some .pickup ∧ t.station.pos[2].owner = some 1 := by
  decide +kernel

/-- Section 7.6, step 3: the first EMPTY counts a miss and raises a new SUPPLY prompt. -/
theorem test_scanCompletion_supply_empty :
    let t := after (.scanCompletion .a .empty) supplyScan
    t.station.pos[2].misses = 1 ∧ t.station.pos[2].state = .expecting 1 ∧ t.console.queue.map (·.kind) = [.supply]
      ∧ t.dir = supplyScan.dir := by decide +kernel

/-- Section 5.12, its last paragraph: the first expiry of a run, and the second. -/
theorem test_motionLimitExpiry_stalls :
    let t := after (.motionLimitExpiry .a) (expired 0 0)
    (t.acc .a).state = .stalled ∧ (t.acc .a).faults = 1 ∧ t.flagSet .accessorStalled = true
      ∧ t.console.queue.map (fun p => (p.kind, p.template.val, p.urgency)) = [(.fault, 13, 3)] := by decide +kernel

theorem test_motionLimitExpiry_second :
    let t := after (.motionLimitExpiry .a) (expired 1 0)
    (t.entry? (vol 1)).map (·.loc) = some .missing ∧ (t.rec? 1).map (fun r => (r.state, r.outcome)) = some (.posting, some .motionFault)
      ∧ t.console.queue.map (·.urgency) = [7] := by decide +kernel

/-! ### The console -/

/-- Section 8.9: prompts 254 and 255 of that sequence. -/
def collect254 (timer : Nat) : Prompt :=
  { promptAs .collect .stationUnit (.slot 2) 254 2 timer .rearm with template := 12 }

def supply255 (urgency left timer : Nat) (action : ExpiryAction) : Prompt :=
  { promptAs .supply .stationUnit (.slot 11) 255 left timer action with
    template := 5, initial := 2, urgency := urgency, steps := 1, reply := 60 }

def sequence89 (p q : Prompt) : State :=
  let s := withRecs idle [recOf 2 .mount .collect, { recOf 1 .mount .supply with slot := 11, corr := some 11, serial := some (vol 3) }]
  let s := promptOn (promptOn s p) q
  let p0 : StationPos := { StationPos.initial with state := .holding (vol 2), owner := some 2, flow := some .collect, prompt := .up 254 }
  let p1 : StationPos := { StationPos.initial with state := .expecting 11, flow := some .supply, prompt := .up 255 }
  { s with station := { s.station with pos := (s.station.pos.set 0 p0).set 1 p1 }, rail := { s.rail with quiesce := true } }

/-- Step 3: the escalation of prompt 255 changes neither the display nor the lines. -/
theorem test_replyTimerExpiry_escalates :
    let t := after (.replyTimerExpiry 255) (sequence89 (collect254 230) (supply255 2 1 0 .fail))
    t.console.queue.map (fun p => (p.num, p.urgency, p.left, p.timer)) = [(254, 3, 2, 230), (255, 3, 0, 60)]
      ∧ t.console.shown = some (254, 3) ∧ t.console.lines = [] := by decide +kernel

/-- Step 5: prompt 255 fails, slot 11 enters POSTING with OPERATOR_TIMEOUT, position 1 becomes EMPTY. -/
theorem test_replyTimerExpiry_fails :
    let s := withQueue (sequence89 (collect254 270) (supply255 3 0 0 .fail)) 0 27
    let t := after (.replyTimerExpiry 255) s
    t.console.queue.map (·.num) = [254] ∧ t.console.expired = [255] ∧ t.flagSet .promptExpired = true
      ∧ (t.rec? 11).map (fun r => (r.state, r.outcome)) = some (.posting, some .operatorTimeout)
      ∧ t.station.pos[1].state = .empty := by decide +kernel

/-- Step 6: "255 DONE" after the expiry is TOO LATE. -/
theorem test_answerLine_too_late :
    let s : State := { sequence89 (collect254 265) (collect254 265) with
      console := { idle.console with queue := [collect254 265], expired := [255], shown := some (254, 3) } }
    (after (.answerLine ([0x32, 0x35, 0x35] ++ [0x20] ++ [0x44, 0x4F, 0x4E, 0x45])) s).console.lines = [.reply .tooLate] := by
  decide +kernel

/-- Step 8: "254 DONE" is taken: slot 2 and its account count it, a collect scan is requested, the next prompt is shown. -/
theorem test_answerLine_taken :
    let s := sequence89 (collect254 250) (supply255 2 1 30 .fail)
    let t := after (.answerLine ([0x32, 0x35, 0x34] ++ [0x20] ++ [0x44, 0x4F, 0x4E, 0x45])) s
    t.console.queue.map (·.num) = [255] ∧ t.console.shown = some (255, 2) ∧ (t.rec? 2).map (·.prompts) = some 1
      ∧ t.acct.accounts[5].prompts = 1 ∧ t.rail.scanReqs = [⟨0, .collect⟩] ∧ .reply (.taken 254) ∈ t.console.lines := by
  decide +kernel

/-- Steps 1 and 2: from next number 255, the number after it is 0. -/
theorem test_owedPromptRaise_wraps_the_number :
    let s : State := { owingFault with console := { owingFault.console with nextNum := 255 } }
    let t := after .owedPromptRaise s
    t.console.queue.map (fun p => (p.num, p.urgency)) = [(255, 6)] ∧ t.console.nextNum = 0 := by decide +kernel

/-- Step 4: ATTENTION reloads the timer of the prompt shown. -/
theorem test_debouncePeriodEnd_attention :
    (after (.debouncePeriodEnd .attention) attention).console.queue.map (fun p => (p.num, p.timer)) = [(250, 20), (251, 300)] := by
  decide +kernel

/-- R149: an urgency, a reply time and a count of steps out of range are clamped. -/
theorem test_templateSet_clamps :
    (after (.templateSet 1 3 args0) idle).console.templates[3] = { kind := .supply, urgency := 7, reply := 10, steps := 7, action := .rearm }
    := by decide +kernel

/-! ### Accounting -/

/-- Section 9.8.1. -/
def inputs981 : ChargeInputs :=
  { h := 2437, grace := 120, rate := 18, mountFee := 250, legs := 2, legFee := 15, prompts := 1, promptFee := 400, w := 1,
    writeFee := 60, mult := 11 }

theorem test_charge_981 :
    billableMinutes 2437 120 = 39 ∧ inputs981.base = 1442 ∧ inputs981.weighted = 1983 ∧ inputs981.charge = 1983
      ∧ inputs981.clamped = false := by decide

/-- Section 9.8.2. -/
theorem test_charge_982 :
    billableMinutes 1048575 0 = 17477 ∧ mostCharged.base = 71703195 ∧ mostCharged.weighted = 286812780
      ∧ mostCharged.charge = 16777215 ∧ mostCharged.clamped = true := by decide

/-- Section 9.8.1: the build at the PLACE of the stow leg in the home cell. -/
def stowingHome : State :=
  let s := placingHome
  let s := s.updRec 1 (fun r => { r with
    state := .stowing, account := 17, pool := 2, prio := 2, driveClass := some .k2, loaded := true, writeIntent := true, legs := 1,
    prompts := 1, holdSecs := 2437, drive := none })
  let s := s.updAccount 17 (fun x => { x with
    acc := 98500, mounts := 212, hold := 610004, last := 740, warn := 100000, limit := 120000 })
  { s with acct := { s.acct with rates := { ratesInitial with
      grace := #v[0, 120, 0], rate := #v[0, 18, 0], mountFee := (Vector.replicate 8 0).set 2 250, legFee := 15, promptFee := 400,
      writeFee := 60, mult := (Vector.replicate 4 8).set 2 11 } } }

theorem test_placeCompletion_builds_the_usage_record :
    let t := after (.placeCompletion .a) stowingHome
    (t.acct.accounts[17].acc, t.acct.accounts[17].mounts, t.acct.accounts[17].hold, t.acct.accounts[17].last,
      t.acct.accounts[17].budget) = (100483, 213, 612441, 1983, .warned)
      ∧ t.flagSet .budgetWarn = true ∧ (t.rec? 1).map (fun r => (r.state, r.outcome)) = some (.posting, some .dismounted)
      ∧ ((t.rec? 1).bind (·.usage)).map (fun u => (u.m, u.base, u.charge, u.accAfter, u.budgetAfter))
          = some (39, 1442, 1983, 100483, .warned)
      ∧ (t.entry? (vol 1)).map (·.loc) = some .home := by decide +kernel

/-- R178: a threshold at the accumulator moves the account to WARNED. -/
theorem test_accountSet_warns :
    let t := after (.accountSet 1 17 98500 0) account17
    t.acct.accounts[17].budget = .warned ∧ t.flagSet .budgetWarn = true := by decide +kernel

/-- R168: a multiplier of 3 is stored as 4, and one of 33 as 32. -/
theorem test_rateSet_clamps :
    let t := after (.rateSet 1 { ratesInitial with mult := #v[3, 33, 8, 8], legFee := 256 }) idle
    t.acct.rates.mult = #v[4, 32, 8, 8] ∧ t.acct.rates.legFee = 255 := by decide +kernel

/-- R165: the tenth tick counts the second, and the seconds counter wraps. -/
theorem test_tenthTick_rolls_over :
    (after .tenthTick (atTenths 9)).acct.seconds = 0 ∧ (after .tenthTick (atTenths 9)).acct.tenths = 0
      ∧ (after .tenthTick (atTenths 8)).acct.tenths = 9 := by decide +kernel

/-- R111, R112: a second counts a motion-limit timer only while the guard of the accessor's segment is CLOSED. -/
theorem test_secondTick_guard :
    ((after .secondTick parking).acc .a).order.map (·.timer) = some 59
      ∧ ((after .secondTick { parking with rail := { parking.rail with westOpen := true } }).acc .a).order.map (·.timer) = some 60 := by
  decide +kernel

end Tests

end Sys2Proof
end

section
/-! PROOFS. RULE_READ and RULE_CLEAR (R32, R33). Under the table's law two valid entries cover no slot in common, so the entry found at a slot
is the only one there, and the clearing of the entries that start at a slot removes that one alone. -/

namespace Sys2Proof

namespace RuleTable

open Machine Safety

/-! ## The table: which entry covers a slot -/

theorem covers_iff (r : StoredRule) (slot : Nat) :
    r.covers slot = true ↔ r.start ≤ slot ∧ slot < r.start + kindSize r.entry.kind := by
  simp [StoredRule.covers]

theorem kindSize_pos (k : KeyKind) : 0 < kindSize k := by
  cases k <;> decide

/-- An entry covers its starting slot. -/
theorem covers_start (r : StoredRule) : r.covers r.start = true := by
  have hpos := kindSize_pos r.entry.kind
  exact (covers_iff r r.start).2 ⟨le_rfl, by omega⟩

/-- Neither of two entries reaches into the run of slots of the other. -/
def apart (r q : StoredRule) : Prop :=
  r.start + kindSize r.entry.kind ≤ q.start ∨ q.start + kindSize q.entry.kind ≤ r.start

theorem apart_symm : Std.Symm apart := ⟨fun _ _ => Or.symm⟩

/-- Entries that stand apart cover no slot in common. -/
theorem not_apart_of_covers {r q : StoredRule} {slot : Nat} (hr : r.covers slot = true) (hq : q.covers slot = true) :
    ¬ apart r q := by
  rw [covers_iff] at hr hq
  unfold apart
  omega

/-- R29: no two valid entries of a lawful table cover one slot. -/
theorem eq_of_covers {s : State} (hlaw : ruleLaw s) {r q : StoredRule} {slot : Nat} (hr : r ∈ s.cls.rules)
    (hq : q ∈ s.cls.rules) (hrc : r.covers slot = true) (hqc : q.covers slot = true) : r = q := by
  obtain ⟨-, hordered⟩ := hlaw
  have hapart : s.cls.rules.Pairwise apart := hordered.imp Or.inl
  have := apart_symm
  by_contra hne
  exact not_apart_of_covers hrc hqc (hapart.forall hr hq hne)

/-- The valid entry that covers a slot is the one the table gives there. -/
theorem ruleAt_of_covers {s : State} (hlaw : ruleLaw s) {q : StoredRule} {slot : Nat} (hq : q ∈ s.cls.rules)
    (hqc : q.covers slot = true) : ruleAt s.cls.rules slot = some q := by
  cases hfind : ruleAt s.cls.rules slot with
  | none => exact absurd hqc (List.find?_eq_none.1 hfind q hq)
  | some r =>
    have hrc : r.covers slot = true := List.find?_some (p := fun x : StoredRule => x.covers slot) hfind
    rw [eq_of_covers hlaw (List.mem_of_find?_eq_some hfind) hq hrc hqc]

theorem ruleAt_eq_none_iff (rules : List StoredRule) (slot : Nat) :
    ruleAt rules slot = none ↔ ∀ x ∈ rules, slot < x.start ∨ x.start + kindSize x.entry.kind ≤ slot := by
  simp only [ruleAt, List.find?_eq_none, covers_iff]
  exact forall₂_congr fun x _ => by omega

/-- No two valid entries of a lawful table start at one slot, so clearing by starting slot takes out one entry. -/
theorem filter_start_ne {s : State} (hlaw : ruleLaw s) {q : StoredRule} (hq : q ∈ s.cls.rules) :
    s.cls.rules.filter (fun r => r.start ≠ q.start) = s.cls.rules.filter (fun r => r ≠ q) := by
  have honly : ∀ r ∈ s.cls.rules, r.start = q.start ↔ r = q := fun r hr =>
    ⟨fun hstart => eq_of_covers hlaw hr hq (covers_start r) (hstart ▸ covers_start q), fun h => h ▸ rfl⟩
  exact List.filter_congr fun r hr => by simp [honly r hr]

theorem any_start_iff (rules : List StoredRule) (slot : Nat) :
    rules.any (fun r => r.start = slot) = true ↔ ∃ q ∈ rules, q.start = slot := by
  simp

/-! ## The two operations, branch by branch -/

/-- A reply given while a kept entry is free and no order is sent is the answered state. -/
theorem reply_answered {s : State} (h : s.link.keptFree = true) (hs : s.sent = []) (op : Byte) (tag : Tag) (code : ReplyCode)
    (result : Result) : s.reply op tag code result = answered s (replyFrame op tag code result) :=
  immediate_answered h hs _

/-- The reply to a frame that arrives while receive-ready is given. -/
theorem reply_start {s : State} (hready : ready s) (op : Byte) (tag : Tag) (code : ReplyCode) (result : Result) :
    s.start.reply op tag code result = answered s (replyFrame op tag code result) :=
  reply_answered (s := s.start) (keptFree_of_ready hready) rfl op tag code result

/-- The reply to such a frame once it has stored a new table. -/
theorem reply_start_setRules {s : State} (hready : ready s) (rules : List StoredRule) (op : Byte) (tag : Tag) (code : ReplyCode)
    (result : Result) :
    (s.start.setRules rules).reply op tag code result = answered (s.setRules rules) (replyFrame op tag code result) :=
  reply_answered (s := s.start.setRules rules) (keptFree_of_ready hready) rfl op tag code result

theorem exec_ruleRead (tag : Tag) (slot : Nat) (s : State) : exec (.ruleRead tag slot) s = execRuleRead tag slot s := rfl

theorem exec_ruleClear (tag : Tag) (slot : Nat) (s : State) : exec (.ruleClear tag slot) s = execRuleClear tag slot s := rfl

section Branches

variable {s : State} {slot : Nat} (tag : Tag)

theorem exec_ruleRead_of_gt (hready : ready s) (hslot : 511 < slot) :
    exec (.ruleRead tag slot) s = .next (answered s (replyFrame 0x11 tag .badArgument .nothing)) := by
  simp only [exec_ruleRead, execRuleRead, arrive_of_ready hready, if_pos hslot, State.bad, reply_start hready]

theorem exec_ruleRead_of_some (hready : ready s) (hslot : slot ≤ 511) {q : StoredRule} (hq : ruleAt s.cls.rules slot = some q) :
    exec (.ruleRead tag slot) s = .next (answered s (replyFrame 0x11 tag .done (.ruleEntry q.start q.entry))) := by
  simp only [exec_ruleRead, execRuleRead, arrive_of_ready hready, if_neg hslot.not_gt, State.start_cls, hq, State.done,
    reply_start hready]

theorem exec_ruleRead_of_none (hready : ready s) (hslot : slot ≤ 511) (hnone : ruleAt s.cls.rules slot = none) :
    exec (.ruleRead tag slot) s = .next (answered s (replyFrame 0x11 tag .done .noEntry)) := by
  simp only [exec_ruleRead, execRuleRead, arrive_of_ready hready, if_neg hslot.not_gt, State.start_cls, hnone, State.done,
    reply_start hready]

theorem exec_ruleClear_of_gt (hready : ready s) (hslot : 511 < slot) :
    exec (.ruleClear tag slot) s = .next (answered s (replyFrame 0x12 tag .badArgument .nothing)) := by
  simp only [exec_ruleClear, execRuleClear, arrive_of_ready hready, if_pos hslot, State.bad, reply_start hready]

theorem exec_ruleClear_of_start (hready : ready s) (hslot : slot ≤ 511) (hstart : ∃ q ∈ s.cls.rules, q.start = slot) :
    exec (.ruleClear tag slot) s =
      .next (answered (s.setRules (s.cls.rules.filter (fun r => r.start ≠ slot))) (replyFrame 0x12 tag .done (.cleared slot))) := by
  simp only [exec_ruleClear, execRuleClear, arrive_of_ready hready, if_neg hslot.not_gt, State.start_cls,
    if_pos ((any_start_iff _ _).2 hstart), State.done, reply_start_setRules hready]

theorem exec_ruleClear_of_no_start (hready : ready s) (hslot : slot ≤ 511) (hnone : ∀ x ∈ s.cls.rules, x.start ≠ slot) :
    exec (.ruleClear tag slot) s = .next (answered s (replyFrame 0x12 tag .done .noEntry)) := by
  have hany : ¬ s.cls.rules.any (fun r => r.start = slot) = true := by
    rw [any_start_iff]
    rintro ⟨q, hq, hstart⟩
    exact hnone q hq hstart
  simp only [exec_ruleClear, execRuleClear, arrive_of_ready hready, if_neg hslot.not_gt, State.start_cls, if_neg hany,
    State.done, reply_start hready]

end Branches

/-- Settles O34: each clause is one branch of its operation; the table's law makes the covering entry, and the entry that starts at
the slot, the only one. -/
theorem ruleReadAndClear : Obligations.RuleReadAndClear := by
  unfold Obligations.RuleReadAndClear
  intro tag slot q s hready hlaw
  refine ⟨fun hgt => ?refused, fun hle hq hlow hhigh => ?covered, fun hle hfree => ?uncovered, fun hle hq hstart => ?cleared,
    fun hle hnone => ?nothingStarts⟩
  case refused => exact ⟨exec_ruleRead_of_gt tag hready hgt, exec_ruleClear_of_gt tag hready hgt⟩
  case covered =>
    have hcovers : q.covers slot = true := (covers_iff q slot).2 ⟨hlow, hhigh⟩
    exact exec_ruleRead_of_some tag hready hle (ruleAt_of_covers hlaw hq hcovers)
  case uncovered => exact exec_ruleRead_of_none tag hready hle ((ruleAt_eq_none_iff _ _).2 hfree)
  case cleared =>
    subst hstart
    rw [exec_ruleClear_of_start tag hready hle ⟨q, hq, rfl⟩, filter_start_ne hlaw hq, State.setRules]
  case nothingStarts => exact exec_ruleClear_of_no_start tag hready hle hnone

end RuleTable

end Sys2Proof
end

section
/-! PROOFS. The charge (R171). Each step of the rule is an equation of the model's own function; the bounds follow the steps in the order
of the rule's table, each from the one before it and the ranges of the inputs. -/

namespace Sys2Proof

namespace Charge

open Machine

/-! ## Step 1: billable minutes -/

section Minutes

variable {h grace : Nat}

theorem billableMinutes_of_le (hle : h ≤ grace) : billableMinutes h grace = 0 := if_pos hle

theorem billableMinutes_of_lt (hlt : grace < h) : billableMinutes h grace = (h - grace + 59) / 60 := if_neg hlt.not_ge

/-- Beyond the grace the minutes are the least number of whole minutes that holds the seconds. -/
theorem billableMinutes_roundsUp (hlt : grace < h) :
    60 * billableMinutes h grace < h - grace + 60 ∧ h - grace ≤ 60 * billableMinutes h grace := by
  rw [billableMinutes_of_lt hlt]
  omega

theorem billableMinutes_le (hmax : h ≤ 1048575) : billableMinutes h grace ≤ 17477 := by
  rcases le_or_gt h grace with hle | hlt
  · rw [billableMinutes_of_le hle]
    exact Nat.zero_le _
  · obtain ⟨hbelow, -⟩ := billableMinutes_roundsUp hlt
    omega

end Minutes

/-! ## Step 4: the cut-off -/

section Clamp

variable {c : ChargeInputs}

theorem charge_of_le (hle : c.weighted ≤ 16777215) : c.charge = c.weighted ∧ c.clamped = false :=
  ⟨min_eq_left hle, decide_eq_false hle.not_gt⟩

theorem charge_of_gt (hgt : 16777215 < c.weighted) : c.charge = 16777215 ∧ c.clamped = true :=
  ⟨min_eq_right hgt.le, decide_eq_true hgt⟩

end Clamp

/-! ## The bounds of the values within -/

/-- The ranges that the rate table (R168) and the record (R4, R166, R170) keep the inputs in. -/
structure InRange (c : ChargeInputs) : Prop where
  h : c.h ≤ 1048575
  rate : c.rate ≤ 4095
  mountFee : c.mountFee ≤ 65535
  legs : c.legs ≤ 15
  legFee : c.legFee ≤ 255
  prompts : c.prompts ≤ 15
  promptFee : c.promptFee ≤ 4095
  w : c.w ≤ 1
  writeFee : c.writeFee ≤ 4095
  mult : c.mult ≤ 32

namespace InRange

variable {c : ChargeInputs}

theorem minutesFee_le (hc : InRange c) : billableMinutes c.h c.grace * c.rate ≤ 71568315 :=
  Nat.mul_le_mul (billableMinutes_le hc.h) hc.rate

theorem base_le (hc : InRange c) : c.base ≤ 71703195 := by
  have hminutes := hc.minutesFee_le
  have hlegs : c.legs * c.legFee ≤ 15 * 255 := Nat.mul_le_mul hc.legs hc.legFee
  have hprompts : c.prompts * c.promptFee ≤ 15 * 4095 := Nat.mul_le_mul hc.prompts hc.promptFee
  have hwrite : c.w * c.writeFee ≤ 1 * 4095 := Nat.mul_le_mul hc.w hc.writeFee
  have hmount := hc.mountFee
  unfold ChargeInputs.base
  omega

theorem base_mul_mult_le (hc : InRange c) : c.base * c.mult ≤ 2294502240 :=
  Nat.mul_le_mul hc.base_le hc.mult

theorem weighted_le (hc : InRange c) : c.weighted ≤ 286812780 :=
  Nat.div_le_div_right (c := 8) (Nat.add_le_add_right hc.base_mul_mult_le 4)

end InRange

/-- The inputs at the top of their ranges, with no grace. -/
def largestInputs : ChargeInputs :=
  { h := 1048575, grace := 0, rate := 4095, mountFee := 65535, legs := 15, legFee := 255, prompts := 15, promptFee := 4095,
    w := 1, writeFee := 4095, mult := 32 }

theorem largestInputs_reachBounds :
    billableMinutes largestInputs.h largestInputs.grace = 17477 ∧ 17477 * largestInputs.rate = 71568315
      ∧ largestInputs.base = 71703195 ∧ largestInputs.base * largestInputs.mult = 2294502240
      ∧ largestInputs.weighted = 286812780 := by
  decide

/-- Settles O59: the steps of R171 one by one, then its table of bounds over inputs in range. -/
theorem chargeIsComputed : Obligations.ChargeIsComputed := by
  unfold Obligations.ChargeIsComputed
  refine ⟨fun c => ⟨billableMinutes c.h c.grace, rfl, billableMinutes_of_le, fun hlt => ?beyondGrace, rfl, rfl, charge_of_le,
    charge_of_gt, fun _ _ _ => ⟨rfl, rfl, rfl, rfl⟩, ?bounds⟩, largestInputs_reachBounds⟩
  case beyondGrace => exact ⟨billableMinutes_of_lt hlt, billableMinutes_roundsUp hlt⟩
  case bounds =>
    intro hh hrate hmountFee hlegs hlegFee hprompts hpromptFee hw hwriteFee hmult
    have hc : InRange c := ⟨hh, hrate, hmountFee, hlegs, hlegFee, hprompts, hpromptFee, hw, hwriteFee, hmult⟩
    exact ⟨by omega, billableMinutes_le hh, hc.minutesFee_le, hc.base_le, hc.base_mul_mult_le, hc.weighted_le⟩

end Charge

end Sys2Proof
end

section
/-! PROOFS. The notice operations and IDENTIFY (R187, R188, R191). A notice raised while no other one is still to be offered sets its flag
and offers its frame by the enables as they then stand; so what a later notice does is read off the link that each operation leaves. -/

namespace Sys2Proof

namespace NoticeOps

open Machine Safety RuleTable

/-! ## The nine flags -/

/-- No two kinds of notice share a flag (R187). -/
theorem noticeBit_inj {k j : NoticeKind} : noticeBit k = noticeBit j ↔ k = j := by
  cases k <;> cases j <;> decide

theorem noticeBit_lt (k : NoticeKind) : noticeBit k < 9 := by
  cases k <;> decide

/-- The mask of a kind holds that kind's bit alone. -/
theorem getLsbD_noticeMask (k j : NoticeKind) : (noticeMask j).getLsbD (noticeBit k) = decide (k = j) := by
  have hmask : noticeMask j = BitVec.twoPow 9 (noticeBit j) := rfl
  rw [hmask, BitVec.getLsbD_twoPow]
  simp [noticeBit_lt, noticeBit_inj, eq_comm]

/-- After a notice its own flag is set, and every other flag is as it was. -/
theorem flagSet_noticed (s : State) (n : Notice) (k : NoticeKind) :
    (noticed s n).flagSet k = (s.flagSet k || decide (k = n.kind)) := by
  simp only [State.flagSet, noticed, BitVec.getLsbD_or, getLsbD_noticeMask]

/-- With all nine bits zero no flag is set. -/
theorem flagSet_of_flags_zero {s : State} (h : s.link.flags = 0) (k : NoticeKind) : s.flagSet k = false := by
  rw [State.flagSet, h]
  exact BitVec.getLsbD_zero

/-! ## A notice raised and offered -/

theorem setFlag_enabled (s : State) (k j : NoticeKind) : (s.setFlag k).enabled j = s.link.enables.getLsbD (noticeBit j) := rfl

theorem setFlag_available (s : State) (k : NoticeKind) : (s.setFlag k).link.available = s.link.available := rfl

/-- The setting of its flag has no part in whether a notice's frame is queued. -/
theorem offerNotice_setFlag (s : State) (n : Notice) : (s.setFlag n.kind).offerNotice n = noticed s n := by
  rw [State.offerNotice, setFlag_enabled, setFlag_available, noticed, offered]
  simp only [Bool.and_eq_true, decide_eq_true_eq]
  split
  · rfl
  · rw [List.append_nil]
    rfl

/-- A notice raised while no other one is still to be offered. -/
theorem offerNotices_raise {s : State} (h : nothingRaised s) (k : NoticeKind) (subject : NoticeSubject) :
    (s.raise k subject).offerNotices = noticed s { kind := k, subject := subject } := by
  cases s
  change _ = [] at h
  subst h
  exact offerNotice_setFlag _ { kind := k, subject := subject }

theorem exec_frameDiscarded {s : State} (h : nothingRaised s) (cause : DiscardCause) :
    exec (.frameDiscarded cause) s = .next { noticed s { kind := .checkError, subject := .nothing } with sent := [] } :=
  congrArg Host.Outcome.next (offerNotices_raise (s := s.start) h .checkError .nothing)

/-! ## The three operations -/

section Operations

variable {s : State} (tag : Tag)

/-- The reply to a frame that arrives while receive-ready is given, once it has stored the enables and flags. -/
theorem reply_start_setNotices {s : State} (hready : ready s) (enables flags : BitVec 9) (op : Byte) (code : ReplyCode)
    (result : Result) :
    ({ s.start with link := { s.link with enables := enables, flags := flags } } : State).reply op tag code result =
      answered { s with link := { s.link with enables := enables, flags := flags } } (replyFrame op tag code result) :=
  reply_answered (s := { s.start with link := { s.link with enables := enables, flags := flags } })
    (keptFree_of_ready hready) rfl op tag code result

theorem exec_noticeEnable (hready : ready s) (e : BitVec 9) :
    exec (.noticeEnable tag e) s =
      .next (answered { s with link := { s.link with enables := e } } (replyFrame 0x03 tag .done (.enables e))) := by
  rw [exec, execNoticeEnable, arrive_of_ready hready]
  exact congrArg Host.Outcome.next (reply_start_setNotices tag hready e s.link.flags _ _ _)

theorem exec_noticeSummaryClear (hready : ready s) :
    exec (.noticeSummaryClear tag) s =
      .next (answered { s with link := { s.link with flags := 0 } } (replyFrame 0x04 tag .done (.flags s.link.flags))) := by
  rw [exec, execNoticeSummaryClear, arrive_of_ready hready]
  exact congrArg Host.Outcome.next (reply_start_setNotices tag hready s.link.enables 0 _ _ _)

theorem exec_identify (hready : ready s) :
    exec (.identify tag) s =
      .next (answered s (replyFrame 0x05 tag .done (.identity (0x56, 0x52) 7300 0x41 s.link.lib capacities))) := by
  rw [exec, execIdentify, arrive_of_ready hready]
  exact congrArg Host.Outcome.next (reply_start hready _ _ _ _)

end Operations

/-! ## The obligations -/

/-- Settles O17: each operation answers and stores its nine bits. A frame discarded afterwards offers its notice by the new enables, and
sets CHECK_ERROR alone among the cleared flags. -/
theorem noticeOperations : Obligations.NoticeOperations := by
  unfold Obligations.NoticeOperations
  intro tag e s hready enabled cleared raised
  have hcleared : ∀ k : NoticeKind, cleared.flagSet k = false := flagSet_of_flags_zero rfl
  refine ⟨exec_noticeEnable tag hready e, exec_noticeSummaryClear tag hready, hcleared, fun hnone => ⟨?afterEnable, ?afterClear⟩⟩
  case afterEnable => exact exec_frameDiscarded (s := enabled) hnone .check
  case afterClear =>
    have hflag : ∀ k : NoticeKind, (noticed cleared raised).flagSet k = decide (k = .checkError) := fun k => by
      rw [flagSet_noticed, hcleared, Bool.false_or]
    exact ⟨_, exec_frameDiscarded (s := cleared) hnone .check, (hflag _).trans (decide_eq_true rfl),
      fun k hk => (hflag k).trans (decide_eq_false hk)⟩

/-- Settles O18: IDENTIFY only replies, and the capacities of the model are those of R191's table. -/
theorem identifyReply : Obligations.IdentifyReply := by
  unfold Obligations.IdentifyReply
  intro tag s hready
  exact exec_identify tag hready

end NoticeOps

end Sys2Proof
end

section
/-! PROOFS. What every operation within an event keeps (`Edit`): the laws of the part, the tables that the host alone loads, the time base
and the commands that wait. Each primitive update of the state is shown once to be such an edit; edits compose. -/

namespace Sys2Proof

namespace Upkeep

open Machine Safety

/-! ## What the laws read of a state -/

/-- What the laws read of a request record. -/
def recFacts (r : Rec) : Nat × Origin × Option Corr × Nat × Nat × Nat :=
  (r.slot, r.origin, r.corr, r.legs, r.prompts, r.holdSecs)

/-- What the laws and the host's settings read of an accessor. -/
def accFacts (x : AccRec) : Option Order × Nat × Nat × Nat × Nat × Nat :=
  (x.order, x.gather, x.limPick, x.limPlace, x.limScan, x.limRecover)

/-- What the laws and the host's settings read of a drive. -/
def driveFacts (d : Drive) : DriveClass × BitVec 8 × Nat := (d.cls, d.pools, d.mounts)

/-- Everything that the laws of the part, the host's tables and the time base read of a state. -/
structure Facts where
  link : Link
  recs : List (Nat × Origin × Option Corr × Nat × Nat × Nat)
  cls : Classifier
  dir : List Entry
  drives : Vector (DriveClass × BitVec 8 × Nat) 16
  accA : Option Order × Nat × Nat × Nat × Nat × Nat
  accB : Option Order × Nat × Nat × Nat × Nat × Nat
  zone : Option Acc
  console : Console
  acct : Accounting
  pending : List Instr

def facts (s : State) : Facts :=
  { link := s.link, recs := s.recs.map recFacts, cls := s.cls, dir := s.dir, drives := s.drives.map driveFacts,
    accA := accFacts (s.acc .a), accB := accFacts (s.acc .b), zone := s.rail.zone, console := s.console, acct := s.acct,
    pending := s.pending }

/-! ## The edit -/

/-- The saturating counts of a record are within their ends (R4, R166). -/
def recCounts (r : Rec) : Prop := r.legs ≤ 15 ∧ r.prompts ≤ 15 ∧ r.holdSecs ≤ 1048575

/-- The saturating counts of an account are within their ends (R169). -/
def accountCounts (a : Account) : Prop :=
  a.acc ≤ 4294967295 ∧ a.mounts ≤ 65535 ∧ a.hold ≤ 4294967295 ∧ a.prompts ≤ 65535 ∧ a.last ≤ 16777215

/-- What the replies of the part read of the link: the backlog, the kept entries in use and the mark of the one late frame. -/
def replies (l : Link) : List Frame × Nat × Bool := (l.backlog, l.keptUsed, l.lateTaken)

/-- From `s` to `t` the part has done work within an event: no frame was answered, no table of the host loaded, no time counted and no
command taken; every law that held holds. -/
structure Edit (s t : State) : Prop where
  pending : t.pending = s.pending
  tables : hostTables t = hostTables s
  time : t.acct.seconds = s.acct.seconds ∧ t.acct.tenths = s.acct.tenths
  flags : ∀ k, s.flagSet k = true → t.flagSet k = true
  replies : replies t.link = replies s.link
  intake : t.cls.intake.length ≤ s.cls.intake.length
  budget : budgetLaw s → budgetLaw t
  console : displayLaw s ∧ promptLaw s → displayLaw t ∧ promptLaw t
  zone : zoneLaw s → zoneLaw t
  ordinary : s.link.ordUsed ≤ 28 → t.link.ordUsed ≤ 28
  directory : directoryLaw s → directoryLaw t
  record : recordLaw s → recordLaw t
  drain : drainLaw s → drainLaw t
  counts : countLaw s → countLaw t

namespace Edit

theorem refl (s : State) : Edit s s :=
  ⟨rfl, rfl, ⟨rfl, rfl⟩, fun _ h => h, rfl, le_rfl, id, id, id, id, id, id, id, id⟩

theorem trans {s u t : State} (h : Edit s u) (g : Edit u t) : Edit s t where
  pending := g.pending.trans h.pending
  tables := g.tables.trans h.tables
  time := ⟨g.time.1.trans h.time.1, g.time.2.trans h.time.2⟩
  flags k := g.flags k ∘ h.flags k
  replies := g.replies.trans h.replies
  intake := g.intake.trans h.intake
  budget := g.budget ∘ h.budget
  console := g.console ∘ h.console
  zone := g.zone ∘ h.zone
  ordinary := g.ordinary ∘ h.ordinary
  directory := g.directory ∘ h.directory
  record := g.record ∘ h.record
  drain := g.drain ∘ h.drain
  counts := g.counts ∘ h.counts

end Edit

/-! ## Laws by what they read -/

theorem recordLaw_iff (s : State) :
    recordLaw s ↔ (∀ x ∈ s.recs.map recFacts, x.1 < 64) ∧ ((s.recs.map recFacts).map (·.1)).Nodup
      ∧ ((s.recs.map recFacts).Pairwise (fun x y => x.2.1 = .channel → y.2.1 = .channel → x.2.2.1 ≠ y.2.2.1))
      ∧ s.cls.intake.Nodup ∧ ∀ n ∈ s.cls.intake, n ∈ (s.recs.map recFacts).map (·.1) := by
  simp only [recordLaw, List.pairwise_map, List.map_map, List.forall_mem_map]
  rfl

theorem drainLaw_iff (s : State) : drainLaw s ↔ (s.link.lib = .draining → s.recs.map recFacts ≠ []) := by
  simp [drainLaw]

theorem countLaw_iff (s : State) :
    countLaw s ↔ (∀ n : Fin 128, accountCounts s.acct.accounts[n]) ∧ (∀ d : Fin 16, (s.drives.map driveFacts)[d].2.2 ≤ 255)
      ∧ (∀ x ∈ s.recs.map recFacts, x.2.2.2.1 ≤ 15 ∧ x.2.2.2.2.1 ≤ 15 ∧ x.2.2.2.2.2 ≤ 1048575)
      ∧ ∀ e ∈ s.dir, e.mounts ≤ 65535 := by
  simp [countLaw, accountCounts, recFacts, driveFacts]

theorem zoneLaw_iff (s : State) :
    zoneLaw s ↔ (∀ o, (accFacts (s.acc .a)).1 = some o → 80 ≤ o.col → o.col ≤ 119 → s.rail.zone = some .a)
      ∧ ∀ o, (accFacts (s.acc .b)).1 = some o → 80 ≤ o.col → o.col ≤ 119 → s.rail.zone = some .b := by
  constructor
  · exact fun h => ⟨h .a, h .b⟩
  · rintro ⟨ha, hb⟩ acc
    cases acc
    · exact ha
    · exact hb

/-- The five values of an accessor that ACCESSOR_SET gives. -/
def accSettings (x : AccRec) : Nat × Nat × Nat × Nat × Nat := (x.gather, x.limPick, x.limPlace, x.limScan, x.limRecover)

/-- The host's tables are the same when everything they read is. -/
theorem hostTables_congr {s t : State} (enables : t.link.enables = s.link.enables)
    (cls : { t.cls with intake := [] } = { s.cls with intake := [] }) (rates : t.acct.rates = s.acct.rates)
    (templates : t.console.templates = s.console.templates)
    (thresholds : t.acct.accounts.map (fun a => (a.warn, a.limit)) = s.acct.accounts.map (fun a => (a.warn, a.limit)))
    (drives : t.drives.map (fun d => (d.cls, d.pools)) = s.drives.map (fun d => (d.cls, d.pools)))
    (accs : ∀ acc, accSettings (t.acc acc) = accSettings (s.acc acc))
    (inputs : t.console.inputs.map (fun x => (x.activeHigh, x.code)) = s.console.inputs.map (fun x => (x.activeHigh, x.code))) :
    hostTables t = hostTables s := by
  simp only [Classifier.mk.injEq, true_and] at cls
  obtain ⟨rules, checkers, mount, eject, enter, first, second⟩ := cls
  have settings : (hostTables t).accessorSettings = (hostTables s).accessorSettings := funext accs
  simp only [hostTables] at settings ⊢
  simp only [enables, rates, templates, thresholds, drives, inputs, settings, rules, checkers, mount, eject, enter, first, second]

namespace Edit

variable {s t u : State}

/-- What leaves every fact as it was is an edit. -/
theorem of_facts (h : facts t = facts s) : Edit s t := by
  obtain ⟨hlink, hrecs, hcls, hdir, hdrives, ha, hb, hzone, hconsole, hacct, hpending⟩ := Facts.mk.inj h
  refine
    { pending := hpending, tables := ?_, time := by rw [hacct]; exact ⟨rfl, rfl⟩, flags := fun k => by simp only [State.flagSet, hlink]; exact id
      replies := by rw [hlink], intake := by rw [hcls], budget := by simp only [budgetLaw, hacct]; exact id
      console := by simp only [displayLaw, promptLaw, hconsole]; exact id
      zone := by simp only [zoneLaw_iff, ha, hb, hzone]; exact id
      ordinary := by rw [hlink]; exact id
      directory := by simp only [directoryLaw, hdir]; exact id
      record := by simp only [recordLaw_iff, hrecs, hcls]; exact id
      drain := by simp only [drainLaw_iff, hrecs, hlink]; exact id
      counts := by simp only [countLaw_iff, hacct, hdrives, hrecs, hdir]; exact id }
  refine hostTables_congr (by rw [hlink]) (by rw [hcls]) (by rw [hacct]) (by rw [hconsole]) (by rw [hacct]) ?_ ?_ (by rw [hconsole])
  · have key := congrArg (Vector.map fun x : DriveClass × BitVec 8 × Nat => (x.1, x.2.1)) hdrives
    simpa [driveFacts, Function.comp_def] using key
  · intro acc
    cases acc
    · exact congrArg Prod.snd ha
    · exact congrArg Prod.snd hb

/-! ## Records -/

end Edit

/-- A record after an update is still the same request, its counts within their ends. -/
structure SameRequest (r q : Rec) : Prop where
  slot : q.slot = r.slot
  origin : q.origin = r.origin
  corr : q.corr = r.corr
  counts : recCounts r → recCounts q

namespace Edit

variable {s t u : State}

theorem updRec_slots (s : State) (slot : Nat) {f : Rec → Rec} {α : Type} {g : Rec → α}
    (h : ∀ r, s.rec? slot = some r → g (f r) = g r) : (s.updRec slot f).recs.map g = s.recs.map g :=
  updFirst_map _ _ _ _ h

/-- A member after an update of the first that passes a test is a member from before, or that first one changed. -/
theorem mem_updFirst_find {α : Type} {p : α → Bool} {f : α → α} {l : List α} {y : α} (h : y ∈ updFirst p f l) :
    y ∈ l ∨ ∃ x, l.find? p = some x ∧ y = f x := by
  induction l with
  | nil => cases h
  | cons x rest ih =>
    by_cases hx : p x = true
    · rw [updFirst, if_pos hx] at h
      rcases List.mem_cons.mp h with rfl | h
      · exact .inr ⟨x, by simp [hx], rfl⟩
      · exact .inl (List.mem_cons_of_mem _ h)
    · rw [updFirst, if_neg hx] at h
      rcases List.mem_cons.mp h with rfl | h
      · exact .inl List.mem_cons_self
      · exact (ih h).imp (List.mem_cons_of_mem _) (fun ⟨z, hz, e⟩ => ⟨z, by simpa [hx] using hz, e⟩)

/-- The record in a slot is changed and stays the same request. -/
theorem updRec {slot : Nat} {f : Rec → Rec} (h : Edit s u) (hf : ∀ r, u.rec? slot = some r → SameRequest r (f r)) :
    Edit s (u.updRec slot f) := by
  have hs := updRec_slots u slot (g := fun r => r.slot) (fun r hr => (hf r hr).slot)
  refine h.trans { refl u with record := ?record, drain := ?drain, counts := ?counts }
  case record =>
    have hc := updRec_slots u slot (g := fun r => (r.origin, r.corr)) (fun r hr => by rw [(hf r hr).origin, (hf r hr).corr])
    rintro ⟨hlt, hnodup, hcorr, hintake, hopen⟩
    refine ⟨?_, hs ▸ hnodup, ?_, hintake, hs ▸ hopen⟩
    · have key : ∀ n ∈ u.recs.map (·.slot), n < 64 := by simpa using hlt
      rw [← hs] at key
      simpa using key
    · have key : (u.recs.map (fun r => (r.origin, r.corr))).Pairwise
          (fun x y => x.1 = .channel → y.1 = .channel → x.2 ≠ y.2) := by
        rw [List.pairwise_map]; exact hcorr
      rw [← hc, List.pairwise_map] at key
      exact key
  case drain =>
    intro hd hl he
    rw [he] at hs
    exact hd hl (List.map_eq_nil_iff.mp hs.symm)
  case counts =>
    rintro ⟨ha, hd, hr, hdir⟩
    refine ⟨ha, hd, fun r hm => ?_, hdir⟩
    rcases mem_updFirst_find hm with hm | ⟨q, hq, rfl⟩
    · exact hr r hm
    · exact (hf q hq).counts (hr q (List.mem_of_find?_eq_some hq))

end Edit

end Upkeep

end Sys2Proof
end

section
/-! PROOFS. The primitive updates of the state as edits, block by block. -/

namespace Sys2Proof

namespace Upkeep

open Machine Safety

namespace Edit

variable {s t u : State}

/-- Whatever leaves every fact as it was may follow an edit. -/
theorem same (h : Edit s u) (ht : facts t = facts u) : Edit s t := h.trans (of_facts ht)

/-! ## Records -/

theorem updLeg {slot : Nat} {f : Leg → Leg} (h : Edit s u) : Edit s (u.updLeg slot f) :=
  h.updRec fun _ _ => ⟨rfl, rfl, rfl, id⟩

/-- A record that is new to the table joins it (R1, R2). -/
theorem openRec {r : Rec} (h : Edit s u) (hlt : r.slot < 64) (hfresh : ∀ q ∈ u.recs, q.slot ≠ r.slot)
    (hinternal : r.origin = .internal) (hcounts : recCounts r) : Edit s (u.openRec r) := by
  refine h.trans { refl u with record := ?record, drain := ?drain, counts := ?counts }
  case record =>
    rintro ⟨hslots, hnodup, hcorr, hintake, hopen⟩
    refine ⟨?_, ?_, ?_, hintake, ?_⟩
    · exact fun q hq => (List.mem_append.mp hq).elim (hslots q) (fun hq => List.mem_singleton.mp hq ▸ hlt)
    · have hnew : r.slot ∉ u.recs.map (·.slot) := by simpa using hfresh
      simpa [State.openRec, List.nodup_append] using ⟨hnodup, hfresh⟩
    · refine List.pairwise_append.mpr ⟨hcorr, List.pairwise_singleton _ _, fun q _ x hx _ hchannel => ?_⟩
      rw [List.mem_singleton.mp hx, hinternal] at hchannel
      cases hchannel
    · intro n hn
      have := hopen n hn
      simp only [State.openRec, List.map_append, List.mem_append]
      exact .inl this
  case drain => exact fun _ _ he => by simp [State.openRec] at he
  case counts =>
    rintro ⟨ha, hd, hr, hdir⟩
    exact ⟨ha, hd, fun q hq => (List.mem_append.mp hq).elim (hr q) (fun hq => List.mem_singleton.mp hq ▸ hcounts), hdir⟩

/-- The table and the intake without the record in a slot, whatever becomes of the library state. -/
theorem recordLaw_without (slot : Nat) (link : Link) (hu : recordLaw u) :
    recordLaw { u with link := link, recs := u.recs.filter (fun r => r.slot ≠ slot),
                       cls := { u.cls with intake := u.cls.intake.filter (fun n => n ≠ slot) } } := by
  obtain ⟨hslots, hnodup, hcorr, hintake, hopen⟩ := hu
  refine ⟨fun r hr => hslots r (List.mem_of_mem_filter hr), ?_, hcorr.filter _, hintake.filter _, fun n hn => ?_⟩
  · exact hnodup.sublist (List.filter_sublist.map _)
  · obtain ⟨hn, hne⟩ := List.mem_filter.mp hn
    obtain ⟨r, hr, rfl⟩ := List.mem_map.mp (hopen n hn)
    exact List.mem_map.mpr ⟨r, List.mem_filter.mpr ⟨hr, hne⟩, rfl⟩

theorem countLaw_without (slot : Nat) (link : Link) (intake : List Nat) (hu : countLaw u) :
    countLaw { u with link := link, recs := u.recs.filter (fun r => r.slot ≠ slot), cls := { u.cls with intake := intake } } := by
  obtain ⟨ha, hd, hr, hdir⟩ := hu
  exact ⟨ha, hd, fun r hm => hr r (List.mem_of_mem_filter hm), hdir⟩

/-- A record leaves the table, and the intake with it; with none left a DRAINING library is OFFLINE (R1, R190). -/
theorem shut (h : Edit s u) (slot : Nat) :
    Edit s ({ u with recs := u.recs.filter (fun r => r.slot ≠ slot),
                     cls := { u.cls with intake := u.cls.intake.filter (fun n => n ≠ slot) } } : State).drained := by
  unfold State.drained
  split
  · exact h.trans { refl u with
      intake := List.length_filter_le _ _, record := recordLaw_without slot _, counts := countLaw_without slot _ _
      drain := fun _ hl => by cases hl }
  · rename_i hn
    exact h.trans { refl u with
      intake := List.length_filter_le _ _, record := recordLaw_without slot _, counts := countLaw_without slot _ _
      drain := fun _ hl he => hn ⟨hl, he⟩ }

/-- The oldest record of the intake leaves it (R27). -/
theorem intakePop {n : Nat} {rest : List Nat} (h : Edit s u) (hn : u.cls.intake = n :: rest) :
    Edit s { u with cls := { u.cls with intake := rest } } := by
  refine h.trans { refl u with intake := ?_, record := ?_ }
  · simp [hn]
  · rintro ⟨hslots, hnodup, hcorr, hintake, hopen⟩
    rw [hn] at hintake hopen
    exact ⟨hslots, hnodup, hcorr, (List.nodup_cons.mp hintake).2, fun m hm => hopen m (List.mem_cons_of_mem _ hm)⟩

/-! ## Accessors and the zone lock -/

theorem tables_updAcc (acc : Acc) (f : AccRec → AccRec) (hf : accSettings (f (u.acc acc)) = accSettings (u.acc acc)) :
    hostTables (u.updAcc acc f) = hostTables u := by
  refine hostTables_congr rfl rfl rfl rfl rfl rfl (fun other => ?_) rfl
  rw [State.acc_updAcc]
  split
  · rename_i e; rw [hf, e]
  · rfl

/-- An accessor's record changes; an order it then has in flight in the Middle segment is one under the zone lock (R110). -/
theorem updAccOrder {acc : Acc} {f : AccRec → AccRec} (h : Edit s u) (hf : accSettings (f (u.acc acc)) = accSettings (u.acc acc))
    (hzone : zoneLaw u → ∀ o, (f (u.acc acc)).order = some o → 80 ≤ o.col → o.col ≤ 119 → u.rail.zone = some acc) :
    Edit s (u.updAcc acc f) := by
  refine h.trans { refl u with tables := tables_updAcc acc f hf, zone := ?_ }
  intro hu who o ho hlo hhi
  rw [State.acc_updAcc] at ho
  split at ho
  · rename_i e; subst e; exact hzone hu o ho hlo hhi
  · exact hu who o ho hlo hhi

/-- An accessor's record changes in nothing that ACCESSOR_SET gives, its order in flight kept or gone. -/
theorem updAcc {acc : Acc} {f : AccRec → AccRec} (h : Edit s u) (hf : ∀ x, accSettings (f x) = accSettings x)
    (horder : ∀ x, (f x).order = x.order ∨ (f x).order = none) : Edit s (u.updAcc acc f) := by
  refine h.updAccOrder (hf _) (fun hu o ho => ?_)
  rcases horder (u.acc acc) with e | e
  · exact hu acc o (e ▸ ho)
  · rw [e] at ho; cases ho

/-- An accessor's record changes in nothing that a law or the host's tables read. -/
theorem updAcc' {acc : Acc} {f : AccRec → AccRec} (h : Edit s u) (hf : ∀ x, accFacts (f x) = accFacts x) : Edit s (u.updAcc acc f) :=
  h.updAcc (fun x => congrArg Prod.snd (hf x)) (fun x => .inl (congrArg Prod.fst (hf x)))

/-- The zone lock changes hands; whoever has an order in flight in the Middle segment has it then (R110). -/
theorem setZone {z : Option Acc} {wait : List Acc} (h : Edit s u)
    (hz : zoneLaw u → ∀ acc o, (u.acc acc).order = some o → 80 ≤ o.col → o.col ≤ 119 → z = some acc) :
    Edit s { u with rail := { u.rail with zone := z, zoneWait := wait } } :=
  h.trans { refl u with zone := hz }

/-- The free zone lock is taken (R110). -/
theorem takeZone {acc : Acc} {wait : List Acc} (h : Edit s u) (hfree : u.rail.zone = none) :
    Edit s { u with rail := { u.rail with zone := some acc, zoneWait := wait } } :=
  h.setZone fun hu who o ho hlo hhi => by
    have := hu who o ho hlo hhi
    rw [hfree] at this; cases this

/-- The zone lock is released by an accessor with no order in flight (R110). -/
theorem releaseZone {acc : Acc} (h : Edit s u) (hidle : (u.acc acc).order = none) : Edit s (u.releaseZone acc) := by
  unfold State.releaseZone
  split
  · rename_i hz
    refine h.setZone (wait := u.rail.zoneWait) (fun hu who o ho hlo hhi => ?_)
    have hw := hu who o ho hlo hhi
    rw [hz] at hw
    obtain rfl := Option.some.inj hw
    rw [hidle] at ho; cases ho
  · exact h

/-! ## Drives -/

/-- A drive changes in nothing that DRIVE_SET gives, its mount count within its largest value (R71). -/
theorem updDriveMounts {d : Fin 16} {f : Drive → Drive} (h : Edit s u) (hcls : (f u.drives[d]).cls = u.drives[d].cls)
    (hpools : (f u.drives[d]).pools = u.drives[d].pools) (hmounts : u.drives[d].mounts ≤ 255 → (f u.drives[d]).mounts ≤ 255) :
    Edit s (u.updDrive d f) := by
  refine h.trans { refl u with tables := ?_, counts := ?_ }
  · refine hostTables_congr rfl rfl rfl rfl rfl ?_ (fun _ => rfl) rfl
    ext i hi : 1
    simp only [State.updDrive, Vector.getElem_map, Vector.getElem_set]
    split
    · rename_i e; subst e; exact Prod.ext hcls hpools
    · rfl
  · rintro ⟨ha, hd, hr, hdir⟩
    refine ⟨ha, fun e => ?_, hr, hdir⟩
    by_cases he : e = d
    · subst he; rw [State.updDrive_self]; exact hmounts (hd e)
    · rw [State.updDrive_other _ _ _ _ he]; exact hd e

/-- A drive changes in nothing that a law or the host's tables read. -/
theorem updDrive {d : Fin 16} {f : Drive → Drive} (h : Edit s u) (hf : ∀ x, driveFacts (f x) = driveFacts x) : Edit s (u.updDrive d f) :=
  h.updDriveMounts (congrArg (·.1) (hf _)) (congrArg (·.2.1) (hf _)) (fun hle => (congrArg (·.2.2) (hf u.drives[d])).trans_le hle)

/-! ## The link -/

theorem setFlag {k : NoticeKind} (h : Edit s u) : Edit s (u.setFlag k) :=
  h.trans { refl u with flags := fun j (hj : u.link.flags.getLsbD (noticeBit j) = true) => by simp [State.flagSet, State.setFlag, hj] }

theorem raise {k : NoticeKind} {x : NoticeSubject} (h : Edit s u) : Edit s (u.raise k x) := h.setFlag.same rfl

/-- A frame takes an ordinary entry that is available (R186). -/
theorem enqueue {f : Frame} (h : Edit s u) (ha : 0 < u.link.available) : Edit s (u.enqueue false f) := by
  refine h.trans { refl u with replies := ?_, ordinary := fun _ => ?_ }
  · simp [Upkeep.replies, State.enqueue, Link.keptUsed]
  · unfold Link.available at ha
    split at ha
    · simp only [State.enqueue, Link.ordUsed, List.filter_append, List.length_append]
      simp only [Link.ordUsed] at ha
      simp
      omega
    · cases ha

/-- The library state changes, and is DRAINING only when it was so or a record is open (R190). -/
theorem setLibPoll {lib : LibState} {poll : List Device} (h : Edit s u)
    (hl : lib = .draining → u.link.lib = .draining ∨ u.recs ≠ []) :
    Edit s { u with link := { u.link with lib := lib, poll := poll } } :=
  h.trans { refl u with drain := fun hu e => (hl e).elim hu id }

theorem setLib {lib : LibState} (h : Edit s u) (hl : lib = .draining → u.link.lib = .draining ∨ u.recs ≠ []) : Edit s (u.setLib lib) :=
  h.setLibPoll (poll := u.link.poll) hl

theorem settle {dev : Device} (h : Edit s u) : Edit s (u.settle dev) := by
  refine h.setLibPoll (fun e => ?_)
  split at e
  · cases e
  · exact .inl e

/-! ## The console and the accounts -/

/-- The console changes in nothing that the host loads, and meets its laws (R150, R153, R158). -/
theorem setConsole {c : Console} (h : Edit s u) (ht : c.templates = u.console.templates)
    (hi : c.inputs.map (fun x => (x.activeHigh, x.code)) = u.console.inputs.map (fun x => (x.activeHigh, x.code)))
    (hc : displayLaw u ∧ promptLaw u → displayLaw { u with console := c } ∧ promptLaw { u with console := c }) :
    Edit s { u with console := c } :=
  h.trans { refl u with console := hc, tables := hostTables_congr rfl rfl rfl ht rfl rfl (fun _ => rfl) hi }

end Edit

/-- The budget state of an account is what its accumulator and thresholds give (R175). -/
def accountBudget (a : Account) : Prop :=
  (a.budget = .limited ↔ a.limit ≠ 0 ∧ a.limit ≤ a.acc) ∧ (a.budget = .warned ↔ a.budget ≠ .limited ∧ a.warn ≠ 0 ∧ a.warn ≤ a.acc)

theorem accountBudget_recompute (a : Account) : accountBudget a.recompute := by
  unfold accountBudget Account.recompute Account.budgetNow
  by_cases hlimit : a.limit ≠ 0 ∧ a.limit ≤ a.acc
  · simp [hlimit]
  · by_cases hwarn : a.warn ≠ 0 ∧ a.warn ≤ a.acc
    · simp only [if_neg hlimit, if_pos hwarn]
      simpa [hwarn] using hlimit
    · simp only [if_neg hlimit, if_neg hwarn]
      simpa [-not_and, hlimit] using hwarn

/-- An account's laws after an update of one account. -/
theorem forall_updAccount {P : Account → Prop} {u : State} {n : Fin 128} {f : Account → Account} (h : ∀ m : Fin 128, P u.acct.accounts[m])
    (hn : P (f u.acct.accounts[n])) (m : Fin 128) : P (u.updAccount n f).acct.accounts[m] := by
  by_cases hm : m = n
  · subst hm; rw [State.updAccount_self]; exact hn
  · rw [State.updAccount_other _ _ _ _ hm]; exact h m

namespace Edit

variable {s t u : State}

/-- An account changes in nothing that ACCOUNT_SET gives, its budget state and its counts by the rules (R169, R175). -/
theorem updAccount {n : Fin 128} {f : Account → Account} (h : Edit s u)
    (ht : (f u.acct.accounts[n]).warn = u.acct.accounts[n].warn ∧ (f u.acct.accounts[n]).limit = u.acct.accounts[n].limit)
    (hb : accountBudget u.acct.accounts[n] → accountBudget (f u.acct.accounts[n]))
    (hc : accountCounts u.acct.accounts[n] → accountCounts (f u.acct.accounts[n])) : Edit s (u.updAccount n f) := by
  refine h.trans { refl u with tables := ?_, budget := ?_, counts := ?_ }
  · refine hostTables_congr rfl rfl rfl rfl ?_ rfl (fun _ => rfl) rfl
    ext i hi : 1
    simp only [State.updAccount, Vector.getElem_map, Vector.getElem_set]
    split
    · rename_i e; subst e; exact Prod.ext ht.1 ht.2
    · rfl
  · exact fun hu => forall_updAccount (P := accountBudget) hu (hb (hu n))
  · rintro ⟨ha, hd, hr, hdir⟩
    exact ⟨forall_updAccount (P := accountCounts) ha (hc (ha n)), hd, hr, hdir⟩

/-- An answered prompt is counted in its account (R156). -/
theorem countPrompt {n : Fin 128} (h : Edit s u) :
    Edit s (u.updAccount n (fun x => { x with prompts := satAdd maxCount16 x.prompts 1 })) :=
  h.updAccount ⟨rfl, rfl⟩ id (fun ⟨ha, hm, hh, _, hl⟩ => ⟨ha, hm, hh, min_le_left _ _, hl⟩)

/-- A charge enters its account (R172, R173). -/
theorem chargeAccount {n : Fin 128} {c : ChargeInputs} {hold : Nat} {loaded : Bool} (h : Edit s u) :
    Edit s (u.updAccount n (fun _ => u.acct.accounts[n].charged c.charge hold loaded)) := by
  refine h.updAccount ⟨rfl, rfl⟩ (fun _ => accountBudget_recompute _) (fun ⟨_, hm, _, hp, _⟩ => ?_)
  refine ⟨min_le_left _ _, ?_, min_le_left _ _, hp, min_le_right _ _⟩
  show (if loaded then satAdd maxCount16 _ 1 else _) ≤ _
  split
  · exact min_le_left _ _
  · exact hm

/-! ## The directory -/

/-- The directory changes and meets its laws (R53, R55, R63). -/
theorem setDir {dir : List Entry} (h : Edit s u) (hd : directoryLaw u → directoryLaw { u with dir := dir })
    (hm : (∀ e ∈ u.dir, e.mounts ≤ 65535) → ∀ e ∈ dir, e.mounts ≤ 65535) : Edit s { u with dir := dir } :=
  h.trans { refl u with directory := hd, counts := fun ⟨ha, hd, hr, hdir⟩ => ⟨ha, hd, hr, hm hdir⟩ }

end Edit

end Upkeep

end Sys2Proof
end

section
/-! PROOFS. The console (R150 to R160) and the directory (R53 to R67) keep their laws: each operation of the two blocks is an edit. -/

namespace Sys2Proof

namespace Upkeep

open Machine Safety

/-! ## The display choice (R153) -/

/-- The display choice is the prompt of the highest urgency, the earliest raised among equals. -/
theorem shownOf_spec (queue : List Prompt) :
    (queue = [] ∧ shownOf queue = none)
      ∨ ∃ before p after, queue = before ++ p :: after ∧ (∀ q ∈ before, q.urgency < p.urgency)
          ∧ (∀ q ∈ after, q.urgency ≤ p.urgency) ∧ shownOf queue = some p := by
  induction queue using List.reverseRecOn with
  | nil => exact .inl ⟨rfl, rfl⟩
  | append_singleton l x ih =>
    right
    have step : shownOf (l ++ [x]) = match shownOf l with
        | none => some x
        | some b => if b.urgency < x.urgency then some x else some b := by
      rw [shownOf, List.foldl_append]
      rfl
    rcases ih with ⟨rfl, h⟩ | ⟨before, p, after, rfl, hbefore, hafter, h⟩
    · exact ⟨[], x, [], rfl, by simp, by simp, by rw [step, h]⟩
    · rw [h] at step
      by_cases hx : p.urgency < x.urgency
      · refine ⟨before ++ p :: after, x, [], rfl, fun q hq => ?_, by simp, by rw [step]; exact if_pos hx⟩
        rcases List.mem_append.mp hq with hq | hq
        · exact (hbefore q hq).trans hx
        · rcases List.mem_cons.mp hq with rfl | hq
          · exact hx
          · exact (hafter q hq).trans_lt hx
      · refine ⟨before, p, after ++ [x], by simp, hbefore, fun q hq => ?_, by rw [step]; exact if_neg hx⟩
        rcases List.mem_append.mp hq with hq | hq
        · exact hafter q hq
        · rw [List.mem_singleton.mp hq]; exact not_lt.mp hx

/-- Once the display choice has been made the display law holds. -/
theorem displayLaw_of_shown {s : State} (h : s.console.shown = (shownOf s.console.queue).map (fun p => (p.num, p.urgency))) :
    displayLaw s := by
  rcases shownOf_spec s.console.queue with ⟨hq, hs⟩ | ⟨before, p, after, hq, hbefore, hafter, hs⟩
  · exact .inl ⟨hq, by rw [h, hs]; rfl⟩
  · exact .inr ⟨before, p, after, hq, hbefore, hafter, by rw [h, hs]; rfl⟩

/-- Making the display choice changes what is shown and the lines to send, and nothing else. -/
theorem redisplay_eq (s : State) :
    ∃ lines, s.redisplay = { s with console := { s.console with
      shown := (shownOf s.console.queue).map (fun p => (p.num, p.urgency)), lines := lines } } := by
  unfold State.redisplay
  dsimp only
  split
  · rename_i h
    refine ⟨s.console.lines, ?_⟩
    rw [h]
  · exact ⟨_, rfl⟩

/-- The numbers of the queue after an update that keeps each prompt's number. -/
theorem promptLaw_map {s : State} {f : Prompt → Prompt} (hf : ∀ p, (f p).num = p.num) (h : promptLaw s) :
    promptLaw { s with console := { s.console with queue := s.console.queue.map f } } := by
  obtain ⟨hlen, hnodup, hlt, hnext, hexp, hexpNodup, hdisj⟩ := h
  refine ⟨by simpa using hlen, by simpa [Function.comp_def, hf] using hnodup, ?_, hnext, hexp, hexpNodup, ?_⟩
  · simpa [hf] using hlt
  · simpa [hf] using hdisj

theorem promptLaw_filter {s : State} {keep : Prompt → Bool} (h : promptLaw s) :
    promptLaw { s with console := { s.console with queue := s.console.queue.filter keep } } := by
  obtain ⟨hlen, hnodup, hlt, hnext, hexp, hexpNodup, hdisj⟩ := h
  exact ⟨(List.length_filter_le _ _).trans hlen, hnodup.sublist (List.filter_sublist.map _), fun p hp => hlt p (List.mem_of_mem_filter hp),
    hnext, hexp, hexpNodup, fun p hp => hdisj p (List.mem_of_mem_filter hp)⟩

/-! ## A raise -/

/-- A number stands free while the queue has room (R151). -/
theorem freeNumber_spec {queue : List Prompt} (next : Nat) (hroom : queue.length < 256) :
    freeNumber queue next < 256 ∧ ∀ p ∈ queue, p.num ≠ freeNumber queue next := by
  have hex : ∃ n ∈ (List.range 256).map (fun i => (next + i) % 256), (!(queue.any (fun p => p.num = n))) = true := by
    by_contra hnone
    push Not at hnone
    have hall : ∀ n ∈ List.range 256, n ∈ queue.map (·.num) := by
      intro n hn
      have hn' : n < 256 := List.mem_range.mp hn
      have := hnone n (List.mem_map.mpr ⟨(n + 256 * (next + 1) - next) % 256, List.mem_range.mpr (Nat.mod_lt _ (by decide)), by omega⟩)
      simpa using this
    have := (List.nodup_range (n := 256)).subperm hall |>.length_le
    simp at this
    omega
  obtain ⟨n, hn⟩ := Option.isSome_iff_exists.mp (List.find?_isSome.mpr hex)
  have he : freeNumber queue next = n := by rw [freeNumber, hn]; rfl
  rw [he]
  constructor
  · obtain ⟨i, -, rfl⟩ := List.mem_map.mp (List.mem_of_find?_eq_some hn)
    exact Nat.mod_lt _ (by decide)
  · simpa using List.find?_some hn

/-- A raise into a queue with room keeps the prompt law (R150, R151). -/
theorem promptLaw_pushed {s : State} {p : Prompt} (hroom : s.console.queue.length < 16)
    (hnum : p.num = freeNumber s.console.queue s.console.nextNum) (h : promptLaw s) :
    promptLaw { s with console := { s.console with
      queue := s.console.queue ++ [p], nextNum := (p.num + 1) % 256, expired := s.console.expired.filter (fun x => x ≠ p.num) } } := by
  obtain ⟨hlt, hfree⟩ := freeNumber_spec s.console.nextNum (hroom.trans (by decide))
  rw [← hnum] at hlt hfree
  obtain ⟨-, hnodup, hnums, -, hexp, hexpNodup, hdisj⟩ := h
  refine ⟨by simpa using hroom, ?_, ?_, Nat.mod_lt _ (by decide), (List.length_filter_le _ _).trans hexp, hexpNodup.filter _, ?_⟩
  · simpa [List.nodup_append] using ⟨hnodup, hfree⟩
  · exact fun q hq => (List.mem_append.mp hq).elim (hnums q) (fun hq => List.mem_singleton.mp hq ▸ hlt)
  · intro q hq hx
    obtain ⟨hx, hne⟩ := List.mem_filter.mp hx
    rcases List.mem_append.mp hq with hq | hq
    · exact hdisj q hq hx
    · rw [List.mem_singleton.mp hq] at hne
      simp at hne

namespace Edit

variable {s t u : State}

/-- The queue changes within the prompt law and the display choice is made again. -/
theorem requeue {queue : List Prompt} {next : Nat} {expired : List Nat} (h : Edit s u)
    (hp : promptLaw u → promptLaw { u with console := { u.console with queue := queue, nextNum := next, expired := expired } }) :
    Edit s ({ u with console := { u.console with queue := queue, nextNum := next, expired := expired } } : State).redisplay := by
  obtain ⟨lines, e⟩ := redisplay_eq { u with console := { u.console with queue := queue, nextNum := next, expired := expired } }
  rw [e]
  refine h.setConsole rfl rfl (fun hu => ⟨displayLaw_of_shown rfl, ?_⟩)
  exact hp hu.2

theorem ask {a : Ask} (h : Edit s u) : Edit s (u.ask a).1 := by
  unfold State.ask
  split
  · exact h
  · rename_i hfull
    have hroom : u.console.queue.length < 16 := by simpa [Console.full] using hfull
    exact h.requeue (promptLaw_pushed hroom rfl)

theorem askFault {acc : Acc} {urgency : Option Nat} (h : Edit s u) : Edit s (u.askFault acc urgency) := by
  unfold State.askFault
  exact h.ask.updAcc' fun _ => rfl

theorem setCleanPrompt {x : PromptRef} (h : Edit s u) : Edit s { u with cleanPrompt := x } := h.same rfl

theorem askCleanSupply (h : Edit s u) : Edit s u.askCleanSupply := by
  unfold State.askCleanSupply
  split
  · exact h.same rfl
  · exact h.ask.setCleanPrompt

theorem askApprove {slot : Nat} (h : Edit s u) : Edit s (u.askApprove slot) := by
  unfold State.askApprove
  split
  · exact h
  · exact h.ask.updRec fun _ _ => ⟨rfl, rfl, rfl, id⟩

theorem updPos {p : Fin 8} {f : StationPos → StationPos} (h : Edit s u) : Edit s (u.updPos p f) := h.same rfl

theorem askStation {p : Fin 8} (h : Edit s u) : Edit s (u.askStation p) := by
  unfold State.askStation
  split
  · exact h
  · exact h.ask.updPos

/-! ## The space report (R152) -/

/-- A fold of edits is an edit. -/
theorem foldl {α : Type} {f : State → α → State} (hf : ∀ u x, Edit u (f u x)) (l : List α) (h : Edit s u) : Edit s (l.foldl f u) := by
  induction l generalizing u with
  | nil => exact h
  | cons x l ih => exact ih (h.trans (hf u x))

theorem raiseOwedFault {acc : Acc} (h : Edit s u) : Edit s (u.raiseOwedFault acc) := by
  unfold State.raiseOwedFault
  split
  · exact h.askFault
  · exact h

theorem raiseOwedClean (h : Edit s u) : Edit s u.raiseOwedClean := by
  unfold State.raiseOwedClean
  split
  · exact h.askCleanSupply
  · exact h

theorem raiseOwedApprove {slot : Nat} (h : Edit s u) : Edit s (u.raiseOwedApprove slot) := by
  unfold State.raiseOwedApprove
  split
  · split
    · exact h.askApprove
    · exact h
  · exact h

theorem raiseOwedStation {p : Fin 8} (h : Edit s u) : Edit s (u.raiseOwedStation p) := by
  unfold State.raiseOwedStation
  split
  · exact h.askStation
  · exact h

theorem spaceReport (h : Edit s u) : Edit s u.spaceReport :=
  foldl (fun u _ => (refl u).raiseOwedStation) _ (foldl (fun u _ => (refl u).raiseOwedApprove) _
    (foldl (fun u _ => (refl u).raiseOwedFault) _ h).raiseOwedClean)

/-! ## Leaving the queue -/

theorem removePrompt {num : Nat} (h : Edit s u) : Edit s (u.removePrompt num) :=
  h.requeue (next := u.console.nextNum) (expired := u.console.expired) promptLaw_filter

theorem withdraw {num : Nat} {b : RaisingBlock} (h : Edit s u) : Edit s (u.withdraw num b) := by
  unfold State.withdraw
  split
  · split
    · exact h.removePrompt.spaceReport
    · exact h
  · exact h

theorem dropPrompt {ref : PromptRef} {b : RaisingBlock} (h : Edit s u) : Edit s (u.dropPrompt ref b) := by
  unfold State.dropPrompt
  split
  · exact h.withdraw
  · exact h

theorem dropApprove {slot : Nat} (h : Edit s u) : Edit s (u.dropApprove slot) := by
  unfold State.dropApprove
  split
  · exact h
  · refine (h.updRec ?_).dropPrompt
    exact fun _ _ => ⟨rfl, rfl, rfl, id⟩

theorem dropStation {p : Fin 8} (h : Edit s u) : Edit s (u.dropStation p) := by
  unfold State.dropStation
  exact h.updPos.dropPrompt

theorem dropFault {acc : Acc} (h : Edit s u) : Edit s (u.dropFault acc) := by
  unfold State.dropFault
  dsimp only
  have hgone : Edit s (u.updAcc acc (fun x => { x with prompt := .none })) := h.updAcc' fun _ => rfl
  split
  · exact hgone.withdraw
  · exact hgone

theorem tidyCleanSupply (h : Edit s u) : Edit s u.tidyCleanSupply := by
  unfold State.tidyCleanSupply
  split
  · exact h
  · exact h.setCleanPrompt.dropPrompt

/-! ## Reply lines and timers -/

theorem replyLine {r : ReplyLine} (h : Edit s u) : Edit s (u.replyLine r) := h.setConsole rfl rfl id

/-- The display law reads numbers and urgencies alone. -/
theorem displayLaw_map {f : Prompt → Prompt} (hf : ∀ p, (f p).num = p.num ∧ (f p).urgency = p.urgency) (hu : displayLaw u) :
    displayLaw { u with console := { u.console with queue := u.console.queue.map f } } := by
  rcases hu with ⟨hq, hs⟩ | ⟨before, p, after, hq, hbefore, hafter, hs⟩
  · exact .inl ⟨by simp [hq], hs⟩
  · refine .inr ⟨before.map f, f p, after.map f, by simp [hq], ?_, ?_, by rw [(hf p).1, (hf p).2]; exact hs⟩
    · simpa [hf] using hbefore
    · simpa [hf] using hafter

/-- Prompts change, their numbers and urgencies kept. -/
theorem mapPrompts {f : Prompt → Prompt} (h : Edit s u) (hf : ∀ p, (f p).num = p.num ∧ (f p).urgency = p.urgency) :
    Edit s { u with console := { u.console with queue := u.console.queue.map f } } :=
  h.setConsole rfl rfl (fun hu => ⟨displayLaw_map hf hu.1, promptLaw_map (fun p => (hf p).1) hu.2⟩)

/-- One prompt changes, its number kept, and the display choice is made again. -/
theorem updPrompt {num : Nat} {f : Prompt → Prompt} (h : Edit s u) (hf : ∀ p, (f p).num = p.num) :
    Edit s (u.updPrompt num f).redisplay := by
  refine h.requeue (next := u.console.nextNum) (expired := u.console.expired) (promptLaw_map (fun p => ?_))
  split
  · exact hf p
  · rfl

/-- The number of a prompt that fails leaves the queue and stands in the expired list (R158). -/
theorem expire {p : Prompt} (h : Edit s u) (hp : p ∈ u.console.queue) :
    Edit s { u.removePrompt p.num with
      console := { (u.removePrompt p.num).console with expired := pushExpired (u.removePrompt p.num).console.expired p.num } } := by
  obtain ⟨lines, e⟩ := redisplay_eq { u with console := { u.console with queue := u.console.queue.filter (fun q => q.num ≠ p.num) } }
  unfold State.removePrompt
  rw [e]
  refine h.setConsole rfl rfl (fun hu => ⟨displayLaw_of_shown rfl, ?_⟩)
  obtain ⟨hlen, hnodup, hlt, hnext, hexp, hexpNodup, hdisj⟩ := promptLaw_filter (keep := fun q => decide (q.num ≠ p.num)) hu.2
  have hnew : p.num ∉ u.console.expired := hu.2.2.2.2.2.2.2 p hp
  have hsub : ∀ l : List Nat, (if 16 ≤ l.length then l.drop 1 else l).Sublist l := fun l => by
    split
    · exact List.drop_sublist _ _
    · exact List.Sublist.refl _
  refine ⟨hlen, hnodup, hlt, hnext, ?_, ?_, fun q hq hx => ?_⟩
  · show (pushExpired u.console.expired p.num).length ≤ 16
    have hexp' : u.console.expired.length ≤ 16 := hexp
    unfold pushExpired
    split <;> simp <;> omega
  · show (pushExpired u.console.expired p.num).Nodup
    have hold := hexpNodup.sublist (hsub u.console.expired)
    have hne : ∀ n ∈ (if 16 ≤ u.console.expired.length then u.console.expired.drop 1 else u.console.expired), n ≠ p.num :=
      fun n hn e => hnew (e ▸ (hsub _).subset hn)
    exact List.nodup_append.mpr ⟨hold, List.nodup_singleton _, fun n hn m hm => List.mem_singleton.mp hm ▸ hne n hn⟩
  · rcases List.mem_append.mp (show q.num ∈ _ ++ [p.num] from hx) with hx | hx
    · exact hdisj q hq ((hsub _).subset hx)
    · simpa [List.mem_singleton.mp hx] using (List.mem_filter.mp hq).2

end Edit

end Upkeep

end Sys2Proof
end

section
/-! PROOFS. The directory (R53 to R67) keeps its law: each update that another block hands it is an edit. -/

namespace Sys2Proof

namespace Upkeep

open Machine Safety

/-! ## Two entries side by side -/

/-- Two entries share no serial, home cell, mechanism place or cell they are expected at (R53, R55). -/
def Distinct (e f : Entry) : Prop :=
  e.serial ≠ f.serial ∧ (∀ c, e.home = some c → f.home ≠ some c) ∧ (e.loc.mechanism = true → e.loc ≠ f.loc)
    ∧ ∀ c, e.expectedAt c = true → f.expectedAt c = false

theorem directoryLaw_iff (s : State) : directoryLaw s ↔ s.dir.length ≤ 8192 ∧ s.dir.Pairwise Distinct := Iff.rfl

theorem Distinct.symm {e f : Entry} (h : Distinct e f) : Distinct f e := by
  obtain ⟨hserial, hhome, hplace, hcell⟩ := h
  refine ⟨hserial.symm, fun c hf he => hhome c he hf, fun hm heq => hplace (heq ▸ hm) heq.symm, fun c hf => ?_⟩
  cases he : e.expectedAt c
  · rfl
  · rw [hcell c he] at hf; cases hf

theorem distinct_symm : Std.Symm Distinct := ⟨fun _ _ => Distinct.symm⟩

theorem expectedAt_iff (e : Entry) (c : Cell) : e.expectedAt c = true ↔ (e.loc = .home ∧ e.home = some c) ∨ e.loc = .misplaced c := by
  simp [Entry.expectedAt]

/-- An entry after an update that leaves it where it is, or leaves it in no place. -/
structure Stays (e e' : Entry) : Prop where
  serial : e'.serial = e.serial
  home : e'.home = e.home
  loc : e'.loc = e.loc ∨ e'.loc = .missing ∨ e'.loc = .outside

theorem Stays.refl (e : Entry) : Stays e e := ⟨rfl, rfl, .inl rfl⟩

theorem Stays.expected {e e' : Entry} (h : Stays e e') {c : Cell} (hc : e'.expectedAt c = true) : e.expectedAt c = true := by
  rw [expectedAt_iff] at hc ⊢
  rcases h.loc with hl | hl | hl <;> simp_all [h.home]

/-- Entries that stay where they are, or come to be in no place, stay distinct. -/
theorem Stays.distinct {e e' f f' : Entry} (he : Stays e e') (hf : Stays f f') (h : Distinct e f) : Distinct e' f' := by
  obtain ⟨hserial, hhome, hplace, hcell⟩ := h
  refine ⟨?_, ?_, ?_, fun c hc => ?_⟩
  · rw [he.serial, hf.serial]; exact hserial
  · rw [he.home, hf.home]; exact hhome
  · intro hm heq
    rcases he.loc with hl | hl | hl
    · rcases hf.loc with hl' | hl' | hl'
      · exact hplace (hl ▸ hm) (by rw [← hl, ← hl', heq])
      · rw [heq, hl'] at hm; cases hm
      · rw [heq, hl'] at hm; cases hm
    · rw [hl] at hm; cases hm
    · rw [hl] at hm; cases hm
  · cases hx : f'.expectedAt c
    · rfl
    · have := hcell c (he.expected hc)
      rw [hf.expected hx] at this; cases this

/-- A serial has one entry (R53). -/
theorem entry?_of_mem {s : State} (h : directoryLaw s) {e : Entry} (he : e ∈ s.dir) : s.entry? e.serial = some e := by
  cases hf : s.entry? e.serial with
  | none => simpa using List.find?_eq_none.mp hf e he
  | some f =>
    have hserial : f.serial = e.serial := by simpa using List.find?_some hf
    have := distinct_symm
    by_contra hne
    have hd : Distinct f e := List.Pairwise.forall ((directoryLaw_iff s).mp h).2 (List.mem_of_find?_eq_some hf) he (fun x => hne (by rw [x]))
    exact hd.1 hserial

/-! ## An entry is given a place (R55) -/

/-- What `State.setLocation` makes of each entry. -/
def relocated (ser : Serial) (loc : Location) (cell : Option Cell) (e : Entry) : Entry :=
  if e.serial = ser then { e with loc := loc } else if e.claims loc cell = true then { e with loc := .missing } else e

theorem setLocation_of_entry {s : State} {ser : Serial} {loc : Location} {e : Entry} (h : s.entry? ser = some e) :
    s.setLocation ser loc = { s with dir := s.dir.map (relocated ser loc (e.cellAt loc)) } := by
  have : ∀ f : Entry, (if (if (decide (f.serial ≠ ser) && f.claims loc (e.cellAt loc)) = true then { f with loc := .missing } else f).serial = ser
      then { (if (decide (f.serial ≠ ser) && f.claims loc (e.cellAt loc)) = true then { f with loc := .missing } else f) with loc := loc }
      else (if (decide (f.serial ≠ ser) && f.claims loc (e.cellAt loc)) = true then { f with loc := .missing } else f))
      = relocated ser loc (e.cellAt loc) f := by
    intro f
    by_cases hs : f.serial = ser
    · simp [relocated, hs]
    · by_cases hc : f.claims loc (e.cellAt loc) = true <;> simp [relocated, hs, hc]
  simp only [State.setLocation, h, State.displace, State.updEntry, List.map_map, Function.comp_def, this]

theorem setLocation_of_none {s : State} {ser : Serial} {loc : Location} (h : s.entry? ser = none) : s.setLocation ser loc = s := by
  simp [State.setLocation, h]

/-- The entry that is given a place, beside one that has given it up. -/
theorem distinct_relocated {e f : Entry} {loc : Location} (h : Distinct e f) :
    Distinct { e with loc := loc } (if f.claims loc (e.cellAt loc) = true then { f with loc := .missing } else f) := by
  obtain ⟨hserial, hhome, hplace, hcell⟩ := h
  split
  · refine ⟨hserial, hhome, fun hm heq => ?_, fun c _ => by simp [Entry.expectedAt]⟩
    obtain rfl : loc = .missing := heq
    cases hm
  · rename_i hc
    simp only [Entry.claims, Bool.or_eq_true, Bool.and_eq_true, decide_eq_true_eq, not_or, not_and] at hc
    refine ⟨hserial, hhome, fun hm heq => hc.1 hm heq.symm, fun c hx => ?_⟩
    have hat : e.cellAt loc = some c := by
      rcases (expectedAt_iff _ c).mp hx with ⟨hl, hh⟩ | hl
      · rw [show loc = Location.home from hl]; exact hh
      · rw [show loc = Location.misplaced c from hl]; rfl
    simpa [hat] using hc.2

theorem relocated_mounts (ser : Serial) (loc : Location) (cell : Option Cell) (e : Entry) : (relocated ser loc cell e).mounts = e.mounts := by
  unfold relocated
  split
  · rfl
  · split <;> rfl

namespace Edit

variable {s t u : State}

/-- Every entry is rewritten, distinct entries staying distinct and mount counts within their largest value. -/
theorem mapDir {g : Entry → Entry} (h : Edit s u)
    (hg : directoryLaw u → ∀ e ∈ u.dir, ∀ f ∈ u.dir, Distinct e f → Distinct (g e) (g f))
    (hm : ∀ e ∈ u.dir, e.mounts ≤ 65535 → (g e).mounts ≤ 65535) : Edit s { u with dir := u.dir.map g } := by
  refine h.setDir (fun hu => ⟨by simpa using hu.1, ?_⟩) (fun hu e he => ?_)
  · exact List.pairwise_map.mpr (List.Pairwise.imp_of_mem (fun he hf hd => hg hu _ he _ hf hd) hu.2)
  · obtain ⟨f, hf, rfl⟩ := List.mem_map.mp he
    exact hm f hf (hu f hf)

/-- Every entry stays where it is or comes to be in no place. -/
theorem mapStays {g : Entry → Entry} (h : Edit s u) (hg : ∀ e, Stays e (g e)) (hm : ∀ e : Entry, e.mounts ≤ 65535 → (g e).mounts ≤ 65535) :
    Edit s { u with dir := u.dir.map g } :=
  h.mapDir (fun _ e _ f _ hd => (hg e).distinct (hg f) hd) (fun e _ => hm e)

theorem updEntry {ser : Serial} {f : Entry → Entry} (h : Edit s u) (hf : ∀ e, Stays e (f e))
    (hm : ∀ e : Entry, e.mounts ≤ 65535 → (f e).mounts ≤ 65535) : Edit s (u.updEntry ser f) := by
  refine h.mapStays (fun e => ?_) (fun e he => ?_)
  · split
    · exact hf e
    · exact Stays.refl e
  · split
    · exact hm e he
    · exact he

theorem setVerif {ser : Serial} {v : Verification} (h : Edit s u) : Edit s (u.setVerif ser v) :=
  h.updEntry (fun _ => ⟨rfl, rfl, .inl rfl⟩) (fun _ => id)

theorem setMissing {ser : Serial} (h : Edit s u) : Edit s (u.setMissing ser) :=
  h.updEntry (fun _ => ⟨rfl, rfl, .inr (.inl rfl)⟩) (fun _ => id)

theorem setRing {ser : Serial} {x : Ring} (h : Edit s u) : Edit s (u.setRing ser x) :=
  h.updEntry (fun _ => ⟨rfl, rfl, .inl rfl⟩) (fun _ => id)

theorem loadedUpdate {ser : Serial} {sense : Bool} (h : Edit s u) : Edit s (u.loadedUpdate ser sense) :=
  h.updEntry (fun _ => ⟨rfl, rfl, .inl rfl⟩) (fun _ _ => min_le_left _ _)

theorem deleteEntry {ser : Serial} (h : Edit s u) : Edit s (u.deleteEntry ser) :=
  h.setDir (fun hu => ⟨(List.length_filter_le _ _).trans hu.1, hu.2.filter _⟩) (fun hu e he => hu e (List.mem_of_mem_filter he))

theorem setLocation {ser : Serial} {loc : Location} (h : Edit s u) : Edit s (u.setLocation ser loc) := by
  cases he : u.entry? ser with
  | none => rw [setLocation_of_none he]; exact h
  | some e =>
    rw [setLocation_of_entry he]
    refine h.mapDir (fun hu f hf g hg hd => ?_) (fun f _ hf => by rw [relocated_mounts]; exact hf)
    have own : ∀ x ∈ u.dir, x.serial = ser → x = e := fun x hx hs =>
      Option.some.inj ((entry?_of_mem hu hx).symm.trans (by rw [hs, he]))
    have stays : ∀ x : Entry, x.serial ≠ ser → Stays x (relocated ser loc (e.cellAt loc) x) := fun x hx => by
      rw [relocated, if_neg hx]
      split
      · exact ⟨rfl, rfl, .inr (.inl rfl)⟩
      · exact Stays.refl x
    have moved : ∀ x : Entry, e.serial = ser → Distinct e x → Distinct (relocated ser loc (e.cellAt loc) e) (relocated ser loc (e.cellAt loc) x) :=
      fun x hes hx => by
        rw [relocated, if_pos hes, relocated, if_neg (fun h => hx.1 (hes.trans h.symm))]
        exact distinct_relocated hx
    by_cases hfs : f.serial = ser
    · obtain rfl := own f hf hfs
      exact moved g hfs hd
    · by_cases hgs : g.serial = ser
      · obtain rfl := own g hg hgs
        exact (moved f hgs hd.symm).symm
      · exact (stays f hfs).distinct (stays g hgs) hd

/-! ## The updates of the blocks (R56 to R62) -/

theorem updAudit {acc : Acc} {f : Audit → Audit} (h : Edit s u) : Edit s (u.updAudit acc f) := h.same rfl

theorem addSkips {e : Entry} (h : Edit s u) : Edit s (u.addSkips e) := by
  unfold State.addSkips
  split
  · exact h
  · exact h.updAudit.updAudit

theorem pickedUp {ser : Serial} {acc : Acc} {k : Fin 3} (h : Edit s u) : Edit s (u.pickedUp ser acc k) := by
  unfold State.pickedUp
  split
  · exact h
  · dsimp only
    split
    · exact h.addSkips.setLocation.setVerif
    · exact h.setLocation.setVerif

theorem foundAt {ser : Serial} {c : Cell} (h : Edit s u) : Edit s (u.foundAt ser c) := by
  unfold State.foundAt
  split
  · exact h
  · split
    · exact h.setLocation.setVerif
    · exact h

theorem pickedOther {slot : Nat} {x : Option Serial} {y : Serial} {acc : Acc} {k : Fin 3} (h : Edit s u) :
    Edit s (u.pickedOther slot x y acc k) := by
  unfold State.pickedOther
  cases x with
  | none =>
    dsimp only
    split
    · exact h
    · exact h.pickedUp
  | some x =>
    dsimp only
    split
    · exact h.setMissing
    · exact h.setMissing.pickedUp

theorem placedAt {ser : Serial} {p : Place} (h : Edit s u) : Edit s (u.placedAt ser p) := by
  unfold State.placedAt
  split
  · exact h
  · exact h.setLocation

theorem suppliedAt {ser : Serial} {p : Fin 8} (h : Edit s u) : Edit s (u.suppliedAt ser p) := h.setLocation.setVerif

theorem collected {ser : Serial} (h : Edit s u) : Edit s (u.collected ser) := by
  unfold State.collected
  split
  · exact h
  · split
    · exact h.deleteEntry
    · exact h.updEntry (fun _ => ⟨rfl, rfl, .inr (.inr rfl)⟩) (fun _ => id)

theorem mapUnmark {p : Cell → Bool} (h : Edit s u) : Edit s { u with dir := u.dir.map (unmark p) } := by
  refine h.mapStays (fun e => ?_) (fun e he => ?_) <;> unfold unmark <;> split
  · exact ⟨rfl, rfl, .inl rfl⟩
  · exact Stays.refl e
  · exact he
  · exact he

theorem cellPassed {c : Cell} (h : Edit s u) : Edit s (u.cellPassed c) := h.mapUnmark

theorem auditAborted {first last : Cell} (h : Edit s u) : Edit s (u.auditAborted first last) := h.mapUnmark

theorem markRange {first last : Cell} (h : Edit s u) : Edit s (u.markRange first last) := by
  refine h.mapStays (fun e => ?_) (fun e he => ?_) <;> split
  · exact ⟨rfl, rfl, .inl rfl⟩
  · exact Stays.refl e
  · exact he
  · exact he

theorem missingAt {c : Cell} (h : Edit s u) : Edit s (u.missingAt c) := by
  unfold State.missingAt
  split
  · exact h.setMissing
  · exact h

theorem scanApplied {c : Cell} {r : ScanResult} (h : Edit s u) : Edit s (u.scanApplied c r) := by
  cases r with
  | label x =>
    simp only [State.scanApplied]
    split
    · exact h.setVerif
    · exact h.missingAt.foundAt
  | empty => exact h.missingAt
  | unreadable =>
    simp only [State.scanApplied]
    split
    · exact h.setVerif
    · exact h

/-! ## New entries (R49, R65, R66) -/

/-- A new entry, distinct from those there, joins a directory that is not full. -/
theorem addEntry {e : Entry} (h : Edit s u) (hroom : u.dir.length < dirCapacity) (hd : ∀ f ∈ u.dir, Distinct f e)
    (hm : (∀ f ∈ u.dir, f.mounts ≤ 65535) → e.mounts ≤ 65535) : Edit s { u with dir := u.dir ++ [e] } := by
  refine h.setDir (fun hu => ⟨by rw [List.length_append]; exact hroom, ?_⟩) (fun hu f hf => ?_)
  · exact List.pairwise_append.mpr ⟨hu.2, List.pairwise_singleton _ _, fun f hf x hx => List.mem_singleton.mp hx ▸ hd f hf⟩
  · exact (List.mem_append.mp hf).elim (hu f) (fun hf => List.mem_singleton.mp hf ▸ hm hu)

/-- An entry DIR_PUT writes is distinct from every other entry, its cell not taken (R65 check 4). -/
theorem distinct_putEntry {args : DirPutArgs} {v : PutValues} (hv : putValues args = some v) (hfree : u.cellTaken args.serial args.home = false)
    {f : Entry} (hf : f ∈ u.dir) (hne : f.serial ≠ args.serial) : Distinct f (u.putEntry args v) := by
  have hloc : v.loc = .home ∨ v.loc = .outside := by
    unfold putValues at hv
    split at hv
    · split at hv
      · rename_i l r n hl _ _
        cases hv
        unfold putLocationOfCode at hl
        split at hl <;> simp_all
      · cases hv
    · cases hv
  have hcell : f.home ≠ some args.home ∧ f.loc ≠ .misplaced args.home := by
    simp only [State.cellTaken, List.any_eq_false] at hfree
    simpa [hne] using hfree f hf
  have hexp : ∀ c, (u.putEntry args v).expectedAt c = true → c = args.home := fun c hc => by
    rcases (expectedAt_iff _ c).mp hc with ⟨-, hh⟩ | hl
    · exact (Option.some.inj hh).symm
    · have hl' : v.loc = .misplaced c := hl
      rcases hloc with e | e <;> rw [e] at hl' <;> cases hl'
  refine ⟨hne, fun c hc hp => hcell.1 (hc.trans (by rw [show (u.putEntry args v).home = some args.home from rfl] at hp; exact hp.symm)), ?_, ?_⟩
  · intro hm heq
    have heq' : f.loc = v.loc := heq
    rcases hloc with e | e <;> rw [heq', e] at hm <;> cases hm
  · intro c hc
    cases hx : (u.putEntry args v).expectedAt c
    · rfl
    · obtain rfl := hexp c hx
      rcases (expectedAt_iff f _).mp hc with ⟨-, hh⟩ | hl
      · exact absurd hh hcell.1
      · exact absurd hl hcell.2

theorem storePut {args : DirPutArgs} {v : PutValues} (h : Edit s u) (hv : putValues args = some v)
    (hroom : u.entry? args.serial = none → u.dir.length < dirCapacity) (hfree : u.cellTaken args.serial args.home = false) :
    Edit s (u.storeEntry (u.putEntry args v)) := by
  have hmounts : (∀ f ∈ u.dir, f.mounts ≤ 65535) → (u.putEntry args v).mounts ≤ 65535 := fun hu => by
    show ((u.entry? args.serial).map (·.mounts)).getD 0 ≤ 65535
    cases he : u.entry? args.serial with
    | none => exact Nat.zero_le _
    | some e => exact hu e (List.mem_of_find?_eq_some he)
  unfold State.storeEntry
  split
  · rename_i he
    have hnone : ∀ f ∈ u.dir, f.serial ≠ args.serial := by
      have he' : u.entry? args.serial = none := he
      simpa [State.entry?] using he'
    exact h.addEntry (hroom he) (fun f hf => distinct_putEntry hv hfree hf (hnone f hf)) hmounts
  · have hserial : (u.putEntry args v).serial = args.serial := rfl
    refine h.setDir (fun hu => ⟨by simpa using hu.1, List.pairwise_map.mpr (List.Pairwise.imp_of_mem (fun {e f} he hf hd => ?_) hu.2)⟩)
      (fun hu f hf => ?_)
    · change Distinct _ _
      simp only [hserial]
      by_cases hes : e.serial = args.serial
      · have hfs : f.serial ≠ args.serial := fun x => hd.1 (hes.trans x.symm)
        rw [if_pos hes, if_neg hfs]
        exact (distinct_putEntry hv hfree hf hfs).symm
      · by_cases hfs : f.serial = args.serial
        · rw [if_neg hes, if_pos hfs]
          exact distinct_putEntry hv hfree he hes
        · rw [if_neg hes, if_neg hfs]
          exact hd
    · obtain ⟨e, he, rfl⟩ := List.mem_map.mp hf
      split
      · exact hmounts hu
      · exact hu e he

/-- The FOREIGN entry of an unknown volume joins a directory that is not full (R49). -/
theorem createForeign {ser : Option Serial} {n : Fin 128} (h : Edit s u) (hnew : ser.bind u.entry? = none) (hroom : u.dir.length < dirCapacity) :
    Edit s (u.createForeign ser n) := by
  cases ser with
  | none => exact h
  | some x =>
    have hnone : ∀ f ∈ u.dir, f.serial ≠ x := by
      have hnew' : u.entry? x = none := hnew
      simpa [State.entry?] using hnew'
    refine h.addEntry hroom (fun f hf => ⟨hnone f hf, fun c _ => Option.some_ne_none c ∘ Eq.symm, fun hm heq => ?_, fun c _ => rfl⟩) (fun _ => Nat.zero_le _)
    rw [heq] at hm; cases hm

end Edit

end Upkeep

end Sys2Proof
end

section
/-! PROOFS. Positions, legs, trips and orders (R95 to R118, R134 to R141): each operation of the station's positions and of the rail
scheduler is an edit. The zone law is kept because an order in the Middle segment is sent under the lock alone, and because an accessor
gives the lock up with nothing in flight. -/

namespace Sys2Proof

namespace Upkeep

open Machine Safety

namespace Edit

variable {s t u : State}

/-! ## Positions (R97, R134 to R138) -/

theorem setQueue {acc : Acc} {q : List Nat} (h : Edit s u) : Edit s (u.setQueue acc q) := h.same (by cases acc <;> rfl)

theorem setShelf {p : Fin 4} {x : ShelfPos} (h : Edit s u) : Edit s (u.setShelf p x) := h.same rfl

theorem setShelfWait {l : List LegRef} (h : Edit s u) : Edit s { u with rail := { u.rail with shelfWait := l } } := h.same rfl

theorem setStation {x : Station} (h : Edit s u) : Edit s { u with station := x } := h.same rfl

theorem setScanReqs {l : List ScanReq} (h : Edit s u) : Edit s { u with rail := { u.rail with scanReqs := l } } := h.same rfl

theorem setDst {ref : LegRef} {dst : Place} (h : Edit s u) : Edit s (u.setDst ref dst) := by
  cases ref with
  | record slot => exact h.updLeg
  | putBack acc k =>
    unfold State.setDst
    exact h.updAcc' fun _ => rfl

theorem claimShelf {p : Fin 4} (h : Edit s u) : Edit s (u.claimShelf p) := by
  unfold State.claimShelf
  split
  · exact h
  · split
    · exact h.setShelfWait.setShelf.setDst
    · exact h

theorem freeShelf {p : Fin 4} (h : Edit s u) : Edit s (u.freeShelf p) := h.setShelf.claimShelf

theorem requestScan {p : Fin 8} {k : ScanKind} (h : Edit s u) : Edit s (u.requestScan p k) := by
  unfold State.requestScan
  dsimp only
  split
  · exact h.updPos
  · exact h.updPos.setScanReqs

theorem withdrawScan {p : Fin 8} (h : Edit s u) : Edit s (u.withdrawScan p) := h.setScanReqs

theorem supplyAt {slot : Nat} {p : Fin 8} (h : Edit s u) : Edit s (u.supplyAt slot p) := by
  unfold State.supplyAt
  exact h.updPos.askStation

theorem claimStation {p : Fin 8} (h : Edit s u) : Edit s (u.claimStation p) := by
  unfold State.claimStation
  split
  · split
    · exact h.setStation.updPos.setDst
    · split
      · exact h.setStation.supplyAt
      · exact h
  · exact h

theorem freeStation {p : Fin 8} (h : Edit s u) : Edit s (u.freeStation p) := by
  unfold State.freeStation
  exact h.updPos.claimStation

theorem freeReservation {ref : LegRef} (h : Edit s u) : Edit s (u.freeReservation ref) := by
  unfold State.freeReservation
  have hw : Edit s { u with
      rail := { u.rail with shelfWait := u.rail.shelfWait.filter (fun x => x ≠ ref) },
      station := { u.station with resWait := u.station.resWait.filter (fun x => x ≠ ref) } } := h.same rfl
  dsimp only
  split
  · split
    · exact hw.freeShelf.freeStation
    · exact hw.freeStation
  · split
    · exact hw.freeShelf
    · exact hw

theorem reserveStation {ref : LegRef} (h : Edit s u) : Edit s ((u.reserveStation ref).getD u) := by
  unfold State.reserveStation
  cases u.emptyStation with
  | none => exact h
  | some p => exact h.updPos.setDst

theorem reserveFor {ref : LegRef} {v : State} (h : Edit s u) (hv : u.reserveFor ref = some v) : Edit s v := by
  rcases reserveFor_cases hv with rfl | ⟨p, -, rfl⟩ | ⟨p, -, rfl⟩
  · exact h
  · exact h.setShelf.setDst
  · exact h.updPos.setDst

theorem reserveFor_getD {ref : LegRef} (h : Edit s u) : Edit s ((u.reserveFor ref).getD u) := by
  cases hv : u.reserveFor ref with
  | none => exact h
  | some v => exact h.reserveFor hv

theorem sendToStation {ref : LegRef} (h : Edit s u) : Edit s (u.sendToStation ref) := by
  unfold State.sendToStation
  exact h.setDst.reserveStation

theorem supplyOrWait {slot : Nat} {l : List Nat} (h : Edit s u) : Edit s (u.supplyOrWait slot l) := by
  unfold State.supplyOrWait
  split
  · exact h.supplyAt
  · exact h.setStation

theorem startSupply {slot : Nat} (h : Edit s u) : Edit s (u.startSupply slot) := h.supplyOrWait

theorem markScanLate {p : Fin 8} (h : Edit s u) : Edit s (u.markScanLate p) := by
  refine foldl (fun u acc => ?_) _ h
  exact (refl u).updAcc' fun _ => rfl

theorem endSupply {slot : Nat} (h : Edit s u) : Edit s (u.endSupply slot) := by
  unfold State.endSupply
  dsimp only
  split
  · exact h.setStation
  · exact h.setStation.dropStation.withdrawScan.markScanLate.freeStation

/-! ## Queues and trips (R95 to R102) -/

theorem yieldAudit {acc : Acc} {prio : Fin 4} (h : Edit s u) : Edit s (u.yieldAudit acc prio) := h.updAudit

theorem legReady {slot : Nat} (h : Edit s u) : Edit s (u.legReady slot) := by
  unfold State.legReady
  split
  · exact h
  · exact h.updLeg.setQueue.yieldAudit

theorem tripJoin {acc : Acc} {slot : Nat} (h : Edit s u) : Edit s (u.tripJoin acc slot) := by
  unfold State.tripJoin
  refine Edit.reserveFor_getD (Edit.updAcc' ?_ ?_)
  · exact h.setQueue.updLeg
  · exact fun _ => rfl

theorem tripFill {acc : Acc} (h : Edit s u) : Edit s (u.tripFill acc) := by
  refine foldl (fun u slot => ?_) _ h
  split
  · exact (refl u).tripJoin
  · exact refl u

theorem tripOpen {acc : Acc} (h : Edit s u) : Edit s (u.tripOpen acc) := by
  unfold State.tripOpen
  split
  · refine Edit.tripFill (h.updAcc' ?_)
    exact fun _ => rfl
  · exact h

theorem tripStart {acc : Acc} (h : Edit s u) : Edit s (u.tripStart acc) := by
  unfold State.tripStart
  exact h.updAcc' fun _ => rfl

theorem updStops {acc : Acc} {f : List Stop → List Stop} (h : Edit s u) : Edit s (u.updStops acc f) := by
  unfold State.updStops
  exact h.updAcc' fun _ => rfl

/-! ## Orders (R103, R110, R111) -/

theorem joinWait {acc : Acc} {x : Stop} (h : Edit s u) : Edit s (u.joinWait acc x) := by
  unfold State.joinWait
  split
  · exact h
  · split
    · exact h.setShelfWait
    · exact h.setStation

theorem awaitPosition {acc : Acc} {x : Stop} (h : Edit s u) : Edit s (u.awaitPosition acc x) := by
  unfold State.awaitPosition
  dsimp only
  split
  · refine h.joinWait.updAcc' ?_
    exact fun _ => rfl
  · exact h.joinWait

theorem chooseStop {acc : Acc} {behind stops : List Stop} (h : Edit s u) : Edit s (u.chooseStop acc behind stops) := by
  induction stops generalizing behind with
  | nil =>
    cases behind with
    | nil => exact h
    | cons x _ => exact h.awaitPosition
  | cons x rest ih =>
    unfold State.chooseStop
    split
    · split
      · rename_i hv
        exact (h.reserveFor hv).updStops
      · exact ih
    · exact h.updStops

theorem bringStop {acc : Acc} (h : Edit s u) : Edit s (u.bringStop acc) := by
  unfold State.bringStop
  dsimp only
  split
  · exact h.chooseStop
  · exact h

theorem send {o : MechOrder} (h : Edit s u) : Edit s (u.send o) := h.same rfl

theorem start (h : Edit s u) : Edit s u.start := h.same rfl

theorem unwait {acc : Acc} (h : Edit s u) : Edit s (u.updAcc acc AccRec.unwait) :=
  h.updAcc' fun x => by unfold AccRec.unwait; split <;> rfl

theorem inMiddle_iff (col : Nat) : inMiddle col = true ↔ 80 ≤ col ∧ col ≤ 119 := by
  unfold inMiddle segmentOf
  split
  · simp; omega
  · split
    · simp; omega
    · simp; omega

/-- An order is sent; one in the Middle segment by the holder of the zone lock (R110). -/
theorem sendOrder {acc : Acc} {n : NextOrder} (h : Edit s u) (hn : inMiddle n.col = true → u.rail.zone = some acc) :
    Edit s (u.sendOrder acc n) := by
  have key : ∀ v : State, v.rail = u.rail → Edit s v →
      Edit s (v.updAcc acc (fun x => { x with
        order := some { op := n.op, col := n.col, place := n.place, holder := u.holderFor acc n.op, timer := (u.acc acc).limitOf n.op }
        todo := none })) := by
    intro v hv he
    refine he.updAccOrder rfl (fun _ o ho hlo hhi => ?_)
    cases ho
    rw [hv]
    exact hn ((inMiddle_iff _).mpr ⟨hlo, hhi⟩)
  unfold State.sendOrder
  refine Edit.send ?_
  split
  · exact key _ rfl h.updLeg
  · exact key _ rfl h

theorem askZone {acc : Acc} (h : Edit s u) : Edit s (u.askZone acc) := by
  unfold State.askZone
  split
  · exact h
  · split
    · rename_i hfree
      exact h.takeZone hfree.1
    · dsimp only
      refine Edit.updAcc' ?_ (fun x => ?_)
      · split
        · exact h
        · exact h.same rfl
      · split <;> rfl

theorem passGates {acc : Acc} {n : NextOrder} (h : Edit s u) (hn : inMiddle n.col = true → n.needsLock = true) :
    Edit s (u.passGates acc n) := by
  unfold State.passGates
  split
  · rename_i hz
    dsimp only
    split
    · refine h.unwait.sendOrder (fun hm => ?_)
      have hzone : u.rail.zone = some acc := by simpa [State.zoneOk, hn hm] using hz
      exact hzone
    · exact h.unwait
  · exact h

theorem tryOrder {acc : Acc} {n : NextOrder} (h : Edit s u) (hn : inMiddle n.col = true → n.needsLock = true) :
    Edit s (u.tryOrder acc n) := by
  unfold State.tryOrder
  refine Edit.passGates ?_ hn
  split
  · exact h.askZone
  · exact h

/-- The next order of an accessor needs the zone lock when its column lies in the Middle segment (R103, R110). -/
theorem needsLock_of_nextOrder {acc : Acc} {n : NextOrder} (h : u.nextOrder acc = some n) (hm : inMiddle n.col = true) :
    n.needsLock = true := by
  unfold State.nextOrder at h
  dsimp only at h
  split at h
  · cases h
  · split at h
    · unfold AccRec.todoOrder at h
      split at h
      · obtain ⟨t, -, rfl⟩ := Option.map_eq_some_iff.mp h
        exact hm
      · cases h
        cases acc <;> cases hm
      · cases h
        exact hm
    · split at h
      · split at h
        · cases h
        · split at h
          · cases h
          · unfold State.stopOrder at h
            split at h
            · cases h
            · cases h
              exact hm
      · cases h

theorem sendNext {acc : Acc} (h : Edit s u) : Edit s (u.sendNext acc) := by
  unfold State.sendNext
  split
  · exact h
  · rename_i hn
    exact h.tryOrder (needsLock_of_nextOrder hn)

theorem orderSend {acc : Acc} (h : Edit s u) : Edit s (u.orderSend acc) := h.bringStop.sendNext

/-! ## Looking for work (R98) -/

theorem stationScanTaken {acc : Acc} (h : Edit s u) : Edit s (u.stationScanTaken acc) := by
  unfold State.stationScanTaken
  split
  · split
    · exact h
    · refine Edit.orderSend (Edit.updAcc' h.setScanReqs.updPos ?_)
      exact fun _ => rfl
  · exact h

theorem auditResume {acc : Acc} (h : Edit s u) : Edit s (u.auditResume acc) := by
  unfold State.auditResume
  split
  · split
    · exact h.updAudit
    · exact h
  · exact h

theorem auditScanSend {acc : Acc} (h : Edit s u) : Edit s (u.auditScanSend acc) := by
  unfold State.auditScanSend
  split
  · split
    · split
      · refine Edit.orderSend (Edit.updAcc' h.updAudit ?_)
        exact fun _ => rfl
      · exact h
    · exact h
  · exact h

theorem startIfDue {acc : Acc} (h : Edit s u) : Edit s (u.startIfDue acc) := by
  unfold State.startIfDue
  split
  · exact h.tripStart.orderSend
  · exact h

theorem gather {acc : Acc} (h : Edit s u) : Edit s (u.gather acc) := by
  unfold State.gather
  split
  · exact h.tripFill
  · exact h

theorem look {acc : Acc} (h : Edit s u) : Edit s (u.look acc) := by
  unfold State.look
  refine Edit.startIfDue (Edit.gather ?_)
  split
  · exact h.auditResume.stationScanTaken
  · split
    · exact h.auditResume.tripOpen
    · exact h.auditResume.auditScanSend

/-! ## Withdrawal and the end of an event (R96, R108) -/

theorem accFacts_endEmptyGather (x : AccRec) : accFacts x.endEmptyGather = accFacts x := by
  unfold AccRec.endEmptyGather
  split
  · split <;> rfl
  · rfl

/-- A record changes in nothing that a law reads. -/
theorem setRec {slot : Nat} {f : Rec → Rec} (h : Edit s u) (hf : ∀ r, recFacts (f r) = recFacts r) : Edit s (u.updRec slot f) := by
  refine h.same ?_
  simp only [facts, updRec_slots u slot (fun r _ => hf r)]
  rfl

theorem removeLeg {slot : Nat} (h : Edit s u) : Edit s (u.removeLeg slot) := by
  unfold State.removeLeg
  split
  · exact h
  · refine Edit.freeReservation (Edit.setRec (h.setQueue.updAcc' ?_) ?_)
    · exact fun x => accFacts_endEmptyGather _
    · exact fun _ => rfl

theorem discardLegs {slot : Nat} (h : Edit s u) : Edit s (u.discardLegs slot) := by
  unfold State.discardLegs
  exact h.removeLeg.setRec fun _ => rfl

theorem returnToQueue {slot : Nat} (h : Edit s u) : Edit s (u.returnToQueue slot) := by
  unfold State.returnToQueue
  split
  · exact h
  · refine Edit.legReady (Edit.freeReservation (Edit.updLeg (h.updAcc' ?_)))
    exact fun _ => rfl

theorem idleOrPark {acc : Acc} (h : Edit s u) (hidle : (u.acc acc).order = none) : Edit s (u.idleOrPark acc) := by
  unfold State.idleOrPark
  split
  · exact h.updAcc' fun _ => rfl
  · refine Edit.releaseZone (h.updAcc' fun _ => rfl) ?_
    rw [State.acc_updAcc_self]
    exact hidle

theorem endTrip {acc : Acc} (h : Edit s u) : Edit s (u.endTrip acc) := by
  unfold State.endTrip
  dsimp only
  split
  · rename_i hc
    simp only [Bool.and_eq_true, Option.isNone_iff_eq_none] at hc
    refine Edit.idleOrPark (h.updAcc' fun _ => rfl) ?_
    rw [State.acc_updAcc_self]
    exact hc.1.1.2
  · exact h

theorem pruneZone {acc : Acc} (h : Edit s u) : Edit s (u.pruneZone acc) := by
  unfold State.pruneZone
  split
  · exact Edit.unwait (h.same rfl)
  · exact h

theorem zoneGrant (h : Edit s u) : Edit s u.zoneGrant := by
  unfold State.zoneGrant
  split
  · exact h
  · split
    · rename_i hfree
      exact (h.takeZone hfree.1).unwait
    · exact h

theorem idlePark {acc : Acc} (h : Edit s u) : Edit s (u.idlePark acc) := by
  unfold State.idlePark
  dsimp only
  split
  · rename_i hc
    simp only [Bool.and_eq_true, Option.isNone_iff_eq_none] at hc
    exact (h.idleOrPark hc.1.1.2).orderSend
  · exact h

theorem railSettle (h : Edit s u) : Edit s u.railSettle := by
  unfold State.railSettle
  exact h.pruneZone.pruneZone.endTrip.endTrip.zoneGrant.orderSend.orderSend.look.look.idlePark.idlePark

end Edit

end Upkeep

end Sys2Proof
end

section
/-! PROOFS. Records, drives and the end of an event (R3 to R20, R73 to R92, R186): each operation is an edit. -/

namespace Sys2Proof

namespace Upkeep

open Machine Safety

/-- The slot given to a new record lies in the table and no open record has it (R1). -/
theorem freeSlot_spec {u : State} {slot : Nat} (h : u.freeSlot = some slot) : slot < 64 ∧ ∀ q ∈ u.recs, q.slot ≠ slot := by
  have hfind := List.find?_some h
  have hmem := List.mem_of_find?_eq_some h
  exact ⟨List.mem_range.mp hmem, by simpa using hfind⟩

theorem available_enqueue (u : State) (f : Frame) : (u.enqueue false f).link.available = u.link.available - 1 := by
  simp only [Link.available, State.enqueue, Link.ordUsed, List.filter_append, List.length_append]
  split
  · simp
    omega
  · rfl

namespace Edit

variable {s t u : State}

/-! ## Hold time and the build (R166, R172 to R176) -/

theorem startHold {slot : Nat} (h : Edit s u) : Edit s (u.startHold slot) := by
  unfold State.startHold
  exact h.setRec fun _ => rfl

theorem stopHold {slot : Nat} (h : Edit s u) : Edit s (u.stopHold slot) :=
  h.updRec fun _ _ => ⟨rfl, rfl, rfl, fun ⟨hlegs, hprompts, _⟩ => ⟨hlegs, hprompts, min_le_right _ _⟩⟩

theorem enterPosting {slot : Nat} (h : Edit s u) : Edit s (u.enterPosting slot) := by
  unfold State.enterPosting
  split
  · exact h
  · dsimp only
    refine Edit.setRec (Edit.foldl (fun v n => (refl v).setFlag) _ h.chargeAccount) ?_
    exact fun _ => rfl

theorem setOutcome {slot : Nat} {o : FinalOutcome} (h : Edit s u) : Edit s (u.setOutcome slot o) := by
  unfold State.setOutcome
  exact h.setRec fun _ => rfl

theorem setRecState {slot : Nat} {st : RecState} (h : Edit s u) : Edit s (u.setRecState slot st) := by
  unfold State.setRecState
  exact h.setRec fun _ => rfl

theorem postWith {slot : Nat} {o : FinalOutcome} (h : Edit s u) : Edit s (u.postWith slot o) := h.setOutcome.enterPosting

/-! ## Legs and reservations (R76 to R79, R140 to R143) -/

theorem makeLegs {slot : Nat} {l : Leg} {next : Option Leg} (h : Edit s u) : Edit s (u.makeLegs slot l next) := by
  unfold State.makeLegs
  refine Edit.legReady (h.setRec ?_)
  exact fun _ => rfl

theorem enterCollect {slot : Nat} {p : Fin 8} (h : Edit s u) : Edit s (u.enterCollect slot p) := by
  unfold State.enterCollect
  refine Edit.askStation (Edit.updPos (h.setRec ?_))
  exact fun _ => rfl

theorem stationHome {slot : Nat} {p : Fin 8} {st : RecState} (h : Edit s u) : Edit s (u.stationHome slot p st) := by
  unfold State.stationHome
  split
  · exact h
  · split
    · exact h.enterCollect
    · exact h.updPos.setRecState.makeLegs

theorem shelfHome {slot : Nat} {p : Fin 4} {acc : Acc} (h : Edit s u) : Edit s (u.shelfHome slot p acc) := by
  unfold State.shelfHome
  split
  · exact h
  · dsimp only
    split
    · exact h.setRecState.makeLegs
    · exact h.setRecState.makeLegs

theorem reserve {slot : Nat} {d : Fin 16} (h : Edit s u) : Edit s (u.reserve slot d) := by
  unfold State.reserve
  split
  · exact h
  · refine Edit.makeLegs (Edit.setRec (h.updDrive ?_) ?_)
    · exact fun _ => rfl
    · exact fun _ => rfl

theorem allocateForRecord {slot : Nat} (h : Edit s u) : Edit s (u.allocateForRecord slot) := by
  unfold State.allocateForRecord
  split
  · exact h
  · split
    · split
      · exact h.reserve
      · exact h
    · exact h

/-! ## INTERNAL records and cleaning (R9, R86, R92) -/

theorem returnOpen {d : Fin 16} (h : Edit s u) : Edit s (u.returnOpen d) := by
  unfold State.returnOpen
  split
  · exact h.updDrive fun _ => rfl
  · rename_i slot hslot
    obtain ⟨hlt, hfresh⟩ := freeSlot_spec hslot
    refine Edit.send (Edit.updDrive (h.openRec hlt hfresh rfl ?_) ?_)
    · exact ⟨Nat.zero_le _, Nat.zero_le _, Nat.zero_le _⟩
    · exact fun _ => rfl

theorem setCleanWait {d : Fin 16} {w : Bool} (h : Edit s u) : Edit s (u.setCleanWait d w) := by
  unfold State.setCleanWait
  exact h.updDrive fun _ => rfl

theorem cleaningAttempt {d : Fin 16} (h : Edit s u) : Edit s (u.cleaningAttempt d) := by
  unfold State.cleaningAttempt
  split
  · split
    · split
      · rename_i slot hslot
        obtain ⟨hlt, hfresh⟩ := freeSlot_spec hslot
        refine Edit.allocateForRecord (Edit.tidyCleanSupply (Edit.setCleanWait (h.openRec hlt hfresh rfl ?_)))
        exact ⟨Nat.zero_le _, Nat.zero_le _, Nat.zero_le _⟩
      · exact h.setCleanWait
    · dsimp only
      split
      · exact h.setCleanWait.askCleanSupply
      · exact h.setCleanWait
  · exact h

theorem cleaningAttempts (h : Edit s u) : Edit s u.cleaningAttempts := by
  refine foldl (fun u d => ?_) _ h
  split
  · exact (refl u).cleaningAttempt
  · exact refl u

theorem recordFreed (h : Edit s u) : Edit s u.recordFreed := by
  refine Edit.cleaningAttempts (foldl (fun u d => ?_) _ h)
  split
  · exact (refl u).returnOpen
  · exact refl u

theorem allocateForDrive {d : Fin 16} (h : Edit s u) : Edit s (u.allocateForDrive d) := by
  unfold State.allocateForDrive
  split
  · split
    · exact h.reserve
    · exact h.cleaningAttempt
  · exact h

theorem releaseDrive {slot : Nat} {taken : Bool} (h : Edit s u) : Edit s (u.releaseDrive slot taken) := by
  unfold State.releaseDrive
  split
  · exact h
  · refine Edit.allocateForDrive (Edit.updDrive (h.setRec ?_) ?_)
    · exact fun _ => rfl
    · exact fun _ => rfl

/-! ## Moving a record on (R10, R12 to R14) -/

theorem enterQueued {slot : Nat} (h : Edit s u) : Edit s (u.enterQueued slot) := h.setRecState.allocateForRecord

theorem enterSupply {slot : Nat} (h : Edit s u) : Edit s (u.enterSupply slot) := h.setRecState.startSupply

theorem enterStaged {slot : Nat} (h : Edit s u) : Edit s (u.enterStaged slot) := by
  unfold State.enterStaged
  split
  · exact h
  · exact h.setRecState.makeLegs

theorem moveOn {slot : Nat} (h : Edit s u) : Edit s (u.moveOn slot) := by
  unfold State.moveOn
  split
  · exact h
  · split
    · exact h.enterStaged
    · exact h.enterSupply
    · split
      · exact h.enterSupply
      · exact h.enterQueued

theorem continueHeld {slot : Nat} (h : Edit s u) : Edit s (u.continueHeld slot) := by
  unfold State.continueHeld
  have hfree : Edit s (u.updRec slot Rec.unheld) := h.setRec fun _ => rfl
  dsimp only
  split
  · exact hfree
  · split
    · split
      · exact hfree.postWith
      · exact hfree.moveOn
    · exact hfree.moveOn

theorem releaseHeld {n : Fin 128} {slot : Nat} (h : Edit s u) : Edit s (u.releaseHeld n slot) := by
  unfold State.releaseHeld
  split
  · exact h
  · split
    · exact h.dropApprove.continueHeld
    · exact h

theorem budgetRelease {n : Fin 128} (h : Edit s u) : Edit s (u.budgetRelease n) :=
  foldl (fun u _ => (refl u).releaseHeld) _ h

/-! ## Unmounting and drive faults (R16, R18, R80, R83) -/

theorem unload {slot : Nat} {d : Fin 16} (h : Edit s u) : Edit s (u.unload slot d) := by
  unfold State.unload
  refine Edit.send (Edit.updDrive (h.stopHold.setRec ?_) ?_)
  · exact fun _ => rfl
  · exact fun _ => rfl

theorem stow {slot : Nat} {d : Fin 16} (h : Edit s u) : Edit s (u.stow slot d) := by
  unfold State.stow
  split
  · exact h
  · exact h.setRecState.makeLegs

theorem divert {slot : Nat} (h : Edit s u) : Edit s (u.divert slot) := by
  unfold State.divert
  have hleg : Edit s ((u.updRec slot (fun r => { r with nextLeg := none })).updLeg slot (fun l => { l with diverted := true })) :=
    Edit.updLeg (h.setRec fun _ => rfl)
  dsimp only
  split
  · exact hleg
  · exact hleg.freeReservation.sendToStation

theorem reservedFault {slot : Nat} (h : Edit s u) : Edit s (u.reservedFault slot) := by
  unfold State.reservedFault
  have hgone : Edit s (u.updRec slot (fun r => { r with drive := none })) := h.setRec fun _ => rfl
  split
  · exact h
  · dsimp only
    split
    · exact hgone.enterQueued
    · split
      · split
        · exact hgone
        · split
          · exact hgone.setOutcome
          · exact hgone.setOutcome.divert
      · exact hgone.discardLegs.enterQueued

theorem heldFault {slot : Nat} {left : DriveState} (h : Edit s u) : Edit s (u.heldFault slot left) := by
  cases left
  case awaitingStow => exact h.setOutcome
  case mounted => exact h.setOutcome.stopHold.setRecState
  all_goals exact h.setOutcome.setRecState

theorem heldFault_getD {slot : Option Nat} {left : DriveState} (h : Edit s u) :
    Edit s ((slot.map (fun slot => u.heldFault slot left)).getD u) := by
  cases slot with
  | none => exact h
  | some slot => exact h.heldFault

theorem driveFault {d : Fin 16} (h : Edit s u) : Edit s (u.driveFault d) := by
  have hraise : Edit s (u.raise .driveFault (.drive d)) := h.raise
  have hbare : Edit s ((u.raise .driveFault (.drive d)).updDrive d
      (fun x => { x with state := .faulted, holding := none, status := none })) := hraise.updDrive fun _ => rfl
  have hheld : Edit s ((u.raise .driveFault (.drive d)).updDrive d
      (fun x => { x with state := .faulted, reel := true, status := none })) := hraise.updDrive fun _ => rfl
  have hquiet : Edit s (((u.raise .driveFault (.drive d)).updDrive d
      (fun x => { x with state := .faulted, holding := none, status := none })).updDrive d
      (fun x => { x with reel := false, cleanWait := false })).tidyCleanSupply := Edit.tidyCleanSupply (hbare.updDrive fun _ => rfl)
  unfold State.driveFault
  dsimp only
  split
  · exact h
  · split
    · split
      · exact Edit.settle (hraise.updDrive fun _ => rfl)
      · exact hquiet.settle
    · split
      · exact hbare.reservedFault
      · exact hbare
    · exact hheld.heldFault_getD
    · exact hheld.heldFault_getD
    · exact hheld.heldFault_getD
    · exact hheld.heldFault_getD
    · exact hquiet

theorem placedFaulted {slot : Nat} {d : Fin 16} (h : Edit s u) : Edit s (u.placedFaulted slot d) := by
  unfold State.placedFaulted
  refine Edit.setRec (h.updDrive ?_) ?_
  · exact fun _ => rfl
  · exact fun _ => rfl

theorem placedFree {slot : Nat} {d : Fin 16} (h : Edit s u) : Edit s (u.placedFree slot d) := by
  unfold State.placedFree
  refine Edit.tidyCleanSupply (Edit.setRec (h.updDrive ?_) ?_)
  · exact fun _ => rfl
  · exact fun _ => rfl

theorem drivePlaced {slot : Nat} {d : Fin 16} (h : Edit s u) : Edit s (u.drivePlaced slot d) := by
  unfold State.drivePlaced
  split
  · refine Edit.setRec (h.updDrive ?_) ?_
    · exact fun _ => rfl
    · exact fun _ => rfl
  · split
    · exact h.placedFree
    · exact h.driveFault.placedFaulted

/-! ## Waiting records and the end of an event (R20, R186) -/

theorem queueMounted {r : Rec} (h : Edit s u) (ha : 0 < u.link.available) : Edit s (u.queueMounted r) := by
  unfold State.queueMounted
  exact (h.enqueue ha).setRec fun _ => rfl

/-- The frames of a POSTING record find the ordinary entries they need (R20, R186). -/
theorem queueFrames {r : Rec} (h : Edit s u) (hp : r.state = .posting) (ha : r.needs ≤ u.link.available) : Edit s (u.queueFrames r) := by
  have two : ∀ v : State, Edit s v → 2 ≤ v.link.available →
      Edit s ((match r.usage with | some x => v.enqueue false (.usage x) | none => v).enqueue false (.ending (finalEnding r))) := by
    intro v hv ha
    cases r.usage with
    | none => exact hv.enqueue (by omega)
    | some x => exact (hv.enqueue (by omega)).enqueue (by rw [available_enqueue]; omega)
  rw [Rec.needs, hp] at ha
  unfold State.queueFrames
  dsimp only at ha ⊢
  by_cases hm : r.mountedOwed = true
  · simp only [hm, if_true] at ha ⊢
    refine two _ (h.queueMounted (by omega)) ?_
    show 2 ≤ (u.enqueue false (.ending (mountedEnding r))).link.available
    rw [available_enqueue]
    omega
  · simp only [hm] at ha ⊢
    exact two u h ha

theorem offerNotice {n : Notice} (h : Edit s u) : Edit s (u.offerNotice n) := by
  unfold State.offerNotice
  split
  · rename_i hc
    simp only [Bool.and_eq_true, decide_eq_true_eq] at hc
    exact h.enqueue hc.2
  · exact h

theorem offerNotices (h : Edit s u) : Edit s u.offerNotices :=
  foldl (fun u _ => (refl u).offerNotice) _ (h.same rfl)

theorem close {slot : Nat} (h : Edit s u) : Edit s (u.close slot) := (h.shut slot).recordFreed

theorem servePosting {r : Rec} (h : Edit s u) (hp : r.state = .posting) (ha : r.needs ≤ u.link.available) : Edit s (u.servePosting r) :=
  (foldl (fun u _ => (refl u).offerNotice) _ (h.queueFrames hp ha)).close

theorem needs_pos (r : Rec) : 0 < r.needs := by
  unfold Rec.needs
  split
  · split <;> decide
  · decide

theorem serveOldest (h : Edit s u) : Edit s u.serveOldest := by
  unfold State.serveOldest
  split
  · exact h
  · rename_i r _
    split
    · rename_i ha
      split
      · rename_i hp
        exact h.servePosting hp ha
      · exact h.queueMounted ((needs_pos r).trans_le ha)
    · exact h

theorem serveUpTo {n : Nat} (h : Edit s u) : Edit s (u.serveUpTo n) := by
  induction n generalizing u with
  | zero => exact h
  | succ n ih => exact ih h.serveOldest

theorem commit (h : Edit s u) : Edit s u.commit := by
  unfold State.commit
  exact Edit.railSettle (Edit.offerNotices (Edit.serveUpTo h.railSettle))

end Edit

end Upkeep

end Sys2Proof
end

section
/-! PROOFS. What every command keeps (`Keeps`): the laws of the part, and every table and count that the command is not the one to load or
to count. A command answers one frame at most, which the bound on the reply backlog rests on (`Answers`). -/

namespace Sys2Proof

namespace Upkeep

open Machine Safety

/-- The tables of the host that a command does not load are as they were. -/
structure Loads (c : Instr) (x y : HostTables) : Prop where
  enables : (∀ tag e, c ≠ .noticeEnable tag e) → y.enables = x.enables
  rules : (∀ tag n e, c ≠ .ruleWrite tag n e) → (∀ tag n, c ≠ .ruleClear tag n) → y.rules = x.rules
  checkers : (∀ tag n src lo hi, c ≠ .rangeSet tag n src lo hi) → y.checkers = x.checkers
  selectors : (∀ tag m j e, c ≠ .selectorSet tag m j e) → y.selectors = x.selectors
  defaults : (∀ tag a, c ≠ .defaultsSet tag a) → y.defaults = x.defaults
  rates : (∀ tag r, c ≠ .rateSet tag r) → y.rates = x.rates
  templates : (∀ tag n a, c ≠ .templateSet tag n a) → y.templates = x.templates
  thresholds : (∀ tag n w l, c ≠ .accountSet tag n w l) → y.thresholds = x.thresholds
  driveSettings : (∀ tag d k p, c ≠ .driveSet tag d k p) → y.driveSettings = x.driveSettings
  accessorSettings : (∀ tag n a, c ≠ .accessorSet tag n a) → y.accessorSettings = x.accessorSettings
  inputSettings : (∀ tag n p k, c ≠ .inputSet tag n p k) → y.inputSettings = x.inputSettings

theorem Loads.refl (c : Instr) (x : HostTables) : Loads c x x := by
  constructor <;> intros <;> rfl

theorem Loads.trans {c : Instr} {x y z : HostTables} (h : Loads c x y) (g : Loads c y z) : Loads c x z where
  enables n := (g.enables n).trans (h.enables n)
  rules n m := (g.rules n m).trans (h.rules n m)
  checkers n := (g.checkers n).trans (h.checkers n)
  selectors n := (g.selectors n).trans (h.selectors n)
  defaults n := (g.defaults n).trans (h.defaults n)
  rates n := (g.rates n).trans (h.rates n)
  templates n := (g.templates n).trans (h.templates n)
  thresholds n := (g.thresholds n).trans (h.thresholds n)
  driveSettings n := (g.driveSettings n).trans (h.driveSettings n)
  accessorSettings n := (g.accessorSettings n).trans (h.accessorSettings n)
  inputSettings n := (g.inputSettings n).trans (h.inputSettings n)

/-- From `s` to `t` a command has kept every law, loaded no table but its own, cleared no notice flag and counted no time unless it is
the one to do so. -/
structure Keeps (c : Instr) (s t : State) : Prop where
  pending : t.pending = s.pending
  tables : Loads c (hostTables s) (hostTables t)
  time : c ≠ .tenthTick → c ≠ .secondTick → t.acct.seconds = s.acct.seconds ∧ t.acct.tenths = s.acct.tenths
  flags : (∀ tag, c ≠ .noticeSummaryClear tag) → ∀ k, s.flagSet k = true → t.flagSet k = true
  budget : budgetLaw s → budgetLaw t
  console : displayLaw s ∧ promptLaw s → displayLaw t ∧ promptLaw t
  zone : zoneLaw s → zoneLaw t
  capacity : capacityLaw s → capacityLaw t
  directory : directoryLaw s → directoryLaw t
  record : recordLaw s → recordLaw t
  drain : drainLaw s → drainLaw t
  rules : ruleLaw s → ruleLaw t
  settings : settingsLaw s → settingsLaw t
  counts : countLaw s → countLaw t

theorem Keeps.refl (c : Instr) (s : State) : Keeps c s s :=
  ⟨rfl, .refl _ _, fun _ _ => ⟨rfl, rfl⟩, fun _ _ => id, id, id, id, id, id, id, id, id, id, id⟩

theorem Keeps.trans {c : Instr} {s t u : State} (h : Keeps c s u) (g : Keeps c u t) : Keeps c s t where
  pending := g.pending.trans h.pending
  tables := h.tables.trans g.tables
  time n m := ⟨(g.time n m).1.trans (h.time n m).1, (g.time n m).2.trans (h.time n m).2⟩
  flags n k := g.flags n k ∘ h.flags n k
  budget := g.budget ∘ h.budget
  console := g.console ∘ h.console
  zone := g.zone ∘ h.zone
  capacity := g.capacity ∘ h.capacity
  directory := g.directory ∘ h.directory
  record := g.record ∘ h.record
  drain := g.drain ∘ h.drain
  rules := g.rules ∘ h.rules
  settings := g.settings ∘ h.settings
  counts := g.counts ∘ h.counts

/-- The replies of the part are as they were, and no record has joined the intake. -/
structure Silent (s t : State) : Prop where
  replies : replies t.link = replies s.link
  intake : t.cls.intake.length ≤ s.cls.intake.length

theorem Silent.trans {s t u : State} (h : Silent s u) (g : Silent u t) : Silent s t :=
  ⟨g.replies.trans h.replies, g.intake.trans h.intake⟩

theorem Edit.silent {s t : State} (h : Edit s t) : Silent s t := ⟨h.replies, h.intake⟩

/-- A command has kept what it keeps, and answered no frame. -/
structure Quiet (c : Instr) (s t : State) : Prop where
  keeps : Keeps c s t
  silent : Silent s t

theorem Quiet.trans {c : Instr} {s t u : State} (h : Quiet c s u) (g : Quiet c u t) : Quiet c s t :=
  ⟨h.keeps.trans g.keeps, h.silent.trans g.silent⟩

theorem Edit.quiet {c : Instr} {s t : State} (h : Edit s t) : Quiet c s t where
  silent := h.silent
  keeps :=
    { pending := h.pending, tables := h.tables ▸ .refl _ _, time := fun _ _ => h.time, flags := fun _ => h.flags, budget := h.budget
      console := h.console, zone := h.zone, directory := h.directory, record := h.record, drain := h.drain, counts := h.counts
      capacity := fun ⟨ho, hk, hb⟩ => by
        obtain ⟨hbacklog, hkept, -⟩ : _ ∧ _ ∧ _ := by simpa [Upkeep.replies] using h.replies
        exact ⟨h.ordinary ho, hkept ▸ hk, by rw [hbacklog, hkept]; exact hb⟩
      rules := by
        have hr : t.cls.rules = s.cls.rules := congrArg HostTables.rules h.tables
        rw [ruleLaw, ruleLaw, hr]; exact id
      settings := by
        have ht : t.console.templates = s.console.templates := congrArg HostTables.templates h.tables
        have hr : t.acct.rates = s.acct.rates := congrArg HostTables.rates h.tables
        simp only [settingsLaw, ht, hr]; exact id }

/-- From `s` to `t` at most one frame has been answered or one record has joined the intake. -/
structure OneReply (s t : State) : Prop where
  late : t.link.lateTaken = s.link.lateTaken
  ready : s.link.receiveReady = true → t.link.backlog = []
  blocked : s.link.receiveReady = false → t.link.receiveReady = false
  load : t.link.backlog.length + t.cls.intake.length ≤ s.link.backlog.length + s.cls.intake.length + 1

theorem receiveReady_of_replies {l k : Link} (h : replies l = replies k) :
    l.backlog = k.backlog ∧ l.lateTaken = k.lateTaken ∧ l.receiveReady = k.receiveReady := by
  obtain ⟨hb, hk, hl⟩ : _ ∧ _ ∧ _ := by simpa [replies] using h
  exact ⟨hb, hl, by rw [Link.receiveReady, Link.receiveReady, Link.keptFree, Link.keptFree, hb, hk]⟩

theorem backlog_of_ready {l : Link} (h : l.receiveReady = true) : l.backlog = [] := by
  simp only [Link.receiveReady, Bool.and_eq_true, List.isEmpty_iff] at h
  exact h.2

theorem Silent.oneReply {s t : State} (h : Silent s t) : OneReply s t := by
  obtain ⟨hb, hl, hr⟩ := receiveReady_of_replies h.replies
  refine ⟨hl, fun hs => by rw [hb]; exact backlog_of_ready hs, fun hs => by rw [hr]; exact hs, ?_⟩
  have := h.intake
  rw [hb]
  omega

theorem OneReply.after {s t u : State} (h : Silent s u) (g : OneReply u t) : OneReply s t := by
  obtain ⟨hb, hl, hr⟩ := receiveReady_of_replies h.replies
  refine ⟨g.late.trans hl, fun hs => g.ready (hr.trans hs), fun hs => g.blocked (hr.trans hs), ?_⟩
  have := g.load
  have := h.intake
  rw [hb] at *
  omega

theorem OneReply.andThen {s t u : State} (h : OneReply s u) (g : Silent u t) : OneReply s t := by
  obtain ⟨hb, hl, hr⟩ := receiveReady_of_replies g.replies
  refine ⟨hl.trans h.late, fun hs => hb.trans (h.ready hs), fun hs => hr.trans (h.blocked hs), ?_⟩
  have := h.load
  have := g.intake
  rw [hb]
  omega

/-- A command has kept what it keeps, and answered one frame at most. -/
structure Answers (c : Instr) (s t : State) : Prop where
  keeps : Keeps c s t
  reply : OneReply s t

theorem Quiet.answers {c : Instr} {s t : State} (h : Quiet c s t) : Answers c s t := ⟨h.keeps, h.silent.oneReply⟩

theorem Edit.answers {c : Instr} {s t : State} (h : Edit s t) : Answers c s t := h.quiet.answers

theorem Answers.andThen {c : Instr} {s t u : State} (h : Answers c s u) (g : Edit u t) : Answers c s t :=
  ⟨h.keeps.trans g.quiet.keeps, h.reply.andThen g.silent⟩

theorem keptUsed_enqueue (u : State) (f : Frame) : (u.enqueue true f).link.keptUsed = u.link.keptUsed + 1 := by
  simp [Link.keptUsed, State.enqueue]

theorem ordUsed_enqueue (u : State) (f : Frame) : (u.enqueue true f).link.ordUsed = u.link.ordUsed := by
  simp [Link.ordUsed, State.enqueue]

/-- A link with its outbound queue, backlog and late mark changed keeps what does not read them. -/
theorem keeps_setReplies {c : Instr} {s : State} {outq : List OutFrame} {backlog : List Frame} {late : Bool}
    (h : capacityLaw s → capacityLaw { s with link := { s.link with outq := outq, backlog := backlog, lateTaken := late } }) :
    Keeps c s { s with link := { s.link with outq := outq, backlog := backlog, lateTaken := late } } :=
  { Keeps.refl c s with capacity := h }

theorem answers_immediate (c : Instr) (u : State) (f : Frame) : Answers c u (u.immediate f) := by
  by_cases hfree : u.link.keptFree = true
  · have hused : u.link.keptUsed < 4 := by simpa [Link.keptFree] using hfree
    rw [immediate_of_keptFree hfree]
    refine ⟨keeps_setReplies (fun ⟨ho, hk, hb⟩ => ⟨?_, ?_, ?_⟩), rfl, fun hs => backlog_of_ready (l := u.link) hs, fun hs => ?_, ?_⟩
    · exact (ordUsed_enqueue u f).trans_le ho
    · exact (keptUsed_enqueue u f).trans_le hused
    · intro hne
      have := hb hne
      omega
    · have hb : u.link.backlog.isEmpty = false := by simpa [Link.receiveReady, hfree] using hs
      show (_ && u.link.backlog.isEmpty) = false
      rw [hb, Bool.and_false]
    · show u.link.backlog.length + u.cls.intake.length ≤ _
      omega
  · have hused : 4 ≤ u.link.keptUsed := by simpa [Link.keptFree] using hfree
    have hready : u.link.receiveReady = false := by simp [Link.receiveReady, hfree]
    rw [State.immediate, if_neg hfree]
    refine ⟨keeps_setReplies (fun ⟨ho, hk, hb⟩ => ⟨ho, hk, fun _ => le_antisymm hk hused⟩), rfl, fun hs => ?_, fun _ => ?_, ?_⟩
    · rw [hready] at hs; cases hs
    · simp [Link.receiveReady]
    · simp
      omega

theorem Quiet.immediate {c : Instr} {s u : State} (h : Quiet c s u) (f : Frame) : Answers c s (u.immediate f) :=
  ⟨h.keeps.trans (answers_immediate c u f).keeps, .after h.silent (answers_immediate c u f).reply⟩

/-! ## A command's account of itself -/

/-- What every command but POWER_ON keeps, the bound on the reply backlog among it. -/
structure Kept (c : Instr) (s t : State) : Prop where
  keeps : Keeps c s t
  backlog : recordLaw s → capacityLaw s → backlogLaw s → backlogLaw t

theorem Quiet.kept {c : Instr} {s t : State} (h : Quiet c s t) : Kept c s t := by
  refine ⟨h.keeps, fun _ _ ⟨hlate, hload⟩ => ?_⟩
  obtain ⟨hb, hl, hr⟩ := receiveReady_of_replies h.silent.replies
  refine ⟨fun ht => hl.trans (hlate (hr ▸ ht)), ?_⟩
  rw [hb, hl]
  exact (Nat.add_le_add_left h.silent.intake _).trans hload

theorem Edit.kept {c : Instr} {s t : State} (h : Edit s t) : Kept c s t := h.quiet.kept

/-- The intake names at most 64 records (R1, R8). -/
theorem intake_length_le {s : State} (h : recordLaw s) : s.cls.intake.length ≤ 64 := by
  obtain ⟨hslots, -, -, hnodup, hopen⟩ := h
  have hsub : s.cls.intake ⊆ List.range 64 := fun n hn => by
    obtain ⟨r, hr, rfl⟩ := List.mem_map.mp (hopen n hn)
    exact List.mem_range.mpr (hslots r hr)
  simpa using (hnodup.subperm hsub).length_le

/-- A frame that arrives is taken, discarded, or the one late frame, and what taking it keeps is kept (R181, R185). -/
theorem kept_arrive {c : Instr} {s : State} {take : State → State} (h : ∀ u, Answers c u (take u)) : Kept c s (s.arrive take) := by
  rcases arrive_cases s take with ⟨hready, he⟩ | ⟨hready, hlate, he⟩ | ⟨hready, hlate, he⟩
  · rw [he]
    have hs : Answers c s (take s.start) :=
      ⟨(Edit.refl s).start.quiet.keeps.trans (h s.start).keeps, .after (Edit.refl s).start.silent (h s.start).reply⟩
    refine ⟨hs.keeps, fun hrec _ ⟨hl, _⟩ => ?_⟩
    have hnone := hs.reply.ready hready
    have hl' : (take s.start).link.lateTaken = false := hs.reply.late.trans (hl hready)
    refine ⟨fun _ => hl', ?_⟩
    rw [hnone, hl']
    simpa using intake_length_le (hs.keeps.record hrec)
  · rw [he]
    exact (Edit.refl s).start.raise.offerNotices.kept
  · rw [he]
    have ht := h { s.start with link := { s.link with lateTaken := true } }
    have hmark : Keeps c s.start { s.start with link := { s.link with lateTaken := true } } :=
      keeps_setReplies (outq := s.link.outq) (backlog := s.link.backlog) id
    refine ⟨(Edit.refl s).start.quiet.keeps.trans (hmark.trans ht.keeps), fun _ _ ⟨_, hload⟩ => ?_⟩
    have hblocked := ht.reply.blocked hready
    have htaken := ht.reply.late
    have := ht.reply.load
    rw [hlate] at hload
    refine ⟨fun hr => ?_, ?_⟩
    · rw [hblocked] at hr; cases hr
    · rw [htaken]
      simp at this hload ⊢
      omega

end Upkeep

end Sys2Proof
end

section
/-! PROOFS. What each command keeps: the commands of the link, the request table, the directory, the drives and the accounting unit. A
command that loads a table of the host meets the table's law with what it stores. -/

namespace Sys2Proof

namespace Upkeep

open Machine Safety

/-- A command answers a next state, and keeps what every command keeps. -/
def KeptBy (c : Instr) (s : State) (a : Answer) : Prop := ∃ t, a = .next t ∧ Kept c s t

theorem Kept.by' {c : Instr} {s t : State} (h : Kept c s t) : KeptBy c s (.next t) := ⟨t, rfl, h⟩

theorem Kept.andThen {c : Instr} {s t u : State} (h : Kept c s u) (g : Edit u t) : Kept c s t where
  keeps := h.keeps.trans g.quiet.keeps
  backlog hr hc hb := g.kept (c := c).backlog (h.keeps.record hr) (h.keeps.capacity hc) (h.backlog hr hc hb)

theorem keptBy_arrive {c : Instr} {s : State} {take : State → State} (h : ∀ u, Answers c u (take u)) : KeptBy c s (.next (s.arrive take)) :=
  (kept_arrive h).by'

section Replies

variable {c : Instr} {s u : State} {op : Byte} {tag : Tag}

theorem Quiet.reply {code : ReplyCode} {r : Result} (h : Quiet c s u) : Answers c s (u.reply op tag code r) := h.immediate _

theorem Quiet.done {r : Result} (h : Quiet c s u) : Answers c s (u.done op tag r) := h.immediate _

theorem Edit.done {r : Result} (h : Edit s u) : Answers c s (u.done op tag r) := h.quiet.immediate _

theorem answers_reply {code : ReplyCode} {r : Result} : Answers c u (u.reply op tag code r) := answers_immediate _ _ _

theorem answers_done {r : Result} : Answers c u (u.done op tag r) := answers_immediate _ _ _

theorem answers_bad : Answers c u (u.bad op tag) := answers_immediate _ _ _

theorem answers_busy : Answers c u (u.busy op tag) := answers_immediate _ _ _

theorem Edit.answer {e : Ending} (h : Edit s u) : Answers c s (u.answer e) := h.quiet.immediate _

theorem answers_answer {e : Ending} : Answers c u (u.answer e) := answers_immediate _ _ _

theorem Answers.commit (h : Answers c s u) : Answers c s u.commit := h.andThen (Edit.refl u).commit

end Replies

variable (s : State)

/-! ## The link (chapter 10) -/

theorem kept_linkReset : KeptBy .linkReset s (execLinkReset s) := by
  refine Kept.by' (Edit.kept ?_)
  exact (Edit.refl s).start.trans { Edit.refl s.start with }

theorem kept_frameDiscarded (cause : DiscardCause) : KeptBy (.frameDiscarded cause) s (execFrameDiscarded cause s) :=
  (Edit.refl s).start.raise.offerNotices.kept.by'

theorem kept_requestMalformed (corr : Option Corr) (k : Byte) : KeptBy (.requestMalformed corr k) s (execRequestMalformed corr k s) :=
  keptBy_arrive fun _ => answers_answer

theorem kept_unknownOperation (x : Option (Byte × Tag)) : KeptBy (.unknownOperation x) s (execUnknownOperation x s) :=
  keptBy_arrive fun _ => answers_bad

theorem edit_pollDevice {s u : State} {dev : Device} (h : Edit s u) : Edit s (u.pollDevice dev) := by
  unfold State.pollDevice
  split
  · split
    · exact h.updAcc' fun _ => rfl
    · exact h
  · refine Edit.send (h.updDrive ?_)
    exact fun _ => rfl

theorem edit_startPoll {s u : State} (h : Edit s u) : Edit s u.startPoll := by
  unfold State.startPoll
  refine Edit.foldl (fun u _ => edit_pollDevice (.refl u)) _ (h.setLibPoll (fun e => ?_))
  split at e <;> cases e

theorem kept_libraryOnline (tag : Tag) : KeptBy (.libraryOnline tag) s (execLibraryOnline tag s) := by
  refine keptBy_arrive fun u => ?_
  split
  · exact (edit_startPoll (.refl u)).done.commit
  · exact answers_busy
  · exact answers_done
  · exact ((Edit.refl u).setLib (fun e => by cases e)).done

theorem kept_libraryOffline (tag : Tag) : KeptBy (.libraryOffline tag) s (execLibraryOffline tag s) := by
  refine keptBy_arrive fun u => ?_
  split
  · refine ((Edit.refl u).setLib (fun e => ?_)).done
    split at e
    · cases e
    · rename_i hne
      exact .inr hne
  · exact answers_busy
  · exact answers_done
  · exact answers_done

theorem edit_drained (u : State) : Edit u u.drained := by
  unfold State.drained
  split
  · exact { Edit.refl u with drain := fun _ e => by cases e }
  · exact .refl u

theorem kept_libraryDrained : KeptBy .libraryDrained s (execLibraryDrained s) :=
  ((Edit.refl s).start.trans (edit_drained _)).kept.by'

theorem kept_noticeEnable (tag : Tag) (e : BitVec 9) : KeptBy (.noticeEnable tag e) s (execNoticeEnable tag e s) := by
  refine keptBy_arrive fun u => Quiet.done ⟨?_, rfl, le_rfl⟩
  exact { Keeps.refl _ u with tables := { Loads.refl _ _ with enables := fun h => absurd rfl (h tag e) } }

theorem kept_noticeSummaryClear (tag : Tag) : KeptBy (.noticeSummaryClear tag) s (execNoticeSummaryClear tag s) := by
  refine keptBy_arrive fun u => Quiet.done ⟨?_, rfl, le_rfl⟩
  exact { Keeps.refl _ u with flags := fun h => absurd rfl (h tag) }

theorem kept_identify (tag : Tag) : KeptBy (.identify tag) s (execIdentify tag s) := keptBy_arrive fun _ => answers_done

/-! ## Outbound frames (R184 to R186) -/

/-- A freed kept entry takes the head of the backlog, or the backlog stands; receive-ready given again clears the late mark (R185). -/
theorem serveBacklog_eq (u : State) : ∃ outq backlog late,
    u.serveBacklog = { u with link := { u.link with outq := outq, backlog := backlog, lateTaken := late } }
      ∧ ((outq = u.link.outq ∧ backlog = u.link.backlog ∧ (u.link.backlog = [] ∨ u.link.keptFree = false))
          ∨ ∃ f, u.link.backlog = f :: backlog ∧ u.link.keptFree = true ∧ outq = u.link.outq ++ [{ kept := true, frame := f }])
      ∧ (late = u.link.lateTaken ∨ late = false ∧ backlog = [])
      ∧ (u.serveBacklog.link.receiveReady = true → late = false) := by
  have last : ∀ v : State, ∃ late, (if v.link.receiveReady then { v with link := { v.link with lateTaken := false } } else v)
      = { v with link := { v.link with lateTaken := late } } ∧ (late = v.link.lateTaken ∨ late = false ∧ v.link.backlog = [])
      ∧ (v.link.receiveReady = true → late = false) := by
    intro v
    split
    · rename_i h
      exact ⟨false, rfl, .inr ⟨rfl, backlog_of_ready h⟩, fun _ => rfl⟩
    · rename_i h
      exact ⟨v.link.lateTaken, rfl, .inl rfl, fun h' => absurd h' h⟩
  unfold State.serveBacklog
  dsimp only
  split
  · rename_i hb
    obtain ⟨late, he, hl, hr⟩ := last u
    exact ⟨_, _, late, by rw [he], .inl ⟨rfl, rfl, .inl hb⟩, hl, by rw [he]; exact hr⟩
  · rename_i f rest hb
    split
    · rename_i hfree
      obtain ⟨late, he, hl, hr⟩ := last (({ u with link := { u.link with backlog := rest } } : State).enqueue true f)
      exact ⟨_, _, late, by rw [he]; rfl, .inr ⟨f, hb, hfree, rfl⟩, hl, by rw [he]; exact hr⟩
    · rename_i hfree
      obtain ⟨late, he, hl, hr⟩ := last u
      exact ⟨_, _, late, by rw [he], .inl ⟨rfl, rfl, .inr (by simpa using hfree)⟩, hl, by rw [he]; exact hr⟩

/-- The kept and the ordinary entries after one frame more at the tail. -/
theorem used_append (l : Link) (outq : List OutFrame) (f : Frame) :
    ({ l with outq := outq ++ [{ kept := true, frame := f }] } : Link).keptUsed = ({ l with outq := outq } : Link).keptUsed + 1
      ∧ ({ l with outq := outq ++ [{ kept := true, frame := f }] } : Link).ordUsed = ({ l with outq := outq } : Link).ordUsed := by
  simp [Link.keptUsed, Link.ordUsed]

/-- The backlog is served when the entries in use are those of a lawful queue, or those but one (R184, R185). -/
theorem kept_serveBacklog {c : Instr} {s u : State} {outq : List OutFrame} (hu : u = { s with link := { s.link with outq := outq } })
    (hk : u.link.keptUsed ≤ s.link.keptUsed) (hone : s.link.keptUsed ≤ u.link.keptUsed + 1) (ho : u.link.ordUsed ≤ s.link.ordUsed) :
    Kept c s u.serveBacklog := by
  obtain ⟨outq', backlog, late, he, hcase, hlate, hready⟩ := serveBacklog_eq u
  have hlink : u.serveBacklog.link = { u.link with outq := outq', backlog := backlog, lateTaken := late } := congrArg State.link he
  have hfrom : u.serveBacklog = { s with link := { s.link with outq := outq', backlog := backlog, lateTaken := late } } := by
    rw [he, hu]
  have hbacklog : u.link.backlog = s.link.backlog := by rw [hu]
  have hlateU : u.link.lateTaken = s.link.lateTaken := by rw [hu]
  have hshrink : backlog.length ≤ s.link.backlog.length := by
    rcases hcase with ⟨-, hb, -⟩ | ⟨f, hb, -, -⟩
    · rw [hb, hbacklog]
    · rw [← hbacklog, hb]; simp
  constructor
  · rw [hfrom]
    refine keeps_setReplies (fun ⟨hord, hkept, hfull⟩ => ?_)
    rcases hcase with ⟨rfl, rfl, hwhy⟩ | ⟨f, hb, hfree, rfl⟩
    · have hkept' : ({ s.link with outq := u.link.outq, backlog := u.link.backlog, lateTaken := late } : Link).keptUsed = u.link.keptUsed := rfl
      refine ⟨ho.trans hord, hk.trans hkept, fun hne => ?_⟩
      rcases hwhy with hwhy | hwhy
      · exact absurd hwhy hne
      · have h4 : 4 ≤ u.link.keptUsed := by simpa [Link.keptFree] using hwhy
        show u.link.keptUsed = 4
        omega
    · obtain ⟨hkept', hord'⟩ := used_append u.link u.link.outq f
      have h3 : u.link.keptUsed < 4 := by simpa [Link.keptFree] using hfree
      have h4 : s.link.keptUsed = 4 := hfull (by rw [← hbacklog, hb]; simp)
      refine ⟨hord'.trans_le (ho.trans hord), hkept'.trans_le h3, fun _ => hkept'.trans ?_⟩
      show u.link.keptUsed + 1 = 4
      omega
  · rintro hrec - ⟨hl, hload⟩
    have hintake := intake_length_le hrec
    refine ⟨fun hr => ?_, ?_⟩
    · rw [hlink]; exact hready hr
    · have hcls : u.serveBacklog.cls = s.cls := by rw [hfrom]
      rw [hlink, hcls]
      show backlog.length + s.cls.intake.length ≤ if late = true then 65 else 64
      rcases hlate with rfl | ⟨rfl, rfl⟩
      · rw [hlateU]; omega
      · simpa using hintake

theorem kept_frameSent : KeptBy .frameSent s (execFrameSent s) := by
  unfold execFrameSent
  split
  · exact (Edit.refl s).start.kept.by'
  · rename_i x rest hq
    refine Kept.by' (Kept.andThen ?_ (Edit.refl _).commit)
    have hused : s.link.keptUsed = ({ s.link with outq := rest } : Link).keptUsed + (if x.kept then 1 else 0)
        ∧ s.link.ordUsed = ({ s.link with outq := rest } : Link).ordUsed + (if x.kept then 0 else 1) := by
      simp only [Link.keptUsed, Link.ordUsed, hq, List.filter_cons]
      cases x.kept <;> simp
    have hkept : Kept .frameSent s.start ({ s.start with link := { s.link with outq := rest } } : State).serveBacklog := by
      refine kept_serveBacklog (s := s.start) (outq := rest) rfl ?_ ?_ ?_
      · exact hused.1 ▸ Nat.le_add_right _ _
      · refine hused.1.trans_le (Nat.add_le_add_left ?_ _)
        split <;> decide
      · exact hused.2 ▸ Nat.le_add_right _ _
    have hstart : Edit s s.start := (Edit.refl s).start
    exact ⟨hstart.quiet.keeps.trans hkept.keeps, hkept.backlog⟩

theorem kept_replyBacklogServed : KeptBy .replyBacklogServed s (execReplyBacklogServed s) := by
  refine Kept.by' (Kept.andThen ?_ (Edit.refl _).commit)
  have hkept : Kept .replyBacklogServed s.start s.start.serveBacklog :=
    kept_serveBacklog (outq := s.link.outq) rfl le_rfl (Nat.le_succ _) le_rfl
  exact ⟨(Edit.refl s).start.quiet.keeps.trans hkept.keeps, hkept.backlog⟩

theorem kept_postingServed : KeptBy .postingServed s (execPostingServed s) := by
  unfold execPostingServed
  split
  · split
    · rename_i h
      exact ((Edit.refl s).start.servePosting h.1 h.2).commit.kept.by'
    · exact (Edit.refl s).start.kept.by'
  · exact (Edit.refl s).start.kept.by'

theorem kept_mountedEndingServed : KeptBy .mountedEndingServed s (execMountedEndingServed s) := by
  unfold execMountedEndingServed
  split
  · split
    · rename_i h
      exact ((Edit.refl s).start.queueMounted ((Edit.needs_pos _).trans_le h.2)).kept.by'
    · exact (Edit.refl s).start.kept.by'
  · exact (Edit.refl s).start.kept.by'

/-! ## Requests (chapter 1) -/

/-- An admitted record joins the age order and the intake (R1, R6, R8). -/
theorem answers_handOver {c : Instr} {u : State} {kind : ReqKind} {f : ReqFields} (hslot : u.freeSlot ≠ none)
    (hcorr : u.byCorrelator f.corr = none) : Answers c u (u.handOver (admittedRec (u.freeSlot.getD 0) kind f)) := by
  obtain ⟨slot, hs⟩ := Option.ne_none_iff_exists'.mp hslot
  obtain ⟨hlt, hfresh⟩ := freeSlot_spec hs
  rw [hs, Option.getD_some]
  let r := admittedRec slot kind f
  have hnew : ∀ q ∈ u.recs, q.origin = .channel → q.corr ≠ some f.corr := by
    simpa [State.byCorrelator] using hcorr
  refine ⟨{ Keeps.refl c u with record := ?record, drain := ?drain, counts := ?counts }, rfl, backlog_of_ready, id, ?load⟩
  case record =>
    rintro ⟨hslots, hnodup, hpairs, hintake, hopen⟩
    refine ⟨?_, ?_, ?_, ?_, ?_⟩
    · exact fun q hq => (List.mem_append.mp hq).elim (hslots q) (fun hq => List.mem_singleton.mp hq ▸ hlt)
    · simpa [State.handOver, State.openRec, List.nodup_append, admittedRec] using ⟨hnodup, hfresh⟩
    · refine List.pairwise_append.mpr ⟨hpairs, List.pairwise_singleton _ _, fun q hq x hx hq' _ => ?_⟩
      rw [List.mem_singleton.mp hx]
      exact hnew q hq hq'
    · have hfree : ∀ n ∈ u.cls.intake, n ≠ slot := fun n hn e => by
        obtain ⟨q, hq, hqs⟩ := List.mem_map.mp (hopen n hn)
        exact hfresh q hq (hqs.trans e)
      simpa [State.handOver, List.nodup_append, admittedRec] using ⟨hintake, hfree⟩
    · intro n hn
      have hrecs : (u.handOver r).recs = u.recs ++ [r] := rfl
      rw [hrecs, List.map_append, List.mem_append]
      exact (List.mem_append.mp hn).imp (hopen n) (fun hn => by simpa using List.mem_singleton.mp hn)
  case drain => exact fun _ _ he => by simp [State.handOver, State.openRec] at he
  case counts =>
    rintro ⟨ha, hd, hr, hdir⟩
    refine ⟨ha, hd, fun q hq => (List.mem_append.mp hq).elim (hr q) (fun hq => ?_), hdir⟩
    rw [List.mem_singleton.mp hq]
    exact ⟨Nat.zero_le _, Nat.zero_le _, Nat.zero_le _⟩
  case load => simp [State.handOver, State.openRec]; omega

/-- A request that passes the five checks has a slot, and its correlator is no open CHANNEL record's (R6). -/
theorem room_of_admitted {u : State} {f : ReqFields} (h : u.admissionFails f = none) :
    u.byCorrelator f.corr = none ∧ u.freeSlot ≠ none := by
  unfold State.admissionFails at h
  split at h
  · cases h
  · split at h
    · cases h
    · split at h
      · cases h
      · rename_i hcorr
        split at h
        · cases h
        · rename_i hslot
          exact ⟨by simpa using hcorr, by simpa using hslot⟩

theorem answers_admission (c : Instr) (u : State) (kind : ReqKind) (body : Body ReqFields) : Answers c u (u.admission kind body) := by
  unfold State.admission
  split
  · exact answers_answer
  · split
    · exact answers_answer
    · rename_i f hnone
      obtain ⟨hcorr, hslot⟩ := room_of_admitted hnone
      exact answers_handOver hslot hcorr

end Upkeep

end Sys2Proof
end

section
/-! PROOFS. What the request and management commands keep (chapters 1 to 4). A command that loads a table of the host meets the table's law
with what it stores. -/

namespace Sys2Proof

namespace Upkeep

open Machine Safety

variable (s : State)

/-! ## Requests (chapter 1) -/

theorem kept_mount (body : Body ReqFields) : KeptBy (.mount body) s (execMount body s) := keptBy_arrive fun u => answers_admission _ u _ body

theorem kept_eject (body : Body ReqFields) : KeptBy (.eject body) s (execEject body s) := keptBy_arrive fun u => answers_admission _ u _ body

theorem kept_enter (body : Body ReqFields) : KeptBy (.enter body) s (execEnter body s) := keptBy_arrive fun u => answers_admission _ u _ body

namespace Edit

variable {s u : State}

theorem dismount {d : Fin 16} (h : Edit s u) : Edit s (u.dismount d).1 := by
  unfold State.dismount
  split
  · exact h
  · split
    · exact h
    · split
      · exact h.setRec fun _ => rfl
      · exact h.setRec fun _ => rfl
      · exact h.unload
      · exact h

theorem cancelQueued {r : Rec} (h : Edit s u) : Edit s (u.cancelQueued r) := by
  unfold State.cancelQueued
  split
  · exact h.enterCollect
  · split
    · exact h.shelfHome
    · exact h.enterPosting

theorem cancelWaiting {r : Rec} {src : Place} (h : Edit s u) : Edit s (u.cancelWaiting r src) := by
  unfold State.cancelWaiting
  have hfree := h.discardLegs (slot := r.slot) |>.releaseDrive (slot := r.slot) (taken := false)
  split
  · exact hfree.enterCollect
  · exact hfree.shelfHome
  · exact hfree.enterPosting

theorem returnLeg {slot : Nat} {l : Leg} (h : Edit s u) : Edit s (u.returnLeg slot l) := by
  unfold State.returnLeg
  exact h.freeReservation.updLeg.updStops.reserveFor_getD

theorem cancelAboard {r : Rec} {l : Leg} (h : Edit s u) : Edit s (u.cancelAboard r l) := by
  unfold State.cancelAboard
  refine Edit.releaseDrive (Edit.returnLeg (h.setRec ?_))
  exact fun _ => rfl

theorem cancelStaged {r : Rec} (h : Edit s u) : Edit s (u.cancelStaged r) := by
  unfold State.cancelStaged
  split
  · split
    · exact h.cancelAboard
    · exact h.cancelWaiting
  · exact h.releaseDrive.enterPosting

theorem cancelRing {slot : Nat} (h : Edit s u) : Edit s (u.cancelRing slot) := by
  unfold State.cancelRing
  split
  · exact h.dropStation.stationHome
  · exact h

theorem cancelMounted {r : Rec} (h : Edit s u) : Edit s (u.cancelMounted r) := by
  unfold State.cancelMounted
  split
  · exact h.unload
  · exact h

theorem cancel {r : Rec} (h : Edit s u) : Edit s (u.cancel r) := by
  unfold State.cancel
  have hset := h.setOutcome (slot := r.slot) (o := .cancelled)
  split
  · exact hset.dropApprove.enterPosting
  · exact hset.endSupply.enterPosting
  · exact hset.cancelQueued
  · exact hset.cancelStaged
  · exact hset.cancelRing
  · exact hset.setRec fun _ => rfl
  · exact hset.cancelMounted
  · exact hset

end Edit

theorem kept_dismount (body : Body DismountFields) : KeptBy (.dismount body) s (execDismount body s) := by
  refine keptBy_arrive fun u => ?_
  split
  · exact answers_answer
  · split
    · exact answers_answer
    · exact (Edit.refl u).dismount.answer

theorem kept_cancel (body : Body Corr) : KeptBy (.cancel body) s (execCancel body s) := by
  refine keptBy_arrive fun u => ?_
  split
  · exact answers_answer
  · split
    · exact answers_answer
    · split
      · exact (Edit.refl u).cancel.answer.commit
      · exact answers_answer

theorem kept_queryByCorrelator (body : Body Corr) : KeptBy (.queryByCorrelator body) s (execQueryByCorrelator body s) := by
  refine keptBy_arrive fun u => ?_
  split
  · exact answers_answer
  · split <;> exact answers_answer

theorem kept_queryBySerial (body : Body Serial) : KeptBy (.queryBySerial body) s (execQueryBySerial body s) := by
  refine keptBy_arrive fun u => ?_
  split
  · exact answers_answer
  · split
    · exact answers_answer
    · split <;> exact answers_answer

/-! ## The classifier's tables (chapter 2) -/

/-- A command that loads tables of the classifier, the rule table well formed, keeps every law. -/
theorem quiet_setCls {c : Instr} {u : State} {cls : Classifier} (hi : cls.intake = u.cls.intake)
    (ht : Loads c (hostTables u) (hostTables { u with cls := cls })) (hr : ruleLaw u → ruleLaw { u with cls := cls }) :
    Quiet c u { u with cls := cls } where
  keeps := { Keeps.refl c u with
    tables := ht, rules := hr, record := fun hu => by rw [recordLaw_iff] at *; simpa only [hi] using hu }
  silent := ⟨rfl, hi ▸ le_rfl⟩

/-- The new entry joins the entries it does not overlap at its place, with what each of them has (R31). -/
theorem mem_insertRule {r x : StoredRule} {l : List StoredRule} : x ∈ insertRule r l ↔ x = r ∨ x ∈ l := by
  induction l with
  | nil => simp [insertRule]
  | cons y rest ih =>
    unfold insertRule
    split
    · simp
    · rw [List.mem_cons, ih, List.mem_cons]
      exact or_left_comm

/-- Entries in order that keep clear of a new one stand in order with it at its place (R29, R31). -/
theorem pairwise_insertRule {r : StoredRule} {l : List StoredRule} (h : l.Pairwise fun x y => x.start + kindSize x.entry.kind ≤ y.start)
    (hr : ∀ x ∈ l, RuleTable.apart x r) : (insertRule r l).Pairwise fun x y => x.start + kindSize x.entry.kind ≤ y.start := by
  induction l with
  | nil => exact List.pairwise_singleton _ _
  | cons y rest ih =>
    obtain ⟨hy, hrest⟩ := List.pairwise_cons.mp h
    have hapart := hr y List.mem_cons_self
    have hpos := RuleTable.kindSize_pos y.entry.kind
    unfold RuleTable.apart at hapart
    unfold insertRule
    split
    · have hry : r.start + kindSize r.entry.kind ≤ y.start := by omega
      refine List.pairwise_cons.mpr ⟨fun x hx => ?_, h⟩
      rcases List.mem_cons.mp hx with rfl | hx
      · exact hry
      · have := hy x hx
        omega
    · have hposr := RuleTable.kindSize_pos r.entry.kind
      refine List.pairwise_cons.mpr ⟨fun x hx => ?_, ih hrest (fun x hx => hr x (List.mem_cons_of_mem _ hx))⟩
      rcases mem_insertRule.mp hx with rfl | hx
      · omega
      · exact hy x hx

theorem slot_room {slot : Nat} (k : KeyKind) (hle : slot ≤ 511) (hmod : slot % kindSize k = 0) : slot + kindSize k ≤ 512 := by
  cases k <;> simp only [kindSize] at * <;> omega

theorem ruleLaw_writeRule {u : State} {slot : Nat} {e : RuleEntry} (hshape : ruleShapeOk e = true) (hok : ruleWriteOk slot e = true)
    (h : ruleLaw u) : ruleLaw (u.setRules (writeRule u.cls.rules slot e)) := by
  obtain ⟨hall, hpairs⟩ := h
  simp only [ruleWriteOk, Bool.and_eq_true, decide_eq_true_eq] at hok
  obtain ⟨⟨hle, hmod⟩, haction⟩ := hok
  refine ⟨fun r hr => ?_, pairwise_insertRule (hpairs.filter _) (fun x hx => ?_)⟩
  · rcases mem_insertRule.mp hr with rfl | hr
    · exact ⟨slot_room _ hle hmod, hmod, hshape, haction⟩
    · exact hall r (List.mem_filter.mp hr).1
  · have hclear := (List.mem_filter.mp hx).2
    simp only [StoredRule.overlaps, Bool.not_eq_true', Bool.and_eq_false_iff, decide_eq_false_iff_not] at hclear
    unfold RuleTable.apart
    show _ ≤ slot ∨ slot + kindSize e.kind ≤ _
    omega

theorem kept_ruleWrite (tag : Tag) (slot : Nat) (e : RuleOperand) : KeptBy (.ruleWrite tag slot e) s (execRuleWrite tag slot e s) := by
  refine keptBy_arrive fun u => ?_
  split
  · exact answers_bad
  · split
    · rename_i hok
      obtain ⟨hshape, hwrite⟩ := Bool.and_eq_true_iff.mp hok
      exact Quiet.done (quiet_setCls rfl { Loads.refl _ _ with rules := fun h => absurd rfl (h tag slot _) } (ruleLaw_writeRule hshape hwrite))
    · exact answers_bad

theorem kept_ruleRead (tag : Tag) (slot : Nat) : KeptBy (.ruleRead tag slot) s (execRuleRead tag slot s) := by
  refine keptBy_arrive fun u => ?_
  split
  · exact answers_bad
  · split <;> exact answers_done

theorem kept_ruleClear (tag : Tag) (slot : Nat) : KeptBy (.ruleClear tag slot) s (execRuleClear tag slot s) := by
  refine keptBy_arrive fun u => ?_
  split
  · exact answers_bad
  · split
    · refine Quiet.done (quiet_setCls rfl { Loads.refl _ _ with rules := fun _ h => absurd rfl (h tag slot) } ?_)
      rintro ⟨hall, hpairs⟩
      exact ⟨fun r hr => hall r (List.mem_filter.mp hr).1, hpairs.filter _⟩
    · exact answers_done

theorem kept_rangeSet (tag : Tag) (n src lo hi : Nat) : KeptBy (.rangeSet tag n src lo hi) s (execRangeSet tag n src lo hi s) := by
  refine keptBy_arrive fun u => ?_
  split
  · exact Quiet.done (quiet_setCls rfl { Loads.refl _ _ with checkers := fun h => absurd rfl (h tag n src lo hi) } id)
  · exact answers_bad

theorem kept_selectorSet (tag : Tag) (m j e : Nat) : KeptBy (.selectorSet tag m j e) s (execSelectorSet tag m j e s) := by
  refine keptBy_arrive fun u => ?_
  split
  · exact Quiet.done (quiet_setCls rfl { Loads.refl _ _ with selectors := fun h => absurd rfl (h tag m j e) } id)
  · exact answers_bad

theorem kept_defaultsSet (tag : Tag) (a : DefaultsOperand) : KeptBy (.defaultsSet tag a) s (execDefaultsSet tag a s) := by
  have load : ∀ {u : State} {cls : Classifier}, cls.intake = u.cls.intake → cls.rules = u.cls.rules →
      cls.checkers = u.cls.checkers → (cls.selMount, cls.selEject, cls.selEnter) = (u.cls.selMount, u.cls.selEject, u.cls.selEnter) →
      Quiet (.defaultsSet tag a) u { u with cls := cls } := fun hi hr hc hs =>
    quiet_setCls hi { Loads.refl _ _ with rules := fun _ _ => hr, checkers := fun _ => hc, selectors := fun _ => hs,
                                          defaults := fun h => absurd rfl (h tag a) } (fun hu => by rw [ruleLaw] at *; simpa only [hr] using hu)
  refine keptBy_arrive fun u => ?_
  split
  · exact answers_bad
  · split
    · exact Quiet.done (load rfl rfl rfl rfl)
    · exact answers_bad
  · split
    · exact Quiet.done (load rfl rfl rfl rfl)
    · exact answers_bad

/-! ## The directory (chapter 3) -/

theorem kept_dirPut (tag : Tag) (args : DirPutArgs) : KeptBy (.dirPut tag args) s (execDirPut tag args s) := by
  refine keptBy_arrive fun u => ?_
  split
  · exact answers_bad
  · rename_i v hv
    split
    · exact answers_busy
    · split
      · exact answers_reply
      · split
        · exact answers_reply
        · rename_i hroom hfree
          refine ((Edit.refl u).storePut hv (fun hnone => ?_) (by simpa using hfree)).done
          simpa [hnone] using hroom

theorem kept_dirDelete (tag : Tag) (ser : Serial) : KeptBy (.dirDelete tag ser) s (execDirDelete tag ser s) := by
  refine keptBy_arrive fun u => ?_
  split
  · exact answers_bad
  · split
    · exact answers_bad
    · split
      · exact answers_busy
      · exact (Edit.refl u).deleteEntry.done

theorem kept_dirGet (tag : Tag) (q : DirQuery) : KeptBy (.dirGet tag q) s (execDirGet tag q s) := by
  refine keptBy_arrive fun u => ?_
  cases q with
  | bySerial ser =>
    dsimp only
    split
    · split
      · exact answers_done
      · exact answers_bad
    · exact answers_bad
  | byCell c =>
    dsimp only
    split
    · exact answers_done
    · exact answers_bad

theorem edit_setCleanList {s u : State} {l : Vector (Option (Serial × Nat)) 4} (h : Edit s u) : Edit s (u.setCleanList l) := h.same rfl

theorem kept_cleanListSet (tag : Tag) (l : Vector (Option (Serial × Nat)) 4) : KeptBy (.cleanListSet tag l) s (execCleanListSet tag l s) := by
  refine keptBy_arrive fun u => ?_
  split
  · exact ((edit_setCleanList (.refl u)).done.andThen (Edit.refl _).cleaningAttempts).commit
  · exact answers_bad

/-! ## The drives (chapter 4) -/

/-- DRIVE_SET gives a drive its class and pools, and every law is kept (R89). -/
theorem quiet_driveSet {u : State} {tag : Tag} {drive cls : Nat} {pools : BitVec 8} {d : Fin 16} {c : DriveClass} :
    Quiet (.driveSet tag drive cls pools) u (u.updDrive d (fun x => { x with cls := c, pools := pools })) where
  keeps :=
    { Keeps.refl _ u with
      tables := { Loads.refl _ _ with driveSettings := fun h => absurd rfl (h tag drive cls pools) }
      counts := fun ⟨ha, hd, hr, hdir⟩ => by
        refine ⟨ha, fun e => ?_, hr, hdir⟩
        by_cases he : e = d
        · subst he; rw [State.updDrive_self]; exact hd e
        · rw [State.updDrive_other _ _ _ _ he]; exact hd e }
  silent := ⟨rfl, le_rfl⟩

theorem kept_driveSet (tag : Tag) (drive cls : Nat) (pools : BitVec 8) :
    KeptBy (.driveSet tag drive cls pools) s (execDriveSet tag drive cls pools s) := by
  refine keptBy_arrive fun u => ?_
  split
  · exact (quiet_driveSet.done.andThen (Edit.refl _).allocateForDrive).commit
  · exact answers_bad

theorem kept_driveOffline (tag : Tag) (drive : Nat) : KeptBy (.driveOffline tag drive) s (execDriveOffline tag drive s) := by
  refine keptBy_arrive fun u => ?_
  split
  · exact answers_bad
  · split
    · refine Edit.done (Edit.tidyCleanSupply ((Edit.refl u).updDrive ?_))
      exact fun _ => rfl
    · exact answers_busy

theorem kept_driveOnline (tag : Tag) (drive : Nat) : KeptBy (.driveOnline tag drive) s (execDriveOnline tag drive s) := by
  refine keptBy_arrive fun u => ?_
  split
  · exact answers_bad
  · split
    · exact answers_busy
    · exact answers_done
    · refine ((Edit.done ((Edit.refl u).updDrive ?_)).andThen (Edit.refl _).allocateForDrive).commit
      exact fun _ => rfl

theorem kept_driveGet (tag : Tag) (drive : Nat) : KeptBy (.driveGet tag drive) s (execDriveGet tag drive s) := by
  refine keptBy_arrive fun u => ?_
  split
  · exact answers_bad
  · exact answers_done

namespace Edit

variable {s u : State}

theorem countLoaded {d : Fin 16} {r : Rec} (h : Edit s u) : Edit s (u.countLoaded d r) := by
  unfold State.countLoaded
  split
  · cases r.serial with
    | none => exact h
    | some x => exact h.same rfl
  · have hcount : ∀ (x : Drive) (n : Nat), (x.counted n).1.cls = x.cls ∧ (x.counted n).1.pools = x.pools ∧ (x.counted n).1.mounts ≤ 255 := by
      intro x n
      unfold Drive.counted
      dsimp only
      split
      · exact ⟨rfl, rfl, Nat.zero_le _⟩
      · exact ⟨rfl, rfl, min_le_left _ _⟩
    obtain ⟨hcls, hpools, hmounts⟩ := hcount u.drives[d] u.acct.rates.interval[driveClassIndex u.drives[d].cls]
    have hdrive : Edit s (u.updDrive d (fun _ => (u.drives[d].counted u.acct.rates.interval[driveClassIndex u.drives[d].cls]).1)) :=
      h.updDriveMounts hcls hpools (fun _ => hmounts)
    dsimp only
    split
    · exact hdrive.raise
    · exact hdrive

theorem recLoaded {d : Fin 16} {r : Rec} {ring : Bool} (h : Edit s u) : Edit s (u.recLoaded d r ring) := by
  unfold State.recLoaded
  dsimp only
  split
  · refine Edit.unload (h.startHold.setRec ?_)
    exact fun _ => rfl
  · exact h.startHold.setRec fun _ => rfl

theorem loadedUpdate_getD {ser : Option Serial} {ring : Bool} (h : Edit s u) : Edit s ((ser.map (fun x => u.loadedUpdate x ring)).getD u) := by
  cases ser with
  | none => exact h
  | some x => exact h.loadedUpdate

theorem unloadedFrom {d : Fin 16} {r : Rec} {left : DriveState} (h : Edit s u) : Edit s (u.unloadedFrom d r left) := by
  unfold State.unloadedFrom
  have hd : Edit s (u.updDrive d (fun x =>
    { x with state := .awaitingStow, due := if left = .mounted ∧ r.kind = .clean then false else x.due })) := h.updDrive fun _ => rfl
  dsimp only
  split
  · refine Edit.stow (hd.setRec ?_)
    exact fun _ => rfl
  · exact hd.stopHold.stow
  · exact hd.stow

theorem answeredEmpty {d : Fin 16} (h : Edit s u) : Edit s (u.answeredEmpty d) := by
  unfold State.answeredEmpty
  refine Edit.allocateForDrive (Edit.settle (h.updDrive ?_))
  exact fun _ => rfl

theorem answeredPresent {d : Fin 16} (h : Edit s u) : Edit s (u.answeredPresent d) := by
  unfold State.answeredPresent
  refine Edit.settle (Edit.returnOpen (h.updDrive ?_))
  exact fun _ => rfl

theorem statusSilent {d : Fin 16} (h : Edit s u) : Edit s (u.statusSilent d) := by
  unfold State.statusSilent
  refine Edit.settle (Edit.raise (h.updDrive ?_))
  exact fun _ => rfl

end Edit

/-- Every state starts its command with no order sent. -/
theorem edit_start : Edit s s.start := (Edit.refl s).start

theorem kept_start {c : Instr} : KeptBy c s (.next s.start) := (edit_start s).kept.by'

theorem kept_loaded (d : Fin 16) (ring : Bool) : KeptBy (.loaded d ring) s (execLoaded d ring s) := by
  unfold execLoaded
  split
  · split
    · exact kept_start s
    · refine (Edit.commit (Edit.recLoaded (Edit.countLoaded (Edit.loadedUpdate_getD ((edit_start s).updDrive ?_))))).kept.by'
      exact fun _ => rfl
  · exact kept_start s

theorem kept_unloaded (d : Fin 16) : KeptBy (.unloaded d) s (execUnloaded d s) := by
  unfold execUnloaded
  split
  · exact kept_start s
  · split
    · exact (edit_start s).unloadedFrom.commit.kept.by'
    · exact (edit_start s).unloadedFrom.commit.kept.by'
    · exact (edit_start s).unloadedFrom.commit.kept.by'
    · split
      · exact (edit_start s).stow.commit.kept.by'
      · exact kept_start s
    · exact kept_start s

theorem kept_fault (d : Fin 16) : KeptBy (.fault d) s (execFault d s) := (edit_start s).driveFault.commit.kept.by'

theorem kept_driveStatusAnswer (d : Fin 16) (b : Bool) : KeptBy (.driveStatusAnswer d b) s (execDriveStatusAnswer d b s) := by
  unfold execDriveStatusAnswer
  split
  · refine (Edit.commit ?_).kept.by'
    split
    · exact (edit_start s).answeredPresent
    · exact (edit_start s).answeredEmpty
  · exact kept_start s

theorem kept_driveStatusTimeout (d : Fin 16) : KeptBy (.driveStatusTimeout d) s (execDriveStatusTimeout d s) := by
  unfold execDriveStatusTimeout
  split
  · exact (edit_start s).statusSilent.commit.kept.by'
  · exact kept_start s

theorem kept_cleaningAttempt (d : Fin 16) : KeptBy (.cleaningAttempt d) s (execCleaningAttempt d s) := by
  unfold execCleaningAttempt
  split
  · exact (edit_start s).cleaningAttempt.commit.kept.by'
  · exact kept_start s

theorem kept_returnRecordOpen (d : Fin 16) : KeptBy (.returnRecordOpen d) s (execReturnRecordOpen d s) := by
  unfold execReturnRecordOpen
  split
  · exact (edit_start s).returnOpen.commit.kept.by'
  · exact kept_start s

theorem kept_driveReservation (x : Search) : KeptBy (.driveReservation x) s (execDriveReservation x s) := by
  unfold execDriveReservation
  cases x with
  | forRecord slot =>
    dsimp only
    split
    · split
      · exact (edit_start s).allocateForRecord.commit.kept.by'
      · exact kept_start s
    · exact kept_start s
  | forDrive d =>
    dsimp only
    split
    · split
      · exact (edit_start s).reserve.commit.kept.by'
      · exact kept_start s
    · exact kept_start s

end Upkeep

end Sys2Proof
end

section
/-! PROOFS. What the commands of the audits, the accessors, the console and the accounts keep (chapters 5, 6, 8 and 9), and those of the
time base. -/

namespace Sys2Proof

namespace Upkeep

open Machine Safety

variable (s : State)

/-! ## Audits (chapter 6) -/

namespace Edit

variable {s u : State}

theorem setAudits {a : PerAcc (Option Audit)} (h : Edit s u) : Edit s { u with audits := a } := h.same rfl

theorem startAudit {acc : Acc} {first last : Cell} {k : Nat} (h : Edit s u) : Edit s (u.startAudit acc first last k) :=
  h.markRange.setAudits

theorem endAudit {acc : Acc} {by' : EndedBy} (h : Edit s u) : Edit s (u.endAudit acc by') := h.updAudit.raise

theorem abortAudit {acc : Acc} (h : Edit s u) : Edit s (u.abortAudit acc) := by
  unfold State.abortAudit
  split
  · exact h.auditAborted.endAudit
  · exact h

theorem settleAudit {acc : Acc} {x : Audit} {c : Cell} (h : Edit s u) : Edit s (u.settleAudit acc x c) := by
  unfold State.settleAudit
  split
  · exact h.abortAudit
  · split
    · exact h.endAudit
    · exact h.updAudit

theorem auditScanned {acc : Acc} {c : Cell} {r : ScanResult} (h : Edit s u) : Edit s (u.auditScanned acc c r) := by
  unfold State.auditScanned
  split
  · exact h
  · dsimp only
    split
    · exact h.cellPassed.updAudit.settleAudit
    · exact h.scanApplied.cellPassed.updAudit.settleAudit

theorem auditScanFailed {acc : Acc} (h : Edit s u) : Edit s (u.auditScanFailed acc) := by
  unfold State.auditScanFailed
  split
  · exact h
  · dsimp only
    split
    · exact h.updAudit.abortAudit
    · exact h.updAudit.updAudit

end Edit

theorem kept_auditStart (tag : Tag) (n : Nat) (first last : Cell) (k : Nat) :
    KeptBy (.auditStart tag n first last k) s (execAuditStart tag n first last k s) := by
  refine keptBy_arrive fun u => ?_
  split
  · exact answers_bad
  · split
    · exact answers_bad
    · split
      · exact answers_busy
      · split
        · exact answers_bad
        · exact (Edit.refl u).startAudit.done.commit

theorem kept_auditAbort (tag : Tag) (n : Nat) : KeptBy (.auditAbort tag n) s (execAuditAbort tag n s) := by
  refine keptBy_arrive fun u => ?_
  split
  · exact answers_bad
  · split
    · exact answers_done
    · split
      · exact (Edit.refl u).updAudit.done
      · exact (Edit.refl u).abortAudit.commit.done

theorem kept_auditGet (tag : Tag) (n : Nat) : KeptBy (.auditGet tag n) s (execAuditGet tag n s) := by
  refine keptBy_arrive fun u => ?_
  split
  · exact answers_bad
  · split <;> exact answers_done

theorem kept_auditScanSend (acc : Acc) : KeptBy (.auditScanSend acc) s (execAuditScanSend acc s) := (edit_start s).auditScanSend.kept.by'

theorem kept_auditResume (acc : Acc) : KeptBy (.auditResume acc) s (execAuditResume acc s) := (edit_start s).auditResume.kept.by'

/-! ## Accessors (chapter 5) -/

namespace Edit

variable {s u : State}

theorem scanFailed {acc : Acc} (h : Edit s u) : Edit s (u.scanFailed acc) := by
  unfold State.scanFailed
  have hgone : Edit s (u.updAcc acc (fun x => { x with scan := none })) := h.updAcc' fun _ => rfl
  dsimp only
  split
  · exact hgone
  · exact hgone.auditScanFailed
  · split
    · exact hgone
    · exact hgone.requestScan

theorem returnAssigned {acc : Acc} {keep : Option Nat} (h : Edit s u) : Edit s (u.returnAssigned acc keep) := by
  refine foldl (fun v slot => ?_) _ h
  split
  · exact (refl v).returnToQueue
  · exact refl v

theorem dropPutBacks {acc : Acc} (h : Edit s u) : Edit s (u.dropPutBacks acc) := foldl (fun v _ => (refl v).freeReservation) _ h

theorem reAskFault {acc : Acc} (h : Edit s u) : Edit s (u.reAskFault acc) := h.dropFault.askFault

theorem firstFault {acc : Acc} {o : Order} (h : Edit s u) : Edit s (u.firstFault acc o) := by
  unfold State.firstFault
  refine Edit.raise (Edit.askFault (Edit.returnAssigned (h.updAcc ?_ ?_)))
  · exact fun _ => rfl
  · exact fun _ => .inr rfl

theorem loseHolders {acc : Acc} (h : Edit s u) : Edit s (u.loseHolders acc) := by
  refine foldl (fun v x => ?_) _ h
  split
  · exact (refl v).setMissing
  · exact refl v

theorem motionFault {slot : Nat} (h : Edit s u) : Edit s (u.motionFault slot) := h.setOutcome.discardLegs.releaseDrive.enterPosting

theorem secondFault {acc : Acc} (h : Edit s u) : Edit s (u.secondFault acc) := by
  unfold State.secondFault
  dsimp only
  refine Edit.reAskFault (Edit.scanFailed (Edit.updAcc' (Edit.dropPutBacks (Edit.returnAssigned (foldl (fun v _ => (refl v).motionFault) _
    (Edit.updAcc' (Edit.loseHolders (h.updAcc ?_ ?_)) ?_)))) ?_))
  · exact fun _ => rfl
  · exact fun _ => .inr rfl
  · exact fun _ => rfl
  · exact fun _ => rfl

theorem laterFault {acc : Acc} (h : Edit s u) : Edit s (u.laterFault acc) := by
  unfold State.laterFault
  refine Edit.reAskFault (h.updAcc ?_ ?_)
  · exact fun _ => rfl
  · exact fun _ => .inr rfl

theorem motionExpiry {acc : Acc} {o : Order} (h : Edit s u) : Edit s (u.motionExpiry acc o) := by
  unfold State.motionExpiry
  split
  · exact h.firstFault
  · exact h.secondFault
  · exact h.laterFault

theorem sendRecover {acc : Acc} (h : Edit s u) : Edit s (u.sendRecover acc) := by
  refine h.updAcc' fun x => ?_
  split <;> rfl

theorem leaveService {acc : Acc} (h : Edit s u) : Edit s (u.leaveService acc) := by
  unfold State.leaveService
  dsimp only
  refine Edit.dropFault (Edit.scanFailed (Edit.updAcc' (Edit.dropPutBacks (Edit.returnAssigned (h.updAcc' ?_))) ?_))
  · exact fun _ => rfl
  · exact fun _ => rfl

end Edit

/-- ACCESSOR_SET gives an accessor its five values, and every law is kept (R117). -/
theorem quiet_accessorSet {u : State} {tag : Tag} {n : Nat} {a : AccessorArgs} {acc : Acc} :
    Quiet (.accessorSet tag n a) u (u.updAcc acc (fun r => r.withArgs a)) where
  keeps :=
    { Keeps.refl _ u with
      tables := { Loads.refl _ _ with accessorSettings := fun h => absurd rfl (h tag n a) }
      zone := fun hu who o ho hlo hhi => by
        refine hu who o ?_ hlo hhi
        rw [State.acc_updAcc] at ho
        split at ho
        · rename_i e
          exact e ▸ ho
        · exact ho }
  silent := ⟨rfl, le_rfl⟩

theorem kept_accessorSet (tag : Tag) (n : Nat) (a : AccessorArgs) : KeptBy (.accessorSet tag n a) s (execAccessorSet tag n a s) := by
  refine keptBy_arrive fun u => ?_
  split
  · exact answers_bad
  · split
    · exact answers_bad
    · split
      · exact answers_busy
      · exact quiet_accessorSet.done.commit

theorem kept_accessorOffline (tag : Tag) (n : Nat) : KeptBy (.accessorOffline tag n) s (execAccessorOffline tag n s) := by
  refine keptBy_arrive fun u => ?_
  split
  · exact answers_bad
  · split
    · exact answers_done
    · split
      · exact (Edit.refl u).leaveService.done.commit
      · exact answers_busy

theorem kept_accessorOnline (tag : Tag) (n : Nat) : KeptBy (.accessorOnline tag n) s (execAccessorOnline tag n s) := by
  refine keptBy_arrive fun u => ?_
  split
  · exact answers_bad
  · split
    · split
      · exact answers_busy
      · refine (Edit.done ((Edit.refl u).updAcc' ?_)).commit
        exact fun _ => rfl
    · exact answers_done
    · exact answers_busy

theorem kept_accessorRecover (tag : Tag) (n : Nat) : KeptBy (.accessorRecover tag n) s (execAccessorRecover tag n s) := by
  refine keptBy_arrive fun u => ?_
  split
  · exact answers_bad
  · split
    · split
      · exact (Edit.refl u).dropFault.sendRecover.done.commit
      · exact answers_busy
    · exact answers_bad
    · exact answers_bad
    · exact answers_busy

theorem kept_accessorGet (tag : Tag) (n : Nat) : KeptBy (.accessorGet tag n) s (execAccessorGet tag n s) := by
  refine keptBy_arrive fun u => ?_
  split
  · exact answers_bad
  · exact answers_done

theorem kept_gatherWindowExpiry (acc : Acc) : KeptBy (.gatherWindowExpiry acc) s (execGatherWindowExpiry acc s) := by
  unfold execGatherWindowExpiry
  split
  · refine (Edit.commit ((edit_start s).updAcc' ?_)).kept.by'
    exact fun _ => rfl
  · exact kept_start s

theorem kept_motionLimitExpiry (acc : Acc) : KeptBy (.motionLimitExpiry acc) s (execMotionLimitExpiry acc s) := by
  have hsettle : ∀ {u : State}, Edit s u → Edit s (u.settleStalled acc) := fun h => by
    unfold State.settleStalled
    split
    · exact h.settle
    · exact h
  unfold execMotionLimitExpiry
  split
  · split
    · exact (hsettle (edit_start s).motionExpiry).commit.kept.by'
    · exact kept_start s
  · exact kept_start s

theorem kept_tripOpen (acc : Acc) : KeptBy (.tripOpen acc) s (execTripOpen acc s) := (edit_start s).tripOpen.kept.by'

theorem kept_legJoinsTrip (acc : Acc) : KeptBy (.legJoinsTrip acc) s (execLegJoinsTrip acc s) := (edit_start s).gather.kept.by'

theorem kept_tripStart (acc : Acc) : KeptBy (.tripStart acc) s (execTripStart acc s) := by
  unfold execTripStart
  split
  · exact (edit_start s).tripStart.kept.by'
  · exact kept_start s

theorem kept_orderSend (acc : Acc) : KeptBy (.orderSend acc) s (execOrderSend acc s) := (edit_start s).orderSend.kept.by'

theorem kept_zoneLockGrant : KeptBy .zoneLockGrant s (execZoneLockGrant s) := (edit_start s).zoneGrant.kept.by'

theorem kept_shelfPositionClaim : KeptBy .shelfPositionClaim s (execShelfPositionClaim s) := by
  unfold execShelfPositionClaim
  split
  · exact (edit_start s).claimShelf.kept.by'
  · exact kept_start s

theorem kept_stationPositionClaim : KeptBy .stationPositionClaim s (execStationPositionClaim s) := by
  unfold execStationPositionClaim
  split
  · exact (edit_start s).claimStation.kept.by'
  · exact kept_start s

theorem kept_stationScanTaken (acc : Acc) : KeptBy (.stationScanTaken acc) s (execStationScanTaken acc s) :=
  (edit_start s).stationScanTaken.kept.by'

/-! ## Accounts and rates (chapter 9) -/

namespace Edit

variable {s u : State}

theorem raiseAll {l : List Notice} (h : Edit s u) : Edit s (u.raiseAll l) := foldl (fun v _ => (refl v).raise) _ h

theorem releaseIf {n : Fin 128} {old new : Budget} (h : Edit s u) : Edit s (u.releaseIf n old new) := by
  unfold State.releaseIf
  split
  · exact h.budgetRelease
  · exact h

end Edit

/-- ACCOUNT_SET gives an account its thresholds and the budget state they mean, and every law is kept (R178). -/
theorem quiet_accountSet {u : State} {tag : Tag} {account w l : Nat} {n : Fin 128} :
    Quiet (.accountSet tag account w l) u (u.updAccount n (fun _ => u.acct.accounts[n].withThresholds w l)) where
  keeps :=
    { Keeps.refl _ u with
      tables := { Loads.refl _ _ with thresholds := fun h => absurd rfl (h tag account w l) }
      budget := fun hu => forall_updAccount (P := accountBudget) hu (accountBudget_recompute _)
      counts := fun ⟨ha, hd, hr, hdir⟩ => ⟨forall_updAccount (P := accountCounts) ha (ha n), hd, hr, hdir⟩ }
  silent := ⟨rfl, le_rfl⟩

theorem kept_accountSet (tag : Tag) (account w l : Nat) : KeptBy (.accountSet tag account w l) s (execAccountSet tag account w l s) := by
  refine keptBy_arrive fun u => ?_
  split
  · exact answers_bad
  · exact (quiet_accountSet.done.andThen (Edit.refl _).raiseAll.releaseIf).commit

theorem kept_accountRead (tag : Tag) (account : Nat) : KeptBy (.accountRead tag account) s (execAccountRead tag account s) := by
  refine keptBy_arrive fun u => ?_
  split
  · exact answers_bad
  · exact answers_done

theorem kept_accountReadClear (tag : Tag) (account : Nat) : KeptBy (.accountReadClear tag account) s (execAccountReadClear tag account s) := by
  refine keptBy_arrive fun u => ?_
  split
  · exact answers_bad
  · rename_i n _
    have hclear : Edit u (u.updAccount n (fun _ => u.acct.accounts[n].cleared)) :=
      (Edit.refl u).updAccount ⟨rfl, rfl⟩ (fun _ => accountBudget_recompute _)
        (fun _ => ⟨Nat.zero_le _, Nat.zero_le _, Nat.zero_le _, Nat.zero_le _, Nat.zero_le _⟩)
    exact (hclear.done.andThen (Edit.refl _).releaseIf).commit

theorem kept_rateSet (tag : Tag) (r : Rates) : KeptBy (.rateSet tag r) s (execRateSet tag r s) := by
  refine keptBy_arrive fun u => Quiet.done ⟨?_, rfl, le_rfl⟩
  refine { Keeps.refl _ u with tables := { Loads.refl _ _ with rates := fun h => absurd rfl (h tag r) }, settings := ?_ }
  rintro ⟨htemplates, hkinds, h12, h13, h14, h15, -⟩
  refine ⟨htemplates, hkinds, h12, h13, h14, h15, fun c => ?_, fun p => ?_, min_le_left _ _, min_le_left _ _, min_le_left _ _, fun q => ?_⟩
  · simp [clampedRates]
  · simp [clampedRates]
  · simp [clampedRates, clamp]

end Upkeep

end Sys2Proof
end

section
/-! PROOFS. What the commands of the console, of the time base, the classification event and the completions of the accessors keep, and so
what every command but POWER_ON keeps. -/

namespace Sys2Proof

namespace Upkeep

open Machine Safety

variable (s : State)

/-! ## The console (chapter 8) -/

namespace Edit

variable {s u : State}

/-- An input changes in nothing that INPUT_SET gives (R161). -/
theorem updInput {i : PanelInput} {f : Input → Input} (h : Edit s u) (hf : ∀ x, ((f x).activeHigh, (f x).code) = (x.activeHigh, x.code)) :
    Edit s (u.updInput i f) := by
  refine h.setConsole rfl ?_ id
  ext j hj : 1
  simp only [Vector.getElem_map, Vector.getElem_set]
  split
  · rename_i e
    subst e
    exact hf _
  · rfl

theorem handInput {i : PanelInput} {active : Bool} (h : Edit s u) : Edit s (u.handInput i active) := by
  cases i with
  | attention =>
    unfold State.handInput State.attention
    dsimp only
    split
    · split
      · exact h
      · refine h.mapPrompts fun p => ?_
        split <;> exact ⟨rfl, rfl⟩
    · exact h
  | station => exact h.same rfl
  | guardWest => exact h.same rfl
  | guardMiddle => exact h.same rfl
  | guardEast => exact h.same rfl
  | quiesce => exact h.same rfl

theorem settleInput {i : PanelInput} (h : Edit s u) : Edit s (u.settleInput i) := by
  unfold State.settleInput
  refine Edit.handInput (h.updInput ?_)
  exact fun _ => rfl

end Edit

theorem kept_panelInputChange (i : PanelInput) (high : Bool) : KeptBy (.panelInputChange i high) s (execPanelInputChange i high s) := by
  unfold execPanelInputChange
  have hraw : Edit s (s.start.updInput i (fun x => { x with raw := high })) := (edit_start s).updInput fun _ => rfl
  split
  · exact kept_start s
  · dsimp only
    split
    · refine (Edit.kept (hraw.updInput ?_)).by'
      exact fun _ => rfl
    · split
      · exact hraw.settleInput.commit.kept.by'
      · refine (Edit.kept (hraw.updInput ?_)).by'
        exact fun _ => rfl

theorem kept_debouncePeriodEnd (i : PanelInput) : KeptBy (.debouncePeriodEnd i) s (execDebouncePeriodEnd i s) := by
  unfold execDebouncePeriodEnd
  split
  · exact (edit_start s).settleInput.commit.kept.by'
  · exact kept_start s

/-- INPUT_SET gives an input its polarity and code, and every law is kept (R163). -/
theorem quiet_inputSet {u : State} {tag : Tag} {n p k : Nat} {i : PanelInput} {high : Bool} {code : Nat} :
    Quiet (.inputSet tag n p k) u (u.updInput i (fun x => { x with activeHigh := high, code := code })) where
  keeps := { Keeps.refl _ u with tables := { Loads.refl _ _ with inputSettings := fun h => absurd rfl (h tag n p k) } }
  silent := ⟨rfl, le_rfl⟩

theorem kept_inputSet (tag : Tag) (n p k : Nat) : KeptBy (.inputSet tag n p k) s (execInputSet tag n p k s) := by
  have hset : ∀ {u : State} {i : PanelInput} {high : Bool} {code : Nat}, Quiet (.inputSet tag n p k) u (u.setInput i high code) := by
    intro u i high code
    unfold State.setInput
    dsimp only
    split
    · split
      · refine quiet_inputSet.trans (Edit.quiet (Edit.settleInput ((Edit.refl _).updInput ?_)))
        exact fun _ => rfl
      · exact quiet_inputSet.trans (Edit.quiet ((Edit.refl _).updInput fun _ => rfl))
    · split
      · exact quiet_inputSet.trans (Edit.quiet (Edit.refl _).settleInput)
      · exact quiet_inputSet
  refine keptBy_arrive fun u => ?_
  split
  · split
    · exact answers_bad
    · exact hset.done.commit
  · exact answers_bad

/-- The template that a TEMPLATE_SET stores lies in its ranges, its kind one that its number may have (R149). -/
theorem templateOf_spec {n : Nat} {x : TemplateArgs} {i : Fin 16} {t : Template} (h : templateOf n x = some (i, t)) :
    (t.urgency ≤ 7 ∧ 10 ≤ t.reply ∧ t.reply ≤ 3600 ∧ t.steps ≤ 7) ∧ ∃ code, templateKind i code = some t.kind := by
  unfold templateOf at h
  split at h
  · obtain ⟨k, hk, e⟩ := Option.map_eq_some_iff.mp h
    obtain ⟨rfl, rfl⟩ := Prod.mk.inj e
    refine ⟨?_, x.kind, hk⟩
    simp [clampedTemplate, clamp]
  · cases h

theorem templateKind_of_lt {i : Fin 16} (hi : i.val < 12) {code : Nat} {k : PromptKind} (h : templateKind i code = some k) :
    k = .approve ∨ k = .supply ∨ k = .ring := by
  unfold templateKind at h
  split at h
  · omega
  · omega
  · omega
  · omega
  · unfold templateKindOfCode at h
    split at h <;> simp_all

theorem kept_templateSet (tag : Tag) (n : Nat) (a : TemplateArgs) : KeptBy (.templateSet tag n a) s (execTemplateSet tag n a s) := by
  refine keptBy_arrive fun u => ?_
  split
  · exact answers_bad
  · rename_i i t ht
    obtain ⟨hrange, code, hkind⟩ := templateOf_spec ht
    refine Quiet.done ⟨?_, rfl, le_rfl⟩
    refine { Keeps.refl _ u with tables := { Loads.refl _ _ with templates := fun h => absurd rfl (h tag n a) }, settings := ?_ }
    rintro ⟨hall, hkinds, h12, h13, h14, h15, hrates⟩
    have hget : ∀ j : Fin 16, (u.console.templates.set i t)[j] = if i = j then t else u.console.templates[j] := fun j => by
      simp only [Fin.getElem_fin, Vector.getElem_set, Fin.ext_iff]
    have hfixed : ∀ (j : Fin 16) (k : PromptKind), templateKind j code = some k → u.console.templates[j].kind = k →
        (u.console.templates.set i t)[j].kind = k := fun j k hj hold => by
      rw [hget]
      split
      · rename_i e
        rw [e, hj] at hkind
        exact (Option.some.inj hkind).symm
      · exact hold
    refine ⟨fun j => ?_, fun j hj => ?_, hfixed 12 _ rfl h12, hfixed 13 _ rfl h13, hfixed 14 _ rfl h14, hfixed 15 _ rfl h15, hrates⟩
    · rw [hget]
      split
      · exact hrange
      · exact hall j
    · rw [hget]
      split
      · rename_i e
        exact templateKind_of_lt hj (e ▸ hkind)
      · exact hkinds j hj

theorem kept_promptList (tag : Tag) : KeptBy (.promptList tag) s (execPromptList tag s) := keptBy_arrive fun _ => answers_done

namespace Edit

variable {s u : State}

theorem promptGone {p : Fin 8} (h : Edit s u) : Edit s (u.promptGone p) := h.updPos

theorem supplyFails {slot : Nat} {o : FinalOutcome} (h : Edit s u) : Edit s (u.supplyFails slot o) := h.setOutcome.endSupply.enterPosting

theorem ringFails {slot : Nat} {p : Fin 8} {o : FinalOutcome} (h : Edit s u) : Edit s (u.ringFails slot p o) := h.setOutcome.stationHome

theorem ringFitted {slot : Nat} {p : Fin 8} (h : Edit s u) : Edit s (u.ringFitted slot p) := by
  unfold State.ringFitted
  refine Edit.enterQueued (Edit.updPos ?_)
  split
  · exact h.setRing
  · exact h

theorem answerStation {p : Fin 8} {w : AnswerWord} (h : Edit s u) : Edit s (u.answerStation p w) := by
  unfold State.answerStation
  have hgone : Edit s (u.promptGone p) := h.promptGone
  dsimp only
  split
  · split
    · exact hgone.requestScan
    · exact hgone.supplyFails
  · split
    · exact hgone.ringFitted
    · exact hgone.ringFails
  · split
    · exact hgone.requestScan
    · exact hgone.askStation
  · exact hgone

theorem failStation {p : Fin 8} (h : Edit s u) : Edit s (u.failStation p) := by
  unfold State.failStation
  have hgone : Edit s (u.promptGone p) := h.promptGone
  dsimp only
  split
  · exact hgone.supplyFails
  · exact hgone.ringFails
  · exact hgone.askStation
  · exact hgone

theorem answerClean {w : AnswerWord} (h : Edit s u) : Edit s (u.answerClean w) := by
  unfold State.answerClean
  have hgone : Edit s { u with cleanPrompt := .none } := h.setCleanPrompt
  dsimp only
  split
  · refine Edit.cleaningAttempts ?_
    exact hgone.same rfl
  · exact hgone

theorem answerApprove {slot : Nat} {w : AnswerWord} (h : Edit s u) : Edit s (u.answerApprove slot w) := by
  unfold State.answerApprove
  split
  · exact h.postWith
  · exact h.continueHeld

theorem answerFault {acc : Acc} (h : Edit s u) : Edit s (u.answerFault acc) := by
  unfold State.answerFault
  refine Edit.sendRecover (h.updAcc' ?_)
  exact fun _ => rfl

theorem handAnswer {p : Prompt} {w : AnswerWord} (h : Edit s u) : Edit s (u.handAnswer p w) := by
  unfold State.handAnswer
  split
  · refine Edit.answerApprove (h.setRec ?_)
    exact fun _ => rfl
  · exact h.answerFault
  · exact h.answerClean
  · split
    · exact h.answerStation
    · exact h
  · exact h

/-- An answered prompt is counted in its record and account (R156). -/
theorem countAnswer {x : PromptSubject} (h : Edit s u) : Edit s (u.countAnswer x) := by
  unfold State.countAnswer
  cases x with
  | slot n =>
    dsimp only
    split
    · exact h
    · refine Edit.countPrompt (h.updRec fun r _ => ⟨rfl, rfl, rfl, ?_⟩)
      exact fun ⟨hl, _, hh⟩ => ⟨hl, min_le_left _ _, hh⟩
  | position p => exact h
  | accessor acc => exact h.countPrompt
  | drive d => exact h.countPrompt

theorem judgeAnswer {line : List Byte} (h : Edit s u) : Edit s (u.judgeAnswer line) := by
  unfold State.judgeAnswer State.takeAnswer
  split
  · exact h.replyLine
  · split
    · exact h.replyLine
    · split
      · exact h.removePrompt.countAnswer.handAnswer.spaceReport.replyLine.commit
      · exact h.replyLine

theorem handFail {p : Prompt} (h : Edit s u) : Edit s (u.handFail p) := by
  unfold State.handFail
  split
  · refine Edit.postWith (h.setRec ?_)
    exact fun _ => rfl
  · exact h.askFault
  · exact h.setCleanPrompt
  · split
    · exact h.failStation
    · exact h
  · exact h

theorem expirePrompt {p : Prompt} (h : Edit s u) (hp : p ∈ u.console.queue) : Edit s (u.expirePrompt p) := by
  unfold State.expirePrompt
  split
  · exact h.updPrompt fun _ => rfl
  · split
    · unfold State.failPrompt
      exact (h.expire hp).raise.handFail.spaceReport.commit
    · unfold State.rearmPrompt
      refine Edit.commit (Edit.raise (h.updPrompt ?_))
      exact fun _ => rfl

end Edit

theorem kept_answerLine (line : List Byte) : KeptBy (.answerLine line) s (execAnswerLine line s) := (edit_start s).judgeAnswer.kept.by'

theorem kept_replyTimerExpiry (n : Nat) : KeptBy (.replyTimerExpiry n) s (execReplyTimerExpiry n s) := by
  unfold execReplyTimerExpiry
  split
  · rename_i p hp
    split
    · exact ((edit_start s).expirePrompt (List.mem_of_find?_eq_some hp)).kept.by'
    · exact kept_start s
  · exact kept_start s

theorem kept_owedPromptRaise : KeptBy .owedPromptRaise s (execOwedPromptRaise s) := (edit_start s).spaceReport.kept.by'

theorem kept_consoleLineSent : KeptBy .consoleLineSent s (execConsoleLineSent s) :=
  ((edit_start s).setConsole (c := { s.console with lines := s.console.lines.drop 1 }) rfl rfl id).kept.by'

/-! ## The time base (R165) -/

namespace Edit

variable {s u : State}

theorem countTenth (h : Edit s u) : Edit s u.countTenth := by
  have hfacts : ∀ x : AccRec, accFacts x.tenth = accFacts x := fun x => by
    unfold AccRec.tenth
    split <;> rfl
  exact (h.updAcc' hfacts).updAcc' hfacts

/-- The timer of an order in flight counts, and the order keeps its column. -/
theorem updAccSecond {acc : Acc} {b : AccRec → Bool} (h : Edit s u) : Edit s (u.updAcc acc (fun x => x.second (b x))) := by
  refine h.updAccOrder ?_ (fun hu o ho hlo hhi => ?_)
  · unfold AccRec.second
    split <;> rfl
  · unfold AccRec.second at ho
    split at ho
    · exact hu acc o ho hlo hhi
    · obtain ⟨o', ho', rfl⟩ := Option.map_eq_some_iff.mp ho
      exact hu acc o' ho' hlo hhi

theorem countMotion (h : Edit s u) : Edit s u.countMotion := h.updAccSecond.updAccSecond

theorem countStatus (h : Edit s u) : Edit s u.countStatus := by
  refine h.same ?_
  unfold facts State.countStatus
  simp only [Vector.map_map, Function.comp_def, driveFacts]
  rfl

theorem countReply (h : Edit s u) : Edit s u.countReply := h.mapPrompts fun _ => ⟨rfl, rfl⟩

end Edit

/-- A command of the time base counts, and every law is kept (R165). -/
theorem quiet_time {c : Instr} {u : State} {tenths : Nat} {seconds : BitVec 32} (hc : c = .tenthTick ∨ c = .secondTick) :
    Quiet c u { u with acct := { u.acct with tenths := tenths, seconds := seconds } } where
  keeps := { Keeps.refl c u with time := fun h g => hc.elim (fun e => absurd e h) (fun e => absurd e g) }
  silent := ⟨rfl, le_rfl⟩

theorem quiet_secondPasses {c : Instr} (hc : c = .tenthTick ∨ c = .secondTick) : Quiet c s s.start.secondPasses :=
  ((edit_start s).quiet.trans (quiet_time hc)).trans (Edit.refl _).countTenth.countMotion.countStatus.countReply.quiet

theorem kept_tenthTick : KeptBy .tenthTick s (execTenthTick s) := by
  unfold execTenthTick
  refine Kept.by' (Quiet.kept ?_)
  split
  · exact ((edit_start s).quiet.trans (quiet_time (.inl rfl))).trans (Edit.refl _).countTenth.quiet
  · exact quiet_secondPasses s (.inl rfl)

theorem kept_secondTick : KeptBy .secondTick s (execSecondTick s) := (quiet_secondPasses s (.inr rfl)).kept.by'

end Upkeep

end Sys2Proof
end

section
/-! PROOFS. What the classification event and the completions of the accessors keep, and so what every command but POWER_ON keeps. -/

namespace Sys2Proof

namespace Upkeep

open Machine Safety

variable (s : State)

/-! ## The classification event (R10, R27, R28) -/

namespace Edit

variable {s u : State}

theorem firstState {r : Rec} (h : Edit s u) : Edit s (u.firstState r) := by
  unfold State.firstState
  split
  · exact h.setRecState.askApprove
  · exact h.moveOn

end Edit

/-- A FOREIGN entry is created for a volume with no entry, while the directory is not full (R49). -/
theorem foreign_of_overrides {kind : ReqKind} {e : Option Entry} {full : Bool} {d d' : Disposition}
    (h : overrides kind e full d = .go d' true) : e = none ∧ full = false := by
  have hfirst : ∀ {x : Disposition}, override12 kind e.isSome full d = .go x true → e = none ∧ full = false := by
    intro x hx
    unfold override12 at hx
    cases e with
    | none => cases full <;> cases kind <;> cases d <;> simp at hx ⊢
    | some y => cases d <;> simp at hx
  unfold overrides at h
  split at h
  · cases h
  · rename_i x foreign hx
    have hf : foreign = true := by
      split at h
      · cases h
      · split at h
        · exact (Verdict.go.inj h).2
        · split at h
          · cases h
          · exact (Verdict.go.inj h).2
        · exact (Verdict.go.inj h).2
    exact hfirst (hf ▸ hx)

/-- The record that leaves the intake makes room for the one reply it is answered with (R10, R185). -/
theorem Answers.keptAfterPop {c : Instr} {s u t : State} (h : Edit s u) (hi : u.cls.intake.length + 1 ≤ s.cls.intake.length)
    (g : Answers c u t) : Kept c s t := by
  refine ⟨h.quiet.keeps.trans g.keeps, fun _ _ ⟨hlate, hload⟩ => ?_⟩
  obtain ⟨hb, hl, hr⟩ := receiveReady_of_replies h.replies
  have hlateT : t.link.lateTaken = s.link.lateTaken := g.reply.late.trans hl
  refine ⟨fun ht => ?_, ?_⟩
  · cases hready : u.link.receiveReady with
    | true => exact hlateT.trans (hlate (hr ▸ hready))
    | false => rw [g.reply.blocked hready] at ht; cases ht
  · have := g.reply.load
    rw [hlateT]
    rw [hb] at this
    omega

theorem answers_classifyRec {c : Instr} {u : State} {slot : Nat} {r : Rec} (hr : u.rec? slot = some r) : Answers c u (u.classifyRec r) := by
  have hslot : r.slot = slot := by simpa using List.find?_some hr
  unfold State.classifyRec
  dsimp only
  split
  · exact answers_answer.andThen (Edit.refl _).close
  · rename_i d foreign hv
    unfold State.acceptRec
    have hentry : Edit u (if foreign = true then u.createForeign r.serial (u.classify r).pass1.account else u) := by
      split
      · rename_i hf
        obtain ⟨hnew, hroom⟩ := foreign_of_overrides (hf ▸ hv)
        exact (Edit.refl u).createForeign hnew (by simpa using hroom)
      · exact .refl u
    have hrec : (if foreign = true then u.createForeign r.serial (u.classify r).pass1.account else u).rec? r.slot = some r := by
      rw [hslot]
      split
      · cases r.serial <;> exact hr
      · exact hr
    refine Answers.andThen (Edit.answer (hentry.updRec fun q hq => ?_)) (Edit.refl _).firstState
    obtain rfl := Option.some.inj (hrec.symm.trans hq)
    exact ⟨rfl, rfl, rfl, id⟩

theorem kept_classification : KeptBy .classification s (execClassification s) := by
  unfold execClassification
  split
  · exact kept_start s
  · rename_i slot rest hi
    have hpop : Edit s { s.start with cls := { s.cls with intake := rest } } := (edit_start s).intakePop hi
    dsimp only
    split
    · rename_i r hr
      exact ((answers_classifyRec hr).commit.keptAfterPop hpop (by rw [hi]; exact le_rfl)).by'
    · exact hpop.kept.by'

/-! ## The completions of the accessors (chapter 5) -/

theorem acc_releaseZone (u : State) (acc other : Acc) : (u.releaseZone acc).acc other = u.acc other := by
  unfold State.releaseZone
  split <;> rfl

theorem orderEnds_order (u : State) (acc : Acc) (col : Nat) : ((u.orderEnds acc col).acc acc).order = none := by
  unfold State.orderEnds
  dsimp only
  split <;> simp [acc_releaseZone]

namespace Edit

variable {s u : State}

theorem orderEnds {acc : Acc} {col : Nat} (h : Edit s u) : Edit s (u.orderEnds acc col) := by
  have hend : Edit s (u.updAcc acc (fun x => { x with order := none, column := col })) := h.updAcc (fun _ => rfl) (fun _ => .inr rfl)
  unfold State.orderEnds
  dsimp only
  split
  · exact hend
  · exact hend.releaseZone (by simp)

theorem stopDone {acc : Acc} {x : Stop} (h : Edit s u) : Edit s (u.stopDone acc x) := h.updStops

theorem setHolder {acc : Acc} {k : Fin 3} {x : Holder} (h : Edit s u) : Edit s (u.setHolder acc k x) := h.updAcc' fun _ => rfl

theorem placeEmptied {slot : Nat} {p : Place} (h : Edit s u) : Edit s (u.placeEmptied slot p) := by
  unfold State.placeEmptied
  split
  · exact h.freeShelf
  · exact h.freeStation
  · exact h.releaseDrive
  · exact h

theorem takeAboard {slot : Nat} {acc : Acc} {k : Fin 3} {ser : Serial} (h : Edit s u) : Edit s (u.takeAboard slot acc k ser) :=
  h.setHolder.updLeg

theorem pickEnds {slot : Nat} {p : Place} {o : FinalOutcome} (h : Edit s u) : Edit s (u.pickEnds slot p o) :=
  h.setOutcome.discardLegs.placeEmptied.releaseDrive.enterPosting

theorem expectedMissing {l : Leg} (h : Edit s u) : Edit s (u.expectedMissing l) := by
  unfold State.expectedMissing
  cases l.expected with
  | none => exact h
  | some x => exact h.setMissing

theorem addPutBack {acc : Acc} {k : Fin 3} {y : Serial} {c : Cell} (h : Edit s u) : Edit s (u.addPutBack acc k y c) := by
  unfold State.addPutBack
  refine h.setHolder.updAcc' ?_
  exact fun _ => rfl

theorem pickWrongPlace {slot : Nat} {l : Leg} {k : Fin 3} {y : Serial} (h : Edit s u) : Edit s (u.pickWrongPlace slot l k y) :=
  h.pickedOther.takeAboard.setOutcome.placeEmptied.releaseDrive.divert

theorem settleReturn {slot : Nat} {d : Fin 16} {ser : Serial} {took : Bool} (h : Edit s u) : Edit s (u.settleReturn slot d ser took) := by
  unfold State.settleReturn
  split
  · exact h
  · split
    · exact h.freeReservation.setDst
    · split
      · exact h
      · refine h.freeReservation.setShelf.setDst.setRec ?_
        exact fun _ => rfl

theorem pickReturn {slot : Nat} {l : Leg} {k : Fin 3} {d : Fin 16} {ser : Serial} (h : Edit s u) : Edit s (u.pickReturn slot l k d ser) := by
  unfold State.pickReturn
  dsimp only
  have hrec : Edit s ((u.takeAboard slot l.acc k ser).updRec slot (fun r => { r with serial := some ser })) := h.takeAboard.setRec fun _ => rfl
  refine Edit.releaseDrive (Edit.settleReturn ?_)
  split
  · exact hrec.pickedUp
  · exact hrec

theorem picked {slot : Nat} {l : Leg} {k : Fin 3} {label : Option Serial} (h : Edit s u) : Edit s (u.picked slot l k label) := by
  unfold State.picked
  split
  · exact h.expectedMissing.pickEnds
  · split
    · exact h.pickReturn
    · exact h.takeAboard.pickedUp.placeEmptied
  · split
    · exact h.takeAboard.pickedUp.placeEmptied
    · split
      · exact h.expectedMissing.foundAt.addPutBack.pickEnds
      · exact h.pickWrongPlace

theorem stationHolds {p : Fin 8} {ser : Serial} {owner : Option Nat} (h : Edit s u) : Edit s (u.stationHolds p ser owner) := h.updPos

theorem unownedCollect {p : Fin 8} {ser : Serial} (h : Edit s u) : Edit s (u.unownedCollect p ser) := h.stationHolds.updPos.askStation

theorem putBackPlaced {ser : Serial} {p : Place} (h : Edit s u) : Edit s (u.putBackPlaced ser p) := by
  unfold State.putBackPlaced
  split
  · exact h.placedAt.unownedCollect
  · exact h

theorem recordPlaced {slot : Nat} {ser : Serial} {acc : Acc} {k : Fin 3} {p : Place} (h : Edit s u) :
    Edit s (u.recordPlaced slot ser acc k p) := by
  unfold State.recordPlaced
  split
  · exact h
  · exact h.placedAt

theorem supplyMoves {slot : Nat} {p : Fin 8} (h : Edit s u) : Edit s (u.supplyMoves slot p) := by
  unfold State.supplyMoves
  exact h.dropStation.withdrawScan.markScanLate.supplyOrWait

theorem placedAstray {slot : Nat} {p : Place} (h : Edit s u) : Edit s (u.placedAstray slot p) := by
  unfold State.placedAstray
  have hfree : Edit s (u.freeReservation (.record slot)) := h.freeReservation
  dsimp only
  split
  · split
    · exact hfree.setDst
    · exact hfree
  · split
    · exact hfree.setDst
    · exact hfree.supplyMoves
    · exact hfree
  · exact hfree

theorem promoteLeg {slot : Nat} {src : Place} (h : Edit s u) : Edit s (u.promoteLeg slot src) := by
  unfold State.promoteLeg
  refine Edit.legReady (h.setRec ?_)
  exact fun _ => rfl

theorem placedOnShelf {r : Rec} {p : Fin 4} {acc : Acc} (h : Edit s u) : Edit s (u.placedOnShelf r p acc) := by
  unfold State.placedOnShelf
  split
  · exact h.shelfHome
  · split
    · exact h.promoteLeg
    · exact h.makeLegs

theorem placedAtStation {r : Rec} {diverted : Bool} {p : Fin 8} (h : Edit s u) : Edit s (u.placedAtStation r diverted p) := by
  unfold State.placedAtStation
  split
  · refine Edit.askStation (Edit.updPos (h.releaseDrive.setRec ?_))
    exact fun _ => rfl
  · exact h.enterCollect

/-- A record's leg is done, and counts in it (R106). -/
theorem countLeg {slot : Nat} (h : Edit s u) : Edit s (u.updRec slot (fun r => { r with leg := none, legs := satAdd 15 r.legs 1 })) :=
  h.updRec fun _ _ => ⟨rfl, rfl, rfl, fun ⟨_, hp, hh⟩ => ⟨min_le_left _ _, hp, hh⟩⟩

theorem legPlaced {slot : Nat} {l : Leg} {k : Fin 3} {ser : Serial} {p : Place} (h : Edit s u) : Edit s (u.legPlaced slot l k ser p) := by
  unfold State.legPlaced
  have htrip : Edit s ((u.updRec slot (fun r => { r with leg := none, legs := satAdd 15 r.legs 1 })).updAcc l.acc
      (fun x => { x with trip := x.trip.map (Trip.without (.record slot)) })) := h.countLeg.updAcc' fun _ => rfl
  have hplaced := htrip.recordPlaced (slot := slot) (ser := ser) (acc := l.acc) (k := k) (p := p)
  have hastray : ∀ {v : State}, Edit s v → Edit s (if l.dst = p then v else v.placedAstray slot p) := fun hv => by
    split
    · exact hv
    · exact hv.placedAstray
  dsimp only
  split
  · exact hastray hplaced
  · split
    · exact (hastray hplaced).drivePlaced
    · exact (hastray hplaced).setShelf.placedOnShelf
    · exact (hastray hplaced).stationHolds.placedAtStation
    · exact (hastray hplaced).enterPosting

theorem placed {acc : Acc} {ref : LegRef} {k : Fin 3} {p : Place} {ser : Serial} (h : Edit s u) : Edit s (u.placed acc ref k p ser) := by
  unfold State.placed
  cases ref with
  | putBack who k =>
    refine Edit.putBackPlaced (h.setHolder.updAcc' ?_)
    exact fun _ => rfl
  | record slot =>
    dsimp only
    split
    · exact h.setHolder.legPlaced
    · exact h.setHolder

theorem refusedAt {slot : Nat} {l : Leg} {c : Cell} (h : Edit s u) : Edit s (u.refusedAt slot l c) := by
  unfold State.refusedAt
  dsimp only
  split
  · split
    · exact h.updLeg.setDst
    · exact h.updLeg.updLeg.sendToStation
  · exact h.updLeg.updLeg.sendToStation

theorem supplied {slot : Nat} {p : Fin 8} {ser : Serial} (h : Edit s u) : Edit s (u.supplied slot p ser) := by
  unfold State.supplied
  dsimp only
  split
  · exact h.updPos.suppliedAt.stationHome
  · exact h.updPos.suppliedAt.enterQueued

theorem supplyMiss {slot : Nat} {p : Fin 8} {again : Bool} (h : Edit s u) : Edit s (u.supplyMiss slot p again) := by
  unfold State.supplyMiss
  split
  · dsimp only
    split
    · exact h.updPos.askStation
    · exact h.updPos
  · exact h.setOutcome.endSupply.enterPosting

theorem supplyScanned {slot : Nat} {p : Fin 8} {r : ScanResult} (h : Edit s u) : Edit s (u.supplyScanned slot p r) := by
  unfold State.supplyScanned
  dsimp only
  split
  · split
    · exact h.updPos.supplied
    · exact h.updPos.supplyMiss
  · exact h.updPos.supplyMiss

theorem lateScanned {p : Fin 8} {r : ScanResult} (h : Edit s u) : Edit s (u.lateScanned p r) := by
  unfold State.lateScanned
  split
  · split
    · exact h.unownedCollect
    · exact Edit.unownedCollect h.setDst
    · exact h.supplyMiss
    · exact h
  · exact h

theorem collectUpdate {owner : Option Nat} {ser : Serial} (h : Edit s u) : Edit s (u.collectUpdate owner ser) := by
  unfold State.collectUpdate
  split
  · exact h
  · exact h.collected

theorem collectScanned {p : Fin 8} {r : ScanResult} (h : Edit s u) : Edit s (u.collectScanned p r) := by
  unfold State.collectScanned
  dsimp only
  split
  · split
    · exact h.updPos.collectUpdate.freeStation.enterPosting
    · exact h.updPos.collectUpdate.freeStation
  · exact h.updPos.askStation
  · exact h.updPos

theorem scanned {acc : Acc} {t : ScanTarget} {r : ScanResult} (h : Edit s u) : Edit s (u.scanned acc t r) := by
  unfold State.scanned State.stationScanned
  split
  · exact h.auditScanned
  · split
    · exact h.collectScanned
    · split
      · exact h.lateScanned
      · split
        · exact h.supplyScanned
        · exact h.lateScanned

theorem recovered {acc : Acc} (h : Edit s u) (hidle : (u.acc acc).order = none) : Edit s (u.recovered acc) := by
  unfold State.recovered
  refine Edit.idleOrPark (h.updAcc' ?_) (by simpa using hidle)
  exact fun _ => rfl

theorem statusAnswered {acc : Acc} {v : Vector Bool 3} (h : Edit s u) : Edit s (u.statusAnswered acc v) := by
  unfold State.statusAnswered
  have hholders : Edit s (u.updAcc acc (fun x => { x with holders := holdersOf v })) := h.updAcc' fun _ => rfl
  dsimp only
  split
  · refine Edit.raise (Edit.askFault (hholders.updAcc' ?_))
    exact fun _ => rfl
  · split
    · exact hholders.updAcc' fun _ => rfl
    · exact hholders.updAcc' fun _ => rfl

end Edit

theorem kept_pickCompletion (acc : Acc) (label : Option Serial) : KeptBy (.pickCompletion acc label) s (execPickCompletion acc label s) := by
  unfold execPickCompletion
  split
  · split
    · exact (edit_start s).orderEnds.stopDone.picked.commit.kept.by'
    · exact kept_start s
  · exact kept_start s

theorem kept_placeCompletion (acc : Acc) : KeptBy (.placeCompletion acc) s (execPlaceCompletion acc s) := by
  unfold execPlaceCompletion
  split
  · split
    · exact (edit_start s).orderEnds.stopDone.placed.commit.kept.by'
    · exact kept_start s
  · exact kept_start s

theorem kept_cellOccupied (acc : Acc) : KeptBy (.cellOccupied acc) s (execCellOccupied acc s) := by
  unfold execCellOccupied
  split
  · rename_i ref _ _ _ _ _
    cases ref with
    | putBack who k => exact (edit_start s).orderEnds.sendToStation.commit.kept.by'
    | record slot =>
      dsimp only
      split
      · exact (edit_start s).orderEnds.refusedAt.commit.kept.by'
      · exact (edit_start s).orderEnds.commit.kept.by'
  · exact kept_start s

theorem kept_scanCompletion (acc : Acc) (r : ScanResult) : KeptBy (.scanCompletion acc r) s (execScanCompletion acc r s) := by
  unfold execScanCompletion
  split
  · refine (Edit.commit (Edit.scanned ((edit_start s).orderEnds.updAcc' ?_))).kept.by'
    exact fun _ => rfl
  · exact kept_start s

theorem kept_recoverCompletion (acc : Acc) (col : Nat) : KeptBy (.recoverCompletion acc col) s (execRecoverCompletion acc col s) := by
  unfold execRecoverCompletion
  split
  · dsimp only
    refine (Edit.commit ?_).kept.by'
    split
    · refine (edit_start s).orderEnds.updAcc' (fun x => ?_)
      unfold AccRec.retry
      split <;> rfl
    · exact (edit_start s).orderEnds.recovered (orderEnds_order _ _ _)
  · exact kept_start s

theorem kept_parkCompletion (acc : Acc) (col : Nat) : KeptBy (.parkCompletion acc col) s (execParkCompletion acc col s) := by
  unfold execParkCompletion
  split
  · refine (Edit.commit (((edit_start s).orderEnds.releaseZone (orderEnds_order _ _ _)).updAcc' (fun x => ?_))).kept.by'
    split
    · rfl
    · unfold AccRec.parked
      split <;> rfl
  · exact kept_start s

theorem kept_accessorStatusAnswer (acc : Acc) (col : Nat) (v : Vector Bool 3) :
    KeptBy (.accessorStatusAnswer acc col v) s (execAccessorStatusAnswer acc col v s) := by
  unfold execAccessorStatusAnswer
  split
  · exact (edit_start s).orderEnds.statusAnswered.settle.commit.kept.by'
  · exact kept_start s

theorem kept_accessorStatusTimeout (acc : Acc) : KeptBy (.accessorStatusTimeout acc) s (execAccessorStatusTimeout acc s) := by
  unfold execAccessorStatusTimeout
  split
  · refine (Edit.commit (Edit.settle ((edit_start s).updAcc ?_ ?_))).kept.by'
    · exact fun _ => rfl
    · exact fun _ => .inr rfl
  · exact kept_start s

/-! ## Every command -/

/-- Every command but POWER_ON keeps what commands keep. -/
theorem exec_kept (c : Instr) (hc : c ≠ .powerOn) : KeptBy c s (exec c s) := by
  cases c with
  | powerOn => exact absurd rfl hc
  | linkReset => exact kept_linkReset s
  | frameDiscarded cause => exact kept_frameDiscarded s cause
  | requestMalformed corr k => exact kept_requestMalformed s corr k
  | unknownOperation x => exact kept_unknownOperation s x
  | mount body => exact kept_mount s body
  | eject body => exact kept_eject s body
  | enter body => exact kept_enter s body
  | dismount body => exact kept_dismount s body
  | cancel body => exact kept_cancel s body
  | queryByCorrelator body => exact kept_queryByCorrelator s body
  | queryBySerial body => exact kept_queryBySerial s body
  | libraryOnline tag => exact kept_libraryOnline s tag
  | libraryOffline tag => exact kept_libraryOffline s tag
  | noticeEnable tag e => exact kept_noticeEnable s tag e
  | noticeSummaryClear tag => exact kept_noticeSummaryClear s tag
  | identify tag => exact kept_identify s tag
  | ruleWrite tag n e => exact kept_ruleWrite s tag n e
  | ruleRead tag n => exact kept_ruleRead s tag n
  | ruleClear tag n => exact kept_ruleClear s tag n
  | rangeSet tag n src lo hi => exact kept_rangeSet s tag n src lo hi
  | selectorSet tag m j e => exact kept_selectorSet s tag m j e
  | defaultsSet tag a => exact kept_defaultsSet s tag a
  | dirPut tag args => exact kept_dirPut s tag args
  | dirDelete tag ser => exact kept_dirDelete s tag ser
  | dirGet tag q => exact kept_dirGet s tag q
  | cleanListSet tag l => exact kept_cleanListSet s tag l
  | driveSet tag d k p => exact kept_driveSet s tag d k p
  | driveOffline tag d => exact kept_driveOffline s tag d
  | driveOnline tag d => exact kept_driveOnline s tag d
  | driveGet tag d => exact kept_driveGet s tag d
  | accessorSet tag n a => exact kept_accessorSet s tag n a
  | accessorOffline tag n => exact kept_accessorOffline s tag n
  | accessorOnline tag n => exact kept_accessorOnline s tag n
  | accessorRecover tag n => exact kept_accessorRecover s tag n
  | accessorGet tag n => exact kept_accessorGet s tag n
  | auditStart tag n first last k => exact kept_auditStart s tag n first last k
  | auditAbort tag n => exact kept_auditAbort s tag n
  | auditGet tag n => exact kept_auditGet s tag n
  | templateSet tag n a => exact kept_templateSet s tag n a
  | inputSet tag n p k => exact kept_inputSet s tag n p k
  | promptList tag => exact kept_promptList s tag
  | accountSet tag n w l => exact kept_accountSet s tag n w l
  | accountRead tag n => exact kept_accountRead s tag n
  | accountReadClear tag n => exact kept_accountReadClear s tag n
  | rateSet tag r => exact kept_rateSet s tag r
  | classification => exact kept_classification s
  | tenthTick => exact kept_tenthTick s
  | secondTick => exact kept_secondTick s
  | gatherWindowExpiry acc => exact kept_gatherWindowExpiry s acc
  | motionLimitExpiry acc => exact kept_motionLimitExpiry s acc
  | driveStatusTimeout d => exact kept_driveStatusTimeout s d
  | accessorStatusTimeout acc => exact kept_accessorStatusTimeout s acc
  | replyTimerExpiry n => exact kept_replyTimerExpiry s n
  | panelInputChange i high => exact kept_panelInputChange s i high
  | debouncePeriodEnd i => exact kept_debouncePeriodEnd s i
  | pickCompletion acc label => exact kept_pickCompletion s acc label
  | placeCompletion acc => exact kept_placeCompletion s acc
  | cellOccupied acc => exact kept_cellOccupied s acc
  | scanCompletion acc r => exact kept_scanCompletion s acc r
  | recoverCompletion acc col => exact kept_recoverCompletion s acc col
  | parkCompletion acc col => exact kept_parkCompletion s acc col
  | accessorStatusAnswer acc col v => exact kept_accessorStatusAnswer s acc col v
  | driveStatusAnswer d b => exact kept_driveStatusAnswer s d b
  | loaded d ring => exact kept_loaded s d ring
  | unloaded d => exact kept_unloaded s d
  | fault d => exact kept_fault s d
  | answerLine line => exact kept_answerLine s line
  | frameSent => exact kept_frameSent s
  | replyBacklogServed => exact kept_replyBacklogServed s
  | postingServed => exact kept_postingServed s
  | mountedEndingServed => exact kept_mountedEndingServed s
  | owedPromptRaise => exact kept_owedPromptRaise s
  | cleaningAttempt d => exact kept_cleaningAttempt s d
  | returnRecordOpen d => exact kept_returnRecordOpen s d
  | libraryDrained => exact kept_libraryDrained s
  | driveReservation x => exact kept_driveReservation s x
  | tripOpen acc => exact kept_tripOpen s acc
  | legJoinsTrip acc => exact kept_legJoinsTrip s acc
  | tripStart acc => exact kept_tripStart s acc
  | orderSend acc => exact kept_orderSend s acc
  | zoneLockGrant => exact kept_zoneLockGrant s
  | shelfPositionClaim => exact kept_shelfPositionClaim s
  | stationPositionClaim => exact kept_stationPositionClaim s
  | stationScanTaken acc => exact kept_stationScanTaken s acc
  | auditScanSend acc => exact kept_auditScanSend s acc
  | auditResume acc => exact kept_auditResume s acc
  | consoleLineSent => exact kept_consoleLineSent s

end Upkeep

end Sys2Proof
end

section
/-! PROOFS. The state right after power-on, and the statements about every step: what a command keeps (`exec_kept`), read one law at a
time. -/

namespace Sys2Proof

namespace Upkeep

open Machine Safety

/-! ## The state after power-on -/

/-- What every vector of equal things holds. -/
theorem reset_account (n : Fin 128) : State.reset.acct.accounts[n] = Account.initial := Vector.getElem_replicate n.isLt

theorem reset_drive (d : Fin 16) : State.reset.drives[d] = Drive.initial := Vector.getElem_replicate d.isLt

theorem reset_acc_order (acc : Acc) : (State.reset.acc acc).order = none := by
  cases acc <;> rfl

theorem reset_budgetLaw : budgetLaw State.reset := by
  intro n
  rw [reset_account]
  decide

theorem reset_zoneLaw : zoneLaw State.reset := by
  intro acc o ho
  rw [reset_acc_order] at ho
  cases ho

theorem reset_promptLaw : promptLaw State.reset := by
  unfold promptLaw
  decide

theorem reset_capacityLaw : capacityLaw State.reset := by
  unfold capacityLaw
  decide

theorem reset_directoryLaw : directoryLaw State.reset := ⟨Nat.zero_le _, List.Pairwise.nil⟩

theorem reset_recordLaw : recordLaw State.reset :=
  ⟨fun _ h => absurd h List.not_mem_nil, List.nodup_nil, List.Pairwise.nil, List.nodup_nil, fun _ h => absurd h List.not_mem_nil⟩

theorem reset_backlogLaw : backlogLaw State.reset := ⟨fun _ => rfl, Nat.zero_le _⟩

theorem reset_ruleLaw : ruleLaw State.reset := ⟨fun _ h => absurd h List.not_mem_nil, List.Pairwise.nil⟩

theorem reset_settingsLaw : settingsLaw State.reset := by
  unfold settingsLaw
  refine ⟨?_, ?_, rfl, rfl, rfl, rfl, ?_, ?_, Nat.zero_le _, Nat.zero_le _, Nat.zero_le _, ?_⟩ <;> decide

theorem reset_countLaw : countLaw State.reset := by
  refine ⟨fun n => ?_, fun d => ?_, fun _ h => absurd h List.not_mem_nil, fun _ h => absurd h List.not_mem_nil⟩
  · rw [reset_account]; decide
  · rw [reset_drive]; decide

/-- Settles O13: with every table empty and every count 0, each law is met. -/
theorem resetMeetsEveryLaw : Obligations.ResetMeetsEveryLaw := by
  unfold Obligations.ResetMeetsEveryLaw
  exact ⟨reset_budgetLaw, .inl ⟨rfl, rfl⟩, reset_promptLaw, reset_zoneLaw, reset_capacityLaw, reset_directoryLaw, reset_recordLaw,
    reset_backlogLaw, reset_ruleLaw, reset_settingsLaw, reset_countLaw, fun h => by cases h⟩

/-- Settles O14: each block of `State.reset` is read off, and of what POWER_ON keeps the pins alone reach the inputs. -/
theorem powerOnValues : Obligations.PowerOnValues := by
  unfold Obligations.PowerOnValues
  refine ⟨fun s => ⟨_, rfl, rfl, rfl, rfl, rfl, rfl, rfl, rfl, fun i => ?inputs⟩, rfl, rfl, rfl, rfl, rfl, rfl, rfl, ?checkers, rfl, rfl, rfl,
    rfl, ?clean, reset_drive, rfl, ?accessors, rfl, rfl, rfl, ?shelf, rfl, rfl, ?station, rfl, rfl, rfl, ?templates, rfl, rfl, ?rates, ?fees,
    rfl, rfl, rfl, ?mult, reset_account⟩
  case inputs => simp [Input.powered, Input.initial]
  case checkers => exact fun c => Vector.getElem_replicate c.isLt
  case clean => exact fun i => Vector.getElem_replicate i.isLt
  case accessors =>
    intro acc
    cases acc with
    | a => exact ⟨fun h => Vector.getElem_replicate h.isLt, rfl, rfl, rfl⟩
    | b => exact ⟨fun h => Vector.getElem_replicate h.isLt, rfl, rfl, rfl⟩
  case shelf => exact fun p => Vector.getElem_replicate p.isLt
  case station => exact fun p => Vector.getElem_replicate p.isLt
  case templates => decide
  case rates => decide
  case fees => exact fun p => Vector.getElem_replicate p.isLt
  case mult => exact fun q => Vector.getElem_replicate q.isLt

/-! ## One step -/

/-- A step idles, is power-on, or runs a command that keeps what commands keep. -/
theorem step_cases {s t : State} (h : step s = .next t) :
    t = s ∨ (∃ console pending, t = { State.reset with console := { State.reset.console with inputs := console }, pending := pending })
      ∨ ∃ c rest, c ≠ .powerOn ∧ Kept c { s with pending := rest } t := by
  unfold step at h
  split at h
  · exact .inl (Host.Outcome.next.inj h).symm
  · rename_i c rest _
    by_cases hc : c = .powerOn
    · subst hc
      exact .inr (.inl ⟨_, _, (Host.Outcome.next.inj h).symm⟩)
    · obtain ⟨u, he, hk⟩ := exec_kept { s with pending := rest } c hc
      rw [he] at h
      exact .inr (.inr ⟨c, rest, hc, Host.Outcome.next.inj h ▸ hk⟩)

/-- A law that reads neither inputs nor waiting commands, that power-on meets and every other command keeps, is kept by every step. -/
theorem step_preserves {P : State → Prop} {s t : State} (hreset : ∀ inputs pending,
      P { State.reset with console := { State.reset.console with inputs := inputs }, pending := pending })
    (hkept : ∀ c rest, Keeps c { s with pending := rest } t → P s → P t) (hs : P s) (h : step s = .next t) : P t := by
  rcases step_cases h with rfl | ⟨inputs, pending, rfl⟩ | ⟨c, rest, -, hk⟩
  · exact hs
  · exact hreset inputs pending
  · exact hkept c rest hk.keeps hs

/-- Settles O5: the budget law is kept by every command (`exec_kept`) and met after power-on. -/
theorem stepKeepsBudgetLaw : Obligations.StepKeepsBudgetLaw := by
  unfold Obligations.StepKeepsBudgetLaw
  exact fun s t hs h => step_preserves (fun _ _ => reset_budgetLaw) (fun _ _ hk => hk.budget) hs h

/-- Settles O6: the two laws of the console are kept together, as the display choice reads the numbers. -/
theorem stepKeepsDisplayLaw : Obligations.StepKeepsDisplayLaw := by
  unfold Obligations.StepKeepsDisplayLaw
  exact fun s t hd hp h => step_preserves (P := fun s => displayLaw s ∧ promptLaw s) (fun _ _ => ⟨.inl ⟨rfl, rfl⟩, reset_promptLaw⟩)
    (fun _ _ hk => hk.console) ⟨hd, hp⟩ h

/-- Settles O7: the zone law is kept by every command, and one lock has one holder. -/
theorem stepKeepsZoneLaw : Obligations.StepKeepsZoneLaw := by
  unfold Obligations.StepKeepsZoneLaw
  refine ⟨fun s t hs h => step_preserves (fun _ _ => reset_zoneLaw) (fun _ _ hk => hk.zone) hs h, fun s x y hs hx hy ⟨hx1, hx2, hy1, hy2⟩ => ?_⟩
  have ha := hs .a x hx hx1 hx2
  have hb := hs .b y hy hy1 hy2
  cases ha.symm.trans hb

/-- Settles O8: the outbound queue stays within its entries under every command. -/
theorem stepKeepsCapacityLaw : Obligations.StepKeepsCapacityLaw := by
  unfold Obligations.StepKeepsCapacityLaw
  exact fun s t hs h => step_preserves (fun _ _ => reset_capacityLaw) (fun _ _ hk => hk.capacity) hs h

/-- Settles O9: the directory law is kept by every command and met after power-on. -/
theorem stepKeepsDirectoryLaw : Obligations.StepKeepsDirectoryLaw := by
  unfold Obligations.StepKeepsDirectoryLaw
  exact fun s t hs h => step_preserves (fun _ _ => reset_directoryLaw) (fun _ _ hk => hk.directory) hs h

/-- Settles O10: the request-table law and the law of DRAINING, each kept by every command. -/
theorem stepKeepsRecordLaw : Obligations.StepKeepsRecordLaw := by
  unfold Obligations.StepKeepsRecordLaw
  exact fun s t h => ⟨fun hs => step_preserves (fun _ _ => reset_recordLaw) (fun _ _ hk => hk.record) hs h,
    fun hs => step_preserves (fun _ _ e => by cases e) (fun _ _ hk => hk.drain) hs h⟩

/-- Settles O11: every command keeps the bound, an answer to a record of the intake taking the room that the record leaves. -/
theorem stepKeepsBacklogLaw : Obligations.StepKeepsBacklogLaw := by
  unfold Obligations.StepKeepsBacklogLaw
  intro s t hrec hcap hback h
  have ht : backlogLaw t := by
    rcases step_cases h with rfl | ⟨inputs, pending, rfl⟩ | ⟨c, rest, -, hk⟩
    · exact hback
    · exact reset_backlogLaw
    · exact hk.backlog hrec hcap hback
  refine ⟨ht, ?_⟩
  have hload := ht.2
  split at hload <;> omega

/-- Settles O12: rules, settings and counts stay in range under every command. -/
theorem stepKeepsTablesInRange : Obligations.StepKeepsTablesInRange := by
  unfold Obligations.StepKeepsTablesInRange
  exact fun s t h => ⟨fun hs => step_preserves (fun _ _ => reset_ruleLaw) (fun _ _ hk => hk.rules) hs h,
    fun hs => step_preserves (fun _ _ => reset_settingsLaw) (fun _ _ hk => hk.settings) hs h,
    fun hs => step_preserves (fun _ _ => reset_countLaw) (fun _ _ hk => hk.counts) hs h⟩

/-! ## One command -/

/-- Settles O1: the two branches of the step. -/
theorem stepRunsFrontCommand : Obligations.StepRunsFrontCommand := by
  unfold Obligations.StepRunsFrontCommand
  refine ⟨fun c rest s h => ?_, fun s h => ?_⟩
  · simp only [step, h]
  · simp only [step, h]

/-- Settles O2: power-on keeps the queue by its definition, every other command by `exec_kept`. -/
theorem commandsKeepTheQueue : Obligations.CommandsKeepTheQueue := by
  unfold Obligations.CommandsKeepTheQueue
  intro c s
  by_cases hc : c = .powerOn
  · subst hc
    exact ⟨_, rfl, rfl⟩
  · obtain ⟨t, he, hk⟩ := exec_kept s c hc
    exact ⟨t, he, hk.keeps.pending⟩

/-- The state that a command answers is the one it keeps things in. -/
theorem keeps_of_exec {c : Instr} {s t : State} (h : exec c s = .next t) (hc : c ≠ .powerOn) : Keeps c s t := by
  obtain ⟨u, he, hk⟩ := exec_kept s c hc
  exact Host.Outcome.next.inj (he.symm.trans h) ▸ hk.keeps

/-- Settles O3: each table is among those a command that is not its own leaves (`Loads`). -/
theorem onlyItsOperationLoadsATable : Obligations.OnlyItsOperationLoadsATable := by
  unfold Obligations.OnlyItsOperationLoadsATable
  intro c s t h hc
  obtain ⟨enables, rules, checkers, selectors, defaults, rates, templates, thresholds, drives, accessors, inputs⟩ := (keeps_of_exec h hc).tables
  exact ⟨enables, rules, checkers, selectors, defaults, rates, templates, thresholds, drives, accessors, inputs⟩

/-- Settles O4: flags and time are among what a command that is not their own keeps. -/
theorem onlyTheirCommandsClearAndCount : Obligations.OnlyTheirCommandsClearAndCount := by
  unfold Obligations.OnlyTheirCommandsClearAndCount
  exact fun c s t h hc => ⟨(keeps_of_exec h hc).flags, (keeps_of_exec h hc).time⟩

/-- Settles O15: the command writes the received part alone. -/
theorem linkResetDropsThePartFrame : Obligations.LinkResetDropsThePartFrame := by
  unfold Obligations.LinkResetDropsThePartFrame
  exact fun s => rfl

end Upkeep

end Sys2Proof
end

section
/-! PROOFS. Frames that arrive: discarded, malformed and unknown ones (chapter 10), and the requests of chapter 1, admitted, refused or
answered. Each clause is one branch of its command. -/

namespace Sys2Proof

namespace Requests

open Machine Safety RuleTable Upkeep

variable {s : State}

/-! ## Answers -/

/-- A command that arrives as a frame is one that is taken, discarded, or the late one. -/
theorem exec_of_arrivesAsFrame {c : Instr} (h : arrivesAsFrame c = true) : ∃ take, ∀ u, exec c u = .next (u.arrive take) := by
  cases c <;> first
    | exact absurd h Bool.false_ne_true
    | exact ⟨_, fun _ => rfl⟩

/-- The ending of a frame that arrives while receive-ready is given. -/
theorem answer_start (hready : ready s) (e : Ending) : s.start.answer e = answered s (.ending e) :=
  immediate_answered (s := s.start) (keptFree_of_ready hready) rfl _

/-- With all four kept entries in use receive-ready is withheld. -/
theorem not_ready_of_kept {s : State} (h : s.link.keptUsed = 4) : s.link.receiveReady = false ∧ s.link.keptFree = false := by
  have hfree : s.link.keptFree = false := by simp [Link.keptFree, h]
  exact ⟨by rw [Link.receiveReady, hfree, Bool.false_and], hfree⟩

/-- The frame being received when receive-ready is withdrawn is answered at the tail of the backlog (R185, assumption log 4). -/
theorem arrive_answer_late (hkept : s.link.keptUsed = 4) (hlate : s.link.lateTaken = false) (e : Ending) :
    s.arrive (fun s => s.answer e) =
      { s with sent := [], link := { s.link with lateTaken := true, backlog := s.link.backlog ++ [.ending e] } } := by
  obtain ⟨hready, hfree⟩ := not_ready_of_kept hkept
  have hfree' : ({ s.link with lateTaken := true } : Link).keptFree = false := hfree
  simp only [State.arrive, hready, hlate, Bool.false_eq_true, if_false, State.answer, State.immediate, hfree']
  rfl

/-- A frame that comes after the late one is discarded (R181, R185). -/
theorem arrive_of_late (hready : s.link.receiveReady = false) (hlate : s.link.lateTaken = true) (take : State → State) :
    s.arrive take = (s.start.raise .checkError .nothing).offerNotices := by
  simp only [State.arrive, hready, hlate, Bool.false_eq_true, if_false, if_true]

/-- Settles O16: frames that are no command are answered from a kept entry, and what arrives while receive-ready is withheld is the one
late frame or is discarded. -/
theorem framesDiscardedAndMalformed : Obligations.FramesDiscardedAndMalformed := by
  unfold Obligations.FramesDiscardedAndMalformed
  intro cause corr sub op tag s
  refine ⟨fun h => NoticeOps.exec_frameDiscarded h cause, fun h => ?malformed, fun h => ⟨?unknown, ?headless⟩, fun hkept hlate => ?late,
    fun c hc hready hlate => ?withheld⟩
  case malformed => exact congrArg Host.Outcome.next ((arrive_of_ready h _).trans (answer_start h _))
  case unknown => exact congrArg Host.Outcome.next ((arrive_of_ready h _).trans (reply_start h _ _ _ _))
  case headless => exact congrArg Host.Outcome.next ((arrive_of_ready h _).trans (reply_start h _ _ _ _))
  case late => exact congrArg Host.Outcome.next (arrive_answer_late hkept hlate _)
  case withheld =>
    obtain ⟨take, htake⟩ := exec_of_arrivesAsFrame hc
    rw [htake, arrive_of_late hready hlate]
    rfl

/-! ## Admission (R6 to R8) -/

/-- The three requests are judged by one admission, each for its kind. -/
theorem exec_openingRequest {p : ReqKind × (Body ReqFields → Instr)} (hp : p ∈ openingRequests) (hready : ready s) (body : Body ReqFields) :
    exec (p.2 body) s = .next (s.start.admission p.1 body) := by
  have hexec : exec (p.2 body) s = .next (s.arrive (fun s => s.admission p.1 body)) := by
    simp only [openingRequests, List.mem_cons, List.not_mem_nil, or_false] at hp
    rcases hp with rfl | rfl | rfl <;> rfl
  rw [hexec, arrive_of_ready hready]

theorem admission_fails (hready : ready s) {kind : ReqKind} {f : ReqFields} {code : EndingCode} (h : s.admissionFails f = some code) :
    s.start.admission kind (.fields f) = answered s (plainEnding code (kindByte kind) (some f.corr)) := by
  have h' : s.start.admissionFails f = some code := h
  simp only [State.admission, h']
  exact answer_start hready _

/-- No slot is free exactly when all 64 are open (R1). -/
theorem freeSlot_eq_none_iff : s.freeSlot = none ↔ ∀ n < 64, ∃ r ∈ s.recs, r.slot = n := by
  simp [State.freeSlot]

/-- The lowest free slot (R1). -/
theorem freeSlot_of_lowest {n : Nat} (hn : n < 64) (hfree : ∀ r ∈ s.recs, r.slot ≠ n) (hlow : ∀ m < n, ∃ r ∈ s.recs, r.slot = m) :
    s.freeSlot = some n := by
  refine List.find?_range_eq_some.mpr ⟨by simpa using hfree, List.mem_range.mpr hn, fun m hm => ?_⟩
  simpa using hlow m hm

theorem byCorrelator_eq_none_iff (c : Corr) :
    s.byCorrelator c = none ↔ ∀ r ∈ s.recs, ¬(r.origin = .channel ∧ r.corr = some c) := by
  simp [State.byCorrelator]

theorem holderOf_eq_none_iff (ser : Serial) : s.holderOf ser = none ↔ ∀ r ∈ s.recs, r.serial ≠ some ser := by
  simp [State.holderOf]

/-- A body of the wrong length fails the second check (R6). -/
theorem admission_wrongLength (hready : ready s) (kind : ReqKind) (corr : Option Corr) :
    s.start.admission kind (.wrongLength corr) =
      answered s (plainEnding (if s.link.lib ≠ .online then .notReady else .malformed) (kindByte kind) corr) :=
  answer_start hready _

/-- Settles O24: each clause is the first branch of `State.admissionFails` that its premises leave. -/
theorem admissionRefusesInOrder : Obligations.AdmissionRefusesInOrder := by
  unfold Obligations.AdmissionRefusesInOrder
  intro p hp f s hready
  have refused : ∀ {code}, s.admissionFails f = some code →
      exec (p.2 (.fields f)) s = .next (answered s (plainEnding code (kindByte p.1) (some f.corr))) := fun h => by
    rw [exec_openingRequest hp hready, admission_fails hready h]
  have short : ∀ corr, exec (p.2 (.wrongLength corr)) s =
      .next (answered s (plainEnding (if s.link.lib ≠ .online then .notReady else .malformed) (kindByte p.1) corr)) := fun corr => by
    rw [exec_openingRequest hp hready, admission_wrongLength hready]
  refine ⟨fun hlib => refused ?_, fun hlib hser => refused ?_, fun corr => ⟨fun hlib => ?_, fun hlib => ?_⟩,
    fun hlib hser hdup => refused ?_, fun hlib hser hnew hfull => refused ?_, fun hlib hser hnew hroom hheld => refused ?_⟩
  · rw [State.admissionFails, if_pos hlib]
  · rw [State.admissionFails, if_neg (not_not.mpr hlib), if_pos hser]
  · rw [short, if_pos hlib]
  · rw [short, if_neg (not_not.mpr hlib)]
  · have hsome : (s.byCorrelator f.corr).isSome = true := by simpa [State.byCorrelator] using hdup
    rw [State.admissionFails, if_neg (not_not.mpr hlib), if_neg (by simp [hser]), if_pos hsome]
  · have hnone := (byCorrelator_eq_none_iff f.corr).mpr hnew
    have hslot := freeSlot_eq_none_iff.mpr hfull
    rw [State.admissionFails, if_neg (not_not.mpr hlib), if_neg (by simp [hser]), if_neg (by simp [hnone]), if_pos (by simp [hslot])]
  · have hnone := (byCorrelator_eq_none_iff f.corr).mpr hnew
    have hslot : s.freeSlot ≠ none := fun e => by
      obtain ⟨n, hn, hfree⟩ := hroom
      obtain ⟨r, hr, hrn⟩ := freeSlot_eq_none_iff.mp e n hn
      exact hfree r hr hrn
    have hsome : (s.holderOf f.serial).isSome = true := by simpa [State.holderOf] using hheld
    rw [State.admissionFails, if_neg (not_not.mpr hlib), if_neg (by simp [hser]), if_neg (by simp [hnone]),
      if_neg (by simpa [Option.isNone_iff_eq_none] using hslot), if_pos hsome]

/-- A number is the index it names, when it is in range. -/
theorem bind_toFin?_eq_some_iff {n : Nat} {x : Option Nat} {i : Fin n} : x.bind (toFin? n) = some i ↔ x = some i.val := by
  cases x with
  | none => simp
  | some k =>
    simp only [Option.bind_some, toFin?, Option.some.injEq]
    split
    · simp [Fin.ext_iff]
    · rename_i hk
      have hi := i.isLt
      simp only [reduceCtorEq, false_iff]
      omega

/-- An urgency above 7 is taken as 7 (R7). -/
theorem urgency_of_toFin? (k : Nat) : ((toFin? 8 k).getD 7).val = min 7 k := by
  unfold toFin?
  split
  · simp; omega
  · simp; omega

/-- Settles O23: the five checks passed, the record opened is `admittedRec` of the lowest free slot. -/
theorem admissionOpensARecord : Obligations.AdmissionOpensARecord := by
  unfold Obligations.AdmissionOpensARecord
  intro p hp f n s hready hlib hser hcorr hheld hn hfree hlow
  have hslot : s.freeSlot = some n := freeSlot_of_lowest hn hfree hlow
  have hnone : s.byCorrelator f.corr = none := (byCorrelator_eq_none_iff _).mpr fun r hr ⟨ho, hc⟩ => hcorr r hr ho hc
  have hholder : s.holderOf f.serial = none := (holderOf_eq_none_iff _).mpr hheld
  have hpass : s.start.admissionFails f = none := by
    show s.admissionFails f = none
    simp [State.admissionFails, hlib, hser, hnone, hslot, hholder]
  refine ⟨admittedRec n p.1 f, ?_, rfl, rfl, rfl, rfl, rfl, rfl, rfl, rfl, urgency_of_toFin? _, rfl, fun d => bind_toFin?_eq_some_iff,
    fun q => bind_toFin?_eq_some_iff, fun a => bind_toFin?_eq_some_iff, rfl, rfl, rfl, rfl, rfl, rfl, rfl⟩
  have hslot' : s.start.freeSlot = some n := hslot
  rw [exec_openingRequest hp hready]
  simp only [State.admission, hpass, hslot', Option.getD_some]
  rfl

/-! ## DISMOUNT (R24) -/

/-- Two changes of the first member that passes a test, the first of them keeping it one that passes. -/
theorem updFirst_updFirst {α : Type} {p : α → Bool} {f g : α → α} (hf : ∀ x, p (f x) = p x) (l : List α) :
    updFirst p g (updFirst p f l) = updFirst p (fun x => g (f x)) l := by
  induction l with
  | nil => rfl
  | cons x rest ih =>
    cases hx : p x <;> simp [updFirst, hf, hx, ih]

/-- Two changes of the record in a slot. -/
theorem updRec_updRec {slot : Nat} {f : Rec → Rec} (u : State) (g : Rec → Rec) (hf : ∀ r, (f r).slot = r.slot) :
    (u.updRec slot f).updRec slot g = u.updRec slot (fun r => g (f r)) := by
  have h := updFirst_updFirst (p := fun r : Rec => decide (r.slot = slot)) (f := f) (g := g) (fun r => by simp [hf]) u.recs
  simp only [State.updRec, h]

/-- What an UNLOAD sent changes (R24, R18). -/
theorem unload_eq (u : State) (slot : Nat) (d : Fin 16) :
    u.unload slot d = ((u.updRec slot (fun r =>
      { r with state := .unloading, dismountPending := false, holdSecs := holdBetween r.holdStart u.acct.seconds })).updDrive d
        (fun x => { x with state := .unloading })).send (.unload d) := by
  unfold State.unload State.stopHold
  rw [updRec_updRec]
  exact fun _ => rfl

theorem exec_dismount (hready : ready s) (corr : Corr) (d : Fin 16) :
    exec (.dismount (.fields { corr := corr, drive := d.val })) s =
      .next ((s.start.dismount d).1.answer { endingOf (s.start.dismount d).2 0x04 (some corr) with drive := some d.val }) := by
  have hd : toFin? 16 d.val = some d := dif_pos d.isLt
  show Host.Outcome.next (s.arrive _) = _
  rw [arrive_of_ready hready]
  simp only [hd]

/-- Settles O25: the branches of `State.dismount`, each answered from a kept entry. -/
theorem dismountByState : Obligations.DismountByState := by
  unfold Obligations.DismountByState
  intro corr d r slot s hready
  have hrec : s.drives[d].holding = some slot → s.rec? slot = some r → s.start.holdingRec d = some r := fun hh hr => by
    show s.drives[d].holding.bind s.rec? = some r
    rw [hh]; exact hr
  have hslot : s.rec? slot = some r → r.slot = slot := fun hr => by simpa using List.find?_some hr
  refine ⟨fun hnone => ?_, fun hh hr ho => ?_, fun hh hr ho hst => ?_, fun hh hr ho hst => ?_, fun hh hr ho hst => ?_, fun n hn => ?_,
    fun c => ?_⟩
  · have hnone' : s.start.holdingRec d = none := by
      show s.drives[d].holding.bind s.rec? = none
      rw [hnone]; rfl
    rw [exec_dismount hready]
    simp only [State.dismount, hnone']
    exact congrArg Host.Outcome.next (answer_start hready _)
  · rw [exec_dismount hready]
    simp only [State.dismount, hrec hh hr, ho, if_true]
    exact congrArg Host.Outcome.next (answer_start hready _)
  · rw [exec_dismount hready]
    rcases hst with hst | hst
    · simp only [State.dismount, hrec hh hr, ho, hst, hslot hr, reduceCtorEq, if_false]
      exact congrArg Host.Outcome.next (answer_start (s := s.updRec slot _) hready _)
    · simp only [State.dismount, hrec hh hr, ho, hst, hslot hr, reduceCtorEq, if_false]
      exact congrArg Host.Outcome.next (answer_start (s := s.updRec slot _) hready _)
  · rw [exec_dismount hready]
    simp only [State.dismount, hrec hh hr, ho, hst, hslot hr, reduceCtorEq, if_false]
    have hfree : (s.start.unload slot d).link.keptFree = true := keptFree_of_ready hready
    rw [State.answer, immediate_of_keptFree hfree, unload_eq]
    rfl
  · rw [exec_dismount hready]
    rcases hst with hst | hst | hst
    all_goals
      simp only [State.dismount, hrec hh hr, ho, hst, reduceCtorEq, if_false]
      exact congrArg Host.Outcome.next (answer_start hready _)
  · have hn' : toFin? 16 n = none := dif_neg (by omega)
    show Host.Outcome.next (s.arrive _) = _
    rw [arrive_of_ready hready]
    simp only [hn']
    exact congrArg Host.Outcome.next (answer_start hready _)
  · exact congrArg Host.Outcome.next ((arrive_of_ready hready _).trans (answer_start hready _))

/-! ## QUERY (R25, R26) -/

/-- The place of a slot in a queue that holds it. -/
theorem queuePosition_of_mem {q : List Nat} {slot : Nat} (h : slot ∈ q) : ∃ k, queuePosition q slot = some (k + 1) ∧ q[k]? = some slot := by
  refine ⟨q.findIdx (fun x => x = slot), ?_, ?_⟩
  · simp [queuePosition, h]
  · have hlt : q.findIdx (fun x => decide (x = slot)) < q.length := List.findIdx_lt_length_of_exists ⟨slot, h, by simp⟩
    rw [List.getElem?_eq_getElem hlt]
    simpa using List.findIdx_getElem (w := hlt)

/-- Settles O27: the branches of the two forms. -/
theorem queryAnswers : Obligations.QueryAnswers := by
  unfold Obligations.QueryAnswers
  intro c ser s hready
  refine ⟨fun hnone => ?_, fun r hr => ⟨_, _,
      r.leg.bind (fun l => if l.state = .ready then queuePosition (s.rail.queues.get l.acc) r.slot else none), ?_, rfl, rfl, fun l hl hready' hmem => ?_, fun hnot => ?_⟩, fun corr => ⟨?_, ?_⟩,
    fun hser => ?_, fun hser hnone => ?_, fun e hser he => ?_⟩
  · have hnone' : s.start.byCorrelator c = none := hnone
    show Host.Outcome.next (s.arrive _) = _
    rw [arrive_of_ready hready]
    simp only [hnone']
    exact congrArg Host.Outcome.next (answer_start hready _)
  · have hr' : s.start.byCorrelator c = some r := hr
    have hcorr : r.corr = some c := by
      have h := List.find?_some (p := fun r : Rec => decide (r.origin = .channel) && decide (r.corr = some c)) hr
      simp only [Bool.and_eq_true, decide_eq_true_eq] at h
      exact h.2
    show Host.Outcome.next (s.arrive _) = _
    rw [arrive_of_ready hready]
    simp only [hr']
    rw [answer_start hready, State.recordAnswer, hcorr]
    rfl
  · obtain ⟨k, hk, hget⟩ := queuePosition_of_mem hmem
    refine ⟨k, ?_, hget⟩
    simp only [hl, Option.bind_some, hready', if_true]
    exact hk
  · cases hl : r.leg with
    | none => rfl
    | some l => simp [hnot l hl]
  · exact congrArg Host.Outcome.next ((arrive_of_ready hready _).trans (answer_start hready _))
  · exact congrArg Host.Outcome.next ((arrive_of_ready hready _).trans (answer_start hready _))
  · show Host.Outcome.next (s.arrive _) = _
    rw [arrive_of_ready hready]
    simp only [hser, if_true]
    exact congrArg Host.Outcome.next (answer_start hready _)
  · have hnone' : s.start.entry? ser = none := hnone
    show Host.Outcome.next (s.arrive _) = _
    rw [arrive_of_ready hready]
    simp only [hser, hnone', Bool.true_eq_false, if_false]
    exact congrArg Host.Outcome.next (answer_start hready _)
  · have he' : s.start.entry? ser = some e := he
    have hs : e.serial = ser := by simpa using List.find?_some he
    show Host.Outcome.next (s.arrive _) = _
    rw [arrive_of_ready hready]
    simp only [hser, he', Bool.true_eq_false, if_false]
    rw [answer_start hready, State.volumeAnswer, hs]
    rfl

end Requests

end Sys2Proof
end

section
/-! PROOFS. The classifier's keys and matching (sections 2.3 to 2.5) and the overrides (section 2.6). -/

namespace Sys2Proof

namespace Classifying

open Machine Safety RuleTable

/-! ## The bits of key fields (R35, R36) -/

theorem getLsbD_ladderBits {u : Nat} (hu : u ≤ 32) (i : Nat) : (ladderBits u).getLsbD i = decide (i < u) := by
  simp only [ladderBits, BitVec.getLsbD_ofNat, Nat.testBit_two_pow_sub_one]
  by_cases hi : i < u
  · simp [hi]; omega
  · simp [hi]

theorem getLsbD_choiceBits {v : Nat} (hv : v < 32) (i : Nat) : (choiceBits v).getLsbD i = decide (i = v) := by
  simp only [choiceBits, BitVec.getLsbD_ofNat, Nat.testBit_two_pow]
  by_cases hi : i = v
  · simp [hi]; omega
  · have hi' : v ≠ i := fun e => hi e.symm
    simp [hi, hi']

theorem getLsbD_positionsMask {w : Nat} (hw : w ≤ 32) (i : Nat) : (positionsMask w).getLsbD i = decide (i < w) :=
  getLsbD_ladderBits hw i

/-- R35: a field agrees with the key at every position that the care mask selects. -/
theorem fieldMatches_iff {w : Nat} (hw : w ≤ 32) (key : BitVec 32) (p : FieldPat) :
    fieldMatches w key p = true ↔ ∀ j < w, p.care.getLsbD j = true → p.value.getLsbD j = key.getLsbD j := by
  have hbit : ∀ j, ((p.value ^^^ key) &&& p.care &&& positionsMask w).getLsbD j = false ↔
      (j < w → p.care.getLsbD j = true → p.value.getLsbD j = key.getLsbD j) := fun j => by
    simp only [BitVec.getLsbD_and, BitVec.getLsbD_xor, getLsbD_positionsMask hw, Bool.and_eq_false_iff, decide_eq_false_iff_not,
      bne_eq_false_iff_eq]
    by_cases hj : j < w <;> cases p.care.getLsbD j <;> simp [hj]
  rw [fieldMatches, decide_eq_true_eq]
  constructor
  · intro h j
    exact (hbit j).mp (by rw [h]; exact BitVec.getLsbD_zero)
  · intro h
    refine BitVec.eq_of_getLsbD_eq fun j _ => ?_
    rw [(hbit j).mpr (h j)]
    exact BitVec.getLsbD_zero.symm

theorem getLsbD_one_shiftLeft {k : Nat} (hk : k < 32) (i : Nat) : (1#32 <<< k).getLsbD i = decide (i = k) := by
  have h : 1#32 <<< k = choiceBits k := by
    apply BitVec.eq_of_toNat_eq
    simp [choiceBits, BitVec.toNat_shiftLeft, Nat.shiftLeft_eq]
  rw [h, getLsbD_choiceBits hk]

/-- The positions above a bound, up to the seven of a ladder. -/
theorem getLsbD_above {b : Nat} (hb : b ≤ 32) (i : Nat) :
    (ladderBits 7 &&& ~~~(ladderBits b)).getLsbD i = decide (b ≤ i ∧ i < 7) := by
  rw [BitVec.getLsbD_and, BitVec.getLsbD_not, getLsbD_ladderBits (by decide), getLsbD_ladderBits hb]
  by_cases h7 : i < 7
  · have h32 : i < 32 := by omega
    by_cases h : i < b <;> simp [h7, h32, h, Nat.not_lt.mp]
  · simp [h7]

/-- Settles O28: a field read position by position (`fieldMatches_iff`), a ladder having its positions below its urgency. -/
theorem ladderStatesBounds : Obligations.LadderStatesBounds := by
  unfold Obligations.LadderStatesBounds
  refine ⟨fun u p hp => ?_, fun u a ha => ?_, fun u b => ?_, fun u a b ha hab => ?_, fun r hits p b pools => ⟨rfl, rfl⟩⟩
  · rw [getLsbD_ladderBits (by omega)]
    exact decide_eq_decide.mpr (by omega)
  · rw [fieldMatches_iff (by decide)]
    simp only [getLsbD_one_shiftLeft (show a.val - 1 < 32 by omega), getLsbD_ladderBits (show u.val ≤ 32 by omega), decide_eq_true_eq]
    constructor
    · intro h
      have := h (a.val - 1) (by omega) rfl
      simp at this
      omega
    · rintro h j hj rfl
      simp
      omega
  · rw [fieldMatches_iff (by decide)]
    simp only [getLsbD_above (show b.val ≤ 32 by omega), getLsbD_ladderBits (show u.val ≤ 32 by omega), decide_eq_true_eq]
    constructor
    · intro h
      by_contra hlt
      have := h b.val (by omega) (by omega)
      simp at this
      omega
    · intro h j hj hb
      simp
      omega
  · rw [fieldMatches_iff (by decide)]
    simp only [BitVec.getLsbD_or, getLsbD_above (show b.val ≤ 32 by omega), getLsbD_one_shiftLeft (show a.val - 1 < 32 by omega),
      getLsbD_ladderBits (show u.val ≤ 32 by omega), Bool.or_eq_true, decide_eq_true_eq]
    constructor
    · intro h
      refine ⟨?_, ?_⟩
      · have := h (a.val - 1) (by omega) (.inl rfl)
        simp at this
        omega
      · by_contra hlt
        have := h b.val (by omega) (.inr (by omega))
        simp at this
        omega
    · rintro ⟨hlo, hhi⟩ j hj hsel
      refine decide_eq_decide.mpr ?_
      omega

/-! ## Matching (R35, R43) -/

/-- Every word field matches when each does at its place. -/
theorem fieldsMatch_iff {ws : List Nat} {ks : List (BitVec 32)} {ps : List FieldPat} (hk : ks.length = ws.length) (hp : ps.length = ws.length) :
    fieldsMatch ws ks ps = true ↔ ∀ (i w : Nat) (k : BitVec 32) (p : FieldPat), ws[i]? = some w → ks[i]? = some k → ps[i]? = some p →
      fieldMatches w k p = true := by
  induction ws generalizing ks ps with
  | nil =>
    rw [List.length_eq_zero_iff.mp hk, List.length_eq_zero_iff.mp hp]
    simp [fieldsMatch]
  | cons w ws ih =>
    obtain ⟨k, ks, rfl⟩ := List.exists_cons_of_length_eq_add_one hk
    obtain ⟨p, ps, rfl⟩ := List.exists_cons_of_length_eq_add_one hp
    rw [fieldsMatch, Bool.and_eq_true, ih (by simpa using hk) (by simpa using hp)]
    constructor
    · rintro ⟨hhead, htail⟩ i
      cases i with
      | zero => rintro w' k' p' ⟨⟩ ⟨⟩ ⟨⟩; exact hhead
      | succ i => exact htail i
    · exact fun h => ⟨h 0 w k p rfl rfl rfl, fun i => h (i + 1)⟩

/-- R35: each character whose care mark is set is the serial's. -/
theorem serialMatches_iff (p : SerialPat) (x : Serial) :
    serialMatches p x = true ↔ ∀ i : Fin 6, p.care.getLsbD i.val = true → (serialBytes p.chars)[i.val]? = (serialBytes x)[i.val]? := by
  have hchar : ∀ (i : Nat) (a b : Byte), charMatches p.care i a b = true ↔ (p.care.getLsbD i = true → a = b) := fun i a b => by
    unfold charMatches
    cases p.care.getLsbD i <;> simp
  simp [serialMatches, hchar, serialBytes, Fin.forall_fin_succ, and_assoc]

theorem kindWidths_le {kind : KeyKind} {i w : Nat} (h : (kindWidths kind)[i]? = some w) : w ≤ 32 := by
  have hall : ∀ x ∈ kindWidths kind, x ≤ 32 := by cases kind <;> decide
  exact hall w (List.mem_of_getElem? h)

theorem entryMatches_iff {kind : KeyKind} {key : List (BitVec 32)} {ser : Option Serial} {e : RuleEntry}
    (hk : key.length = (kindWidths kind).length) (he : e.fields.length = (kindWidths kind).length) :
    entryMatches kind key ser e = true ↔ e.kind = kind
      ∧ (∀ (i width : Nat) (k : BitVec 32) (p : FieldPat), (kindWidths kind)[i]? = some width → key[i]? = some k →
          e.fields[i]? = some p → ∀ j < width, p.care.getLsbD j = true → p.value.getLsbD j = k.getLsbD j)
      ∧ ∀ p, e.serial = some p → ∃ x, ser = some x
          ∧ ∀ i : Fin 6, p.care.getLsbD i.val = true → (serialBytes p.chars)[i.val]? = (serialBytes x)[i.val]? := by
  obtain ⟨kind', fields, serial, action⟩ := e
  unfold entryMatches
  rw [Bool.and_eq_true, Bool.and_eq_true, decide_eq_true_eq, and_assoc]
  refine and_congr Iff.rfl (and_congr ?_ ?_)
  · rw [fieldsMatch_iff hk he]
    refine forall_congr' fun i => forall_congr' fun w => forall_congr' fun k => forall_congr' fun p => forall_congr' fun hw =>
      forall_congr' fun _ => forall_congr' fun _ => fieldMatches_iff (kindWidths_le hw) k p
  · cases serial with
    | none => simp
    | some p =>
      cases ser with
      | none => simp
      | some x => simp [serialMatches_iff]

/-- R43: in a lawful table the first entry that matches has the lowest starting slot. -/
theorem winner_eq_some {s : State} (hlaw : ruleLaw s) {kind : KeyKind} {key : List (BitVec 32)} {ser : Option Serial} {e : RuleEntry}
    (h : winner s.cls.rules kind key ser = some e) :
    ∃ r ∈ s.cls.rules, r.entry = e ∧ e.kind = kind ∧ entryMatches kind key ser e = true
      ∧ ∀ q ∈ s.cls.rules, entryMatches kind key ser q.entry = true → r.start ≤ q.start := by
  obtain ⟨r, hr, rfl⟩ := Option.map_eq_some_iff.mp h
  obtain ⟨hmatch, before, after, hrules, hbefore⟩ := List.find?_eq_some_iff_append.mp hr
  have hkind : r.entry.kind = kind := by
    simp only [entryMatches, Bool.and_eq_true, decide_eq_true_eq] at hmatch
    exact hmatch.1.1
  refine ⟨r, List.mem_of_find?_eq_some hr, rfl, hkind, hmatch, fun q hq hqm => ?_⟩
  have hpairs := hlaw.2
  rw [hrules] at hq hpairs
  rcases List.mem_append.mp hq with hq | hq
  · have := hbefore q hq
    rw [hqm] at this
    cases this
  · rcases List.mem_cons.mp hq with rfl | hq
    · exact le_rfl
    · have := (List.pairwise_cons.mp (List.pairwise_append.mp hpairs).2.1).1 q hq
      omega

/-- Settles O29: the matching of an entry field by field, and the winner as the first that matches. -/
theorem lowestStartingSlotWins : Obligations.LowestStartingSlotWins := by
  unfold Obligations.LowestStartingSlotWins
  refine ⟨fun s kind key ser hlaw => ⟨fun e h => winner_eq_some hlaw h, ?_, fun d1 d2 => ⟨rfl, rfl⟩⟩,
    fun kind key ser e hk he => entryMatches_iff hk he, rfl, rfl, rfl, rfl, rfl⟩
  simp [winner]

/-! ## The overrides (R48 to R51) -/

theorem override12_known (kind : ReqKind) (full : Bool) {d : Disposition} (hd : d ≠ .refuse) : override12 kind true full d = .go d false := by
  cases d <;> first | exact absurd rfl hd | rfl

/-- R51: what override 4 leaves of a disposition that overrides 1 to 3 let through, for a known volume. -/
theorem overrides_known {kind : ReqKind} {e : Entry} {full : Bool} {d : Disposition} (hd : d ≠ .refuse) :
    overrides kind (some e) full d =
      match override3 kind (some e.loc) d with
      | some r => .refuse r
      | none =>
        match kind with
        | .eject => .go (override4Eject d) false
        | .enter => match override4Enter (some e) with
          | some r => .refuse r
          | none => .go d false
        | _ => .go d false := by
  cases kind <;> simp only [overrides, Option.isSome_some, override12_known _ full hd, Option.map_some] <;> rfl

/-- R50: what override 3 makes of a location where it applies. -/
theorem override3_of_applies {kind : ReqKind} {loc : Location} {d : Disposition} (h : override3Applies kind d = true) :
    override3 kind (some loc) d = if loc = .missing then some .volumeMissing else if loc = .outside then some .volumeOutside else none := by
  unfold override3
  rw [if_pos h]
  cases loc <;> rfl

theorem override3_of_not_applies {kind : ReqKind} {loc : Option Location} {d : Disposition} (h : override3Applies kind d = false) :
    override3 kind loc d = none := by
  simp [override3, h]

/-- R50, R51: a known volume that must be within reach, which an EJECT takes by ROBOT. -/
theorem overrides_reach {kind : ReqKind} {e : Entry} {full : Bool} {d : Disposition}
    (h : kind = .mount ∧ (d = .robot ∨ d = .stationFirst) ∨ kind = .eject ∧ d ≠ .hold ∧ d ≠ .refuse) :
    overrides kind (some e) full d =
      if e.loc = .missing then .refuse .volumeMissing else if e.loc = .outside then .refuse .volumeOutside
      else .go (if kind = .eject then .robot else d) false := by
  have hd : d ≠ .refuse := by
    rcases h with ⟨-, rfl | rfl⟩ | ⟨-, -, h⟩ <;> first | exact h | decide
  have happly : override3Applies kind d = true := by
    rcases h with ⟨rfl, rfl | rfl⟩ | ⟨rfl, h1, h2⟩
    · rfl
    · rfl
    · cases d <;> first | rfl | exact absurd rfl h1 | exact absurd rfl h2
  rw [overrides_known hd, override3_of_applies happly]
  by_cases hm : e.loc = .missing
  · simp [hm]
  · by_cases ho : e.loc = .outside
    · simp [ho]
    · simp only [if_neg hm, if_neg ho]
      rcases h with ⟨rfl, -⟩ | ⟨rfl, h1, h2⟩
      · rfl
      · cases d <;> first | rfl | exact absurd rfl h1 | exact absurd rfl h2

theorem overrides_enter {e : Entry} {full : Bool} {d : Disposition} (hd : d ≠ .refuse) :
    overrides .enter (some e) full d =
      if e.loc ≠ .outside then .refuse .volumeBusy else if e.foreign = true then .refuse .unknownVolume else .go d false := by
  have hnot : override3Applies .enter d = false := by cases d <;> rfl
  rw [overrides_known hd, override3_of_not_applies hnot]
  simp only [override4Enter]
  by_cases ho : e.loc = .outside <;> cases hf : e.foreign <;> simp [ho]

/-- Settles O30: the four overrides, branch by branch. -/
theorem firstFourOverrides : Obligations.FirstFourOverrides := by
  unfold Obligations.FirstFourOverrides
  intro kind e full d
  refine ⟨rfl, rfl, fun hd hk => ?_, fun hd => ?_, ?_, rfl, fun h => ⟨fun hm => ?_, fun ho => ?_, fun hm ho => ?_⟩, fun hd => ?_, rfl,
    fun hd => ⟨fun ho => ?_, fun ho hf => ?_, fun ho hf => ?_⟩⟩
  · rcases hk with rfl | rfl <;> cases d <;> first | exact absurd rfl hd | rfl
  · rcases hd with rfl | rfl <;> rfl
  · cases full <;> rfl
  · rw [overrides_reach h, if_pos hm]
  · rw [overrides_reach h, ho]; rfl
  · rw [overrides_reach h, if_neg hm, if_neg ho]
  · have hne : d ≠ .refuse := by rcases hd with rfl | rfl <;> decide
    have hnot : override3Applies .mount d = false := by rcases hd with rfl | rfl <;> rfl
    rw [overrides_known hne, override3_of_not_applies hnot]
  · rw [overrides_enter hd, if_pos ho]
  · rw [overrides_enter hd, if_neg (not_not.mpr ho), if_pos hf]
  · rw [overrides_enter hd, if_neg (not_not.mpr ho), if_neg (by simp [hf])]

end Classifying

end Sys2Proof
end

section
/-! PROOFS. What the two passes read and acceptance writes (sections 2.1, 2.3 to 2.6), and the operations that load the classifier's tables. -/

namespace Sys2Proof

namespace Classifying

open Machine Safety RuleTable

/-! ## The sets of a key -/

/-- A set field has the members for which its test holds. -/
theorem getLsbD_setBits (p : Nat → Bool) {n : Nat} (hn : n ≤ 32) (i : Nat) : (setBits p n).getLsbD i = (decide (i < n) && p i) := by
  induction n with
  | zero => simp [setBits]
  | succ n ih =>
    have hlast : (if p n then choiceBits n else 0).getLsbD i = (decide (i = n) && p i) := by
      by_cases hi : i = n
      · subst hi
        cases hp : p i <;> simp [getLsbD_choiceBits (show i < 32 by omega)]
      · cases p n <;> simp [getLsbD_choiceBits (show n < 32 by omega), hi]
    rw [setBits, BitVec.getLsbD_or, ih (by omega), hlast, ← Bool.and_or_distrib_right]
    congr 1
    by_cases h1 : i < n
    · simp [h1, show i < n + 1 by omega]
    · by_cases h2 : i = n <;> simp [h1, h2]
      omega

/-- The value of a checker's source, read from the record (R37). -/
theorem sourceValue_eq_some_iff (r : Rec) (src : RangeSource) (v : Nat) :
    sourceValue r src = some v ↔ match src with
      | .suffix => ∃ ser, r.serial = some ser ∧ isDigit ser.c3 = true ∧ isDigit ser.c4 = true ∧ isDigit ser.c5 = true
          ∧ isDigit ser.c6 = true ∧ v = digitsValue [ser.c3, ser.c4, ser.c5, ser.c6]
      | .jobClass => v = r.jobClass.val
      | .urgency => v = r.urgency.val
      | .hint => ∃ h, r.hint = some h ∧ v = h.val
      | .off => False := by
  cases src with
  | suffix =>
    simp only [sourceValue, numericSuffix, Option.bind_eq_some_iff]
    refine exists_congr fun ser => and_congr_right fun _ => ?_
    split
    · rename_i h
      simp only [List.all_cons, List.all_nil, Bool.and_true, Bool.and_eq_true] at h
      simp [h, eq_comm]
    · rename_i h
      simp only [List.all_cons, List.all_nil, Bool.and_true, Bool.and_eq_true] at h
      simp only [reduceCtorEq, false_iff]
      exact fun ⟨h3, h4, h5, h6, _⟩ => h ⟨h3, h4, h5, h6⟩
  | jobClass => simp [sourceValue, eq_comm]
  | urgency => simp [sourceValue, eq_comm]
  | hint => simp [sourceValue, eq_comm]
  | off => simp [sourceValue]

/-- R37, R38: checker `c` stands in the range-hit set when its source has a value within its bounds. -/
theorem getLsbD_rangeHits (cs : Vector RangeChecker 8) (r : Rec) (i : Fin 8) :
    (rangeHits cs r).getLsbD i.val = true ↔ ∃ v, cs[i].low ≤ v ∧ v ≤ cs[i].high ∧ sourceValue r cs[i].source = some v := by
  have hget : cs[i.val]? = some cs[i] := Vector.getElem?_eq_getElem i.isLt
  rw [rangeHits, getLsbD_setBits _ (by decide), hget]
  generalize cs[i] = c
  cases hv : sourceValue r c.source with
  | none => simp [checkerHits, hv]
  | some v => simp [checkerHits, hv]

/-- The pools of the drives that are FREE and not due (R41, R72). -/
theorem getLsbD_freePools (s : State) (q : Nat) :
    s.freePools.getLsbD q = true ↔ ∃ d : Fin 16, s.drives[d].state = .free ∧ s.drives[d].due = false ∧ s.drives[d].pools.getLsbD q = true := by
  have hfold : ∀ (l : List Drive) (p : BitVec 8),
      (l.foldl (fun p d => if d.state = .free && !d.due then p ||| d.pools else p) p).getLsbD q = true ↔
        p.getLsbD q = true ∨ ∃ d ∈ l, d.state = .free ∧ d.due = false ∧ d.pools.getLsbD q = true := by
    intro l
    induction l with
    | nil => simp
    | cons d rest ih =>
      intro p
      rw [List.foldl_cons, ih]
      by_cases hd : d.state = .free <;> cases hdue : d.due <;> simp [hd, hdue, or_assoc]
  have hmem : ∀ P : Drive → Prop, (∃ d ∈ s.drives.toList, P d) ↔ ∃ d : Fin 16, P s.drives[d] := fun P => by
    simp only [Vector.mem_toList_iff, Vector.mem_iff_getElem]
    exact ⟨fun ⟨_, ⟨i, hi, rfl⟩, h⟩ => ⟨⟨i, hi⟩, h⟩, fun ⟨d, h⟩ => ⟨_, ⟨d.val, d.isLt, rfl⟩, h⟩⟩
  rw [State.freePools, hfold, hmem]
  simp

/-! ## The two passes -/

theorem pass1Action_of {d a : Pass1} {e : RuleEntry} (h : e.action = .pass1 a) : pass1Action d (some e) = a := by
  simp [pass1Action, h]

theorem pass2Action_of {d a : Pass2} {e : RuleEntry} (h : e.action = .pass2 a) : pass2Action d (some e) = a := by
  simp [pass2Action, h]

/-- R52: override 5 applies. -/
theorem override5_iff (b : Budget) (d : Disposition) (exempt : Bool) :
    override5 b d exempt = true ↔ b = .limited ∧ d ≠ .hold ∧ d ≠ .refuse ∧ exempt = false := by
  simp [override5, and_assoc]

theorem ofNat_val {n k : Nat} [NeZero n] (h : k < n) : (Fin.ofNat n k).val = k := Nat.mod_eq_of_lt h

/-! ## The fields of a key -/

/-- A choice field of a key, by the value it chooses. -/
theorem exists_choice {key : List (BitVec 32)} {i m n : Nat} (h : key[i]? = some (choiceBits m)) (hm : m < 32) (hn : m = n) :
    ∃ v : BitVec 32, key[i]? = some v ∧ ∀ j : Nat, v.getLsbD j = true ↔ j = n :=
  ⟨_, h, fun j => by rw [getLsbD_choiceBits hm, decide_eq_true_eq, hn]⟩

theorem exists_flag {key : List (BitVec 32)} {i : Nat} {x : Bool} (h : key[i]? = some (flagBits x)) :
    ∃ v : BitVec 32, key[i]? = some v ∧ v.getLsbD 0 = x :=
  ⟨_, h, by cases x <;> rfl⟩

theorem exists_ladder {key : List (BitVec 32)} {i n : Nat} (h : key[i]? = some (ladderBits n)) (hn : n ≤ 32) :
    ∃ v : BitVec 32, key[i]? = some v ∧ ∀ j : Fin 7, v.getLsbD j.val = true ↔ j.val + 1 ≤ n :=
  ⟨_, h, fun j => by rw [getLsbD_ladderBits hn, decide_eq_true_eq]; exact Nat.lt_iff_add_one_le⟩

theorem exists_number {key : List (BitVec 32)} {i n : Nat} (h : key[i]? = some (numberBits n)) (hn : n < 4294967296) :
    ∃ v : BitVec 32, key[i]? = some v ∧ v.toNat = n :=
  ⟨_, h, by rw [numberBits, BitVec.toNat_ofNat]; exact Nat.mod_eq_of_lt hn⟩

theorem locationCode_lt (x : Location) : locationCode x < 8 := by cases x <;> simp [locationCode]

theorem verifCode_lt (x : Verification) : verifCode x < 3 := by cases x <;> decide

theorem ringCode_lt (x : Ring) : ringCode x < 3 := by cases x <;> decide

theorem requestKindCode_lt (x : ReqKind) : requestKindCode x < 5 := by cases x <;> decide

theorem budgetCode_lt (x : Budget) : budgetCode x < 3 := by cases x <;> decide

theorem getD_map_lt {α : Type} {f : α → Nat} {n : Nat} (hf : ∀ x, f x < n) (o : Option α) : (o.map f).getD n ≤ n := by
  cases o with
  | none => exact le_rfl
  | some x => exact (hf x).le

/-- Settles O31: acceptance writes the classified fields; a pass takes its winner's action or its default; a key's fields are read off. -/
theorem acceptanceWritesTheRecord : Obligations.AcceptanceWritesTheRecord := by
  unfold Obligations.AcceptanceWritesTheRecord
  intro c d r q
  refine ⟨rfl, rfl, rfl, rfl, fun x hu hx => ?_, fun hu hp => ?_, fun hp => ofNat_val (by omega), fun ht => ofNat_val (by omega),
    fun h => ?_, fun h => ?_, rfl, fun a e v => ?pass1, fun s => ?classified, fun cs i => ?hits, ?keys⟩
  · show pass2Pool c.action r = x
    simp [pass2Pool, hu, hx]
  · have hpool : pass2Pool c.action r = Fin.ofNat 8 c.action.pool := by
      rcases hu with hu | hu <;> simp [pass2Pool, hu]
    show (pass2Pool c.action r).val = _
    rw [hpool]
    exact ofNat_val (by omega)
  · have h5 := (override5_iff _ _ _).mpr h
    simp [q, acceptFields, h5]
  · have h5 : override5 c.budget d c.action.exempt = false := by
      rw [← Bool.not_eq_true, override5_iff]; exact h
    simp [q, acceptFields, h5]
  case pass1 =>
    refine ⟨fun h hn => ?_, fun h => by simp [applyPass1, h], fun x h hx => by simp [applyPass1, h, hx], fun h => by simp [applyPass1, h],
      fun h => by simp [applyPass1, h], fun h => by simp [applyPass1, h], fun h => by simp [applyPass1, h], fun h hv => ?_,
      fun h => by simp [applyPass1, h], fun h => by simp [applyPass1, h]⟩
    · have hconst : (applyPass1 a r e).account = constAccount a.n := by
        rcases h with h | ⟨h, rfl⟩ | ⟨h, hh⟩
        · simp [applyPass1, h]
        · simp [applyPass1, h]
        · simp [applyPass1, h, hh]
      rw [hconst]
      exact ofNat_val (by omega)
    · simp only [applyPass1, h, if_true]
      exact ofNat_val (by omega)
  case classified =>
    intro e hits out sel best1 best2
    have hsel : sel = s.selectorFor r.kind := by
      show (match r.kind with
        | .eject => s.cls.selEject
        | .enter => s.cls.selEnter
        | _ => s.cls.selMount) = _
      cases r.kind <;> rfl
    have hpass1 : out.pass1 = applyPass1 (pass1Action s.cls.default1 best1) r e := by
      show applyPass1 (pass1Action s.cls.default1 (winner s.cls.rules (s.selectorFor r.kind) _ _)) r e = _
      rw [← hsel]
    have hpass2 : out.action = pass2Action s.cls.default2 best2 := rfl
    refine ⟨fun x a hx ha => ?_, fun hx => ?_, fun x a hx ha => ?_, fun hx => ?_, rfl, fun x hx => ?_,
      fun x => getLsbD_freePools s x.val⟩
    · rw [hpass1, hx, pass1Action_of ha]
    · rw [hpass1, hx]; rfl
    · rw [hpass2, hx, pass2Action_of ha]
    · rw [hpass2, hx]; rfl
    · have hcode : pass2Disposition out.action = x := by
        simp only [List.mem_cons, Prod.mk.injEq, List.not_mem_nil, or_false] at hx
        rcases hx with ⟨h, rfl⟩ | ⟨h, rfl⟩ | ⟨h, rfl⟩ | ⟨h, rfl⟩ | ⟨h, rfl⟩ <;> simp [pass2Disposition, h, dispositionOfCode]
      rw [← hcode]
      rfl
  case hits =>
    rw [getLsbD_rangeHits]
    exact exists_congr fun v => and_congr_right fun _ => and_congr_right fun _ => sourceValue_eq_some_iff r _ v
  case keys =>
    intro hits e p b pools full wide choice flag ladder number kind loc verif ring home
    have hkind : requestKindCode r.kind = kind := by
      show _ = match r.kind with
        | .mount => 0
        | .eject => 1
        | .enter => 2
        | .clean => 3
        | .ret => 4
      cases r.kind <;> rfl
    have hloc : (e.map (fun x => locationCode x.loc)).getD 8 = loc := by
      cases e with
      | none => rfl
      | some x => cases hx : x.loc <;> simp [loc, hx, locationCode]
    have hverif : (e.map (fun x => verifCode x.verif)).getD 3 = verif := by
      cases e with
      | none => rfl
      | some x => cases hx : x.verif <;> simp [verif, hx, verifCode]
    have hring : (e.map (fun x => ringCode x.ring)).getD 3 = ring := by
      cases e with
      | none => rfl
      | some x => cases hx : x.ring <;> simp [ring, hx, ringCode]
    have hbudget : budgetCode b = match b with | .normal => 0 | .warned => 1 | .limited => 2 := by cases b <;> rfl
    have hhome : homeSegmentCode (e.bind (·.home)) = home := by
      show _ = match e.bind (·.home) with
        | some c => if c.col ≤ 79 then 0 else if c.col ≤ 119 then 1 else 2
        | none => 3
      cases e.bind (·.home) with
      | none => rfl
      | some c =>
        have h79 : c.col < 80 ↔ c.col ≤ 79 := by omega
        have h119 : c.col < 120 ↔ c.col ≤ 119 := by omega
        simp only [homeSegmentCode, segmentOf, h79, h119]
        by_cases h : c.col ≤ 79 <;> by_cases h' : c.col ≤ 119 <;> simp [h, h']
    have hhome' : homeSegmentCode (e.bind (·.home)) < 32 := by
      rw [hhome]
      show (match e.bind (·.home) with
        | some c => if c.col ≤ 79 then 0 else if c.col ≤ 119 then 1 else 2
        | none => 3) < 32
      split
      · split_ifs <;> decide
      · decide
    have hlocLt : (e.map (fun x => locationCode x.loc)).getD 8 < 32 := (getD_map_lt (fun x => locationCode_lt x.loc) e).trans_lt (by decide)
    have hverifLt : (e.map (fun x => verifCode x.verif)).getD 3 < 32 := (getD_map_lt (fun x => verifCode_lt x.verif) e).trans_lt (by decide)
    have hringLt : (e.map (fun x => ringCode x.ring)).getD 3 < 32 := (getD_map_lt (fun x => ringCode_lt x.ring) e).trans_lt (by decide)
    have hkindLt : requestKindCode r.kind < 32 := (requestKindCode_lt _).trans (by decide)
    refine ⟨rfl, rfl, rfl, exists_choice rfl hkindLt hkind, exists_choice rfl (by omega) rfl, exists_ladder rfl (by omega), exists_flag rfl,
      exists_choice rfl (by omega) rfl, rfl, exists_flag rfl, exists_choice rfl hlocLt hloc, exists_choice rfl hverifLt hverif,
      exists_choice rfl hringLt hring, fun hg => exists_number rfl ?_, exists_flag rfl, exists_flag rfl, exists_choice rfl (by omega) rfl,
      exists_choice rfl ((getD_map_lt (fun x : Fin 16 => x.isLt) _).trans_lt (by decide)) rfl,
      exists_choice rfl ((getD_map_lt (fun x : Fin 8 => x.isLt) _).trans_lt (by decide)) rfl, exists_number rfl ?_, exists_flag rfl, rfl, rfl,
      fun hg => exists_number rfl (by omega), exists_ladder rfl (by omega), exists_choice rfl ((budgetCode_lt b).trans (by decide)) hbudget,
      ⟨_, rfl, fun x => ?_⟩, exists_flag rfl, exists_choice rfl hkindLt hkind, exists_choice rfl hlocLt hloc, exists_choice rfl hringLt hring,
      exists_choice rfl hhome' hhome, exists_choice rfl hverifLt hverif, rfl⟩
    · cases e with
      | none => exact Nat.zero_lt_succ _
      | some v => exact (hg v rfl).trans_lt (by decide)
    · cases hh : r.hint with
      | none => exact Nat.zero_lt_succ _
      | some a => exact a.isLt.trans (by decide)
    · rw [BitVec.getLsbD_setWidth]
      simp [x.isLt.trans (show 8 < 32 by decide)]

end Classifying

end Sys2Proof
end

section
/-! PROOFS. The operations that load the classifier's tables (sections 2.2 to 2.5) and DIR_PUT (section 3.6). -/

namespace Sys2Proof

namespace Classifying

open Machine Safety RuleTable Upkeep

variable {s : State} (tag : Tag)

/-! ## RULE_WRITE (R31) -/

theorem ruleWriteOk_iff (slot : Nat) (e : RuleEntry) :
    ruleWriteOk slot e = true ↔ slot ≤ 511 ∧ slot % kindSize e.kind = 0 ∧ actionOk e.action = true := by
  simp [ruleWriteOk, and_assoc]

theorem overlaps_iff (r : StoredRule) (slot size : Nat) :
    r.overlaps slot size = true ↔ r.start < slot + size ∧ slot < r.start + kindSize r.entry.kind := by
  simp [StoredRule.overlaps]

/-- The new table holds the new entry and the entries that keep clear of it. -/
theorem mem_writeRule (rules : List StoredRule) (slot : Nat) (e : RuleEntry) (q : StoredRule) :
    q ∈ writeRule rules slot e ↔ q = { start := slot, entry := e }
      ∨ (q ∈ rules ∧ (q.start + kindSize q.entry.kind ≤ slot ∨ slot + kindSize e.kind ≤ q.start)) := by
  rw [writeRule, mem_insertRule, List.mem_filter, Bool.not_eq_true', ← Bool.not_eq_true, overlaps_iff]
  refine or_congr_right (and_congr_right fun _ => ?_)
  omega

/-- The starting slots of a lawful table ascend (R29). -/
theorem displacedBy_ascending (hlaw : ruleLaw s) (slot : Nat) (e : RuleEntry) : (displacedBy s.cls.rules slot e).Pairwise (· < ·) := by
  refine List.pairwise_map.mpr ((hlaw.2.filter _).imp fun {r q} h => ?_)
  have := kindSize_pos r.entry.kind
  omega

theorem mem_displacedBy (rules : List StoredRule) (slot : Nat) (e : RuleEntry) (n : Nat) :
    n ∈ displacedBy rules slot e ↔ ∃ q ∈ rules, q.start = n ∧ q.start < slot + kindSize e.kind ∧ slot < q.start + kindSize q.entry.kind := by
  simp only [displacedBy, List.mem_map, List.mem_filter, overlaps_iff]
  exact ⟨fun ⟨q, ⟨hq, h⟩, hn⟩ => ⟨q, hq, hn, h⟩, fun ⟨q, hq, hn, h⟩ => ⟨q, ⟨hq, h⟩, hn⟩⟩

/-- Settles O33: the check of the operands, and the table and the reply of one that passes it. -/
theorem ruleWriteChecksAndStores : Obligations.RuleWriteChecksAndStores := by
  unfold Obligations.RuleWriteChecksAndStores
  intro tag slot e code s hready
  have hexec : exec (.ruleWrite tag slot (.entry e)) s = .next (if ruleShapeOk e && ruleWriteOk slot e then
      (s.start.setRules (writeRule s.cls.rules slot e)).done 0x10 tag (.displaced (displacedBy s.cls.rules slot e))
      else s.start.bad 0x10 tag) := congrArg Host.Outcome.next (arrive_of_ready hready _)
  refine ⟨fun hbad => ?_, ?_, fun hlaw hle hmod hact hshape => ⟨writeRule s.cls.rules slot e, displacedBy s.cls.rules slot e, ?_,
    mem_writeRule _ _ _, displacedBy_ascending hlaw _ _, mem_displacedBy _ _ _⟩⟩
  · have hno : (ruleShapeOk e && ruleWriteOk slot e) = false := by
      rw [Bool.and_eq_false_iff]
      refine .inr (Bool.not_eq_true _ ▸ fun h => ?_)
      obtain ⟨hle, hmod, hact⟩ := (ruleWriteOk_iff _ _).mp h
      rcases hbad with hbad | hbad | hbad
      · omega
      · exact hbad hmod
      · rw [hact] at hbad; cases hbad
    rw [hexec, hno]
    exact congrArg Host.Outcome.next (reply_start hready _ _ _ _)
  · exact congrArg Host.Outcome.next ((arrive_of_ready hready _).trans (reply_start hready _ _ _ _))
  · have hyes : (ruleShapeOk e && ruleWriteOk slot e) = true := by
      rw [hshape, (ruleWriteOk_iff _ _).mpr ⟨hle, hmod, hact⟩]; rfl
    rw [hexec, hyes]
    exact congrArg Host.Outcome.next (reply_start_setRules hready _ _ _ _ _)

/-! ## RANGE_SET, SELECTOR_SET and DEFAULTS_SET (R37, R44, R47) -/

theorem toFin?_val {n : Nat} (i : Fin n) : toFin? n i.val = some i := dif_pos i.isLt

theorem toFin?_of_le {n k : Nat} (h : n ≤ k) : toFin? n k = none := dif_neg (Nat.not_lt.mpr h)

/-- The reply to an operation that has stored a table of the classifier. -/
theorem done_start_setCls (hready : ready s) (cls : Classifier) (op : Byte) :
    ({ s.start with cls := cls } : State).done op tag .nothing = answered { s with cls := cls } (replyFrame op tag .done .nothing) :=
  reply_answered (s := { s.start with cls := cls }) (keptFree_of_ready hready) rfl op tag .done .nothing

theorem selectorKind_of {code : Nat} {k : KeyKind} (h : keyKindOfCode code = some k) (hp : kindPass k = 1) : selectorKind code = some k := by
  simp [selectorKind, h, hp]

theorem selectorKind_of_gt {code : Nat} (h : 2 < code) : selectorKind code = none := by
  unfold selectorKind keyKindOfCode
  split
  · omega
  · omega
  · omega
  · rfl
  · rfl
  · rfl

theorem exec_selectorSet_refused (hready : ready s) {m j n : Nat} (h : selectorKind m = none ∨ selectorKind j = none ∨ selectorKind n = none) :
    exec (.selectorSet tag m j n) s = .next (answered s (replyFrame 0x14 tag .badArgument .nothing)) := by
  show Host.Outcome.next (s.arrive _) = _
  rw [arrive_of_ready hready]
  have hreply := reply_start hready 0x14 tag .badArgument .nothing
  cases hm : selectorKind m with
  | none => exact congrArg Host.Outcome.next hreply
  | some a =>
    cases hj : selectorKind j with
    | none => exact congrArg Host.Outcome.next hreply
    | some b =>
      cases hn : selectorKind n with
      | none => exact congrArg Host.Outcome.next hreply
      | some c => simp [hm, hj, hn] at h

/-- Settles O35: each operation's check, what it stores and its refusal. -/
theorem checkersSelectorDefaults : Obligations.CheckersSelectorDefaults := by
  unfold Obligations.CheckersSelectorDefaults
  intro tag s hready
  have hbad := fun op => reply_start hready op tag .badArgument .nothing
  refine ⟨fun c code low high src hsrc => ?_, fun c code low high h => ?_, fun cm cj cn m j n hm hj hn pm pj pn => ?_,
    fun cm cj cn h => ?_, fun x hx => ?_, fun x hx => ?_, fun x hx => ?_, fun x hx => ?_, ?_⟩
  · show Host.Outcome.next (s.arrive _) = _
    rw [arrive_of_ready hready]
    simp only [toFin?_val, hsrc]
    exact congrArg Host.Outcome.next (done_start_setCls tag hready _ _)
  · show Host.Outcome.next (s.arrive _) = _
    rw [arrive_of_ready hready]
    rcases h with h | h
    · simp only [toFin?_of_le h]
      exact congrArg Host.Outcome.next (hbad _)
    · cases toFin? 8 c <;> simp only [h] <;> exact congrArg Host.Outcome.next (hbad _)
  · show Host.Outcome.next (s.arrive _) = _
    rw [arrive_of_ready hready]
    simp only [selectorKind_of hm pm, selectorKind_of hj pj, selectorKind_of hn pn]
    exact congrArg Host.Outcome.next (done_start_setCls tag hready _ _)
  · exact exec_selectorSet_refused tag hready
      (h.imp selectorKind_of_gt (Or.imp selectorKind_of_gt selectorKind_of_gt))
  · show Host.Outcome.next (s.arrive _) = _
    rw [arrive_of_ready hready]
    simp only [hx, if_true]
    exact congrArg Host.Outcome.next (done_start_setCls tag hready _ _)
  · show Host.Outcome.next (s.arrive _) = _
    rw [arrive_of_ready hready]
    simp only [hx, if_true]
    exact congrArg Host.Outcome.next (done_start_setCls tag hready _ _)
  · have hno : pass1Ok x = false := by
      rw [← Bool.not_eq_true]
      simp only [pass1Ok, Bool.and_eq_true, Bool.or_eq_true, decide_eq_true_eq]
      omega
    show Host.Outcome.next (s.arrive _) = _
    rw [arrive_of_ready hready]
    simp only [hno, Bool.false_eq_true, if_false]
    exact congrArg Host.Outcome.next (hbad _)
  · have hno : pass2Ok x = false := by
      rw [← Bool.not_eq_true]
      simp only [pass2Ok, Bool.and_eq_true, decide_eq_true_eq]
      omega
    show Host.Outcome.next (s.arrive _) = _
    rw [arrive_of_ready hready]
    simp only [hno, Bool.false_eq_true, if_false]
    exact congrArg Host.Outcome.next (hbad _)
  · exact congrArg Host.Outcome.next ((arrive_of_ready hready _).trans (hbad _))

/-! ## DIR_PUT (R65, R66) -/

/-- Check 1 of R65, and the values that pass it. -/
theorem putValues_of_ok {x : DirPutArgs}
    (h : serialOk x.serial = true ∧ cellOk x.home = true ∧ (x.loc = 0 ∨ x.loc = 5) ∧ x.ring ≤ 2 ∧ x.account < 128) :
    ∃ v, putValues x = some v ∧ v.loc = (if x.loc = 0 then .home else .outside) ∧ (v.ring = .present ↔ x.ring = 0)
      ∧ (v.ring = .absent ↔ x.ring = 1) ∧ v.account.val = x.account := by
  obtain ⟨hser, hcell, hloc, hring, hacct⟩ := h
  have hl : putLocationOfCode x.loc = some (if x.loc = 0 then .home else .outside) := by
    rcases hloc with e | e <;> simp [e, putLocationOfCode]
  obtain ⟨r, hr, hp, ha⟩ : ∃ r, ringOfCode x.ring = some r ∧ (r = .present ↔ x.ring = 0) ∧ (r = .absent ↔ x.ring = 1) := by
    rcases (by omega : x.ring = 0 ∨ x.ring = 1 ∨ x.ring = 2) with e | e | e <;> simp [e, ringOfCode]
  have hn : toFin? 128 x.account = some ⟨x.account, hacct⟩ := dif_pos hacct
  exact ⟨{ loc := if x.loc = 0 then .home else .outside, ring := r, account := ⟨x.account, hacct⟩ }, by simp [putValues, hser, hcell, hl, hr, hn],
    rfl, hp, ha, rfl⟩

theorem putValues_of_not_ok {x : DirPutArgs}
    (h : ¬(serialOk x.serial = true ∧ cellOk x.home = true ∧ (x.loc = 0 ∨ x.loc = 5) ∧ x.ring ≤ 2 ∧ x.account < 128)) :
    putValues x = none := by
  rw [← Option.not_isSome_iff_eq_none]
  intro hsome
  refine h ?_
  unfold putValues at hsome
  split at hsome
  · rename_i hok
    obtain ⟨hser, hcell⟩ := Bool.and_eq_true_iff.mp hok
    split at hsome
    · rename_i l r n hl hr hn
      refine ⟨hser, hcell, ?_, ?_, ?_⟩
      · unfold putLocationOfCode at hl
        split at hl <;> simp_all
      · unfold ringOfCode at hr
        split at hr <;> simp_all
      · unfold toFin? at hn
        split at hn
        · assumption
        · cases hn
    · cases hsome
  · cases hsome

/-- Check 2 of R65. -/
theorem putBusy_iff (ser : Serial) : s.putBusy ser = true ↔
    ∃ e, s.entry? ser = some e ∧ ((∃ r ∈ s.recs, r.serial = some ser) ∨ (e.loc ≠ .home ∧ e.loc ≠ .outside)) := by
  unfold State.putBusy
  cases h : s.entry? ser with
  | none => simp
  | some e => simp [State.holderOf]

/-- Check 4 of R65. -/
theorem cellTaken_iff (ser : Serial) (c : Cell) : s.cellTaken ser c = true ↔
    ∃ e ∈ s.dir, e.serial ≠ ser ∧ (e.home = some c ∨ e.loc = .misplaced c) := by
  simp [State.cellTaken]

/-- Settles O36: the four checks in order, and the entry of one that passes them. -/
theorem dirPutWritesTheEntry : Obligations.DirPutWritesTheEntry := by
  unfold Obligations.DirPutWritesTheEntry
  intro tag x s hready ok busy taken
  have hrefuse := fun code => reply_start hready 0x20 tag code .nothing
  have hexec : exec (.dirPut tag x) s = .next (match putValues x with
      | none => s.start.bad 0x20 tag
      | some v =>
        if s.putBusy x.serial then s.start.busy 0x20 tag
        else if (s.entry? x.serial).isNone && decide (dirCapacity ≤ s.dir.length) then s.start.reply 0x20 tag .directoryFull .nothing
        else if s.cellTaken x.serial x.home then s.start.reply 0x20 tag .cellTaken .nothing
        else (s.start.storeEntry (s.putEntry x v)).done 0x20 tag (.dirPut x.serial (s.entry? x.serial).isNone)) :=
    congrArg Host.Outcome.next ((arrive_of_ready hready _).trans rfl)
  have hroom : (s.entry? x.serial = none → s.dir.length < 8192) → ¬((s.entry? x.serial).isNone && decide (dirCapacity ≤ s.dir.length)) = true := by
    intro h hfull
    simp only [Bool.and_eq_true, Option.isNone_iff_eq_none, decide_eq_true_eq] at hfull
    exact absurd (h hfull.1) (Nat.not_lt.mpr hfull.2)
  refine ⟨fun hno => ?_, fun hok hbusy => ?_, fun hok hnone hfull => ?_, fun hok hnb hr ht => ?_, fun hok hnb hnt hr => ?_⟩
  · rw [hexec, putValues_of_not_ok hno]
    exact congrArg Host.Outcome.next (hrefuse _)
  · obtain ⟨v, hv, -⟩ := putValues_of_ok hok
    rw [hexec, hv]
    simp only [if_pos ((putBusy_iff _).mpr hbusy)]
    exact congrArg Host.Outcome.next (hrefuse _)
  · obtain ⟨v, hv, -⟩ := putValues_of_ok hok
    have hnb : ¬s.putBusy x.serial = true := by simp [State.putBusy, hnone]
    have hcap : dirCapacity ≤ s.dir.length := hfull
    rw [hexec, hv]
    simp only [if_neg hnb, hnone, hcap, Option.isNone_none, decide_true, Bool.and_self, if_true]
    exact congrArg Host.Outcome.next (hrefuse _)
  · obtain ⟨v, hv, -⟩ := putValues_of_ok hok
    rw [hexec, hv]
    simp only [if_neg (mt (putBusy_iff _).mp hnb), if_neg (hroom hr), if_pos ((cellTaken_iff _ _).mpr ht)]
    exact congrArg Host.Outcome.next (hrefuse _)
  · obtain ⟨v, hv, hloc, hp, ha, hacct⟩ := putValues_of_ok hok
    have hstore : exec (.dirPut tag x) s =
        .next ((s.start.storeEntry (s.putEntry x v)).done 0x20 tag (.dirPut x.serial (s.entry? x.serial).isNone)) := by
      rw [hexec, hv]
      simp only [if_neg (mt (putBusy_iff _).mp hnb), if_neg (hroom hr), if_neg (mt (cellTaken_iff _ _).mp hnt)]
    have hreply := fun dir => reply_answered (s := { s.start with dir := dir }) (keptFree_of_ready hready) rfl 0x20 tag .done
    refine ⟨s.putEntry x v, rfl, rfl, hloc, rfl, hp, ha, hacct, rfl, rfl, fun hnone => ⟨?_, ?_⟩, fun old hold => ⟨?_, ?_⟩⟩
    · simp [State.putEntry, hnone]
    · have hadd : s.start.storeEntry (s.putEntry x v) = { s.start with dir := s.dir ++ [s.putEntry x v] } := by
        have hnone' : s.start.entry? (s.putEntry x v).serial = none := hnone
        rw [State.storeEntry, hnone']
        rfl
      rw [hstore, hadd, hnone]
      exact congrArg Host.Outcome.next (hreply _ _)
    · simp [State.putEntry, hold]
    · have hrep : s.start.storeEntry (s.putEntry x v) =
          { s.start with dir := s.dir.map (fun y => if y.serial = x.serial then s.putEntry x v else y) } := by
        have hold' : s.start.entry? (s.putEntry x v).serial = some old := hold
        rw [State.storeEntry, hold']
        rfl
      rw [hstore, hrep, hold]
      exact congrArg Host.Outcome.next (hreply _ _)

end Classifying

end Sys2Proof
end

section
/-! PROOFS. What the build of a usage record leaves (sections 1.4, 9.4 to 9.6), and what the time base counts (section 9.1). -/

namespace Sys2Proof

namespace Posting

open Machine Safety Upkeep NoticeOps

variable {s : State} {slot : Nat} {r : Rec}

/-! ## One record changed -/

/-- Only what the change makes of the member found matters. -/
theorem updFirst_const {α : Type} {p : α → Bool} {f : α → α} {l : List α} {x : α} (h : l.find? p = some x) :
    updFirst p f l = updFirst p (fun _ => f x) l := by
  induction l with
  | nil => cases h
  | cons y rest ih =>
    by_cases hy : p y = true
    · rw [List.find?_cons_of_pos hy] at h
      cases h
      simp only [updFirst, hy, if_true]
    · rw [List.find?_cons_of_neg hy] at h
      simp only [updFirst, hy, Bool.false_eq_true, if_false, ih h]

theorem updRec_const {f : Rec → Rec} (h : s.rec? slot = some r) : s.updRec slot f = s.updRec slot (fun _ => f r) :=
  congrArg (fun l => { s with recs := l }) (updFirst_const h)

theorem slot_of_rec? (h : s.rec? slot = some r) : r.slot = slot := by
  simpa using List.find?_some h

/-! ## Flags set one after another (R187) -/

theorem flagSet_setFlag (u : State) (j k : NoticeKind) : (u.setFlag j).flagSet k = (u.flagSet k || decide (k = j)) := by
  simp only [State.flagSet, State.setFlag, BitVec.getLsbD_or, getLsbD_noticeMask]

theorem flagSet_setFlags (ns : List Notice) (u : State) (k : NoticeKind) :
    (ns.foldl (fun s n => s.setFlag n.kind) u).flagSet k = true ↔ u.flagSet k = true ∨ ∃ x ∈ ns, x.kind = k := by
  induction ns generalizing u with
  | nil => simp
  | cons n rest ih =>
    rw [List.foldl_cons, ih, flagSet_setFlag]
    simp only [List.mem_cons, exists_eq_or_imp, Bool.or_eq_true, decide_eq_true_eq, or_assoc, eq_comm (a := k)]

/-- Flags set one after another leave everything but the flags. -/
theorem setFlags_eq (ns : List Notice) (u : State) :
    ns.foldl (fun s n => s.setFlag n.kind) u =
      { u with link := { u.link with flags := (ns.foldl (fun s n => s.setFlag n.kind) u).link.flags } } := by
  induction ns generalizing u with
  | nil => rfl
  | cons n rest ih => exact ih (u.setFlag n.kind)

/-! ## The build (R172 to R176) -/

/-- The account of a record after the build of its usage record. -/
def builtAccount (s : State) (r : Rec) : Account :=
  s.acct.accounts[r.account].charged (chargeInputs s.acct.rates r).charge r.holdSecs r.loaded

/-- The notices of the build. -/
def builtNotices (s : State) (r : Rec) : List Notice := buildNotices r.account s.acct.accounts[r.account] (builtAccount s r)

/-- A record in POSTING, its usage record built. -/
def posted (s : State) (r : Rec) : Rec :=
  { r with
    state := .posting, outcome := some (r.outcome.getD (kindOutcome r.kind)), drive := none, leg := none, nextLeg := none,
    approve := .none, notices := builtNotices s r,
    usage := some (usageOf r (r.outcome.getD (kindOutcome r.kind)) (chargeInputs s.acct.rates r) (builtAccount s r)) }

/-- The state with the account charged and the flags of the build's notices set. -/
def built (s : State) (r : Rec) : State :=
  (builtNotices s r).foldl (fun s n => s.setFlag n.kind) (s.updAccount r.account (fun _ => builtAccount s r))

theorem built_recs (s : State) (r : Rec) : (built s r).recs = s.recs := by
  unfold built
  rw [setFlags_eq]
  rfl

theorem built_acct (s : State) (r : Rec) : (built s r).acct = (s.updAccount r.account (fun _ => builtAccount s r)).acct := by
  unfold built
  rw [setFlags_eq]

theorem rec?_built (s : State) (r : Rec) (n : Nat) : (built s r).rec? n = s.rec? n := by
  rw [State.rec?, built_recs]
  rfl

/-- A record enters POSTING: its account is charged, the notices' flags are set, and the record is in POSTING. -/
theorem enterPosting_eq (h : s.rec? slot = some r) : s.enterPosting slot = (built s r).updRec slot (fun _ => posted s r) := by
  unfold State.enterPosting
  rw [h]
  exact updRec_const (by rw [← rec?_built s r] at h; exact h)

theorem rec?_enterPosting (h : s.rec? slot = some r) : (s.enterPosting slot).rec? slot = some (posted s r) := by
  have hslot : (posted s r).slot = slot := (slot_of_rec? h : r.slot = slot)
  rw [enterPosting_eq h, State.rec?_updRec_self _ _ _ fun _ _ => hslot, rec?_built, h]
  rfl

theorem account_enterPosting (h : s.rec? slot = some r) : (s.enterPosting slot).acct.accounts[r.account] = builtAccount s r := by
  rw [enterPosting_eq h, State.updRec_acct, built_acct, State.updAccount_self]

theorem account_enterPosting_other (h : s.rec? slot = some r) {m : Fin 128} (hm : m ≠ r.account) :
    (s.enterPosting slot).acct.accounts[m] = s.acct.accounts[m] := by
  rw [enterPosting_eq h, State.updRec_acct, built_acct, State.updAccount_other _ _ _ _ hm]

theorem flagSet_enterPosting (h : s.rec? slot = some r) (k : NoticeKind) :
    (s.enterPosting slot).flagSet k = true ↔ s.flagSet k = true ∨ ∃ x ∈ builtNotices s r, x.kind = k := by
  rw [enterPosting_eq h]
  exact flagSet_setFlags _ _ _

/-- The notices of a build, each with its condition, in their order. -/
theorem buildNotices_eq (n : Fin 128) (a b : Account) :
    buildNotices n a b =
      (if a.saturated = false ∧ b.saturated = true then [⟨.accountSaturated, .account n⟩] else [])
        ++ (if a.budget ≠ b.budget ∧ b.budget = .warned then [⟨.budgetWarn, .account n⟩] else [])
        ++ (if a.budget ≠ b.budget ∧ b.budget = .limited then [⟨.budgetLimit, .account n⟩] else []) := by
  have hsaturated : (!a.saturated && b.saturated) = decide (a.saturated = false ∧ b.saturated = true) := by
    cases a.saturated <;> simp
  have hbudget : budgetNotices n a.budget b.budget =
      (if a.budget ≠ b.budget ∧ b.budget = .warned then [⟨.budgetWarn, .account n⟩] else [])
        ++ (if a.budget ≠ b.budget ∧ b.budget = .limited then [⟨.budgetLimit, .account n⟩] else []) := by
    unfold budgetNotices
    by_cases heq : a.budget = b.budget
    · simp [heq]
    · cases hb : b.budget <;> rw [hb] at heq <;> simp [heq]
  simp only [buildNotices, hsaturated, hbudget, decide_eq_true_eq, List.append_assoc]

theorem saturated_mem {a b : Account} {n : Fin 128} (ha : a.saturated = false) (hb : b.saturated = true) :
    ∃ x ∈ buildNotices n a b, x.kind = .accountSaturated :=
  ⟨⟨.accountSaturated, .account n⟩, by rw [buildNotices_eq, if_pos (c := a.saturated = false ∧ b.saturated = true) ⟨ha, hb⟩]; simp, rfl⟩

theorem warned_mem {a b : Account} {n : Fin 128} (ha : a.budget ≠ .warned) (hb : b.budget = .warned) :
    ∃ x ∈ buildNotices n a b, x.kind = .budgetWarn :=
  ⟨⟨.budgetWarn, .account n⟩, by rw [buildNotices_eq, if_pos (c := a.budget ≠ b.budget ∧ b.budget = .warned) ⟨hb ▸ ha, hb⟩]; simp, rfl⟩

theorem limited_mem {a b : Account} {n : Fin 128} (ha : a.budget ≠ .limited) (hb : b.budget = .limited) :
    ∃ x ∈ buildNotices n a b, x.kind = .budgetLimit :=
  ⟨⟨.budgetLimit, .account n⟩, by rw [buildNotices_eq, if_pos (c := a.budget ≠ b.budget ∧ b.budget = .limited) ⟨hb ▸ ha, hb⟩]; simp, rfl⟩

theorem saturated_charged (a : Account) (charge h : Nat) (loaded : Bool) :
    (a.charged charge h loaded).saturated = true ↔ a.saturated = true ∨ 4294967295 < a.acc + charge := by
  have hmark : (a.charged charge h loaded).saturated = (a.saturated || decide (maxCount32 < a.acc + charge)) := rfl
  rw [hmark, Bool.or_eq_true, decide_eq_true_eq]
  rfl

/-- Settles O60. -/
theorem postingBuildsTheUsageRecord : Obligations.PostingBuildsTheUsageRecord := by
  intro slot r s h
  have hflags := flagSet_enterPosting h
  simp only [account_enterPosting h]
  refine ⟨rfl, rfl, rfl, rfl, rfl, rfl, rfl, rfl, by simp [chargeInputs], fun hk => by simp [chargeInputs, hk],
    fun k hk => by simp [chargeInputs, hk], rfl, saturated_charged _ _ _ _, rfl, rfl, rfl,
    rfl, rfl, rfl, rfl, fun m hm => account_enterPosting_other h hm, ?_,
    fun hb ha => (hflags _).mpr (.inr (saturated_mem ha hb)), fun hb ha => (hflags _).mpr (.inr (warned_mem ha hb)),
    fun hb ha => (hflags _).mpr (.inr (limited_mem ha hb)), ?_⟩
  · refine ⟨s.acct.accounts.set r.account (builtAccount s r), (built s r).link.flags, posted s r, ?_, hflags, buildNotices_eq _ _ _⟩
    rw [enterPosting_eq h]
    exact congrArg (fun u : State => u.updRec slot fun _ => posted s r) (setFlags_eq _ _)
  · exact ⟨posted s r, _, rec?_enterPosting h, rfl, rfl, rfl, rfl, rfl, fun o ho => by simp [usageOf, ho],
      fun ho => by simp [usageOf, ho], rfl, rfl, rfl, rfl, rfl, rfl, rfl, rfl, rfl, rfl, rfl, rfl, rfl, rfl, rfl, rfl, rfl⟩

/-! ## The time base (R101, R111, R157, R165) -/

theorem acc_countTenth (s : State) (acc : Acc) : s.countTenth.acc acc = (s.acc acc).tenth := by
  cases acc <;> rfl

theorem acc_tenth_eq (x : AccRec) :
    x.tenth = { x with trip := x.trip.map (fun tr =>
      { tr with window := if x.state = .gathering then tr.window - 1 else tr.window }) } := by
  unfold AccRec.tenth
  split
  · rfl
  · cases x with
    | mk => simp

theorem acc_second_eq (x : AccRec) (guardOpen : Bool) :
    x.second guardOpen = { x with order := x.order.map (fun o =>
      { o with timer := if guardOpen = true then o.timer else o.timer - 1 }) } := by
  unfold AccRec.second
  split
  · cases x with
    | mk => simp
  · rfl

theorem guardOpen_iff (s : State) (col : Nat) :
    s.guardOpen col = true ↔ (col < 80 ∧ s.rail.westOpen = true) ∨ (80 ≤ col ∧ col ≤ 119 ∧ s.rail.middleOpen = true)
      ∨ (120 ≤ col ∧ s.rail.eastOpen = true) := by
  unfold State.guardOpen segmentOf
  by_cases hwest : col < 80
  · have hnot : ¬80 ≤ col ∧ ¬120 ≤ col := ⟨by omega, by omega⟩
    simp [hwest, hnot]
  · by_cases hmiddle : col < 120
    · have hin : 80 ≤ col ∧ col ≤ 119 ∧ ¬120 ≤ col := ⟨by omega, by omega, by omega⟩
      simp [hwest, hmiddle, hin]
    · have hin : ¬col ≤ 119 ∧ 120 ≤ col := ⟨by omega, by omega⟩
      simp [hwest, hmiddle, hin]

/-- A second counts the windows, then the motion limits by the guards as they stand. -/
theorem acc_secondPasses (s : State) (acc : Acc) :
    s.secondPasses.acc acc = (s.acc acc).tenth.second (s.guardOpen (s.acc acc).column) := by
  have hcolumn : (s.acc acc).tenth.column = (s.acc acc).column := by rw [acc_tenth_eq]
  rw [← hcolumn]
  cases acc <;> rfl

/-- A second changes the time base, the drives, the accessors and the console queue alone. -/
theorem frame_secondPasses (s : State) : s.secondPasses =
    { s with
      acct := { s.acct with tenths := 0, seconds := s.acct.seconds + 1 }, drives := s.secondPasses.drives,
      rail := { s.rail with accs := s.secondPasses.rail.accs },
      console := { s.console with queue := s.secondPasses.console.queue } } := by
  simp only [State.secondPasses, State.countReply, State.countStatus, State.countMotion, State.countTenth, State.updAcc]

theorem queue_secondPasses (s : State) :
    s.secondPasses.console.queue = s.console.queue.map (fun p => { p with timer := p.timer - 1 }) := by
  simp only [State.secondPasses, State.countReply, State.countStatus, State.countMotion, State.countTenth, State.updAcc_console]

theorem drives_secondPasses (s : State) :
    s.secondPasses.drives = s.drives.map (fun d => { d with status := d.status.map (fun n => n - 1) }) := by
  simp only [State.secondPasses, State.countReply, State.countStatus, State.countMotion, State.countTenth, State.updAcc_drives]

/-- Settles O58. -/
theorem timeBaseCounts : Obligations.TimeBaseCounts := by
  intro s open' window motion frame second
  have hpass : second s.start.secondPasses := by
    refine ⟨frame_secondPasses s.start, ?_, ?_, fun acc => ?_, queue_secondPasses s.start, fun d => ?_⟩
    · rw [frame_secondPasses]
    · rw [frame_secondPasses]
      rfl
    · have hguard : s.start.guardOpen (s.acc acc).column = true ↔ open' acc := guardOpen_iff s _
      calc s.start.secondPasses.acc acc
          = (s.acc acc).tenth.second (s.start.guardOpen (s.acc acc).column) := acc_secondPasses s.start acc
        _ = _ := by simp only [acc_second_eq, acc_tenth_eq, hguard, window, motion]
    · rw [drives_secondPasses]
      exact Vector.getElem_map _ _
  refine ⟨fun htenths => ?_, fun htenths => ?_, ⟨_, rfl, hpass⟩⟩
  · have hrun : exec .tenthTick s =
        .next (State.countTenth { s.start with acct := { s.acct with tenths := s.acct.tenths + 1 } }) :=
      congrArg Host.Outcome.next (if_pos htenths)
    refine ⟨_, hrun, ?_, rfl, rfl, fun acc => ?_, rfl, rfl⟩
    · simp only [frame, State.countTenth, State.updAcc, State.start]
    · rw [acc_countTenth, acc_tenth_eq]
      rfl
  · exact ⟨_, congrArg Host.Outcome.next (if_neg (by omega)), hpass⟩

end Posting

end Sys2Proof
end

section
/-! PROOFS. The operations that only report (R68, R91, R120, R133, R164, R179). -/

namespace Sys2Proof

namespace Reporting

open Machine Safety RuleTable Upkeep Classifying

variable {s : State}

/-! ## The display order (R164) -/

theorem head?_insertPrompt (p : Prompt) (out : List Prompt) :
    (insertPrompt p out).head? = match out.head? with
      | none => some p
      | some b => if b.urgency < p.urgency then some p else some b := by
  cases out with
  | nil => rfl
  | cons q rest => simp only [insertPrompt, List.head?_cons]; split <;> rfl

theorem insertPrompt_perm (p : Prompt) (out : List Prompt) : (insertPrompt p out).Perm (p :: out) := by
  induction out with
  | nil => exact .refl _
  | cons q rest ih =>
    simp only [insertPrompt]
    split
    · exact .refl _
    · exact (ih.cons q).trans (.swap p q rest)

/-- A list in display order: urgencies fall or stay. -/
def Descending (l : List Prompt) : Prop := l.Pairwise (fun p q => q.urgency ≤ p.urgency)

theorem insertPrompt_descending (p : Prompt) {out : List Prompt} (h : Descending out) : Descending (insertPrompt p out) := by
  induction out with
  | nil => exact List.pairwise_singleton _ _
  | cons q rest ih =>
    obtain ⟨hq, hrest⟩ := List.pairwise_cons.mp h
    simp only [insertPrompt]
    split
    case isTrue hlt =>
      refine List.pairwise_cons.mpr ⟨fun x hx => ?_, h⟩
      rcases List.mem_cons.mp hx with rfl | hx
      · exact hlt.le
      · exact (hq x hx).trans hlt.le
    case isFalse hge =>
      refine List.pairwise_cons.mpr ⟨fun x hx => ?_, ih hrest⟩
      rcases List.mem_cons.mp ((insertPrompt_perm p rest).mem_iff.mp hx) with rfl | hx
      · exact not_lt.mp hge
      · exact hq x hx

/-- A prompt is inserted after its equals. -/
theorem filter_insertPrompt (p : Prompt) {out : List Prompt} (h : Descending out) (u : Nat) :
    (insertPrompt p out).filter (fun q => q.urgency = u) =
      out.filter (fun q => q.urgency = u) ++ [p].filter (fun q => q.urgency = u) := by
  induction out with
  | nil => rfl
  | cons q rest ih =>
    obtain ⟨hq, hrest⟩ := List.pairwise_cons.mp h
    simp only [insertPrompt]
    split
    case isTrue hlt =>
      by_cases hp : p.urgency = u
      · have hnone : (q :: rest).filter (fun q => q.urgency = u) = [] := by
          refine List.filter_eq_nil_iff.mpr fun x hx => ?_
          have hle : x.urgency ≤ q.urgency := by
            rcases List.mem_cons.mp hx with rfl | hx
            · exact le_rfl
            · exact hq x hx
          simp only [decide_eq_true_eq]
          omega
        simp only [List.filter_cons_of_pos (p := fun q : Prompt => decide (q.urgency = u)) (decide_eq_true hp), hnone, List.filter_nil,
          List.nil_append]
      · simp [hp]
    case isFalse hge =>
      by_cases hu : q.urgency = u
      · simp [hu, ih hrest]
      · simp [hu, ih hrest]

theorem displayOrder_concat (queue : List Prompt) (p : Prompt) : displayOrder (queue ++ [p]) = insertPrompt p (displayOrder queue) := by
  simp [displayOrder]

theorem shownOf_concat (queue : List Prompt) (p : Prompt) :
    shownOf (queue ++ [p]) = match shownOf queue with
      | none => some p
      | some b => if b.urgency < p.urgency then some p else some b := by
  rw [shownOf, List.foldl_append]
  rfl

/-- The first prompt in display order is the one SHOWING. -/
theorem head?_displayOrder (queue : List Prompt) : (displayOrder queue).head? = shownOf queue := by
  induction queue using List.reverseRecOn with
  | nil => rfl
  | append_singleton l p ih =>
    rw [displayOrder_concat, head?_insertPrompt, shownOf_concat, ih]

theorem displayOrder_perm (queue : List Prompt) : (displayOrder queue).Perm queue := by
  induction queue using List.reverseRecOn with
  | nil => exact .refl _
  | append_singleton l p ih =>
    rw [displayOrder_concat]
    exact (insertPrompt_perm p _).trans ((ih.cons p).trans (List.perm_append_singleton p l).symm)

theorem displayOrder_descending (queue : List Prompt) : Descending (displayOrder queue) := by
  induction queue using List.reverseRecOn with
  | nil => exact .nil
  | append_singleton l p ih =>
    rw [displayOrder_concat]
    exact insertPrompt_descending p ih

theorem filter_displayOrder (queue : List Prompt) (u : Nat) :
    (displayOrder queue).filter (fun q => q.urgency = u) = queue.filter (fun q => q.urgency = u) := by
  induction queue using List.reverseRecOn with
  | nil => rfl
  | append_singleton l p ih => rw [displayOrder_concat, filter_insertPrompt p (displayOrder_descending l), ih, List.filter_append]

/-- With distinct numbers a prompt of the queue is known by its number. -/
theorem eq_of_num {queue : List Prompt} (hnodup : (queue.map (·.num)).Nodup) {p q : Prompt} (hp : p ∈ queue) (hq : q ∈ queue)
    (h : p.num = q.num) : p = q :=
  List.inj_on_of_nodup_map hnodup hp hq h

theorem getElem?_findIdx {queue : List Prompt} (hnodup : (queue.map (·.num)).Nodup) {p : Prompt} (hp : p ∈ queue) :
    queue[queue.findIdx (fun q => q.num = p.num)]? = some p := by
  have hlt : queue.findIdx (fun q => q.num = p.num) < queue.length := List.findIdx_lt_length_of_exists ⟨p, hp, by simp⟩
  have hfound : (queue[queue.findIdx (fun q => q.num = p.num)]'hlt).num = p.num := by
    simpa using List.findIdx_getElem (w := hlt)
  rw [List.getElem?_eq_getElem hlt, eq_of_num hnodup (List.getElem_mem hlt) hp hfound]

/-- A report is SHOWING just when it stands first. -/
theorem showing_iff {queue : List Prompt} (hnodup : (queue.map (·.num)).Nodup) {p : Prompt} (hp : p ∈ queue) :
    (p.report queue).showing = true ↔ (promptReports queue).head? = some (p.report queue) := by
  rw [promptReports, List.head?_map, head?_displayOrder]
  have hshow : (p.report queue).showing = true ↔ (shownOf queue).map (·.num) = some p.num := decide_eq_true_iff
  rw [hshow]
  constructor
  · intro h
    obtain ⟨b, hb, hnum⟩ := Option.map_eq_some_iff.mp h
    have hmem : b ∈ queue := (displayOrder_perm queue).mem_iff.mp (List.mem_of_mem_head? (by rw [head?_displayOrder, hb]; rfl))
    rw [hb, eq_of_num hnodup hmem hp hnum]
    rfl
  · intro h
    obtain ⟨b, hb, hreport⟩ := Option.map_eq_some_iff.mp h
    rw [hb]
    exact congrArg (fun x : PromptReport => some x.num) hreport

theorem promptReports_descending (queue : List Prompt) : (promptReports queue).Pairwise (fun a b => b.urgency ≤ a.urgency) :=
  List.pairwise_map.mpr (displayOrder_descending queue)

theorem promptReports_filter (queue : List Prompt) (u : Nat) :
    ((promptReports queue).filter (fun x => x.urgency = u)).map (·.num) = (queue.filter (fun p => p.urgency = u)).map (·.num) := by
  rw [promptReports, List.filter_map, List.map_map, ← filter_displayOrder]
  rfl

/-! ## A trip's legs and the zone standing (R120) -/

theorem zoneStanding_holds (s : State) (acc : Acc) : s.zoneStanding acc = .holds ↔ s.rail.zone = some acc := by
  unfold State.zoneStanding
  split_ifs with hheld hwait <;> simp [hheld]

theorem zoneStanding_waits {s : State} {acc : Acc} {k : Nat} (h : s.zoneStanding acc = .waits k) :
    1 ≤ k ∧ s.rail.zoneWait[k - 1]? = some acc := by
  unfold State.zoneStanding at h
  split_ifs at h with hheld hwait
  injection h with h
  have hlt : s.rail.zoneWait.findIdx (fun x => x = acc) < s.rail.zoneWait.length :=
    List.findIdx_lt_length_of_exists ⟨acc, by simpa using hwait, by simp⟩
  have hfound : s.rail.zoneWait[s.rail.zoneWait.findIdx (fun x => x = acc)]'hlt = acc := by
    simpa using List.findIdx_getElem (w := hlt)
  subst h
  exact ⟨Nat.succ_pos _, by rw [Nat.add_sub_cancel, List.getElem?_eq_getElem hlt, hfound]⟩

theorem zoneStanding_neither {s : State} {acc : Acc} (h : s.zoneStanding acc = .neither) : acc ∉ s.rail.zoneWait := by
  unfold State.zoneStanding at h
  split_ifs at h with hheld hwait
  simpa using hwait

theorem tripReport_none {s : State} {acc : Acc} (h : (s.acc acc).trip = none) : s.tripReport acc = [] := by
  rw [State.tripReport, h]

theorem tripReport_gathering {s : State} {acc : Acc} {tr : Trip} (h : (s.acc acc).trip = some tr) (hst : (s.acc acc).state = .gathering) :
    s.tripReport acc = tr.legs.map (fun slot => s.legReport { op := .pick, ref := .record slot }) := by
  rw [State.tripReport, h]
  exact if_pos hst

theorem tripReport_started {s : State} {acc : Acc} {tr : Trip} (h : (s.acc acc).trip = some tr) (hst : (s.acc acc).state ≠ .gathering) :
    s.tripReport acc = tr.stops.map s.legReport := by
  rw [State.tripReport, h]
  exact if_neg hst

theorem stopPlace_record (s : State) (op : StopOp) (n : Nat) :
    s.stopPlace ⟨op, .record n⟩ = (s.leg? n).map (fun l => match op with
      | .pick => l.src
      | .place => l.dst) := by
  cases op <;> rfl

theorem holdsCleanPrompt_iff (s : State) (d : Fin 16) :
    s.holdsCleanPrompt d = true ↔ ∃ n p, s.cleanPrompt = .up n ∧ s.prompt? n = some p ∧ p.subject = .drive d := by
  unfold State.holdsCleanPrompt
  cases s.cleanPrompt with
  | none => simp
  | owed => simp
  | up n => cases h : s.prompt? n <;> simp [h]

theorem accOfCode_of_le {n : Nat} (h : 2 ≤ n) : accOfCode n = none := by
  obtain ⟨m, rfl⟩ := Nat.exists_eq_add_of_le' h
  rfl

/-- A report: the reply of its branch, whatever the frame found. -/
theorem report_next (hready : ready s) {f : State → State} {op : Byte} {tag : Tag} {code : ReplyCode} {result : Result}
    (h : f s.start = s.start.reply op tag code result) :
    (Host.Outcome.next (s.arrive f) : Answer) = .next (answered s (replyFrame op tag code result)) :=
  congrArg Host.Outcome.next ((arrive_of_ready hready f).trans (h.trans (reply_start hready op tag code result)))

/-- Settles O38. -/
theorem reportingOperations : Obligations.ReportingOperations := by
  intro tag s hready
  refine ⟨fun ser e hok he => ?_, fun ser hno => ?_, fun c => ?_, fun d => ⟨s.holdsCleanPrompt d, ?_, holdsCleanPrompt_iff s d⟩,
    fun d hd => ?_, fun acc n hacc => ⟨s.tripReport acc, s.zoneStanding acc, ?_, tripReport_none, fun tr htrip hst => ?_,
      fun tr htrip hst => ⟨?_, fun i x y hx hy => ?_⟩, zoneStanding_holds s acc, fun k => zoneStanding_waits, zoneStanding_neither⟩,
    fun n hn => ?_, fun acc n hacc => ⟨fun hnone => ?_, fun x hx => ?_⟩,
    ⟨promptReports s.console.queue, report_next hready rfl, promptReports_descending _, promptReports_filter _,
      fun hnodup x hx => ?_⟩, fun n => ?_, fun n hn => ?_⟩
  · refine report_next hready ?_
    have hentry : s.start.entry? ser = some e := he
    simp only [hentry, hok, if_true]
    rfl
  · refine report_next hready ?_
    show (match s.start.entry? ser with
      | some e => if serialOk ser then s.start.done 0x22 tag (.dirEntry e) else s.start.bad 0x22 tag
      | none => s.start.bad 0x22 tag) = s.start.bad 0x22 tag
    cases he : s.start.entry? ser with
    | none => rfl
    | some e =>
      have hbad : serialOk ser = false := hno.resolve_right fun hnone => by
        rw [show s.start.entry? ser = s.entry? ser from rfl, hnone] at he
        cases he
      simp only [hbad, Bool.false_eq_true, if_false]
  · by_cases hc : cellOk c = true
    · rw [if_pos hc]
      exact report_next hready (if_pos hc)
    · rw [if_neg hc]
      exact report_next hready (if_neg hc)
  · refine report_next hready ?_
    simp only [toFin?_val]
    rfl
  · refine report_next hready ?_
    simp only [toFin?_of_le hd]
    rfl
  · refine report_next hready ?_
    simp only [hacc]
    rfl
  · rw [tripReport_gathering htrip hst, List.map_map]
    rfl
  · rw [tripReport_started htrip hst, List.map_map]
    rfl
  · rw [tripReport_started htrip hst, List.getElem?_map, hy] at hx
    obtain ⟨op, ref⟩ := y
    cases hx
    refine ⟨fun n hn => ?_, fun z h hput => ?_⟩
    · cases hn
      exact ⟨rfl, rfl, stopPlace_record s op n⟩
    · cases hput
      refine ⟨rfl, rfl, fun hop => ?_⟩
      cases hop
      rfl
  · have hnone : accOfCode n = none := accOfCode_of_le hn
    exact ⟨report_next hready (by simp only [hnone]; rfl), report_next hready (by simp only [hnone]; rfl)⟩
  · refine report_next hready ?_
    have haudit : s.start.audits.get acc = none := hnone
    simp only [hacc, haudit]
    rfl
  · refine report_next hready ?_
    have haudit : s.start.audits.get acc = some x := hx
    simp only [hacc, haudit]
    rfl
  · obtain ⟨p, hp, rfl⟩ := List.mem_map.mp hx
    have hmem : p ∈ s.console.queue := (displayOrder_perm _).mem_iff.mp hp
    exact ⟨showing_iff hnodup hmem, p, getElem?_findIdx hnodup hmem, rfl⟩
  · refine report_next hready ?_
    simp only [toFin?_val]
    rfl
  · refine report_next hready ?_
    simp only [toFin?_of_le hn]
    rfl

end Reporting

end Sys2Proof
end

section
/-! PROOFS. Templates and panel inputs (R149, R161 to R163). -/

namespace Sys2Proof

namespace PanelInputs

open Machine Safety RuleTable Upkeep Classifying

variable {s : State} {i : PanelInput}

/-! ## One input changed -/

/-- The state with one input changed and no order sent. -/
def putInput (s : State) (i : PanelInput) (y : Input) : State :=
  { s with sent := [], console := { s.console with inputs := s.console.inputs.set (inputIndex i) y } }

theorem start_updInput (s : State) (i : PanelInput) (f : Input → Input) :
    s.start.updInput i f = putInput s i (f s.console.inputs[inputIndex i]) := rfl

theorem input_putInput (s : State) (i : PanelInput) (y : Input) : (putInput s i y).input i = y := by
  simp [State.input, putInput]

theorem putInput_updInput (s : State) (i : PanelInput) (y : Input) (f : Input → Input) :
    (putInput s i y).updInput i f = putInput s i (f y) := by
  unfold State.updInput
  rw [input_putInput]
  simp [putInput]

theorem active_eq (y : Input) : y.active = (y.raw == y.activeHigh) := by
  rw [Input.active, Bool.beq_eq_decide_eq]

/-- An input that settles, its debounce period over. -/
def settledInput (y : Input) : Input := { y with settled := y.raw == y.activeHigh, period := false }

theorem settleInput_putInput (s : State) (i : PanelInput) (y : Input) :
    (putInput s i y).settleInput i = (putInput s i (settledInput y)).handInput i (y.raw == y.activeHigh) := by
  simp only [State.settleInput, input_putInput, putInput_updInput, active_eq]
  rfl

/-! ## What a settled change leaves (R112, R135, R162) -/

/-- The prompt of the highest urgency, the earliest raised among equals, is the one shown. -/
theorem shownOf_split {before after : List Prompt} {p : Prompt} (hbefore : ∀ q ∈ before, q.urgency < p.urgency)
    (hafter : ∀ q ∈ after, q.urgency ≤ p.urgency) : shownOf (before ++ p :: after) = some p := by
  induction after using List.reverseRecOn with
  | nil =>
    rw [Reporting.shownOf_concat]
    rcases shownOf_spec before with ⟨_, h⟩ | ⟨l, b, r, hsplit, _, _, h⟩
    · rw [h]
    · rw [h]
      exact if_pos (hbefore b (by rw [hsplit]; simp))
  | append_singleton l q ih =>
    rw [← List.cons_append, ← List.append_assoc, Reporting.shownOf_concat, ih fun x hx => hafter x (by simp [hx])]
    exact if_neg (not_lt.mpr (hafter q (by simp)))

theorem attention_split {before after : List Prompt} {p : Prompt} (hqueue : s.console.queue = before ++ p :: after)
    (hbefore : ∀ q ∈ before, q.urgency < p.urgency) (hafter : ∀ q ∈ after, q.urgency ≤ p.urgency)
    (hnum : ∀ q ∈ before ++ after, q.num ≠ p.num) : s.attention.console.queue = before ++ { p with timer := p.reply } :: after := by
  have hkeep : ∀ l : List Prompt, (∀ q ∈ l, q.num ≠ p.num) →
      l.map (fun q => if q.num = p.num then { q with timer := q.reply } else q) = l := fun l hl =>
    (List.map_congr_left fun q hq => if_neg (hl q hq)).trans (List.map_id' l)
  have hshown : shownOf s.console.queue = some p := by rw [hqueue, shownOf_split hbefore hafter]
  simp only [State.attention, hshown]
  rw [hqueue, List.map_append, List.map_cons, hkeep before fun q hq => hnum q (List.mem_append_left _ hq),
    hkeep after fun q hq => hnum q (List.mem_append_right _ hq), if_pos rfl]

/-- `t` is `s` after the input `y` has settled, but for the link unit and what the rail scheduler may change. -/
structure SettledIn (s t : State) (i : PanelInput) (y : Input) : Prop where
  inputs : t.console.inputs = s.console.inputs.set (inputIndex i) (settledInput y)
  latch : t.station.latchOpen = if i = .station then y.raw == y.activeHigh else s.station.latchOpen
  west : t.rail.westOpen = if i = .guardWest then y.raw == y.activeHigh else s.rail.westOpen
  middle : t.rail.middleOpen = if i = .guardMiddle then y.raw == y.activeHigh else s.rail.middleOpen
  east : t.rail.eastOpen = if i = .guardEast then y.raw == y.activeHigh else s.rail.eastOpen
  quiesce : t.rail.quiesce = if i = .quiesce then y.raw == y.activeHigh else s.rail.quiesce
  queue : i ≠ .attention ∨ y.raw ≠ y.activeHigh → t.console.queue = s.console.queue
  reload : ∀ before p after, i = .attention → y.raw = y.activeHigh → s.console.queue = before ++ p :: after →
    (∀ q ∈ before, q.urgency < p.urgency) → (∀ q ∈ after, q.urgency ≤ p.urgency) → (∀ q ∈ before ++ after, q.num ≠ p.num) →
    t.console.queue = before ++ { p with timer := p.reply } :: after
  dir : t.dir = s.dir
  drives : t.drives = s.drives
  acct : t.acct = s.acct

theorem attention_eq (s : State) : s.attention = { s with console := { s.console with queue := s.attention.console.queue } } := by
  unfold State.attention
  cases shownOf s.console.queue <;> rfl

theorem handInput_attention (u : State) (active : Bool) : u.handInput .attention active = if active = true then u.attention else u := rfl

/-- An input that settles is handed to its owner, and nothing else changes. -/
theorem settledIn_settleInput (s : State) (i : PanelInput) (y : Input) : SettledIn s ((putInput s i y).settleInput i) i y := by
  rw [settleInput_putInput]
  cases i with
  | attention =>
    rw [handInput_attention]
    by_cases hactive : (y.raw == y.activeHigh) = true
    · rw [if_pos hactive, attention_eq]
      exact ⟨rfl, rfl, rfl, rfl, rfl, rfl, fun h => (h.elim (absurd rfl ·) (absurd (eq_of_beq hactive) ·)),
        fun before p after _ _ hq hb ha hn => attention_split (s := putInput s .attention (settledInput y)) hq hb ha hn, rfl, rfl, rfl⟩
    · rw [if_neg hactive]
      exact ⟨rfl, rfl, rfl, rfl, rfl, rfl, fun _ => rfl, fun _ _ _ _ h => absurd (beq_iff_eq.mpr h) hactive, rfl, rfl, rfl⟩
  | station => exact ⟨rfl, rfl, rfl, rfl, rfl, rfl, fun _ => rfl, fun _ _ _ h => (nomatch h), rfl, rfl, rfl⟩
  | guardWest => exact ⟨rfl, rfl, rfl, rfl, rfl, rfl, fun _ => rfl, fun _ _ _ h => (nomatch h), rfl, rfl, rfl⟩
  | guardMiddle => exact ⟨rfl, rfl, rfl, rfl, rfl, rfl, fun _ => rfl, fun _ _ _ h => (nomatch h), rfl, rfl, rfl⟩
  | guardEast => exact ⟨rfl, rfl, rfl, rfl, rfl, rfl, fun _ => rfl, fun _ _ _ h => (nomatch h), rfl, rfl, rfl⟩
  | quiesce => exact ⟨rfl, rfl, rfl, rfl, rfl, rfl, fun _ => rfl, fun _ _ _ h => (nomatch h), rfl, rfl, rfl⟩

/-- A settled change is told to its owner alone: records, raised notices and the link unit stand. -/
theorem settleInput_keeps (u : State) (i : PanelInput) :
    (u.settleInput i).recs = u.recs ∧ (u.settleInput i).raised = u.raised ∧ (u.settleInput i).link = u.link
      ∧ (u.settleInput i).sent = u.sent := by
  unfold State.settleInput
  cases i with
  | attention =>
    rw [handInput_attention]
    split
    · rw [attention_eq]
      exact ⟨rfl, rfl, rfl, rfl⟩
    · exact ⟨rfl, rfl, rfl, rfl⟩
  | _ => exact ⟨rfl, rfl, rfl, rfl⟩

theorem calm_settleInput (h : calm s) (y : Input) : calm ((putInput s i y).settleInput i) := by
  obtain ⟨hrecs, hraised, _, _⟩ := settleInput_keeps (putInput s i y) i
  exact ⟨by rw [noneWaits, hrecs]; exact h.1, by rw [nothingRaised, hraised]; exact h.2⟩

/-- What has settled is not the rail scheduler's to change. -/
theorem SettledIn.of_lasting {t u : State} {y : Input} (h : SettledIn s u i y) (hl : lasting t = lasting u) : SettledIn s t i y := by
  have hlatch : t.station.latchOpen = u.station.latchOpen := (congrArg (fun x : State => x.station.latchOpen) hl :)
  have hwest : t.rail.westOpen = u.rail.westOpen := (congrArg (fun x : State => x.rail.westOpen) hl :)
  have hmiddle : t.rail.middleOpen = u.rail.middleOpen := (congrArg (fun x : State => x.rail.middleOpen) hl :)
  have heast : t.rail.eastOpen = u.rail.eastOpen := (congrArg (fun x : State => x.rail.eastOpen) hl :)
  have hquiesce : t.rail.quiesce = u.rail.quiesce := quiesce_of_lasting hl
  have hconsole := console_of_lasting hl
  obtain ⟨h1, h2, h3, h4, h5, h6, h7, h8, h9, h10, h11⟩ := h
  exact ⟨hconsole ▸ h1, hlatch ▸ h2, hwest ▸ h3, hmiddle ▸ h4, heast ▸ h5, hquiesce ▸ h6, hconsole ▸ h7, hconsole ▸ h8,
    (dir_of_lasting hl).trans h9, (drives_of_lasting hl).trans h10, (acct_of_lasting hl).trans h11⟩

/-- An input that settles at the end of its period, or at a raw change under code 0. -/
theorem settledIn_commit (h : calm s) (y : Input) :
    SettledIn s ((putInput s i y).settleInput i).commit i y ∧ ((putInput s i y).settleInput i).commit.link = s.link := by
  have hl := lasting_commit (calm_settleInput (i := i) h y)
  obtain ⟨_, _, hlink, _⟩ := settleInput_keeps (putInput s i y) i
  exact ⟨(settledIn_settleInput s i y).of_lasting hl, (link_of_lasting hl).trans hlink⟩

/-! ## INPUT_SET (R163) -/

theorem setInput_same {high : Bool} {code : Nat} (hhigh : high = (s.console.inputs[inputIndex i]).activeHigh)
    (hperiod : (s.console.inputs[inputIndex i]).period = true → code ≠ 0) :
    s.start.setInput i high code = putInput s i { s.console.inputs[inputIndex i] with activeHigh := high, code := code } := by
  have hfirst : ¬(s.start.input i).activeHigh ≠ high := fun h => h hhigh.symm
  have hsecond : ¬((s.start.input i).period && decide (code = 0)) = true := by
    rw [Bool.and_eq_true, decide_eq_true_eq]
    exact fun ⟨hp, hc⟩ => hperiod hp hc
  unfold State.setInput
  rw [if_neg hfirst, if_neg hsecond]
  rfl

theorem setInput_unsettling {high : Bool} {code : Nat} (hhigh : high ≠ (s.console.inputs[inputIndex i]).activeHigh)
    (hsettled : (s.console.inputs[inputIndex i]).settled = ((s.console.inputs[inputIndex i]).raw == high)) :
    s.start.setInput i high code =
      putInput s i { s.console.inputs[inputIndex i] with activeHigh := high, code := code, period := false } := by
  have hfirst : (s.start.input i).activeHigh ≠ high := fun h => hhigh h.symm
  unfold State.setInput
  rw [if_pos hfirst]
  simp only [start_updInput, putInput_updInput, input_putInput, active_eq]
  exact if_neg (not_not.mpr hsettled.symm)

/-- The polarity changes the settled state, or code 0 ends a running period: the input settles. -/
theorem setInput_settles {high : Bool} {code : Nat}
    (h : (high ≠ (s.console.inputs[inputIndex i]).activeHigh
        ∧ (s.console.inputs[inputIndex i]).settled ≠ ((s.console.inputs[inputIndex i]).raw == high))
      ∨ (high = (s.console.inputs[inputIndex i]).activeHigh ∧ (s.console.inputs[inputIndex i]).period = true ∧ code = 0)) :
    s.start.setInput i high code =
      (putInput s i { s.console.inputs[inputIndex i] with activeHigh := high, code := code }).settleInput i := by
  unfold State.setInput
  rcases h with ⟨hhigh, hsettled⟩ | ⟨hhigh, hperiod, hcode⟩
  · have hfirst : (s.start.input i).activeHigh ≠ high := fun h => hhigh h.symm
    rw [if_pos hfirst]
    simp only [start_updInput, putInput_updInput, input_putInput, active_eq]
    refine (if_pos hsettled.symm).trans ?_
    rw [settleInput_putInput, settleInput_putInput]
    rfl
  · have hfirst : ¬(s.start.input i).activeHigh ≠ high := fun h => h hhigh.symm
    have hsecond : ((s.start.input i).period && decide (code = 0)) = true := by
      rw [Bool.and_eq_true, decide_eq_true_eq]
      exact ⟨hperiod, hcode⟩
    rw [if_neg hfirst, if_pos hsecond]
    rfl

variable {tag : Tag} {n p code : Nat} {high : Bool}

theorem exec_inputSet (hready : ready s) (hi : inputOfCode n = some i) (hp : polarityOfCode p = some high) (hcode : code ≤ 7)
    {u : State} (hset : s.start.setInput i high (min 4 code) = u) (hlink : u.link = s.link) (hsent : u.sent = []) :
    exec (.inputSet tag n p code) s = .next (answered u (replyFrame 0x61 tag .done (.input i high (min 4 code)))).commit := by
  show Host.Outcome.next (s.arrive _) = _
  rw [arrive_of_ready hready]
  simp only [hi, hp]
  rw [if_neg (by omega), hset]
  have hkept : u.link.keptFree = true := by rw [hlink]; exact keptFree_of_ready hready
  exact congrArg (fun v : State => Host.Outcome.next v.commit) (reply_answered hkept hsent _ _ _ _)

theorem exec_inputSet_bad (hready : ready s) (h : inputOfCode n = none ∨ polarityOfCode p = none ∨ 7 < code) :
    exec (.inputSet tag n p code) s = .next (answered s (replyFrame 0x61 tag .badArgument .nothing)) := by
  refine Reporting.report_next hready ?_
  cases hi : inputOfCode n with
  | none => rfl
  | some i =>
    cases hp : polarityOfCode p with
    | none => rfl
    | some high => exact if_pos ((h.resolve_left (by rw [hi]; simp)).resolve_left (by rw [hp]; simp))

/-! ## TEMPLATE_SET (R149) -/

theorem templateKind_of_lt {m : Fin 16} (h : m.val < 12) (c : Nat) : templateKind m c = templateKindOfCode c := by
  unfold templateKind
  split
  next h12 => omega
  next h13 => omega
  next h14 => omega
  next h15 => omega
  next => rfl

theorem templateKind_eq {m : Fin 16} {c : Nat} {kind : PromptKind} (hfree : m.val < 12 → templateKindOfCode c = some kind)
    (h12 : m.val = 12 → kind = .collect) (h13 : m.val = 13 → kind = .fault) (h14 : m.val = 14 → kind = .cleanSupply)
    (h15 : m.val = 15 → kind = .approve) : templateKind m c = some kind := by
  unfold templateKind
  split
  next h => rw [h12 h]
  next h => rw [h13 h]
  next h => rw [h14 h]
  next h => rw [h15 h]
  next hno12 hno13 hno14 hno15 =>
    have hlt : m.val < 12 ∨ m.val = 12 ∨ m.val = 13 ∨ m.val = 14 ∨ m.val = 15 := by omega
    rcases hlt with h | h | h | h | h
    · exact hfree h
    · exact absurd h hno12
    · exact absurd h hno13
    · exact absurd h hno14
    · exact absurd h hno15

theorem templateOf_val {m : Fin 16} {a : TemplateArgs} {act : ExpiryAction} {kind : PromptKind} (hact : expiryActionOfCode a.action = some act)
    (hkind : templateKind m a.kind = some kind) : templateOf m.val a = some (m, clampedTemplate kind a act) := by
  unfold templateOf
  rw [toFin?_val, hact]
  exact congrArg (Option.map _) hkind

theorem templateOf_none {m : Nat} {a : TemplateArgs}
    (h : 16 ≤ m ∨ expiryActionOfCode a.action = none ∨ (m < 12 ∧ templateKindOfCode a.kind = none)) : templateOf m a = none := by
  unfold templateOf
  by_cases hm : 16 ≤ m
  · rw [toFin?_of_le hm]
  · have hfin : toFin? 16 m = some ⟨m, by omega⟩ := toFin?_val (⟨m, by omega⟩ : Fin 16)
    rw [hfin]
    cases hact : expiryActionOfCode a.action with
    | none => rfl
    | some act =>
      obtain ⟨hlt, hkind⟩ := (h.resolve_left hm).resolve_left (by rw [hact]; simp)
      exact congrArg (Option.map _) ((templateKind_of_lt (m := ⟨m, by omega⟩) hlt _).trans hkind)

/-- Settles O54. -/
theorem templatesInputsAndLines : Obligations.TemplatesInputsAndLines := by
  intro tag i s x put settled
  have hsettled : ∀ {t : State} {y : Input}, SettledIn s t i y → settled t y := fun ⟨h1, h2, h3, h4, h5, h6, h7, h8, h9, h10, h11⟩ =>
    ⟨h1, h2, h3, h4, h5, h6, h7, fun b p a hi hy => h8 b p a hi hy, h9, h10, h11⟩
  refine ⟨fun n a act kind hready hact hfree h12 h13 h14 h15 => ⟨clampedTemplate kind a act, ?_, rfl, rfl, rfl, rfl, rfl⟩,
    fun n a hready hbad => ?_, fun n p code high hready hcalm hi hp hcode hhigh hperiod => ?_,
    fun n p code high hready hi hp hcode hhigh hsame hcalm => ?_, fun n p code hready hbad => exec_inputSet_bad hready hbad,
    congrArg Host.Outcome.next (if_pos rfl), fun high hraw hsame => ?_, fun high hraw hdiff hcode => ?_, fun hperiod hcalm => ?_,
    fun high hraw hdiff hcode hcalm => ?_, fun n p code high hready hcalm hi hp hcode hchange => ?_, fun hperiod => ?_, rfl⟩
  · show Host.Outcome.next (s.arrive _) = _
    rw [arrive_of_ready hready]
    simp only [templateOf_val hact (templateKind_eq hfree h12 h13 h14 h15)]
    exact congrArg Host.Outcome.next (reply_answered
      (s := { s.start with console := { s.console with templates := s.console.templates.set n (clampedTemplate kind a act) } })
      (keptFree_of_ready hready) rfl _ _ _ _)
  · refine Reporting.report_next hready ?_
    simp only [templateOf_none hbad]
    rfl
  · have hmin : x.period = true → min 4 code ≠ 0 := fun h => by have := hperiod h; omega
    exact ⟨_, exec_inputSet hready hi hp hcode (setInput_same hhigh hmin) rfl rfl, lasting_commit hcalm⟩
  · exact ⟨_, exec_inputSet hready hi hp hcode (setInput_unsettling hhigh hsame) rfl rfl, lasting_commit hcalm⟩
  · have hmove : ¬x.raw = high := fun h => hraw h.symm
    have hrun : exec (.panelInputChange i high) s = .next ((put { x with raw := high }).updInput i (fun x => { x with period := false })) :=
      congrArg Host.Outcome.next ((if_neg hmove).trans (if_pos ?_))
    · rw [hrun]
      exact congrArg Host.Outcome.next (putInput_updInput s i _ _)
    · rw [start_updInput, input_putInput, active_eq]
      exact hsame.symm
  · have hmove : ¬x.raw = high := fun h => hraw h.symm
    have hrun : exec (.panelInputChange i high) s = .next ((put { x with raw := high }).updInput i (fun x => { x with period := true })) :=
      congrArg Host.Outcome.next ((if_neg hmove).trans ((if_neg ?_).trans (if_neg ?_)))
    · rw [hrun]
      exact congrArg Host.Outcome.next (putInput_updInput s i _ _)
    · rw [start_updInput, input_putInput, active_eq]
      exact fun h => hdiff h.symm
    · rw [start_updInput, input_putInput]
      exact hcode
  · have hput : s.start = putInput s i x := by
      simp [putInput, State.start, x]
    have hrun : exec (.debouncePeriodEnd i) s = .next ((putInput s i x).settleInput i).commit :=
      congrArg Host.Outcome.next ((if_pos hperiod).trans (by rw [hput]))
    obtain ⟨hs, hlink⟩ := settledIn_commit (i := i) hcalm x
    exact ⟨_, hrun, hsettled hs, hlink⟩
  · have hmove : ¬x.raw = high := fun h => hraw h.symm
    have hrun : exec (.panelInputChange i high) s = .next ((put { x with raw := high }).settleInput i).commit :=
      congrArg Host.Outcome.next ((if_neg hmove).trans ((if_neg ?_).trans (if_pos ?_)))
    · obtain ⟨hs, hlink⟩ := settledIn_commit (i := i) hcalm { x with raw := high }
      exact ⟨_, hrun, hsettled hs, hlink⟩
    · rw [start_updInput, input_putInput, active_eq]
      exact fun h => hdiff h.symm
    · rw [start_updInput, input_putInput]
      exact hcode
  · have hmin : (high ≠ x.activeHigh ∧ x.settled ≠ (x.raw == high)) ∨ (high = x.activeHigh ∧ x.period = true ∧ min 4 code = 0) :=
      hchange.imp_right fun ⟨h1, h2, h3⟩ => ⟨h1, h2, by omega⟩
    obtain ⟨_, _, hlink, hsent⟩ := settleInput_keeps (put { x with activeHigh := high, code := min 4 code }) i
    have hcalm' : calm ((putInput s i { x with activeHigh := high, code := min 4 code }).settleInput i) := calm_settleInput hcalm _
    have hl := lasting_commit (calm_answered hcalm' (replyFrame 0x61 tag .done (.input i high (min 4 code))))
    refine ⟨_, exec_inputSet hready hi hp hcode (setInput_settles hmin) hlink hsent, hsettled (SettledIn.of_lasting ?_ hl), ?_⟩
    · obtain ⟨h1, h2, h3, h4, h5, h6, h7, h8, h9, h10, h11⟩ :=
        settledIn_settleInput s i { x with activeHigh := high, code := min 4 code }
      exact ⟨h1, h2, h3, h4, h5, h6, h7, h8, h9, h10, h11⟩
    · rw [link_of_lasting hl]
      exact congrArg (fun l : Link => { l with outq := l.outq ++
        [(⟨true, replyFrame 0x61 tag .done (.input i high (min 4 code))⟩ : OutFrame)] }) hlink
  · have hno : ¬(s.input i).period = true := by
      rw [Bool.not_eq_true]
      exact hperiod
    exact congrArg Host.Outcome.next (if_neg hno)

end PanelInputs

end Sys2Proof
end

section
/-! PROOFS. What the rail scheduler's work at the end of an event may do (`RailWork`): it sends orders after those sent, takes legs and scan
requests out of their lists, and leaves an order in flight, a scan begun, and an accessor out of work but for its next order. -/

namespace Sys2Proof

namespace Settling

open Machine Safety Upkeep

/-! ## The relation -/

/-- From `x` to `y` an accessor goes on at the end of an event: an order in flight and a scan stand, and one out of work only has its
next order sent. -/
structure Goes (x y : AccRec) : Prop where
  order : ∀ o, x.order = some o → y.order = some o
  scan : ∀ t, x.scan = some t → y.scan = some t
  out : outOfWork x.state = true → y.state = x.state
    ∧ (x.order = none → (y.order = none ∧ y.todo = x.todo) ∨ ∃ o, y.order = some o ∧ x.todo = some o.op)

theorem Goes.refl (x : AccRec) : Goes x x := ⟨fun _ h => h, fun _ h => h, fun _ => ⟨rfl, fun h => .inl ⟨h, rfl⟩⟩⟩

theorem Goes.trans {x y z : AccRec} (h : Goes x y) (g : Goes y z) : Goes x z where
  order o ho := g.order o (h.order o ho)
  scan t ht := g.scan t (h.scan t ht)
  out hx := by
    obtain ⟨hstate, hnext⟩ := h.out hx
    obtain ⟨gstate, gnext⟩ := g.out (hstate ▸ hx)
    refine ⟨gstate.trans hstate, fun hnone => ?_⟩
    rcases hnext hnone with ⟨hy, htodo⟩ | ⟨o, ho, htodo⟩
    · rw [← htodo]
      exact gnext hy
    · exact .inr ⟨o, g.order o ho, htodo⟩

/-- An accessor whose order, scan, next order and state stand goes on. -/
theorem Goes.same {x y : AccRec} (horder : y.order = x.order) (hscan : y.scan = x.scan) (htodo : y.todo = x.todo)
    (hstate : outOfWork x.state = true → y.state = x.state) : Goes x y :=
  ⟨fun _ h => horder.trans h, fun _ h => hscan.trans h, fun hx => ⟨hstate hx, fun h => .inl ⟨horder.trans h, htodo⟩⟩⟩

/-- An accessor at work with nothing in flight goes on whatever it is to do next. -/
theorem Goes.atWork {x y : AccRec} (hwork : outOfWork x.state = false) (horder : ∀ o, x.order = some o → y.order = some o)
    (hscan : ∀ t, x.scan = some t → y.scan = some t) : Goes x y :=
  ⟨horder, hscan, fun hx => absurd hx (by rw [hwork]; exact Bool.false_ne_true)⟩

/-- From `s` to `t` the rail scheduler has worked. -/
structure RailWork (s t : State) : Prop where
  sent : s.sent <+: t.sent
  queues : ∀ acc, ∀ m ∈ t.rail.queues.get acc, m ∈ s.rail.queues.get acc
  reqs : ∀ q ∈ t.rail.scanReqs, q ∈ s.rail.scanReqs
  taken : ∀ q ∈ s.rail.scanReqs, q ∈ t.rail.scanReqs ∨ ∃ who, (t.acc who).scan = some (.station q.pos q.kind false)
  acc : ∀ acc, Goes (s.acc acc) (t.acc acc)

namespace RailWork

variable {s t u : State}

theorem refl (s : State) : RailWork s s :=
  ⟨List.prefix_rfl, fun _ _ h => h, fun _ h => h, fun _ h => .inl h, fun _ => .refl _⟩

theorem trans {s u t : State} (h : RailWork s u) (g : RailWork u t) : RailWork s t where
  sent := h.sent.trans g.sent
  queues acc m hm := h.queues acc m (g.queues acc m hm)
  reqs q hq := h.reqs q (g.reqs q hq)
  taken q hq := by
    rcases h.taken q hq with hu | ⟨who, hwho⟩
    · exact g.taken q hu
    · exact .inr ⟨who, (g.acc who).scan _ hwho⟩
  acc acc := (h.acc acc).trans (g.acc acc)

/-- Work that leaves the queues, the scan requests, the accessors and the orders sent as they are. -/
theorem same (h : RailWork s u) (hsent : t.sent = u.sent) (hqueues : t.rail.queues = u.rail.queues)
    (hreqs : t.rail.scanReqs = u.rail.scanReqs) (haccs : t.rail.accs = u.rail.accs) : RailWork s t := by
  have hacc : ∀ acc, t.acc acc = u.acc acc := fun acc => congrArg (fun p => PerAcc.get p acc) haccs
  obtain ⟨h1, h2, h3, h4, h5⟩ := h
  exact ⟨hsent ▸ h1, hqueues ▸ h2, hreqs ▸ h3, fun q hq => (h4 q hq).imp (hreqs ▸ ·) fun ⟨who, hw⟩ => ⟨who, hacc who ▸ hw⟩,
    fun acc => hacc acc ▸ h5 acc⟩

theorem updAcc {acc : Acc} {f : AccRec → AccRec} (h : RailWork s u) (hf : Goes (u.acc acc) (f (u.acc acc))) :
    RailWork s (u.updAcc acc f) := by
  have hgoes : ∀ who, Goes (u.acc who) ((u.updAcc acc f).acc who) := fun who => by
    by_cases hwho : who = acc
    · subst hwho
      rw [State.acc_updAcc_self]
      exact hf
    · rw [State.acc_updAcc_other _ _ _ _ hwho]
      exact .refl _
  exact h.trans ⟨List.prefix_rfl, fun _ _ h => h, fun _ h => h, fun _ h => .inl h, hgoes⟩

theorem updAcc' {acc : Acc} {f : AccRec → AccRec} (h : RailWork s u)
    (hf : ∀ x : AccRec, (f x).order = x.order ∧ (f x).scan = x.scan ∧ (f x).todo = x.todo
      ∧ (outOfWork x.state = true → (f x).state = x.state)) : RailWork s (u.updAcc acc f) := by
  obtain ⟨h1, h2, h3, h4⟩ := hf (u.acc acc)
  exact h.updAcc (.same h1 h2 h3 h4)

theorem foldl {α : Type} {f : State → α → State} (hf : ∀ u x, RailWork u (f u x)) (l : List α) (h : RailWork s u) :
    RailWork s (l.foldl f u) := by
  induction l generalizing u with
  | nil => exact h
  | cons x rest ih => exact ih (h.trans (hf u x))

/-! ## Reservations and trips -/

theorem updLeg {slot : Nat} {f : Leg → Leg} (h : RailWork s u) : RailWork s (u.updLeg slot f) := h.same rfl rfl rfl rfl

theorem updPos {p : Fin 8} {f : StationPos → StationPos} (h : RailWork s u) : RailWork s (u.updPos p f) := h.same rfl rfl rfl rfl

theorem setShelf {p : Fin 4} {x : ShelfPos} (h : RailWork s u) : RailWork s (u.setShelf p x) := h.same rfl rfl rfl rfl

theorem updAudit {acc : Acc} {f : Audit → Audit} (h : RailWork s u) : RailWork s (u.updAudit acc f) := h.same rfl rfl rfl rfl

theorem setDst {ref : LegRef} {dst : Place} (h : RailWork s u) : RailWork s (u.setDst ref dst) := by
  cases ref with
  | record slot => exact h.updLeg
  | putBack acc k =>
    unfold State.setDst
    exact h.updAcc' fun _ => ⟨rfl, rfl, rfl, fun _ => rfl⟩

theorem reserveFor {ref : LegRef} {v : State} (h : RailWork s u) (hv : u.reserveFor ref = some v) : RailWork s v := by
  rcases reserveFor_cases hv with ⟨rfl, -⟩ | ⟨p, -, -, rfl⟩ | ⟨p, -, -, rfl⟩
  · exact h
  · exact h.setShelf.setDst
  · exact h.updPos.setDst

theorem reserveFor_getD {ref : LegRef} (h : RailWork s u) : RailWork s ((u.reserveFor ref).getD u) := by
  cases hv : u.reserveFor ref with
  | none => exact h
  | some v => exact h.reserveFor hv

theorem setQueue_filter {acc : Acc} {keep : Nat → Bool} (h : RailWork s u) :
    RailWork s (u.setQueue acc ((u.rail.queues.get acc).filter keep)) := by
  refine h.trans ⟨List.prefix_rfl, fun who m hm => ?_, fun _ h => h, fun _ h => .inl h, fun _ => .refl _⟩
  by_cases hwho : who = acc
  · subst hwho
    rw [State.setQueue, PerAcc.get_set_self] at hm
    exact List.mem_of_mem_filter hm
  · rw [State.setQueue, PerAcc.get_set_other _ _ _ _ hwho] at hm
    exact hm

theorem tripJoin {acc : Acc} {slot : Nat} (h : RailWork s u) : RailWork s (u.tripJoin acc slot) :=
  RailWork.reserveFor_getD (RailWork.updAcc' (RailWork.updLeg h.setQueue_filter) fun _ => ⟨rfl, rfl, rfl, fun _ => rfl⟩)

theorem tripFill {acc : Acc} (h : RailWork s u) : RailWork s (u.tripFill acc) := by
  refine foldl (fun u slot => ?_) _ h
  split
  · exact (refl u).tripJoin
  · exact refl u

/-- A free accessor is IDLE, with no scan begun (R98). -/
theorem of_free {u : State} {acc : Acc} (h : u.free acc = true) : (u.acc acc).state = .idle ∧ (u.acc acc).scan = none := by
  simp only [State.free, Bool.and_eq_true, decide_eq_true_eq, Option.isNone_iff_eq_none] at h
  exact h.1

theorem tripOpen {acc : Acc} (h : RailWork s u) : RailWork s (u.tripOpen acc) := by
  unfold State.tripOpen
  split
  next hfree =>
    obtain ⟨hidle, -⟩ := of_free (Bool.and_eq_true _ _ ▸ hfree).1
    exact RailWork.tripFill (h.updAcc (.atWork (by rw [hidle]; rfl) (fun _ h => h) (fun _ h => h)))
  next => exact h

theorem updStops {acc : Acc} {f : List Stop → List Stop} (h : RailWork s u) : RailWork s (u.updStops acc f) :=
  h.updAcc' fun _ => ⟨rfl, rfl, rfl, fun _ => rfl⟩

/-! ## Orders -/

theorem joinWait {acc : Acc} {x : Stop} (h : RailWork s u) : RailWork s (u.joinWait acc x) := by
  unfold State.joinWait
  split
  · exact h
  · split
    · exact h.same rfl rfl rfl rfl
    · exact h.same rfl rfl rfl rfl

theorem acc_joinWait (u : State) (acc who : Acc) (x : Stop) : (u.joinWait acc x).acc who = u.acc who := by
  unfold State.joinWait
  split
  · rfl
  · split <;> rfl

theorem awaitPosition {acc : Acc} {x : Stop} (h : RailWork s u) (hwork : outOfWork (u.acc acc).state = false) :
    RailWork s (u.awaitPosition acc x) := by
  unfold State.awaitPosition
  dsimp only
  split
  · exact h.joinWait.updAcc (.atWork (by rw [acc_joinWait]; exact hwork) (fun _ h => h) (fun _ h => h))
  · exact h.joinWait

theorem chooseStop {acc : Acc} {behind stops : List Stop} (h : RailWork s u) (hwork : outOfWork (u.acc acc).state = false) :
    RailWork s (u.chooseStop acc behind stops) := by
  induction stops generalizing behind with
  | nil =>
    cases behind with
    | nil => exact h
    | cons x _ => exact h.awaitPosition hwork
  | cons x rest ih =>
    unfold State.chooseStop
    split
    · split
      next v hv => exact (h.reserveFor hv).updStops
      next => exact ih
    · exact h.updStops

theorem bringStop {acc : Acc} (h : RailWork s u) : RailWork s (u.bringStop acc) := by
  unfold State.bringStop
  dsimp only
  split
  next hc =>
    simp only [Bool.and_eq_true, Bool.or_eq_true, decide_eq_true_eq] at hc
    obtain ⟨-, hrun | hwait⟩ := hc
    · exact h.chooseStop (by rw [hrun]; rfl)
    · exact h.chooseStop (by rw [hwait]; rfl)
  next => exact h

/-- An accessor may be sent an order: it has none in flight, and the order is its next one, or it is at work. -/
def MaySend (x : AccRec) (op : OrderOp) : Prop := x.order = none ∧ (x.todo = some op ∨ outOfWork x.state = false)

theorem maySend_of_nextOrder {acc : Acc} {n : NextOrder} (h : u.nextOrder acc = some n) : MaySend (u.acc acc) n.op := by
  unfold State.nextOrder at h
  dsimp only at h
  split at h
  next => cases h
  next horder =>
    have hnone : (u.acc acc).order = none := by simpa using horder
    refine ⟨hnone, ?_⟩
    split at h
    next op htodo =>
      left
      rw [htodo]
      unfold AccRec.todoOrder at h
      split at h
      · obtain ⟨t, -, rfl⟩ := Option.map_eq_some_iff.mp h
        rfl
      · cases h
        rfl
      · cases h
        rfl
    next =>
      right
      split at h
      next hrun => rcases hrun with hrun | hrun <;> rw [hrun] <;> rfl
      next => cases h

theorem send {o : MechOrder} (h : RailWork s u) : RailWork s (u.send o) :=
  h.trans ⟨List.prefix_append _ _, fun _ _ h => h, fun _ h => h, fun _ h => .inl h, fun _ => .refl _⟩

/-- An accessor that may be sent an order goes on with it. -/
theorem goes_sent {x : AccRec} {o : Order} (h : MaySend x o.op) : Goes x { x with order := some o, todo := none } where
  order o' ho := by rw [h.1] at ho; cases ho
  scan _ ht := ht
  out hout := ⟨rfl, fun _ => .inr ⟨o, rfl, h.2.resolve_right (by rw [hout]; nofun)⟩⟩

theorem sendOrder {acc : Acc} {n : NextOrder} (h : RailWork s u) (hmay : MaySend (u.acc acc) n.op) : RailWork s (u.sendOrder acc n) := by
  unfold State.sendOrder
  refine RailWork.send ?_
  split
  · exact h.updLeg.updAcc (goes_sent hmay)
  · exact h.updAcc (goes_sent hmay)

theorem goes_unwait (x : AccRec) : Goes x x.unwait := by
  unfold AccRec.unwait
  split
  next hwait => exact .same rfl rfl rfl (by rw [hwait]; exact fun h => nomatch h)
  next => exact .refl x

theorem maySend_unwait {x : AccRec} {op : OrderOp} (h : MaySend x op) : MaySend x.unwait op := by
  unfold AccRec.unwait
  split
  · exact ⟨h.1, h.2.imp id fun _ => rfl⟩
  · exact h

theorem goes_wait (x : AccRec) : Goes x (if x.state = .running then { x with state := .waitingZone } else x) := by
  split
  next hrun => exact .same rfl rfl rfl (by rw [hrun]; exact fun h => nomatch h)
  next => exact .refl x

theorem maySend_wait {x : AccRec} {op : OrderOp} (h : MaySend x op) :
    MaySend (if x.state = .running then { x with state := .waitingZone } else x) op := by
  split
  · exact ⟨h.1, h.2.imp id fun _ => rfl⟩
  · exact h

theorem askZone {acc : Acc} (h : RailWork s u) : RailWork s (u.askZone acc) := by
  unfold State.askZone
  split
  · exact h
  · split
    · exact h.same rfl rfl rfl rfl
    · refine RailWork.updAcc ?_ (goes_wait _)
      split
      · exact h
      · exact h.same rfl rfl rfl rfl

theorem maySend_askZone {acc : Acc} {op : OrderOp} (h : MaySend (u.acc acc) op) : MaySend ((u.askZone acc).acc acc) op := by
  unfold State.askZone
  split
  · exact h
  · split
    · exact h
    · dsimp only
      rw [State.acc_updAcc_self]
      refine maySend_wait ?_
      split <;> exact h

theorem passGates {acc : Acc} {n : NextOrder} (h : RailWork s u) (hmay : MaySend (u.acc acc) n.op) : RailWork s (u.passGates acc n) := by
  unfold State.passGates
  split
  · dsimp only
    split
    · exact (h.updAcc (goes_unwait _)).sendOrder (by rw [State.acc_updAcc_self]; exact maySend_unwait hmay)
    · exact h.updAcc (goes_unwait _)
  · exact h

theorem tryOrder {acc : Acc} {n : NextOrder} (h : RailWork s u) (hmay : MaySend (u.acc acc) n.op) : RailWork s (u.tryOrder acc n) := by
  unfold State.tryOrder
  split
  · exact h.askZone.passGates (maySend_askZone hmay)
  · exact h.passGates hmay

theorem orderSend {acc : Acc} (h : RailWork s u) : RailWork s (u.orderSend acc) := by
  unfold State.orderSend State.sendNext
  split
  next => exact h.bringStop
  next n hn => exact h.bringStop.tryOrder (maySend_of_nextOrder hn)

/-! ## Looking for work -/

theorem canTakeScan_free {acc : Acc} (h : u.canTakeScan acc = true) : u.free acc = true := by
  simp only [State.canTakeScan, Bool.and_eq_true] at h
  exact h.1.1

/-- A free accessor begins a scan. -/
theorem goes_scan {x : AccRec} {t : ScanTarget} (hidle : x.state = .idle) (hscan : x.scan = none) :
    Goes x { x with scan := some t, todo := some .scan } :=
  .atWork (by rw [hidle]; rfl) (fun _ h => h) (fun _ ht => by rw [hscan] at ht; cases ht)

theorem stationScanTaken {acc : Acc} (h : RailWork s u) : RailWork s (u.stationScanTaken acc) := by
  unfold State.stationScanTaken
  split
  next hcan =>
    obtain ⟨hidle, hscan⟩ := of_free (canTakeScan_free hcan)
    split
    next => exact h
    next q rest hreqs =>
      dsimp only
      refine RailWork.orderSend (h.trans ⟨List.prefix_rfl, fun _ _ h => h, fun r hr => ?_, fun r hr => ?_, fun who => ?_⟩)
      · rw [hreqs]
        exact List.mem_cons_of_mem _ hr
      · rw [hreqs] at hr
        rcases List.mem_cons.mp hr with rfl | hr
        · exact .inr ⟨acc, by rw [State.acc_updAcc_self]⟩
        · exact .inl hr
      · by_cases hwho : who = acc
        · subst hwho
          rw [State.acc_updAcc_self]
          exact goes_scan hidle hscan
        · rw [State.acc_updAcc_other _ _ _ _ hwho]
          exact .refl _
  next => exact h

theorem auditResume {acc : Acc} (h : RailWork s u) : RailWork s (u.auditResume acc) := by
  unfold State.auditResume
  split
  · split
    · exact h.updAudit
    · exact h
  · exact h

theorem auditScanSend {acc : Acc} (h : RailWork s u) : RailWork s (u.auditScanSend acc) := by
  unfold State.auditScanSend
  split
  next hfree =>
    simp only [Bool.and_eq_true] at hfree
    obtain ⟨hidle, hscan⟩ := of_free hfree.1.1
    split
    · split
      · exact RailWork.orderSend (h.updAudit.updAcc (goes_scan hidle hscan))
      · exact h
    · exact h
  next => exact h

theorem startIfDue {acc : Acc} (h : RailWork s u) : RailWork s (u.startIfDue acc) := by
  unfold State.startIfDue
  split
  next hdue =>
    have hgather : (u.acc acc).state = .gathering := by
      simp only [State.startDue, Bool.and_eq_true, decide_eq_true_eq] at hdue
      exact hdue.1.1
    exact RailWork.orderSend (h.updAcc (.atWork (by rw [hgather]; rfl) (fun _ h => h) (fun _ h => h)))
  next => exact h

theorem gather {acc : Acc} (h : RailWork s u) : RailWork s (u.gather acc) := by
  unfold State.gather
  split
  · exact h.tripFill
  · exact h

theorem look {acc : Acc} (h : RailWork s u) : RailWork s (u.look acc) := by
  unfold State.look
  refine RailWork.startIfDue (RailWork.gather ?_)
  split
  · exact h.auditResume.stationScanTaken
  · split
    · exact h.auditResume.tripOpen
    · exact h.auditResume.auditScanSend

/-! ## The end of an event -/

theorem releaseZone {acc : Acc} (h : RailWork s u) : RailWork s (u.releaseZone acc) := by
  unfold State.releaseZone
  split
  · exact h.same rfl rfl rfl rfl
  · exact h

theorem idleOrPark {acc : Acc} (h : RailWork s u) (hwork : outOfWork (u.acc acc).state = false) : RailWork s (u.idleOrPark acc) := by
  unfold State.idleOrPark
  split
  · exact h.updAcc (.atWork hwork (fun _ h => h) (fun _ h => h))
  · exact RailWork.releaseZone (h.updAcc (.atWork hwork (fun _ h => h) (fun _ h => h)))

theorem endTrip {acc : Acc} (h : RailWork s u) : RailWork s (u.endTrip acc) := by
  unfold State.endTrip
  dsimp only
  split
  next hc =>
    simp only [Bool.and_eq_true, decide_eq_true_eq] at hc
    have hwork : outOfWork (u.acc acc).state = false := by rw [hc.1.1.1]; rfl
    exact RailWork.idleOrPark (h.updAcc' fun _ => ⟨rfl, rfl, rfl, fun _ => rfl⟩) (by rw [State.acc_updAcc_self]; exact hwork)
  next => exact h

theorem pruneZone {acc : Acc} (h : RailWork s u) : RailWork s (u.pruneZone acc) := by
  unfold State.pruneZone
  split
  · exact RailWork.updAcc (h.same rfl rfl rfl rfl) (goes_unwait _)
  · exact h

theorem zoneGrant (h : RailWork s u) : RailWork s u.zoneGrant := by
  unfold State.zoneGrant
  split
  · exact h
  · split
    · exact RailWork.updAcc (h.same rfl rfl rfl rfl) (goes_unwait _)
    · exact h

theorem idlePark {acc : Acc} (h : RailWork s u) : RailWork s (u.idlePark acc) := by
  unfold State.idlePark
  dsimp only
  split
  next hc =>
    simp only [Bool.and_eq_true, decide_eq_true_eq] at hc
    exact (h.idleOrPark (by rw [hc.1.1.1.1]; rfl)).orderSend
  next => exact h

theorem railSettle (h : RailWork s u) : RailWork s u.railSettle := by
  unfold State.railSettle
  exact h.pruneZone.pruneZone.endTrip.endTrip.zoneGrant.orderSend.orderSend.look.look.idlePark.idlePark

/-- When no record waits and no notice is to be offered, the end of an event is the rail scheduler's work. -/
theorem commit (h : calm u) : RailWork u u.commit := by
  rw [commit_of_calm h]
  exact (refl u).railSettle.railSettle

end RailWork

end Settling

end Sys2Proof
end

section
/-! PROOFS. The work that an event gives the blocks, short of a notice, a frame or a record's end, leaves the link unit at rest (`Still`):
its queues, its flags and the notices to be offered stand, no record comes to wait, and orders are sent after those sent. -/

namespace Sys2Proof

namespace Settling

open Machine Safety Upkeep

/-- The reply lines that wait for the printer. -/
def replyLines (s : State) : List ConsoleLine := s.console.lines.filter (fun x => !x.isDisplay)

/-- From `s` to `t` the blocks have worked and the link unit has stood still; the operator was told nothing. -/
structure Still (s t : State) : Prop where
  link : t.link = s.link
  raised : t.raised = s.raised
  waits : noneWaits s → noneWaits t
  sent : s.sent <+: t.sent
  replies : replyLines t = replyLines s

namespace Still

variable {s t u : State}

theorem refl (s : State) : Still s s := ⟨rfl, rfl, id, List.prefix_rfl, rfl⟩

theorem trans {s u t : State} (h : Still s u) (g : Still u t) : Still s t :=
  ⟨g.link.trans h.link, g.raised.trans h.raised, g.waits ∘ h.waits, h.sent.trans g.sent, g.replies.trans h.replies⟩

theorem calm {s t : State} (h : Still s t) (hs : Safety.calm s) : Safety.calm t := ⟨h.waits hs.1, h.raised.trans hs.2⟩

/-- Work that leaves the link, the notices, the records, the orders sent and the console's lines as they are. -/
theorem same (h : Still s u) (hlink : t.link = u.link) (hraised : t.raised = u.raised) (hrecs : t.recs = u.recs) (hsent : t.sent = u.sent)
    (hlines : t.console.lines = u.console.lines := by rfl) : Still s t :=
  h.trans ⟨hlink, hraised, fun hw => by rw [noneWaits, hrecs]; exact hw, by rw [hsent], by rw [replyLines, hlines]; rfl⟩

theorem foldl {α : Type} {f : State → α → State} (hf : ∀ u x, Still u (f u x)) (l : List α) (h : Still s u) : Still s (l.foldl f u) := by
  induction l generalizing u with
  | nil => exact h
  | cons x rest ih => exact ih (h.trans (hf u x))

/-! ## Primitive updates -/

theorem updRec {slot : Nat} {f : Rec → Rec} (h : Still s u) (hf : ∀ r, u.rec? slot = some r → r.waits = false → (f r).waits = false) :
    Still s (u.updRec slot f) := by
  refine h.trans ⟨rfl, rfl, fun hw r hr => ?_, List.prefix_rfl, rfl⟩
  rcases Edit.mem_updFirst_find hr with hr | ⟨x, hx, rfl⟩
  · exact hw r hr
  · exact hf x hx (hw x (List.mem_of_find?_eq_some hx))

/-- A record keeps its state and its owed ending. -/
theorem keepRec {slot : Nat} {f : Rec → Rec} (h : Still s u) (hf : ∀ r, (f r).state = r.state ∧ (f r).mountedOwed = r.mountedOwed) :
    Still s (u.updRec slot f) :=
  h.updRec fun r _ hw => by
    obtain ⟨hstate, howed⟩ := hf r
    rw [Rec.waits, hstate, howed]
    exact hw

/-- A record takes a state other than POSTING and keeps its owed ending. -/
theorem moveRec {slot : Nat} {f : Rec → Rec} (h : Still s u) (hf : ∀ r, (f r).state ≠ .posting ∧ (f r).mountedOwed = r.mountedOwed) :
    Still s (u.updRec slot f) :=
  h.updRec fun r _ hw => by
    obtain ⟨hstate, howed⟩ := hf r
    rw [Rec.waits, Bool.or_eq_false_iff] at hw ⊢
    exact ⟨decide_eq_false hstate, howed.trans hw.2⟩

theorem openRec {r : Rec} (h : Still s u) (hr : r.waits = false) : Still s (u.openRec r) := by
  refine h.trans ⟨rfl, rfl, fun hw q hq => ?_, List.prefix_rfl, rfl⟩
  rcases List.mem_append.mp hq with hq | hq
  · exact hw q hq
  · rw [List.mem_singleton.mp hq]
    exact hr

theorem updLeg {slot : Nat} {f : Leg → Leg} (h : Still s u) : Still s (u.updLeg slot f) := h.keepRec fun _ => ⟨rfl, rfl⟩

theorem updAcc {acc : Acc} {f : AccRec → AccRec} (h : Still s u) : Still s (u.updAcc acc f) := h.same rfl rfl rfl rfl

theorem updPos {p : Fin 8} {f : StationPos → StationPos} (h : Still s u) : Still s (u.updPos p f) := h.same rfl rfl rfl rfl

theorem updDrive {d : Fin 16} {f : Drive → Drive} (h : Still s u) : Still s (u.updDrive d f) := h.same rfl rfl rfl rfl

theorem setShelf {p : Fin 4} {x : ShelfPos} (h : Still s u) : Still s (u.setShelf p x) := h.same rfl rfl rfl rfl

theorem setQueue {acc : Acc} {q : List Nat} (h : Still s u) : Still s (u.setQueue acc q) := h.same rfl rfl rfl rfl

theorem updAudit {acc : Acc} {f : Audit → Audit} (h : Still s u) : Still s (u.updAudit acc f) := h.same rfl rfl rfl rfl

theorem send {o : MechOrder} (h : Still s u) : Still s (u.send o) :=
  h.trans ⟨rfl, rfl, id, List.prefix_append _ _, rfl⟩

/-! ## Prompts (R148 to R160) -/

/-- A display line takes the place of those that wait. -/
theorem filter_pushDisplay (lines : List ConsoleLine) {l : ConsoleLine} (hl : l.isDisplay = true) :
    (pushDisplay lines l).filter (fun x => !x.isDisplay) = lines.filter (fun x => !x.isDisplay) := by
  simp [pushDisplay, hl]

theorem redisplay (h : Still s u) : Still s u.redisplay := by
  unfold State.redisplay
  dsimp only
  split
  · exact h
  · refine h.trans ⟨rfl, rfl, id, List.prefix_rfl, filter_pushDisplay _ ?_⟩
    cases shownOf u.console.queue <;> rfl

theorem ask {a : Ask} (h : Still s u) : Still s (u.ask a).1 := by
  unfold State.ask
  split
  · exact h
  · exact Still.redisplay (h.same rfl rfl rfl rfl)

theorem askFault {acc : Acc} {urgency : Option Nat} (h : Still s u) : Still s (u.askFault acc urgency) := by
  unfold State.askFault
  exact h.ask.updAcc

theorem askCleanSupply (h : Still s u) : Still s u.askCleanSupply := by
  unfold State.askCleanSupply
  split
  · exact h.same rfl rfl rfl rfl
  · exact h.ask.same rfl rfl rfl rfl

theorem askApprove {slot : Nat} (h : Still s u) : Still s (u.askApprove slot) := by
  unfold State.askApprove
  split
  · exact h
  · exact h.ask.keepRec fun _ => ⟨rfl, rfl⟩

theorem askStation {p : Fin 8} (h : Still s u) : Still s (u.askStation p) := by
  unfold State.askStation
  split
  · exact h
  · exact h.ask.updPos

theorem spaceReport (h : Still s u) : Still s u.spaceReport := by
  have hfault : ∀ (v : State) (acc : Acc), Still v (v.raiseOwedFault acc) := fun v acc => by
    unfold State.raiseOwedFault
    split
    · exact (refl v).askFault
    · exact refl v
  have hclean : ∀ v : State, Still v v.raiseOwedClean := fun v => by
    unfold State.raiseOwedClean
    split
    · exact (refl v).askCleanSupply
    · exact refl v
  have happrove : ∀ (v : State) (slot : Nat), Still v (v.raiseOwedApprove slot) := fun v slot => by
    unfold State.raiseOwedApprove
    split
    · split
      · exact (refl v).askApprove
      · exact refl v
    · exact refl v
  have hstation : ∀ (v : State) (p : Fin 8), Still v (v.raiseOwedStation p) := fun v p => by
    unfold State.raiseOwedStation
    split
    · exact (refl v).askStation
    · exact refl v
  unfold State.spaceReport
  exact foldl hstation _ (foldl happrove _ ((foldl hfault _ h).trans (hclean _)))

theorem removePrompt {num : Nat} (h : Still s u) : Still s (u.removePrompt num) := Still.redisplay (h.same rfl rfl rfl rfl)

theorem withdraw {num : Nat} {b : RaisingBlock} (h : Still s u) : Still s (u.withdraw num b) := by
  unfold State.withdraw
  split
  · split
    · exact h.removePrompt.spaceReport
    · exact h
  · exact h

theorem dropPrompt {ref : PromptRef} {b : RaisingBlock} (h : Still s u) : Still s (u.dropPrompt ref b) := by
  unfold State.dropPrompt
  split
  · exact h.withdraw
  · exact h

theorem dropApprove {slot : Nat} (h : Still s u) : Still s (u.dropApprove slot) := by
  unfold State.dropApprove
  split
  · exact h
  · exact Still.dropPrompt (h.keepRec fun _ => ⟨rfl, rfl⟩)

theorem dropStation {p : Fin 8} (h : Still s u) : Still s (u.dropStation p) := h.updPos.dropPrompt

theorem dropFault {acc : Acc} (h : Still s u) : Still s (u.dropFault acc) := by
  unfold State.dropFault
  dsimp only
  split
  · exact h.updAcc.withdraw
  · exact h.updAcc

theorem tidyCleanSupply (h : Still s u) : Still s u.tidyCleanSupply := by
  unfold State.tidyCleanSupply
  split
  · exact h
  · exact Still.dropPrompt (h.same rfl rfl rfl rfl)

/-! ## Positions (R97, R134 to R141) -/

theorem setDst {ref : LegRef} {dst : Place} (h : Still s u) : Still s (u.setDst ref dst) := by
  unfold State.setDst
  split
  · exact h.updLeg
  · exact h.updAcc

theorem claimShelf {p : Fin 4} (h : Still s u) : Still s (u.claimShelf p) := by
  unfold State.claimShelf
  split
  · exact h
  · split
    · exact Still.setDst (Still.setShelf (h.same rfl rfl rfl rfl))
    · exact h

theorem freeShelf {p : Fin 4} (h : Still s u) : Still s (u.freeShelf p) := h.setShelf.claimShelf

theorem supplyAt {slot : Nat} {p : Fin 8} (h : Still s u) : Still s (u.supplyAt slot p) := h.updPos.askStation

theorem claimStation {p : Fin 8} (h : Still s u) : Still s (u.claimStation p) := by
  unfold State.claimStation
  split
  · split
    · exact Still.setDst (Still.updPos (h.same rfl rfl rfl rfl))
    · split
      · exact Still.supplyAt (h.same rfl rfl rfl rfl)
      · exact h
  · exact h

theorem freeStation {p : Fin 8} (h : Still s u) : Still s (u.freeStation p) := h.updPos.claimStation

theorem freeReservation {ref : LegRef} (h : Still s u) : Still s (u.freeReservation ref) := by
  unfold State.freeReservation
  dsimp only
  have hlists : Still s { u with
      rail := { u.rail with shelfWait := u.rail.shelfWait.filter (fun x => x ≠ ref) },
      station := { u.station with resWait := u.station.resWait.filter (fun x => x ≠ ref) } } := h.same rfl rfl rfl rfl
  split
  · split
    · exact hlists.freeShelf.freeStation
    · exact hlists.freeStation
  · split
    · exact hlists.freeShelf
    · exact hlists

theorem reserveStation {ref : LegRef} (h : Still s u) : Still s ((u.reserveStation ref).getD u) := by
  unfold State.reserveStation
  cases u.emptyStation with
  | none => exact h
  | some p => exact h.updPos.setDst

theorem sendToStation {ref : LegRef} (h : Still s u) : Still s (u.sendToStation ref) := h.setDst.reserveStation

theorem requestScan {p : Fin 8} {k : ScanKind} (h : Still s u) : Still s (u.requestScan p k) := by
  unfold State.requestScan
  dsimp only
  split
  · exact h.updPos
  · exact h.same rfl rfl rfl rfl

theorem withdrawScan {p : Fin 8} (h : Still s u) : Still s (u.withdrawScan p) := h.same rfl rfl rfl rfl

theorem supplyOrWait {slot : Nat} {l : List Nat} (h : Still s u) : Still s (u.supplyOrWait slot l) := by
  unfold State.supplyOrWait
  split
  · exact h.supplyAt
  · exact h.same rfl rfl rfl rfl

theorem startSupply {slot : Nat} (h : Still s u) : Still s (u.startSupply slot) := h.supplyOrWait

theorem markScanLate {p : Fin 8} (h : Still s u) : Still s (u.markScanLate p) := foldl (fun v _ => (refl v).updAcc) _ h

theorem endSupply {slot : Nat} (h : Still s u) : Still s (u.endSupply slot) := by
  unfold State.endSupply
  dsimp only
  split
  · exact h.same rfl rfl rfl rfl
  · exact Still.freeStation (Still.markScanLate (Still.withdrawScan (Still.dropStation (h.same rfl rfl rfl rfl))))

/-! ## Legs and drives (R73 to R96) -/

theorem legReady {slot : Nat} (h : Still s u) : Still s (u.legReady slot) := by
  unfold State.legReady
  split
  · exact h
  · exact h.updLeg.setQueue.updAudit

theorem removeLeg {slot : Nat} (h : Still s u) : Still s (u.removeLeg slot) := by
  unfold State.removeLeg
  split
  · exact h
  · exact Still.freeReservation (h.setQueue.updAcc.keepRec fun _ => ⟨rfl, rfl⟩)

theorem discardLegs {slot : Nat} (h : Still s u) : Still s (u.discardLegs slot) := h.removeLeg.keepRec fun _ => ⟨rfl, rfl⟩

theorem returnToQueue {slot : Nat} (h : Still s u) : Still s (u.returnToQueue slot) := by
  unfold State.returnToQueue
  split
  · exact h
  · exact h.updAcc.updLeg.freeReservation.legReady

theorem setOutcome {slot : Nat} {o : FinalOutcome} (h : Still s u) : Still s (u.setOutcome slot o) := h.keepRec fun _ => ⟨rfl, rfl⟩

theorem setRecState {slot : Nat} {st : RecState} (h : Still s u) (hst : st ≠ .posting) : Still s (u.setRecState slot st) :=
  h.moveRec fun _ => ⟨hst, rfl⟩

theorem stopHold {slot : Nat} (h : Still s u) : Still s (u.stopHold slot) := h.keepRec fun _ => ⟨rfl, rfl⟩

theorem makeLegs {slot : Nat} {l : Leg} {next : Option Leg} (h : Still s u) : Still s (u.makeLegs slot l next) :=
  Still.legReady (h.keepRec fun _ => ⟨rfl, rfl⟩)

theorem enterCollect {slot : Nat} {p : Fin 8} (h : Still s u) : Still s (u.enterCollect slot p) :=
  Still.askStation (Still.updPos (h.moveRec fun _ => ⟨by simp, rfl⟩))

theorem stationHome {slot : Nat} {p : Fin 8} {st : RecState} (h : Still s u) (hst : st ≠ .posting) : Still s (u.stationHome slot p st) := by
  unfold State.stationHome
  split
  · exact h
  · split
    · exact h.enterCollect
    · exact (h.updPos.setRecState hst).makeLegs

theorem shelfHome {slot : Nat} {p : Fin 4} {acc : Acc} (h : Still s u) : Still s (u.shelfHome slot p acc) := by
  unfold State.shelfHome
  split
  · exact h
  · dsimp only
    split
    · exact (h.setRecState (by simp)).makeLegs
    · exact (h.setRecState (by simp)).makeLegs

theorem reserve {slot : Nat} {d : Fin 16} (h : Still s u) : Still s (u.reserve slot d) := by
  unfold State.reserve
  split
  · exact h
  · exact Still.makeLegs (h.updDrive.moveRec fun _ => ⟨by simp, rfl⟩)

theorem allocateForRecord {slot : Nat} (h : Still s u) : Still s (u.allocateForRecord slot) := by
  unfold State.allocateForRecord
  split
  · exact h
  · split
    · split
      · exact h.reserve
      · exact h
    · exact h

theorem returnOpen {d : Fin 16} (h : Still s u) : Still s (u.returnOpen d) := by
  unfold State.returnOpen
  split
  · exact h.updDrive
  · refine Still.send (Still.updDrive (h.openRec ?_))
    cases decide (u.drives[d].state = .faulted) <;> rfl

theorem setCleanWait {d : Fin 16} {w : Bool} (h : Still s u) : Still s (u.setCleanWait d w) := h.updDrive

theorem cleaningAttempt {d : Fin 16} (h : Still s u) : Still s (u.cleaningAttempt d) := by
  unfold State.cleaningAttempt
  split
  · split
    · split
      · exact Still.allocateForRecord (Still.tidyCleanSupply (Still.setCleanWait (h.openRec rfl)))
      · exact h.setCleanWait
    · dsimp only
      split
      · exact h.setCleanWait.askCleanSupply
      · exact h.setCleanWait
  · exact h

theorem cleaningAttempts (h : Still s u) : Still s u.cleaningAttempts := by
  refine foldl (fun u d => ?_) _ h
  split
  · exact (refl u).cleaningAttempt
  · exact refl u

theorem returnsOpened (h : Still s u) :
    Still s ((List.finRange 16).foldl (fun s d => if s.drives[d].returnWait then s.returnOpen d else s) u) := by
  refine foldl (fun u d => ?_) _ h
  split
  · exact (refl u).returnOpen
  · exact refl u

theorem recordFreed (h : Still s u) : Still s u.recordFreed := h.returnsOpened.cleaningAttempts

theorem allocateForDrive {d : Fin 16} (h : Still s u) : Still s (u.allocateForDrive d) := by
  unfold State.allocateForDrive
  split
  · split
    · exact h.reserve
    · exact h.cleaningAttempt
  · exact h

theorem releaseDrive {slot : Nat} {taken : Bool} (h : Still s u) : Still s (u.releaseDrive slot taken) := by
  unfold State.releaseDrive
  split
  · exact h
  · exact Still.allocateForDrive (Still.updDrive (h.keepRec fun _ => ⟨rfl, rfl⟩))

theorem enterQueued {slot : Nat} (h : Still s u) : Still s (u.enterQueued slot) := (h.setRecState (by simp)).allocateForRecord

theorem enterSupply {slot : Nat} (h : Still s u) : Still s (u.enterSupply slot) := (h.setRecState (by simp)).startSupply

theorem enterStaged {slot : Nat} (h : Still s u) : Still s (u.enterStaged slot) := by
  unfold State.enterStaged
  split
  · exact h
  · exact (h.setRecState (by simp)).makeLegs

theorem moveOn {slot : Nat} (h : Still s u) : Still s (u.moveOn slot) := by
  unfold State.moveOn
  split
  · exact h
  · split
    · exact h.enterStaged
    · exact h.enterSupply
    · split
      · exact h.enterSupply
      · exact h.enterQueued

theorem unload {slot : Nat} {d : Fin 16} (h : Still s u) : Still s (u.unload slot d) :=
  Still.send (Still.updDrive (h.stopHold.moveRec fun _ => ⟨by simp, rfl⟩))

theorem stow {slot : Nat} {d : Fin 16} (h : Still s u) : Still s (u.stow slot d) := by
  unfold State.stow
  split
  · exact h
  · exact (h.setRecState (by simp)).makeLegs

theorem divert {slot : Nat} (h : Still s u) : Still s (u.divert slot) := by
  have hmarked : Still s ((u.updRec slot (fun r => { r with nextLeg := none })).updLeg slot (fun l => { l with diverted := true })) :=
    Still.updLeg (h.keepRec fun _ => ⟨rfl, rfl⟩)
  unfold State.divert
  dsimp only
  split
  · exact hmarked
  · exact hmarked.freeReservation.sendToStation

theorem reservedFault {slot : Nat} (h : Still s u) : Still s (u.reservedFault slot) := by
  unfold State.reservedFault
  split
  · exact h
  · have hfreed : Still s (u.updRec slot (fun r => { r with drive := none })) := h.keepRec fun _ => ⟨rfl, rfl⟩
    dsimp only
    split
    · exact hfreed.enterQueued
    · split
      · split
        · exact hfreed
        · split
          · exact hfreed.setOutcome
          · exact hfreed.setOutcome.divert
      · exact hfreed.discardLegs.enterQueued

theorem heldFault {slot : Nat} {left : DriveState} (h : Still s u) : Still s (u.heldFault slot left) := by
  unfold State.heldFault
  dsimp only
  split
  · exact h.setOutcome
  · exact (h.setOutcome.stopHold).setRecState (by simp)
  · exact h.setOutcome.setRecState (by simp)

/-! ## The rail scheduler -/

theorem railSettle (h : Still s u) : Still s u.railSettle := by
  have hl := lasting_railSettle u
  exact h.trans ⟨link_of_lasting hl, raised_of_lasting hl, noneWaits_of_lasting hl, (RailWork.refl u).railSettle.sent,
    by rw [replyLines, console_of_lasting hl]; rfl⟩

/-- The end of an event after such work. -/
theorem lasting_commit (h : Still s t) (hs : Safety.calm s) : lasting t.commit = lasting t := Machine.lasting_commit (h.calm hs)

theorem commit (h : Still s u) (hs : Safety.calm s) : Still s u.commit := by
  rw [commit_of_calm (h.calm hs)]
  exact h.railSettle.railSettle

end Still

end Settling

end Sys2Proof
end

section
/-! PROOFS. LIBRARY_ONLINE, LIBRARY_OFFLINE and the table-empty event (R189, R190). -/

namespace Sys2Proof

namespace LibraryStates

open Machine Safety RuleTable Upkeep Settling Classifying Reporting

variable {s u : State}

/-! ## Replies of the operations -/

/-- A reply that finds a kept entry free takes it. -/
theorem done_enqueue (h : u.link.keptFree = true) (op : Byte) (tag : Tag) (result : Result) :
    u.done op tag result = u.enqueue true (replyFrame op tag .done result) := if_pos h

theorem done_setLib (hready : ready s) (l : LibState) (op : Byte) (tag : Tag) :
    (s.start.setLib l).done op tag .nothing = answered { s with link := { s.link with lib := l } } (replyFrame op tag .done .nothing) :=
  reply_answered (s := s.start.setLib l) (keptFree_of_ready hready) rfl op tag .done .nothing

/-! ## The online poll (R92, R189) -/

theorem accessor_mem_pollList (s : State) (acc : Acc) : .accessor acc ∈ s.pollList ↔ (s.acc acc).state = .offline := by
  have hboth : acc ∈ bothAccs := by cases acc <;> simp [bothAccs]
  simp [State.pollList, hboth]

theorem drive_mem_pollList (s : State) (d : Fin 16) : .drive d ∈ s.pollList ↔ s.drives[d].state = .unpolled := by
  simp [State.pollList]

/-- A device asked changes the accessors, the drives and the orders sent alone. -/
theorem pollDevice_frame (u : State) (dev : Device) :
    ∃ accs drives sent, u.pollDevice dev = { u with rail := { u.rail with accs := accs }, drives := drives, sent := sent } := by
  cases dev with
  | accessor acc =>
    simp only [State.pollDevice]
    split
    · exact ⟨_, _, _, rfl⟩
    · exact ⟨_, _, _, rfl⟩
  | drive d => exact ⟨_, _, _, rfl⟩

theorem polled_frame (devs : List Device) (u : State) :
    ∃ accs drives sent, devs.foldl State.pollDevice u = { u with rail := { u.rail with accs := accs }, drives := drives, sent := sent } := by
  induction devs generalizing u with
  | nil => exact ⟨_, _, _, rfl⟩
  | cons dev rest ih =>
    obtain ⟨accs, drives, sent, h⟩ := pollDevice_frame u dev
    obtain ⟨accs', drives', sent', h'⟩ := ih (u.pollDevice dev)
    exact ⟨accs', drives', sent', h'.trans (by rw [h])⟩

/-- An accessor asked has STATUS as its next order, unless an order is in flight. -/
def askedAcc (x : AccRec) : AccRec := if x.order = none then { x with todo := some .status } else x

theorem askedAcc_idem (x : AccRec) : askedAcc (askedAcc x) = askedAcc x := by
  by_cases h : x.order = none
  · simp only [askedAcc, h, if_true]
  · simp only [askedAcc, h, if_false]

theorem acc_pollDevice (u : State) (dev : Device) (acc : Acc) :
    (u.pollDevice dev).acc acc = if dev = .accessor acc then askedAcc (u.acc acc) else u.acc acc := by
  cases dev with
  | drive d => rfl
  | accessor who =>
    simp only [State.pollDevice, Device.accessor.injEq, Option.isNone_iff_eq_none]
    by_cases hwho : who = acc
    · subst hwho
      rw [if_pos rfl, askedAcc]
      split
      · rw [State.acc_updAcc_self]
      · rfl
    · rw [if_neg hwho]
      split
      · rw [State.acc_updAcc_other _ _ _ _ fun h => hwho h.symm]
      · rfl

theorem acc_polled (devs : List Device) (u : State) (acc : Acc) :
    (devs.foldl State.pollDevice u).acc acc = if .accessor acc ∈ devs then askedAcc (u.acc acc) else u.acc acc := by
  induction devs generalizing u with
  | nil => rfl
  | cons dev rest ih =>
    rw [List.foldl_cons, ih, acc_pollDevice]
    by_cases hdev : dev = .accessor acc
    · simp [hdev, askedAcc_idem]
    · simp [hdev, Ne.symm hdev]

theorem limPick_askedAcc (x : AccRec) : (askedAcc x).limPick = x.limPick := by
  unfold askedAcc
  split <;> rfl

theorem limPick_pollDevice (u : State) (dev : Device) (acc : Acc) : ((u.pollDevice dev).acc acc).limPick = (u.acc acc).limPick := by
  rw [acc_pollDevice]
  split
  · exact limPick_askedAcc _
  · rfl

/-- A drive asked awaits its STATUS answer for the PICK limit of its side. -/
theorem drive_pollDevice (u : State) (dev : Device) (d : Fin 16) :
    (u.pollDevice dev).drives[d] =
      { u.drives[d] with status := if dev = .drive d then some (u.acc (driveAcc d)).limPick else u.drives[d].status } := by
  cases dev with
  | accessor acc =>
    simp only [State.pollDevice]
    split <;> rfl
  | drive e =>
    simp only [State.pollDevice, Device.drive.injEq]
    by_cases he : e = d
    · subst he
      rw [if_pos rfl]
      have h := State.updDrive_self u e (fun x => { x with status := some (u.acc (driveAcc e)).limPick })
      exact h
    · rw [if_neg he]
      have h := State.updDrive_other u e d (fun x => { x with status := some (u.acc (driveAcc e)).limPick }) fun h => he h.symm
      exact h

theorem drive_polled (devs : List Device) (u : State) (d : Fin 16) :
    (devs.foldl State.pollDevice u).drives[d] =
      { u.drives[d] with status := if .drive d ∈ devs then some (u.acc (driveAcc d)).limPick else u.drives[d].status } := by
  induction devs generalizing u with
  | nil => rfl
  | cons dev rest ih =>
    rw [List.foldl_cons, ih, drive_pollDevice, limPick_pollDevice]
    by_cases hdev : dev = .drive d
    · simp [hdev]
    · simp [hdev, Ne.symm hdev]

theorem lastingAcc_askedAcc (x : AccRec) : lastingAcc (askedAcc x) = lastingAcc x := by
  unfold askedAcc
  split <;> rfl

theorem lasting_accs {accs : PerAcc AccRec} {sent : List MechOrder} (h : ∀ acc, lastingAcc (accs.get acc) = lastingAcc (u.acc acc)) :
    lasting { u with rail := { u.rail with accs := accs }, sent := sent } = lasting u :=
  congrArg (fun p : PerAcc AccRec => { lasting u with rail := { (lasting u).rail with accs := p } })
    (congrArg₂ PerAcc.mk (h .a) (h .b))

/-- What the poll leaves of the lasting part: the drives that await an answer, the poll and the library state. -/
theorem lasting_startPoll (s : State) :
    lasting s.startPoll = lasting { s with
      drives := s.startPoll.drives, link := { s.link with lib := s.startPoll.link.lib, poll := s.startPoll.link.poll } } := by
  obtain ⟨accs, drives, sent, h⟩ := polled_frame s.pollList
    { s with link := { s.link with lib := if s.pollList = [] then .online else .goingOnline, poll := s.pollList } }
  have haccs : ∀ acc, lastingAcc (accs.get acc) = lastingAcc (s.acc acc) := fun acc => by
    have hacc : s.startPoll.acc acc = accs.get acc := congrArg (fun v : State => v.acc acc) h
    rw [← hacc, State.startPoll, acc_polled]
    split
    · exact lastingAcc_askedAcc _
    · rfl
  have hpoll : s.startPoll = _ := h
  rw [hpoll]
  exact lasting_accs
    (u := { s with
      drives := drives, link := { s.link with lib := if s.pollList = [] then .online else .goingOnline, poll := s.pollList } }) haccs

theorem link_startPoll (s : State) :
    s.startPoll.link = { s.link with lib := if s.pollList = [] then .online else .goingOnline, poll := s.pollList } := by
  obtain ⟨accs, drives, sent, h⟩ := polled_frame s.pollList
    { s with link := { s.link with lib := if s.pollList = [] then .online else .goingOnline, poll := s.pollList } }
  exact congrArg State.link h

theorem calm_startPoll (h : calm s) : calm s.startPoll := by
  obtain ⟨accs, drives, sent, hpoll⟩ := polled_frame s.pollList
    { s with link := { s.link with lib := if s.pollList = [] then .online else .goingOnline, poll := s.pollList } }
  rw [State.startPoll, hpoll]
  exact h

/-- Settles O19. -/
theorem libraryOnlineByState : Obligations.LibraryOnlineByState := by
  intro tag s hready
  have hrun : ∀ {l : LibState}, s.link.lib = l → s.start.link.lib = l := id
  refine ⟨fun hlib => ?_, fun hlib => ?_, fun hlib => ?_, fun hlib hcalm => ?_⟩
  · show Host.Outcome.next (s.arrive _) = _
    rw [arrive_of_ready hready]
    simp only [hrun hlib]
    exact congrArg Host.Outcome.next (done_setLib hready .online _ _)
  · refine report_next hready ?_
    simp only [hrun hlib]
    rfl
  · refine report_next hready ?_
    simp only [hrun hlib]
    rfl
  · have hlink := link_startPoll s.start
    have hkept : s.start.startPoll.link.keptFree = true := by
      rw [hlink]
      exact keptFree_of_ready hready
    have hnext : exec (.libraryOnline tag) s =
        .next (s.start.startPoll.enqueue true (replyFrame 0x01 tag .done .nothing)).commit := by
      show Host.Outcome.next (s.arrive _) = _
      rw [arrive_of_ready hready]
      simp only [hrun hlib]
      exact congrArg (fun v : State => Host.Outcome.next v.commit) (done_enqueue hkept _ _ _)
    have hcalm' : calm (s.start.startPoll.enqueue true (replyFrame 0x01 tag .done .nothing)) := calm_startPoll (s := s.start) hcalm
    have hl := lasting_commit hcalm'
    have hwork := RailWork.commit hcalm'
    have hpoll : (s.start.startPoll.enqueue true (replyFrame 0x01 tag .done .nothing)).commit.link.poll = s.pollList := by
      rw [link_of_lasting hl]
      exact congrArg Link.poll hlink
    have hacc : ∀ acc, (s.start.startPoll.enqueue true (replyFrame 0x01 tag .done .nothing)).acc acc =
        if .accessor acc ∈ s.pollList then askedAcc (s.acc acc) else s.acc acc := fun acc => acc_polled _ _ _
    have hdrives := drives_of_lasting hl
    refine ⟨_, hnext, fun d => ?_, fun acc => ?_, fun acc hmem horder => ?_, ?_, fun acc o _ horder => ?_, fun d => ?_, ?_⟩
    · rw [hpoll, drive_mem_pollList]
    · rw [hpoll, accessor_mem_pollList]
    · rw [hpoll] at hmem
      have hoff : (s.acc acc).state = .offline := (accessor_mem_pollList s acc).mp hmem
      have hgoes := hwork.acc acc
      rw [hacc, if_pos hmem, askedAcc, if_pos horder] at hgoes
      obtain ⟨-, hnextOrder⟩ := hgoes.out (by rw [outOfWork, hoff]; rfl)
      rcases hnextOrder horder with ⟨-, htodo⟩ | ⟨o, ho, htodo⟩
      · exact .inl htodo
      · exact .inr ⟨o, ho, (Option.some.inj htodo).symm⟩
    · rw [hpoll, link_of_lasting hl]
      exact congrArg Link.lib hlink
    · refine ⟨o, (hwork.acc acc).order o ?_, rfl⟩
      rw [hacc]
      split
      · rw [askedAcc, if_neg (by rw [horder]; simp)]
        exact horder
      · exact horder
    · rw [hdrives]
      have hd : s.start.startPoll.drives[d] = { s.drives[d] with
          status := if .drive d ∈ s.pollList then some (s.acc (driveAcc d)).limPick else s.drives[d].status } := drive_polled _ _ d
      refine Eq.trans hd ?_
      by_cases hun : s.drives[d].state = .unpolled
      · rw [if_pos hun, if_pos ((drive_mem_pollList s d).mpr hun)]
      · rw [if_neg hun, if_neg fun h => hun ((drive_mem_pollList s d).mp h)]
    · rw [hl, hdrives, link_of_lasting hl]
      exact lasting_answered (lasting_startPoll s.start) _

/-! ## The end of DRAINING (R1, R190) -/

theorem drained_eq (u : State) :
    u.drained = { u with link := { u.link with lib := if u.link.lib = .draining ∧ u.recs = [] then .offline else u.link.lib } } := by
  unfold State.drained
  split
  next h => rfl
  next h => rfl

/-- The close of a record leaves the library as the records then open say. -/
theorem lib_close (s : State) (n : Nat) :
    (s.close n).link.lib =
      if s.link.lib = .draining ∧ s.recs.filter (fun r => r.slot ≠ n) = [] then .offline else s.link.lib := by
  unfold State.close
  rw [(Still.refl _).recordFreed.link, drained_eq]

/-- Settles O20. -/
theorem libraryOfflineByState : Obligations.LibraryOfflineByState := by
  intro tag s
  have hrun : ∀ {l : LibState}, s.link.lib = l → s.start.link.lib = l := id
  refine ⟨fun hready hlib => ?_, fun hready hlib => ?_, fun hready hlib => ?_, fun hlib hrecs => ?_, fun hno => ?_,
    fun n => ⟨fun hlib hall => ?_, fun hno => ?_⟩⟩
  · show Host.Outcome.next (s.arrive _) = _
    rw [arrive_of_ready hready]
    simp only [hrun hlib]
    exact congrArg Host.Outcome.next (done_setLib hready _ _ _)
  · refine report_next hready ?_
    simp only [hrun hlib]
    rfl
  · rcases hlib with hlib | hlib
    · refine report_next hready ?_
      simp only [hrun hlib]
      rfl
    · refine report_next hready ?_
      simp only [hrun hlib]
      rfl
  · exact congrArg Host.Outcome.next (if_pos ⟨hlib, hrecs⟩)
  · exact congrArg Host.Outcome.next (if_neg fun ⟨hlib, hrecs⟩ => hno.elim (· hlib) (· hrecs))
  · rw [lib_close, if_pos ⟨hlib, List.filter_eq_nil_iff.mpr fun q hq => by simp [hall q hq]⟩]
  · rw [lib_close, if_neg]
    rintro ⟨hlib, hnone⟩
    rcases hno with hno | ⟨q, hq, hslot⟩
    · exact hno hlib
    · exact List.filter_eq_nil_iff.mp hnone q hq (by simpa using hslot)

end LibraryStates

end Sys2Proof
end

section
/-! PROOFS. Prompts given up (R87, R152, R160), and what the drive table does when nothing is to be taken up (R75, R84, R86). -/

namespace Sys2Proof

namespace DriveTable

open Machine Safety RuleTable Upkeep Settling Classifying Reporting LibraryStates

variable {s t u : State}

/-! ## A prompt leaves the queue (R152, R160) -/

/-- The space report of a part that owes no prompt changes nothing. -/
theorem spaceReport_of_nothingOwed (h : nothingOwed s) : s.spaceReport = s := by
  obtain ⟨hfault, hclean, happrove, hstation⟩ := h
  have hfaults : ∀ acc, s.raiseOwedFault acc = s := fun acc => by
    unfold State.raiseOwedFault
    split
    next k hk => exact absurd hk (hfault acc k)
    next => rfl
  have hcleans : s.raiseOwedClean = s := by
    unfold State.raiseOwedClean
    split
    next hk => exact absurd hk hclean
    next => rfl
  have happroves : ∀ slot, s.raiseOwedApprove slot = s := fun slot => by
    unfold State.raiseOwedApprove
    split
    next r hr => exact if_neg fun ⟨_, howed⟩ => happrove r (List.mem_of_find?_eq_some hr) howed
    next => rfl
  have hstations : ∀ p, s.raiseOwedStation p = s := fun p => by
    unfold State.raiseOwedStation
    split
    next hk => exact absurd hk (hstation p)
    next => rfl
  have hsame : ∀ {α : Type} (l : List α) (f : State → α → State), (∀ x, f s x = s) → l.foldl f s = s := fun l f hf => by
    induction l with
    | nil => rfl
    | cons x rest ih => rw [List.foldl_cons, hf, ih]
  unfold State.spaceReport
  rw [hsame _ _ hfaults]
  dsimp only
  rw [hcleans, hsame _ _ happroves, hsame _ _ hstations]

/-- The console with a queue, after a display choice. -/
def Requeued (s t : State) (queue : List Prompt) : Prop :=
  ∃ shown lines, t = { s with console := { s.console with queue := queue, shown := shown, lines := lines } }

theorem requeued_removePrompt (s : State) (n : Nat) : Requeued s (s.removePrompt n) (s.console.queue.filter (fun p => p.num ≠ n)) := by
  obtain ⟨lines, h⟩ := redisplay_eq { s with console := { s.console with queue := s.console.queue.filter (fun p => p.num ≠ n) } }
  exact ⟨_, lines, h⟩

theorem Requeued.queue {queue : List Prompt} (h : Requeued s t queue) : t.console.queue = queue := by
  obtain ⟨_, _, rfl⟩ := h
  rfl

theorem Requeued.rest {queue : List Prompt} (h : Requeued s t queue) : { t with console := s.console } = s := by
  obtain ⟨_, _, rfl⟩ := h
  rfl

theorem Requeued.nothingOwed {queue : List Prompt} (h : Requeued s t queue) (hs : Safety.nothingOwed s) : Safety.nothingOwed t := by
  obtain ⟨_, _, rfl⟩ := h
  exact hs

theorem requeued_refl (s : State) : Requeued s s s.console.queue := ⟨_, _, rfl⟩

/-- The prompts a block leaves when it gives up its hold on one. -/
def queueWithout (s : State) (ref : PromptRef) (block : RaisingBlock) : List Prompt :=
  match ref with
  | .up n => if (s.prompt? n).map (·.block) = some block then s.console.queue.filter (fun p => p.num ≠ n) else s.console.queue
  | _ => s.console.queue

theorem queueWithout_up {n : Nat} {block : RaisingBlock} (h : ∃ p, s.prompt? n = some p ∧ p.block = block) :
    queueWithout s (.up n) block = s.console.queue.filter (fun p => p.num ≠ n) := by
  obtain ⟨p, hp, hblock⟩ := h
  exact if_pos (by rw [hp]; exact congrArg some hblock)

theorem queueWithout_other {ref : PromptRef} {block : RaisingBlock} (h : ∀ n, ref ≠ .up n) :
    queueWithout s ref block = s.console.queue := by
  cases ref with
  | up n => exact absurd rfl (h n)
  | none => rfl
  | owed => rfl

/-- A prompt given up while nothing is owed leaves the queue, and nothing but the display changes with it. -/
theorem requeued_dropPrompt (h : nothingOwed s) (ref : PromptRef) (block : RaisingBlock) :
    Requeued s (s.dropPrompt ref block) (queueWithout s ref block) := by
  cases ref with
  | none => exact requeued_refl s
  | owed => exact requeued_refl s
  | up n =>
    simp only [State.dropPrompt, State.withdraw, queueWithout]
    cases hp : s.prompt? n with
    | none => exact requeued_refl s
    | some p =>
      by_cases hblock : p.block = block
      · have hremoved := requeued_removePrompt s n
        simp only [hblock, Option.map_some, if_true]
        rw [spaceReport_of_nothingOwed (hremoved.nothingOwed h)]
        exact hremoved
      · simp only [hblock, Option.map_some, Option.some.injEq, if_false]
        exact requeued_refl s

/-! ## The CLEAN_SUPPLY prompt given up (R87) -/

theorem firstCleanWait_eq_none_iff (s : State) : s.firstCleanWait = none ↔ ∀ x : Fin 16, s.drives[x].cleanWait = false := by
  simp [State.firstCleanWait]

theorem tidy_of_waiting (h : ∃ x : Fin 16, s.drives[x].cleanWait = true) : s.tidyCleanSupply = s := by
  unfold State.tidyCleanSupply
  cases hfirst : s.firstCleanWait with
  | some d => rfl
  | none =>
    obtain ⟨x, hx⟩ := h
    rw [(firstCleanWait_eq_none_iff s).mp hfirst x] at hx
    cases hx

theorem tidy_of_none (h : ∀ x : Fin 16, s.drives[x].cleanWait = false) :
    s.tidyCleanSupply = ({ s with cleanPrompt := .none } : State).dropPrompt s.cleanPrompt .driveTable := by
  unfold State.tidyCleanSupply
  rw [(firstCleanWait_eq_none_iff s).mpr h]

/-- When a drive has left cleaning wait, the CLEAN_SUPPLY prompt is given up as `cleanSupplyLeft` says, and nothing else changes. -/
theorem cleanSupply_tidied {d : Fin 16} (hprompt : u.cleanPrompt = s.cleanPrompt) (hconsole : u.console = s.console)
    (hother : ∀ x : Fin 16, x ≠ d → u.drives[x].cleanWait = s.drives[x].cleanWait) (hd : u.drives[d].cleanWait = false)
    (hquiet : s.cleanPrompt = .none ∨ nothingOwed { u with cleanPrompt := .none }) :
    cleanSupplyLeft s u.tidyCleanSupply d
      ∧ { u.tidyCleanSupply with console := u.console, cleanPrompt := u.cleanPrompt } = u := by
  by_cases hwait : ∃ x : Fin 16, u.drives[x].cleanWait = true
  · rw [tidy_of_waiting hwait]
    obtain ⟨x, hx⟩ := hwait
    have hxd : x ≠ d := fun h => by rw [h, hd] at hx; cases hx
    refine ⟨⟨fun _ => ⟨hprompt, by rw [hconsole]⟩, fun hnone => ?_⟩, rfl⟩
    rw [hother x hxd, hnone x hxd] at hx
    cases hx
  · have hnone : ∀ x : Fin 16, u.drives[x].cleanWait = false := fun x => Bool.not_eq_true _ ▸ fun h => hwait ⟨x, h⟩
    have hdrop : Requeued { u with cleanPrompt := .none } u.tidyCleanSupply (queueWithout { u with cleanPrompt := .none } u.cleanPrompt .driveTable) := by
      rw [tidy_of_none hnone]
      rcases hquiet with hempty | howed
      · rw [hprompt, hempty]
        exact requeued_refl _
      · exact requeued_dropPrompt howed _ _
    have hqueue := hdrop.queue
    refine ⟨⟨fun ⟨x, hxd, hx⟩ => ?_, fun _ => ⟨?_, fun k hk hp => ?_, fun hup => ?_⟩⟩, ?_⟩
    · rw [← hother x hxd, hnone x] at hx
      cases hx
    · obtain ⟨_, _, hframe⟩ := hdrop
      rw [hframe]
    · have hp' : ∃ p, ({ u with cleanPrompt := .none } : State).prompt? k = some p ∧ p.block = .driveTable := by
        rw [State.prompt?, hconsole]
        exact hp
      rw [hqueue, hprompt, hk, queueWithout_up hp', hconsole]
    · rw [hqueue, hprompt, queueWithout_other hup, hconsole]
    · obtain ⟨_, _, hframe⟩ := hdrop
      rw [hframe]

/-! ## A drive that finds nothing (R75, R84, R86) -/

theorem eligibleFor_iff (q : Rec) (d : Fin 16) (x : Drive) :
    q.eligibleFor d x = true ↔ q.state = .queued ∧ q.kind ≠ .clean ∧ x.pools.getLsbD q.pool.val = true
      ∧ (q.reqDrive = none ∨ q.reqDrive = some d) := by
  simp [Rec.eligibleFor, Drive.serves, and_assoc]

theorem cleanFor_iff (q : Rec) (d : Fin 16) : q.cleanFor d = true ↔ q.state = .queued ∧ q.kind = .clean ∧ q.reqDrive = some d := by
  simp [Rec.cleanFor, and_assoc]

theorem attemptDue_iff (s : State) (d : Fin 16) :
    s.attemptDue d = true ↔ s.drives[d].state = .free ∧ s.drives[d].due = true
      ∧ ∀ q ∈ s.recs, ¬(q.state = .queued ∧ q.kind = .clean ∧ q.reqDrive = some d) := by
  simp only [State.attemptDue, Bool.and_eq_true, decide_eq_true_eq, Bool.not_eq_true', List.any_eq_false, cleanFor_iff, and_assoc]

theorem chooseRecord_of_noneQueued {d : Fin 16} (h : noneQueued s) : s.chooseRecord d = none := by
  have hno : ∀ (l : List Rec) (x : Drive), (∀ r ∈ l, r.state ≠ .queued) →
      l.foldl (fun best r => if r.eligibleFor d x then
        match best with
        | none => some r
        | some b => if b.prio < r.prio then some r else some b
        else best) none = none := fun l x hl => by
    induction l with
    | nil => rfl
    | cons r rest ih =>
      have hr : ¬r.eligibleFor d x = true := fun he => hl r (by simp) ((eligibleFor_iff r d x).mp he).1
      rw [List.foldl_cons, if_neg hr]
      exact ih fun q hq => hl q (by simp [hq])
  unfold State.chooseRecord
  split
  · exact List.find?_eq_none.mpr fun q hq hc => h q hq ((cleanFor_iff q d).mp hc).1
  · exact hno _ _ h

theorem cleaningAttempt_of_notDue {d : Fin 16} (h : s.attemptDue d = false) : s.cleaningAttempt d = s := by
  unfold State.cleaningAttempt
  rw [if_neg (by rw [h]; exact Bool.false_ne_true)]

theorem attemptDue_of_notDue {d : Fin 16} (h : s.drives[d].due = false) : s.attemptDue d = false := by
  rw [← Bool.not_eq_true, attemptDue_iff, h]
  rintro ⟨-, h, -⟩
  cases h

/-- A drive that is not FREE, or not due while no record is QUEUED, takes nothing up. -/
theorem allocateForDrive_nothing {d : Fin 16} (h : s.drives[d].state ≠ .free ∨ (s.drives[d].due = false ∧ noneQueued s)) :
    s.allocateForDrive d = s := by
  unfold State.allocateForDrive
  split
  next hfree =>
    obtain ⟨hdue, hnone⟩ := h.resolve_left fun hne => hne hfree
    rw [chooseRecord_of_noneQueued hnone]
    exact cleaningAttempt_of_notDue (attemptDue_of_notDue hdue)
  next => rfl

theorem allocateForDrive_chosen {d : Fin 16} {r : Rec} (hfree : s.drives[d].state = .free) (hr : s.chooseRecord d = some r) :
    s.allocateForDrive d = s.reserve r.slot d := by
  unfold State.allocateForDrive
  rw [if_pos hfree, hr]

theorem allocateForDrive_due {d : Fin 16} (h : s.attemptDue d = true) : s.allocateForDrive d = s.cleaningAttempt d := by
  obtain ⟨hfree, hdue, hnone⟩ := (attemptDue_iff s d).mp h
  have hchoose : s.chooseRecord d = none := by
    unfold State.chooseRecord
    rw [if_pos hdue]
    exact List.find?_eq_none.mpr fun q hq hc => hnone q hq ((cleanFor_iff q d).mp hc)
  unfold State.allocateForDrive
  rw [if_pos hfree, hchoose]

/-- The search of a drive then FREE is the one that DRIVE_RESERVATION makes. -/
theorem search_reservation {d : Fin 16} (hsent : s.sent = []) (hfree : s.drives[d].state = .free) (h : ∃ r, s.chooseRecord d = some r) :
    (Host.Outcome.next (s.allocateForDrive d).commit : Answer) = exec (.driveReservation (.forDrive d)) s := by
  obtain ⟨r, hr⟩ := h
  have hstart : s.start = s := by
    rw [State.start, ← hsent]
  show _ = execDriveReservation (.forDrive d) s
  unfold execDriveReservation
  dsimp only
  rw [if_pos hfree, hr, hstart, allocateForDrive_chosen hfree hr]

theorem search_attempt {d : Fin 16} (hsent : s.sent = []) (h : s.attemptDue d = true) :
    (Host.Outcome.next (s.allocateForDrive d).commit : Answer) = exec (.cleaningAttempt d) s := by
  have hstart : s.start = s := by
    rw [State.start, ← hsent]
  show _ = Host.Outcome.next _
  rw [if_pos h, hstart, allocateForDrive_due h]

/-! ## The drives that wait act in turn (R86, R92) -/

theorem inTurn_foldl (test : State → Fin 16 → Bool) (does : Fin 16 → State → State) (s : State) :
    inTurn (fun u d => test u d = true) does s ((List.finRange 16).foldl (fun u d => if test u d = true then does d u else u) s) := by
  refine ⟨fun k => ((List.finRange 16).take k).foldl (fun u d => if test u d = true then does d u else u) s, rfl, rfl, fun d => ?_⟩
  have hstep : (List.finRange 16).take (d.val + 1) = (List.finRange 16).take d.val ++ [d] := by
    rw [List.take_add_one, List.getElem?_eq_getElem (by simp)]
    simp
  simp only [hstep, List.foldl_append, List.foldl_cons, List.foldl_nil]
  exact ⟨fun h => if_pos h, fun h => if_neg h⟩

theorem attemptsMade_cleaningAttempts (s : State) : attemptsMade s s.cleaningAttempts :=
  inTurn_foldl (fun u d => u.drives[d].cleanWait) (fun d u => u.cleaningAttempt d) s

theorem foldl_nothing {test : State → Fin 16 → Bool} {does : Fin 16 → State → State} (h : ∀ d, test s d = false) (l : List (Fin 16)) :
    l.foldl (fun u d => if test u d = true then does d u else u) s = s := by
  induction l with
  | nil => rfl
  | cons d rest ih => rw [List.foldl_cons, if_neg (by rw [h d]; exact Bool.false_ne_true), ih]

theorem cleaningAttempts_nothing (h : ∀ d : Fin 16, s.drives[d].cleanWait = false) : s.cleaningAttempts = s :=
  foldl_nothing (test := fun u d => u.drives[d].cleanWait) (does := fun d u => u.cleaningAttempt d) h _

/-! ## DIR_DELETE and CLEAN_LIST_SET (R67, R69) -/

variable {tag : Tag}

theorem inCleanList_iff (s : State) (ser : Serial) :
    s.inCleanList ser = true ↔ ∃ (i : Fin 4) (y : CleanReel), s.cleanList[i] = some y ∧ y.serial = ser := by
  rw [State.inCleanList, List.any_eq_true]
  constructor
  · rintro ⟨x, hx, hser⟩
    obtain ⟨i, hi, rfl⟩ := List.mem_iff_getElem.mp hx
    cases hy : s.cleanList.toList[i] with
    | none => rw [hy] at hser; cases hser
    | some y =>
      rw [hy] at hser
      refine ⟨⟨i, by simpa using hi⟩, y, ?_, by simpa using hser⟩
      rw [← hy]
      exact (Vector.getElem_toList (by simpa using hi)).symm
  · rintro ⟨i, y, hy, hser⟩
    refine ⟨some y, ?_, by simp [hser]⟩
    rw [← hy, Vector.mem_toList_iff]
    exact Vector.getElem_mem i.isLt

theorem mem_given {α : Type} {l : Vector (Option α) 4} {y : α} :
    y ∈ l.toList.filterMap id ↔ ∃ i : Fin 4, l[i] = some y := by
  rw [List.mem_filterMap]
  constructor
  · rintro ⟨x, hx, rfl⟩
    obtain ⟨i, hi, hget⟩ := List.mem_iff_getElem.mp hx
    exact ⟨⟨i, by simpa using hi⟩, (Vector.getElem_toList (by simpa using hi)).symm.trans hget⟩
  · rintro ⟨i, hi⟩
    exact ⟨some y, by rw [← hi, Vector.mem_toList_iff]; exact Vector.getElem_mem i.isLt, rfl⟩

theorem cleanEntryOk_iff (s : State) (y : Serial × Nat) :
    s.cleanEntryOk y = true ↔ serialOk y.1 = true ∧ ∃ e, s.entry? y.1 = some e ∧ e.foreign = false := by
  unfold State.cleanEntryOk
  rw [Bool.and_eq_true]
  refine and_congr_right fun _ => ?_
  cases s.entry? y.1 <;> simp

/-- A list gives no serial twice when no two of its places do. -/
theorem nodup_given (l : Vector (Option (Serial × Nat)) 4) :
    ((l.toList.filterMap id).map (·.1)).Nodup ↔ ∀ (i j : Fin 4) y z, l[i] = some y → l[j] = some z → y.1 = z.1 → i = j := by
  have hpairs : ((l.toList.filterMap id).map (·.1)).Nodup ↔
      l.toList.Pairwise (fun x x' => ∀ y, x = some y → ∀ z, x' = some z → y.1 ≠ z.1) := by
    rw [List.Nodup, List.pairwise_map, List.pairwise_filterMap]
    rfl
  rw [hpairs, List.pairwise_iff_getElem]
  constructor
  · intro h i j y z hi hj hser
    have hget : ∀ k : Fin 4, l.toList[k.val]'(by simp) = l[k] := fun k => Vector.getElem_toList (by simp)
    rcases lt_trichotomy i j with hlt | heq | hlt
    · exact absurd hser (h i.val j.val (by simp) (by simp) hlt y ((hget i).trans hi) z ((hget j).trans hj))
    · exact heq
    · exact absurd hser.symm (h j.val i.val (by simp) (by simp) hlt z ((hget j).trans hj) y ((hget i).trans hi))
  · intro h i j hi hj hlt y hy z hz hser
    have hi' : i < 4 := by simpa using hi
    have hj' : j < 4 := by simpa using hj
    have heq := h ⟨i, hi'⟩ ⟨j, hj'⟩ y z ((Vector.getElem_toList (by simpa using hi)).symm.trans hy)
      ((Vector.getElem_toList (by simpa using hj)).symm.trans hz) hser
    have : i = j := congrArg Fin.val heq
    omega

theorem cleanListOk_iff (s : State) (l : Vector (Option (Serial × Nat)) 4) :
    s.cleanListOk (l.toList.filterMap id) = true ↔
      (∀ (i : Fin 4) y, l[i] = some y → serialOk y.1 = true ∧ ∃ e, s.entry? y.1 = some e ∧ e.foreign = false)
        ∧ ∀ (i j : Fin 4) y z, l[i] = some y → l[j] = some z → y.1 = z.1 → i = j := by
  rw [State.cleanListOk, Bool.and_eq_true, decide_eq_true_eq, nodup_given, List.all_eq_true]
  refine and_congr_left fun _ => ?_
  simp only [cleanEntryOk_iff]
  exact ⟨fun h i y hi => h y (mem_given.mpr ⟨i, hi⟩), fun h y hy => by
    obtain ⟨i, hi⟩ := mem_given.mp hy
    exact h i y hi⟩

/-- Settles O37. -/
theorem dirDeleteAndCleanList : Obligations.DirDeleteAndCleanList := by
  intro tag ser l s hready good
  have hgood : s.start.cleanListOk (l.toList.filterMap id) = true ↔ good := cleanListOk_iff s l
  refine ⟨fun hno => ?_, fun e he hok => ⟨fun hheld => ?_, fun hfree hmech hlist => ?_⟩, fun hbad => ?_, fun hok hcalm => ?_⟩
  · refine report_next hready ?_
    cases hentry : s.start.entry? ser with
    | none => rfl
    | some e =>
      have hser : serialOk ser = false := hno.resolve_left fun h => by
        rw [show s.start.entry? ser = s.entry? ser from rfl, h] at hentry
        cases hentry
      exact if_pos hser
  · refine report_next hready ?_
    have hentry : s.start.entry? ser = some e := he
    have hbusy : ((s.start.holderOf ser).isSome || e.loc.mechanism || s.start.inCleanList ser) = true := by
      rw [Bool.or_eq_true, Bool.or_eq_true, or_assoc]
      refine hheld.imp (fun ⟨r, hr, hser⟩ => ?_) (Or.imp id fun ⟨i, y, hi, hy⟩ => (inCleanList_iff s ser).mpr ⟨i, y, hi, hy⟩)
      rw [← Option.ne_none_iff_isSome]
      exact fun hnone => (Requests.holderOf_eq_none_iff (s := s) ser).mp hnone r hr hser
    simp only [hentry, hok, hbusy, if_true, Bool.true_eq_false, if_false]
    rfl
  · have hentry : s.start.entry? ser = some e := he
    have hbusy : ((s.start.holderOf ser).isSome || e.loc.mechanism || s.start.inCleanList ser) = false := by
      have hholder : s.start.holderOf ser = none := (Requests.holderOf_eq_none_iff (s := s) ser).mpr hfree
      have hin : s.start.inCleanList ser = false := by
        rw [← Bool.not_eq_true, inCleanList_iff]
        exact fun ⟨i, y, hi, hy⟩ => hlist i y hi hy
      rw [hholder, hmech, hin]
      rfl
    show Host.Outcome.next (s.arrive _) = _
    rw [arrive_of_ready hready]
    simp only [hentry, hok, hbusy, Bool.true_eq_false, Bool.false_eq_true, if_false]
    exact congrArg Host.Outcome.next (reply_answered (s := s.start.deleteEntry ser) (keptFree_of_ready hready) rfl _ _ _ _)
  · exact report_next hready (if_neg fun h => hbad (hgood.mp h))
  · intro listed
    have hreply : (s.start.setCleanList l).done 0x23 tag .nothing = listed :=
      reply_answered (s := s.start.setCleanList l) (keptFree_of_ready hready) rfl _ _ _ _
    have hnext : exec (.cleanListSet tag l) s = .next listed.cleaningAttempts.commit := by
      show Host.Outcome.next (s.arrive _) = _
      rw [arrive_of_ready hready, if_pos (hgood.mpr hok), hreply]
    have hl : lasting listed.cleaningAttempts.commit = lasting listed.cleaningAttempts :=
      (Still.refl listed).cleaningAttempts.lasting_commit hcalm
    refine ⟨_, _, hnext, attemptsMade_cleaningAttempts listed, hl, fun hnone => ?_⟩
    rw [hl, cleaningAttempts_nothing (s := listed) hnone]

/-! ## DRIVE_SET, DRIVE_OFFLINE and DRIVE_ONLINE (R89, R90) -/

variable {d : Fin 16}

theorem exec_driveSet (hready : ready s) {code : Nat} {c : DriveClass} (hc : driveClassOfCode code = some c) (pools : BitVec 8) :
    exec (.driveSet tag d.val code pools) s =
      .next ((answered { s with drives := s.drives.set d { s.drives[d] with cls := c, pools := pools } }
        (replyFrame 0x30 tag .done .nothing)).allocateForDrive d).commit := by
  show Host.Outcome.next (s.arrive _) = _
  rw [arrive_of_ready hready]
  simp only [toFin?_val, hc]
  exact congrArg (fun v : State => Host.Outcome.next (v.allocateForDrive d).commit)
    (reply_answered (s := s.start.updDrive d (fun x => { x with cls := c, pools := pools })) (keptFree_of_ready hready) rfl _ _ _ _)

theorem exec_driveOnline (hready : ready s) (heffect : s.drives[d].onlineEffect = some true) :
    exec (.driveOnline tag d.val) s =
      .next ((answered { s with drives := s.drives.set d { s.drives[d] with state := .free } }
        (replyFrame 0x32 tag .done .nothing)).allocateForDrive d).commit := by
  show Host.Outcome.next (s.arrive _) = _
  rw [arrive_of_ready hready]
  have heffect' : s.start.drives[d].onlineEffect = some true := heffect
  simp only [toFin?_val, heffect']
  exact congrArg (fun v : State => Host.Outcome.next (v.allocateForDrive d).commit)
    (reply_answered (s := s.start.updDrive d (fun x => { x with state := .free })) (keptFree_of_ready hready) rfl _ _ _ _)

/-- The state with a drive OFFLINE and out of cleaning wait. -/
def takenOffline (s : State) (d : Fin 16) : State := s.start.updDrive d (fun x => { x with state := .offline, cleanWait := false })

theorem exec_driveOffline (hready : ready s) (hfree : s.drives[d].state = .free) :
    exec (.driveOffline tag d.val) s = .next ((takenOffline s d).tidyCleanSupply.enqueue true (replyFrame 0x31 tag .done .nothing)) := by
  have hlink : (takenOffline s d).tidyCleanSupply.link = s.link := (Still.refl (takenOffline s d)).tidyCleanSupply.link
  show Host.Outcome.next (s.arrive _) = _
  rw [arrive_of_ready hready]
  simp only [toFin?_val]
  rw [if_pos (show s.start.drives[d].state = .free from hfree)]
  exact congrArg Host.Outcome.next (done_enqueue (u := (takenOffline s d).tidyCleanSupply)
    (by rw [hlink]; exact keptFree_of_ready hready) 0x31 tag .nothing)

theorem onlineEffect_free {x : Drive} (h : x.state = .offline ∨ (x.state = .faulted ∧ x.reel = false)) : x.onlineEffect = some true := by
  rcases h with h | ⟨h, hreel⟩
  · simp only [Drive.onlineEffect, h]
  · simp only [Drive.onlineEffect, h, hreel, Bool.false_eq_true, if_false]

theorem onlineEffect_busy {x : Drive} (hoff : x.state ≠ .offline) (hfree : x.state ≠ .free) (hreel : x.state = .faulted → x.reel = true) :
    x.onlineEffect = none := by
  unfold Drive.onlineEffect
  split
  next h => exact absurd h hoff
  next h => exact if_pos (hreel h)
  next h => exact absurd h hfree
  next => rfl

/-- A change of one drive that takes nothing up, replied. -/
theorem lasting_searched {x : Drive} {f : Frame} (hcalm : calm s) (hx : x.state ≠ .free ∨ (x.due = false ∧ noneQueued s)) :
    lasting ((answered { s with drives := s.drives.set d x } f).allocateForDrive d).commit =
      lasting (answered { s with drives := s.drives.set d x } f) := by
  have hget : (answered { s with drives := s.drives.set d x } f).drives[d] = x := by
    simp [answered]
  rw [allocateForDrive_nothing (by rw [hget]; exact hx)]
  exact lasting_commit (calm_answered hcalm f)

theorem driveClassOfCode_isSome (code : Nat) : (driveClassOfCode code).isSome = true ↔ 1 ≤ code ∧ code ≤ 3 := by
  unfold driveClassOfCode
  split
  · simp
  · simp
  · simp
  next h1 h2 h3 =>
    have hno : ¬(1 ≤ code ∧ code ≤ 3) := fun ⟨hlo, hhi⟩ => by
      have hcases : code = 1 ∨ code = 2 ∨ code = 3 := by omega
      rcases hcases with h | h | h
      · exact h1 h
      · exact h2 h
      · exact h3 h
    simpa using hno

/-- Settles O39. -/
theorem driveOperations : Obligations.DriveOperations := by
  intro tag d pools s hready
  refine ⟨fun code c hc hcalm hquiet => ⟨_, exec_driveSet hready hc pools, lasting_searched hcalm hquiet⟩, fun code c hc hfree => ?_,
    fun n code hbad => ?_, driveClassOfCode_isSome, fun hfree hquiet => ?_, fun hbusy => ?_,
    fun hstate hcalm hdue hnone => ⟨_, exec_driveOnline hready (onlineEffect_free hstate), lasting_searched hcalm (.inr ⟨hdue, hnone⟩)⟩,
    fun hstate => ?_, fun hfree => ?_, fun hoff hfree hreel => ?_, fun n hn => ?_⟩
  · intro u
    have hstate : u.drives[d].state = .free := by
      simpa [u, answered] using hfree
    rw [exec_driveSet hready hc pools]
    exact ⟨search_reservation rfl hstate, search_attempt rfl⟩
  · refine report_next hready ?_
    rcases hbad with hn | hcode
    · simp only [toFin?_of_le hn]
      rfl
    · simp only [hcode]
      cases toFin? 16 n <;> rfl
  · have hother : ∀ x : Fin 16, x ≠ d → (takenOffline s d).drives[x].cleanWait = s.drives[x].cleanWait :=
      fun x hx => congrArg Drive.cleanWait (State.updDrive_other s.start d x _ hx)
    have hd : (takenOffline s d).drives[d].cleanWait = false := congrArg Drive.cleanWait (State.updDrive_self s.start d _)
    obtain ⟨hleft, hrest⟩ := cleanSupply_tidied (s := s) (u := takenOffline s d) rfl rfl hother hd hquiet
    exact ⟨_, exec_driveOffline hready hfree, hleft,
      congrArg (fun v : State => v.enqueue true (replyFrame 0x31 tag .done .nothing)) hrest⟩
  · refine report_next hready ?_
    simp only [toFin?_val]
    exact if_neg hbusy
  · intro u
    have hstate' : u.drives[d].state = .free := by
      simp [u, answered]
    rw [exec_driveOnline hready (onlineEffect_free hstate)]
    exact ⟨search_reservation rfl hstate', search_attempt rfl⟩
  · refine report_next hready ?_
    have heffect : s.start.drives[d].onlineEffect = some false := by
      have hfree' : s.start.drives[d].state = .free := hfree
      simp only [Drive.onlineEffect, hfree']
    simp only [toFin?_val, heffect]
    rfl
  · refine report_next hready ?_
    have heffect : s.start.drives[d].onlineEffect = none := onlineEffect_busy hoff hfree hreel
    simp only [toFin?_val, heffect]
    rfl
  · exact ⟨report_next hready (by simp only [toFin?_of_le hn]; rfl), report_next hready (by simp only [toFin?_of_le hn]; rfl)⟩

end DriveTable

end Sys2Proof
end

section
/-! PROOFS. The choices of the drive table: the best drive for a record, the record for a drive (R74, R75), and the reservation that joins
the two with their legs (R76 to R78). -/

namespace Sys2Proof

namespace Reservation

open Machine Safety Upkeep Settling Requests Posting DriveTable

/-! ## The best of a list, the earlier of equals -/

section Best

variable {α : Type} {fits : α → Bool} {beats : α → α → Bool} {l : List α}

/-- Of the elements that fit, the first that no other beats. -/
def bestOf (fits : α → Bool) (beats : α → α → Bool) (l : List α) : Option α :=
  l.foldl (fun best x => if fits x then best.elim (some x) (fun y => if beats x y then some x else some y) else best) none

theorem bestOf_concat (l : List α) (x : α) :
    bestOf fits beats (l ++ [x]) =
      if fits x then (bestOf fits beats l).elim (some x) (fun y => if beats x y then some x else some y) else bestOf fits beats l :=
  List.foldl_append ..

/-- `b` stands in the list, beats every element before it that fits, and no later one that fits beats it. -/
def IsBest (fits : α → Bool) (beats : α → α → Bool) (l : List α) (b : α) : Prop :=
  fits b = true ∧ ∃ before after, l = before ++ b :: after ∧ (∀ x ∈ before, fits x = true → beats b x = true)
    ∧ ∀ x ∈ after, fits x = true → beats x b = false

theorem bestOf_spec (htrans : ∀ x y z, beats x y = true → beats y z = true → beats x z = true)
    (hneg : ∀ x y z, beats x z = true → beats x y = true ∨ beats y z = true) (l : List α) :
    (bestOf fits beats l = none ∧ ∀ x ∈ l, fits x = false) ∨ ∃ b, bestOf fits beats l = some b ∧ IsBest fits beats l b := by
  induction l using List.reverseRecOn with
  | nil => exact .inl ⟨rfl, by simp⟩
  | append_singleton l x ih =>
    rw [bestOf_concat]
    by_cases hx : fits x = true
    · right
      rw [if_pos hx]
      rcases ih with ⟨hnone, hno⟩ | ⟨b, hb, hfit, before, after, rfl, hbefore, hafter⟩
      · rw [hnone]
        exact ⟨x, rfl, hx, l, [], rfl, fun y hy hfy => absurd hfy (by rw [hno y hy]; exact Bool.false_ne_true), by simp⟩
      · rw [hb, Option.elim_some]
        by_cases hbeat : beats x b = true
        · refine ⟨x, if_pos hbeat, hx, before ++ b :: after, [], rfl, fun y hy hfy => ?_, by simp⟩
          rcases List.mem_append.mp hy with hy | hy
          · exact htrans x b y hbeat (hbefore y hy hfy)
          · rcases List.mem_cons.mp hy with rfl | hy
            · exact hbeat
            · exact (hneg x y b hbeat).resolve_right (by rw [hafter y hy hfy]; exact Bool.false_ne_true)
        · refine ⟨b, if_neg hbeat, hfit, before, after ++ [x], by simp, hbefore, fun y hy hfy => ?_⟩
          rcases List.mem_append.mp hy with hy | hy
          · exact hafter y hy hfy
          · rw [List.mem_singleton.mp hy]
            exact Bool.not_eq_true _ ▸ hbeat
    · rw [if_neg hx]
      have hx' : fits x = false := Bool.not_eq_true _ ▸ hx
      rcases ih with ⟨hnone, hno⟩ | ⟨b, hb, hfit, before, after, rfl, hbefore, hafter⟩
      · refine .inl ⟨hnone, fun y hy => ?_⟩
        rcases List.mem_append.mp hy with hy | hy
        · exact hno y hy
        · rw [List.mem_singleton.mp hy]
          exact hx'
      · refine .inr ⟨b, hb, hfit, before, after ++ [x], by simp, hbefore, fun y hy hfy => ?_⟩
        rcases List.mem_append.mp hy with hy | hy
        · exact hafter y hy hfy
        · rw [List.mem_singleton.mp hy, hx'] at hfy
          cases hfy

theorem bestOf_eq_none_iff (htrans : ∀ x y z, beats x y = true → beats y z = true → beats x z = true)
    (hneg : ∀ x y z, beats x z = true → beats x y = true ∨ beats y z = true) :
    bestOf fits beats l = none ↔ ∀ x ∈ l, fits x = false := by
  rcases bestOf_spec (fits := fits) htrans hneg l with ⟨hnone, hno⟩ | ⟨b, hb, hfit, before, after, rfl, -, -⟩
  · simp only [hnone, true_iff]
    exact hno
  · rw [hb]
    refine ⟨fun h => (nomatch h), fun h => ?_⟩
    rw [h b (by simp)] at hfit
    cases hfit

theorem isBest_of_bestOf {b : α} (htrans : ∀ x y z, beats x y = true → beats y z = true → beats x z = true)
    (hneg : ∀ x y z, beats x z = true → beats x y = true ∨ beats y z = true) (h : bestOf fits beats l = some b) :
    IsBest fits beats l b := by
  rcases bestOf_spec (fits := fits) htrans hneg l with ⟨hnone, -⟩ | ⟨c, hc, hbest⟩
  · rw [hnone] at h
    cases h
  · rw [hc] at h
    cases h
    exact hbest

/-- In an ascending list of numbers the best one has the lowest number among its equals. -/
theorem isBest_ascending {n : Nat} {fits : Fin n → Bool} {beats : Fin n → Fin n → Bool} {b : Fin n}
    (h : IsBest fits beats (List.finRange n) b) (e : Fin n) (he : fits e = true) :
    beats b e = true ∨ (beats e b = false ∧ b ≤ e) := by
  obtain ⟨hb, before, after, hl, hbefore, hafter⟩ := h
  have hsorted : (before ++ b :: after).Pairwise (· < ·) := hl ▸ List.pairwise_lt_finRange n
  have hmem : e ∈ before ++ b :: after := hl ▸ List.mem_finRange e
  rw [List.pairwise_append, List.pairwise_cons] at hsorted
  obtain ⟨-, ⟨hlt, -⟩, -⟩ := hsorted
  rcases List.mem_append.mp hmem with hm | hm
  · exact .inl (hbefore e hm he)
  · rcases List.mem_cons.mp hm with rfl | hm
    · cases hself : beats e e
      · exact .inr ⟨rfl, le_rfl⟩
      · exact .inl rfl
    · exact .inr ⟨hafter e hm he, (hlt e hm).le⟩

/-- To have the higher score is such an order. -/
theorem scores_trans (score : α → Nat) :
    ∀ x y z, decide (score y < score x) = true → decide (score z < score y) = true → decide (score z < score x) = true := by
  simp only [decide_eq_true_eq]
  omega

theorem scores_neg (score : α → Nat) :
    ∀ x y z, decide (score z < score x) = true → decide (score y < score x) = true ∨ decide (score z < score y) = true := by
  simp only [decide_eq_true_eq]
  omega

end Best

variable {s t u : State}

/-! ## The drive for a record (R74) -/

theorem candidate_iff (x : Drive) (pool : Fin 8) :
    x.candidate pool = true ↔ x.state = .free ∧ x.due = false ∧ x.pools.getLsbD pool.val = true := by
  simp [Drive.candidate, Drive.serves, and_assoc]

theorem preferredSide_eq (col : Nat) (d : Fin 16) :
    preferredSide col d = decide ((80 ≤ col ∧ col ≤ 119) ∨ (col < 80 ∧ d.val < 8) ∨ (120 ≤ col ∧ 8 ≤ d.val)) := by
  rw [Bool.eq_iff_iff, decide_eq_true_eq]
  unfold preferredSide segmentOf driveSide
  by_cases hw : col < 80
  · by_cases hd : d.val < 8 <;> simp [hw, hd]
    omega
  · by_cases he : col < 120
    · simp only [hw, he, if_false, if_true, true_iff]
      omega
    · by_cases hd : d.val < 8 <;> simp [hw, he, hd] <;> omega

theorem betterDrive_iff (s : State) (col : Nat) (x y : Fin 16) :
    s.betterDrive col x y = true ↔ (preferredSide col x = true ∧ preferredSide col y = false)
      ∨ (preferredSide col x = preferredSide col y ∧ s.drives[x].mounts < s.drives[y].mounts) := by
  unfold State.betterDrive
  dsimp only
  split
  next h => simp [h]
  next h => cases hx : preferredSide col x <;> cases hy : preferredSide col y <;> simp_all

theorem betterDrive_trans (s : State) (col : Nat) (x y z : Fin 16) (h : s.betterDrive col x y = true) (g : s.betterDrive col y z = true) :
    s.betterDrive col x z = true := by
  rw [betterDrive_iff] at h g ⊢
  rcases h with ⟨hx, hy⟩ | ⟨hxy, hm⟩ <;> rcases g with ⟨gy, gz⟩ | ⟨gyz, gm⟩
  · exact .inl ⟨hx, gz⟩
  · exact .inl ⟨hx, gyz ▸ hy⟩
  · exact .inl ⟨hxy ▸ gy, gz⟩
  · exact .inr ⟨hxy.trans gyz, hm.trans gm⟩

theorem betterDrive_neg (s : State) (col : Nat) (x y z : Fin 16) (h : s.betterDrive col x z = true) :
    s.betterDrive col x y = true ∨ s.betterDrive col y z = true := by
  simp only [betterDrive_iff] at h ⊢
  rcases h with ⟨hx, hz⟩ | ⟨hxz, hm⟩
  · cases hy : preferredSide col y
    · exact .inl (.inl ⟨hx, rfl⟩)
    · exact .inr (.inl ⟨rfl, hz⟩)
  · by_cases hxy : preferredSide col x = preferredSide col y
    · rcases Nat.lt_or_ge s.drives[x].mounts s.drives[y].mounts with hlt | hge
      · exact .inl (.inr ⟨hxy, hlt⟩)
      · exact .inr (.inr ⟨hxy ▸ hxz, hge.trans_lt hm⟩)
    · rw [← hxz]
      revert hxy
      cases preferredSide col x <;> cases preferredSide col y <;> simp

theorem chooseDrive_unnamed {r : Rec} (h : r.reqDrive = none) :
    s.chooseDrive r = bestOf (fun d => s.drives[d].candidate r.pool) (s.betterDrive (placeColumn (s.pickup r))) (List.finRange 16) := by
  unfold State.chooseDrive bestOf
  rw [h]
  dsimp only
  congr 1
  funext best d
  cases best <;> rfl

theorem chooseDrive_named {r : Rec} {d : Fin 16} (h : r.reqDrive = some d) :
    s.chooseDrive r = if (if r.kind = .clean then s.drives[d].state = .free else s.drives[d].candidate r.pool = true) then some d else none := by
  unfold State.chooseDrive
  rw [h]

/-! ## The record for a drive (R75) -/

theorem chooseRecord_notDue {d : Fin 16} (h : s.drives[d].due = false) :
    s.chooseRecord d = bestOf (fun r => r.eligibleFor d s.drives[d]) (fun x y => decide (y.prio.val < x.prio.val)) s.recs := by
  unfold State.chooseRecord bestOf
  rw [if_neg (by rw [h]; exact Bool.false_ne_true)]
  congr 1
  funext best r
  cases best with
  | none => rfl
  | some b => simp only [Option.elim_some, decide_eq_true_eq, Fin.lt_def]

theorem chooseRecord_due {d : Fin 16} (h : s.drives[d].due = true) : s.chooseRecord d = s.recs.find? (fun r => r.cleanFor d) := by
  unfold State.chooseRecord
  rw [if_pos h]

/-! ## Where a record's reel is picked up (R77) -/

theorem pickup_of_entry {r : Rec} {ser : Serial} {e : Entry} (hser : r.serial = some ser) (he : s.entry? ser = some e) :
    s.pickup r = match e.loc with
      | .misplaced c => .cell c
      | .atStation p => if s.heldAt r.slot = some p then .station (some p) else s.homePickup r
      | .onShelf p => if (s.reelOnShelf r).map (·.1) = some p then .shelf (some p) else s.homePickup r
      | _ => s.homePickup r := by
  unfold State.pickup State.reelOnShelf
  rw [hser, Option.bind_some, he, Option.map_some]
  cases e.loc <;> rfl

theorem homePickup_of_home {r : Rec} {ser : Serial} {e : Entry} {c : Cell} (hser : r.serial = some ser) (he : s.entry? ser = some e)
    (hc : e.home = some c) : s.homePickup r = .cell c := by
  have hhome : s.recHome r = some c := by
    rw [State.recHome, hser, Option.bind_some, State.homeOf, he]
    exact hc
  unfold State.homePickup
  rw [hhome]

/-- The reel is picked up at home unless its entry shows it misplaced, or at a station or shelf position that holds it for the record. -/
theorem pickup_home {r : Rec} {ser : Serial} {e : Entry} {c : Cell} (hser : r.serial = some ser) (he : s.entry? ser = some e)
    (hc : e.home = some c) (hcell : ∀ m, e.loc ≠ .misplaced m) (hstation : ∀ p, e.loc = .atStation p → s.heldAt r.slot ≠ some p)
    (hshelf : ∀ p, e.loc = .onShelf p → ∀ by', s.reelOnShelf r ≠ some (p, by')) : s.pickup r = .cell c := by
  have hhome := homePickup_of_home hser he hc
  rw [pickup_of_entry hser he]
  split
  next m hm => exact absurd hm (hcell m)
  next p hp => rw [if_neg (hstation p hp), hhome]
  next p hp =>
    rw [if_neg fun h => ?_, hhome]
    obtain ⟨⟨q, by'⟩, hq, rfl⟩ := Option.map_eq_some_iff.mp h
    exact hshelf q hp by' hq
  next => exact hhome

/-! ## The legs of a reservation (R78) -/

theorem nearDrive_iff (c : Cell) (d : Fin 16) :
    nearDrive c d = true ↔ (80 ≤ c.col ∧ c.col ≤ 119) ∨ (c.col < 80 ∧ d.val < 8) ∨ (120 ≤ c.col ∧ 8 ≤ d.val) := by
  rw [← decide_eq_true_iff (p := _ ∨ _), ← preferredSide_eq, nearDrive, inMiddle, preferredSide]
  cases segmentOf c.col <;> simp

theorem firstLegs_of_cell {r : Rec} {d : Fin 16} {c : Cell} (h : s.pickup r = .cell c) :
    s.firstLegs r d =
      if r.disposition = some .stationFirst then (legOf r (accOfColumn c.col) (.cell c) (.station none), none)
      else if nearDrive c d then (legOf r (driveAcc d) (.cell c) (.drive d), none)
      else (legOf r (accOfColumn c.col) (.cell c) (.shelf none), some (legOf r (driveAcc d) (.shelf none) (.drive d))) := by
  unfold State.firstLegs
  rw [h]

theorem firstLegs_of_position {r : Rec} {d : Fin 16} {p : Place} (hp : (∃ q, p = .station (some q)) ∨ ∃ q, p = .shelf (some q))
    (h : s.pickup r = p) : s.firstLegs r d = (legOf r (driveAcc d) p (.drive d), none) := by
  unfold State.firstLegs
  rw [h]
  rcases hp with ⟨q, rfl⟩ | ⟨q, rfl⟩ <;> rfl

/-! ## The reservation (R76) -/

/-- Of an update of a record only what it makes of the record in the slot matters. -/
theorem updRec_congr {slot : Nat} {r : Rec} {f g : Rec → Rec} (h : s.rec? slot = some r) (hfg : f r = g r) :
    s.updRec slot f = s.updRec slot g := by
  rw [updRec_const h, hfg]
  exact (updRec_const h).symm

/-- A drive and a record are joined, with the record's legs. -/
def joined (s : State) (slot : Nat) (d : Fin 16) (legs : Leg × Option Leg) : State :=
  { s with drives := s.drives.set d { s.drives[d] with state := .reserved, holding := some slot } }.updRec slot
    (fun r => { r with state := .staged, drive := some d, driveClass := some s.drives[d].cls, leg := some legs.1, nextLeg := legs.2 })

theorem reserve_eq {slot : Nat} {d : Fin 16} {r : Rec} (h : s.rec? slot = some r) :
    s.reserve slot d = (joined s slot d (s.firstLegs r d)).legReady slot := by
  have hcls : (s.updDrive d (fun x => { x with state := .reserved, holding := some slot })).drives[d].cls = s.drives[d].cls :=
    (congrArg Drive.cls (State.updDrive_self s d _) :)
  unfold State.reserve State.makeLegs
  rw [h]
  dsimp only
  rw [hcls]
  exact congrArg (fun v : State => v.legReady slot) (updRec_updRec _ _ fun _ => rfl)

theorem lasting_reserve {slot : Nat} {d : Fin 16} {r : Rec} (h : s.rec? slot = some r) :
    lasting (s.reserve slot d) = lasting (joined s slot d (s.firstLegs r d)) := by
  rw [reserve_eq h, lasting_legReady]

/-- The reservation, made by a command of its own, lasts through the end of its event. -/
theorem lasting_reserve_commit {slot : Nat} {d : Fin 16} {r : Rec} (hcalm : calm s) (h : s.rec? slot = some r) :
    lasting (s.start.reserve slot d).commit = lasting (joined s slot d (s.firstLegs r d)) := by
  rw [(Still.refl s.start).reserve.lasting_commit hcalm, lasting_reserve (s := s.start) h]
  rfl

theorem exec_reservation_forRecord {slot : Nat} {r : Rec} (h : s.rec? slot = some r) (hq : r.state = .queued) :
    exec (.driveReservation (.forRecord slot)) s = .next (s.start.allocateForRecord slot).commit := by
  show execDriveReservation (.forRecord slot) s = _
  unfold execDriveReservation
  simp only [h, if_pos hq]

theorem exec_reservation_forDrive {d : Fin 16} {r : Rec} (hfree : s.drives[d].state = .free) (h : s.chooseRecord d = some r) :
    exec (.driveReservation (.forDrive d)) s = .next (s.start.reserve r.slot d).commit := by
  show execDriveReservation (.forDrive d) s = _
  unfold execDriveReservation
  simp only [if_pos hfree, h]

theorem allocateForRecord_chosen {slot : Nat} {r : Rec} {d : Fin 16} (h : s.rec? slot = some r) (hq : r.state = .queued)
    (hd : s.chooseDrive r = some d) : s.allocateForRecord slot = s.reserve slot d := by
  unfold State.allocateForRecord
  simp only [h, if_pos hq, hd]

theorem allocateForRecord_nothing {slot : Nat} {r : Rec} (h : s.rec? slot = some r) (hd : s.chooseDrive r = none) :
    s.allocateForRecord slot = s := by
  unfold State.allocateForRecord
  simp only [h, hd]
  split <;> rfl

/-- Settles O43. -/
theorem reservationJoinsDriveAndRecord : Obligations.ReservationJoinsDriveAndRecord := by
  refine ⟨fun r s => ?_, fun d s => ?_, fun r ser e s hser he => ⟨fun c hc => ?_, fun p hp hheld => ?_, fun p by' hp hshelf => ?_,
      fun c hc => pickup_home hser he hc⟩,
    fun r s => ⟨rfl, rfl, fun c hc => ?_⟩, fun r d s p hp => firstLegs_of_position hp, fun _ _ _ _ => rfl, fun r d s c hc => ?_,
    fun r slot d s hcalm hr hqueued => ?_⟩
  · intro col side fits
    have hfits : ∀ d, s.drives[d].candidate r.pool = true ↔ fits d := fun d => candidate_iff _ _
    have hside : ∀ d, preferredSide col d = side d := preferredSide_eq col
    refine ⟨fun hreq => ?_, fun d hreq => ⟨fun hkind => ?_, fun hkind => ?_⟩⟩
    · rw [chooseDrive_unnamed hreq, bestOf_eq_none_iff (betterDrive_trans s _) (betterDrive_neg s _)]
      refine ⟨by simp only [List.mem_finRange, true_implies, ← Bool.not_eq_true, hfits], fun d hd => ?_⟩
      have hbest := isBest_of_bestOf (betterDrive_trans s _) (betterDrive_neg s _) hd
      refine ⟨(hfits d).mp hbest.1, fun e he => ?_⟩
      have hover := isBest_ascending hbest e ((hfits e).mpr he)
      rw [← Bool.not_eq_true, betterDrive_iff, betterDrive_iff] at hover
      simp only [show placeColumn (s.pickup r) = col from rfl, hside] at hover
      cases hd' : side d <;> cases he' : side e <;> simp only [hd', he'] at hover ⊢ <;> simp at hover ⊢ <;> omega
    · rw [chooseDrive_named hreq]
      simp only [if_neg hkind, ← hfits]
      by_cases hd : s.drives[d].candidate r.pool = true <;> simp only [hd] <;> simp
    · rw [chooseDrive_named hreq]
      simp only [if_pos hkind]
      by_cases hd : s.drives[d].state = .free
      · simp
      · simp only [if_neg hd]
        exact ⟨⟨fun h => (nomatch h), fun h => absurd h hd⟩, fun _ => hd, fun _ => trivial⟩
  · intro suits pinned
    have hsuits : ∀ q : Rec, q.eligibleFor d s.drives[d] = true ↔ suits q := fun q => eligibleFor_iff q d _
    have hpinned : ∀ q : Rec, q.cleanFor d = true ↔ pinned q := fun q => cleanFor_iff q d
    refine ⟨fun hdue => ?_, fun hdue => ?_⟩
    · rw [chooseRecord_notDue hdue, bestOf_eq_none_iff (scores_trans fun q : Rec => q.prio.val) (scores_neg fun q : Rec => q.prio.val)]
      refine ⟨by simp only [← Bool.not_eq_true, hsuits], fun r hr => ?_⟩
      obtain ⟨hfit, older, younger, hl, holder, hyounger⟩ :=
        isBest_of_bestOf (scores_trans fun q : Rec => q.prio.val) (scores_neg fun q : Rec => q.prio.val) hr
      refine ⟨(hsuits r).mp hfit, older, younger, hl, fun q hq hs => ?_, fun q hq hs => ?_⟩
      · exact of_decide_eq_true (holder q hq ((hsuits q).mpr hs))
      · exact not_lt.mp (of_decide_eq_false (hyounger q hq ((hsuits q).mpr hs)))
    · rw [chooseRecord_due hdue]
      refine ⟨by simp only [List.find?_eq_none, hpinned], fun r hr => ?_⟩
      obtain ⟨hpin, older, younger, hl, holder⟩ := List.find?_eq_some_iff_append.mp hr
      exact ⟨(hpinned r).mp hpin, older, younger, hl, fun q hq hp => by simpa [(hpinned q).mpr hp] using holder q hq⟩
  · rw [pickup_of_entry hser he, hc]
  · rw [pickup_of_entry hser he, hp]
    exact if_pos hheld
  · rw [pickup_of_entry hser he, hp]
    exact if_pos (by rw [hshelf]; rfl)
  · unfold State.ejectLeg
    rw [hc]
    rfl
  · intro near
    have hnear : nearDrive c d = true ↔ near := nearDrive_iff c d
    rw [firstLegs_of_cell hc]
    refine ⟨fun hdisp => if_pos hdisp, fun hdisp hn => ?_, fun hdisp hn => ?_⟩
    · rw [if_neg hdisp, if_pos (hnear.mpr hn)]
    · rw [if_neg hdisp, if_neg fun h => hn (hnear.mp h)]
  · intro target
    have htarget : joined s slot d (s.firstLegs r d) = target :=
      updRec_congr (s := { s with drives := s.drives.set d { s.drives[d] with state := .reserved, holding := some slot } }) hr rfl
    rw [← htarget]
    refine ⟨fun hd => ⟨_, exec_reservation_forRecord hr hqueued, ?_⟩, fun hfree hrec => ⟨_, exec_reservation_forDrive hfree hrec, ?_⟩,
      fun hnone => ⟨_, exec_reservation_forRecord hr hqueued, ?_⟩⟩
    · rw [allocateForRecord_chosen (s := s.start) hr hqueued hd]
      exact lasting_reserve_commit hcalm hr
    · rw [slot_of_rec? hr]
      exact lasting_reserve_commit hcalm hr
    · rw [allocateForRecord_nothing (s := s.start) hr hnone]
      exact lasting_commit (s := s.start) hcalm

end Reservation

end Sys2Proof
end

section
/-! PROOFS. What a FREE drive does for its cleaning: when the attempt is due, the reel it takes, the record it opens, the wait and the prompt
(R70, R86, R87); and the RETURN record of a drive in return wait (R92). -/

namespace Sys2Proof

namespace Cleaning

open Machine Safety Upkeep Settling Requests Posting DriveTable Reservation

variable {s t u : State}

/-! ## The choice of a cleaning reel (R70) -/

theorem cleanUsable_iff (s : State) (x : CleanReel) :
    s.cleanUsable x = true ↔ 1 ≤ x.uses ∧ (∃ e, s.entry? x.serial = some e ∧ (e.loc = .home ∨ ∃ c, e.loc = .misplaced c))
      ∧ ∀ q ∈ s.recs, q.serial ≠ some x.serial := by
  unfold State.cleanUsable
  rw [Bool.and_eq_true, Bool.and_eq_true, decide_eq_true_eq, Option.isNone_iff_eq_none, holderOf_eq_none_iff, and_assoc]
  refine and_congr_right fun _ => and_congr_left fun _ => ?_
  cases s.entry? x.serial with
  | none => simp
  | some e =>
    simp only [Option.map_some, Option.getD_some, Option.some.injEq, exists_eq_left']
    cases e.loc <;> simp

theorem cleanChoice_eq (s : State) :
    s.cleanChoice = bestOf s.cleanUsable (fun x y => decide (y.uses < x.uses)) (s.cleanList.toList.filterMap id) := by
  unfold State.cleanChoice bestOf
  congr 1
  funext best x
  cases best with
  | none => rfl
  | some y => simp only [betterReel, Option.elim_some, decide_eq_true_eq]

/-- The best of the reels of the list stands at its lowest place. -/
theorem isBest_listed {l : Vector (Option CleanReel) 4} {fits : CleanReel → Bool} {beats : CleanReel → CleanReel → Bool} {x : CleanReel}
    (hself : beats x x = false) (h : IsBest fits beats (l.toList.filterMap id) x) :
    ∃ i : Fin 4, l[i] = some x ∧ ∀ (j : Fin 4) y, l[j] = some y → fits y = true → beats x y = true ∨ (beats y x = false ∧ i ≤ j) := by
  obtain ⟨-, before, after, hl, hbefore, hafter⟩ := h
  obtain ⟨first, rest, hsplit, hfirst, hrest⟩ := List.filterMap_eq_append_iff.mp hl
  obtain ⟨gap, a, last, rfl, hgap, ha, hlast⟩ := List.filterMap_eq_cons_iff.mp hrest
  obtain rfl : a = some x := ha
  have hlen : first.length + (gap.length + (last.length + 1)) = 4 := by
    have := congrArg List.length hsplit
    simpa using this.symm
  have hget : ∀ j : Fin 4, l.toList[j.val]? = some l[j] := fun j => by
    rw [List.getElem?_eq_getElem (by simp)]
    exact congrArg some (Vector.getElem_toList (by simp))
  let i : Fin 4 := ⟨first.length + gap.length, by omega⟩
  have hi : l.toList[first.length + gap.length]? = some (some x) := by
    rw [hsplit, List.getElem?_append_right (by omega), List.getElem?_append_right (by omega)]
    simp
  refine ⟨i, Option.some.inj ((hget i).symm.trans hi), fun j y hj hy => ?_⟩
  have hj' := (hget j).trans (congrArg some hj)
  rcases Nat.lt_trichotomy j.val (first.length + gap.length) with hlt | heq | hgt
  · left
    by_cases hin : j.val < first.length
    · rw [hsplit, List.getElem?_append_left hin] at hj'
      exact hbefore y (hfirst ▸ List.mem_filterMap.mpr ⟨some y, List.mem_of_getElem? hj', rfl⟩) hy
    · rw [hsplit, List.getElem?_append_right (by omega), List.getElem?_append_left (by omega)] at hj'
      exact absurd (hgap _ (List.mem_of_getElem? hj')) (by simp)
  · right
    rw [heq, hi] at hj'
    cases hj'
    exact ⟨hself, Fin.le_def.mpr (Nat.le_of_eq heq.symm)⟩
  · right
    rw [hsplit, List.getElem?_append_right (by omega), List.getElem?_append_right (by omega),
      List.getElem?_cons, if_neg (by omega)] at hj'
    exact ⟨hafter y (hlast ▸ List.mem_filterMap.mpr ⟨some y, List.mem_of_getElem? hj', rfl⟩) hy, Fin.le_def.mpr (Nat.le_of_lt hgt)⟩

theorem cleanUsesLeft_iff (s : State) : s.cleanUsesLeft = true ↔ ∃ (i : Fin 4) (x : CleanReel), s.cleanList[i] = some x ∧ 1 ≤ x.uses := by
  have hany : s.cleanUsesLeft = true ↔ ∃ x ∈ s.cleanList.toList.filterMap id, 1 ≤ x.uses := by
    rw [State.cleanUsesLeft, List.any_eq_true]
    constructor
    · rintro ⟨y, hy, huses⟩
      cases y with
      | none => cases huses
      | some x => exact ⟨x, List.mem_filterMap.mpr ⟨some x, hy, rfl⟩, of_decide_eq_true huses⟩
    · rintro ⟨x, hx, huses⟩
      obtain ⟨y, hy, rfl⟩ := List.mem_filterMap.mp hx
      exact ⟨some x, hy, decide_eq_true huses⟩
  rw [hany]
  constructor
  · rintro ⟨x, hx, huses⟩
    obtain ⟨i, hi⟩ := mem_given.mp hx
    exact ⟨i, x, hi, huses⟩
  · rintro ⟨i, x, hi, huses⟩
    exact ⟨x, mem_given.mpr ⟨i, hi⟩, huses⟩

/-! ## A record is opened (R1, R2) -/

theorem freeSlot_eq_some_iff {n : Nat} :
    s.freeSlot = some n ↔ n < 64 ∧ (∀ r ∈ s.recs, r.slot ≠ n) ∧ ∀ m < n, ∃ r ∈ s.recs, r.slot = m := by
  refine ⟨fun h => ?_, fun ⟨hn, hfree, hlow⟩ => freeSlot_of_lowest hn hfree hlow⟩
  obtain ⟨hn, hfree⟩ := freeSlot_spec h
  refine ⟨hn, hfree, fun m hm => ?_⟩
  obtain ⟨-, -, hlow⟩ := List.find?_range_eq_some.mp h
  simpa using hlow m hm

theorem rec?_openRec {r : Rec} (h : ∀ q ∈ s.recs, q.slot ≠ r.slot) : (s.openRec r).rec? r.slot = some r := by
  have hnone : s.recs.find? (fun q => decide (q.slot = r.slot)) = none := by simpa using h
  unfold State.rec? State.openRec
  rw [List.find?_append, hnone]
  simp

/-- An update of the record last opened. -/
theorem updFirst_concat {α : Type} {p : α → Bool} {f : α → α} {l : List α} {x : α} (h : ∀ y ∈ l, p y = false) (hx : p x = true) :
    updFirst p f (l ++ [x]) = l ++ [f x] := by
  induction l with
  | nil => exact if_pos hx
  | cons y rest ih =>
    rw [List.cons_append, updFirst, if_neg (by rw [h y (by simp)]; exact Bool.false_ne_true), ih fun z hz => h z (by simp [hz])]
    rfl

/-! ## A prompt is asked for while the queue has room (R151) -/

theorem ask_raised (a : Ask) (h : s.console.queue.length < 16) :
    ∃ c n, s.ask a = ({ s with console := c }, .up n)
      ∧ c.queue = s.console.queue ++ [promptOf s.console.templates[a.template] a n] := by
  have hroom : s.console.full = false := decide_eq_false (by omega)
  unfold State.ask
  rw [if_neg (by rw [hroom]; exact Bool.false_ne_true), State.pushPrompt]
  dsimp only
  obtain ⟨lines, hlines⟩ := redisplay_eq { s with console := { s.console with
      queue := s.console.queue ++ [promptOf s.console.templates[a.template] a (freeNumber s.console.queue s.console.nextNum)],
      nextNum := (freeNumber s.console.queue s.console.nextNum + 1) % 256,
      expired := s.console.expired.filter (fun x => x ≠ freeNumber s.console.queue s.console.nextNum) } }
  rw [hlines]
  exact ⟨_, _, rfl, rfl⟩

/-! ## The cleaning attempt (R86) -/

/-- A state that differs from `u` in its prompts alone. -/
theorem eq_of_frame {v : State} (h : { v with console := u.console, cleanPrompt := u.cleanPrompt } = u) :
    v = { u with console := v.console, cleanPrompt := v.cleanPrompt } := by
  conv_rhs => rw [← h]

/-- A cleaning attempt has taken a reel: its CLEAN record stands open in a slot, reserved to the drive. -/
def cleaningOpened (s t : State) (d : Fin 16) (reel : CleanReel) (k : Nat) : Prop :=
  ∃ q : Rec, q.slot = k ∧ q.origin = .internal
    ∧ q.kind = .clean ∧ q.serial = some reel.serial ∧ q.account = 0 ∧ q.prio = 3 ∧ q.reqDrive = some d
    ∧ q.state = .staged ∧ q.drive = some d ∧ q.driveClass = some s.drives[d].cls
    ∧ q.leg = some (s.firstLegs q d).1 ∧ q.nextLeg = (s.firstLegs q d).2 ∧ cleanSupplyLeft s t d
    ∧ lasting { t with console := s.console, cleanPrompt := s.cleanPrompt } = lasting { s with
        recs := s.recs ++ [q],
        drives := s.drives.set d { s.drives[d] with state := .reserved, holding := some k, cleanWait := false } }

/-- What is left of the CLEAN_SUPPLY prompt shows in the lasting part. -/
theorem cleanSupplyLeft_of_lasting {d : Fin 16} (h : lasting t = lasting u) (hu : cleanSupplyLeft s u d) : cleanSupplyLeft s t d := by
  unfold cleanSupplyLeft
  rw [cleanPrompt_of_lasting h, console_of_lasting h]
  exact hu

theorem opened_of_attempt {d : Fin 16} {reel : CleanReel} {k : Nat} (hdue : s.attemptDue d = true) (hreel : s.cleanChoice = some reel)
    (hslot : s.freeSlot = some k) (hquiet : givesUpQuietly s) (h : lasting t = lasting (s.cleaningAttempt d)) :
    cleaningOpened s t d reel k := by
  obtain ⟨hfree, -, -⟩ := (attemptDue_iff s d).mp hdue
  obtain ⟨-, hfresh⟩ := freeSlot_spec hslot
  let r := internalRec k .clean (some reel.serial) d .queued
  let w := (s.openRec r).setCleanWait d false
  have hother : ∀ x : Fin 16, x ≠ d → w.drives[x].cleanWait = s.drives[x].cleanWait :=
    fun x hx => congrArg Drive.cleanWait (State.updDrive_other (s.openRec r) d x _ hx)
  have hself : w.drives[d] = { s.drives[d] with cleanWait := false } := State.updDrive_self (s.openRec r) d _
  have howed : s.cleanPrompt = .none ∨ nothingOwed { w with cleanPrompt := .none } := hquiet.imp id fun ⟨hfault, hclean, happrove, hstation⟩ =>
    ⟨hfault, hclean, fun q hq => (List.mem_append.mp hq).elim (happrove q) fun hq => by rw [List.mem_singleton.mp hq]; simp [r, internalRec],
      hstation⟩
  obtain ⟨hleft, hframe⟩ := cleanSupply_tidied (s := s) (u := w) rfl rfl hother (congrArg Drive.cleanWait hself) howed
  have hv := eq_of_frame hframe
  have hrec : w.tidyCleanSupply.rec? k = some r := by
    rw [hv]
    exact rec?_openRec (r := r) hfresh
  have hchoose : w.tidyCleanSupply.chooseDrive r = some d := by
    rw [chooseDrive_named (r := r) rfl, hv]
    exact if_pos ((congrArg Drive.state hself).trans hfree)
  have hattempt : s.cleaningAttempt d = w.tidyCleanSupply.reserve k d := by
    unfold State.cleaningAttempt
    rw [if_pos hdue, hreel]
    simp only [hslot]
    exact allocateForRecord_chosen hrec rfl hchoose
  have hlegs : w.tidyCleanSupply.firstLegs r d = s.firstLegs r d := by
    rw [hv]
    rfl
  have hlasts : lasting t = lasting (joined w.tidyCleanSupply k d (s.firstLegs r d)) := by
    rw [h, hattempt, lasting_reserve hrec, hlegs]
  refine ⟨{ r with state := .staged, drive := some d, driveClass := some s.drives[d].cls, leg := some (s.firstLegs r d).1,
                   nextLeg := (s.firstLegs r d).2 }, rfl, rfl, rfl, rfl, rfl, rfl, rfl, rfl, rfl, rfl, rfl, rfl,
    cleanSupplyLeft_of_lasting hlasts hleft, ?_⟩
  have hjoined : { joined w.tidyCleanSupply k d (s.firstLegs r d) with console := s.console, cleanPrompt := s.cleanPrompt } =
      { joined w k d (s.firstLegs r d) with console := s.console, cleanPrompt := s.cleanPrompt } := by
    rw [hv]
    rfl
  have hdrives : w.drives.set d { w.drives[d] with state := .reserved, holding := some k }
      = s.drives.set d { s.drives[d] with state := .reserved, holding := some k, cleanWait := false } := by
    rw [hself]
    exact Vector.set_set ..
  calc lasting { t with console := s.console, cleanPrompt := s.cleanPrompt }
      = lasting { joined w k d (s.firstLegs r d) with console := s.console, cleanPrompt := s.cleanPrompt } := by
        rw [← hjoined]
        exact congrArg (fun x : State => { x with console := s.console, cleanPrompt := s.cleanPrompt }) hlasts
    _ = _ := by
        have hrecs : (joined w k d (s.firstLegs r d)).recs = s.recs ++ [{ r with
            state := .staged, drive := some d, driveClass := some s.drives[d].cls, leg := some (s.firstLegs r d).1,
            nextLeg := (s.firstLegs r d).2 }] := by
          rw [← show w.drives[d].cls = s.drives[d].cls by rw [hself]]
          exact updFirst_concat (fun q hq => decide_eq_false (hfresh q hq)) (decide_eq_true rfl)
        exact congrArg lasting (congrArg₂ (fun l x => { s with recs := l, drives := x }) hrecs hdrives)

theorem waits_of_attempt {d : Fin 16} (hdue : s.attemptDue d = true)
    (h : (∃ reel, s.cleanChoice = some reel ∧ s.freeSlot = none) ∨ (s.cleanChoice = none ∧ (s.cleanUsesLeft = true ∨ s.cleanPrompt ≠ .none))) :
    s.cleaningAttempt d = s.setCleanWait d true := by
  unfold State.cleaningAttempt
  rw [if_pos hdue]
  rcases h with ⟨reel, hreel, hslot⟩ | ⟨hnone, hquiet⟩
  · simp only [hreel, hslot]
  · simp only [hnone]
    refine if_neg fun hask => ?_
    rw [Bool.and_eq_true, Bool.not_eq_true', decide_eq_true_eq] at hask
    obtain ⟨hleft, hprompt⟩ := hask
    rcases hquiet with huses | hup
    · rw [show (s.setCleanWait d true).cleanUsesLeft = s.cleanUsesLeft from rfl, huses] at hleft
      cases hleft
    · exact hup hprompt

/-- The drive table has asked for its CLEAN_SUPPLY prompt, the drive `d` now being in cleaning wait. -/
def supplyAskedFor (s t : State) (d : Fin 16) : Prop :=
  ∃ x k, askedFor s.console.queue t.console.queue .cleanSupply 14 (.drive x)
      { serial := none, drive := some x, position := none, account := none } k
    ∧ (x = d ∨ s.drives[x].cleanWait = true) ∧ (∀ y < x, y ≠ d ∧ s.drives[y].cleanWait = false)
    ∧ lasting { t with console := s.console } = lasting { s with
        drives := s.drives.set d { s.drives[d] with cleanWait := true }, cleanPrompt := .up k }

theorem firstCleanWait_eq_some {x : Fin 16} (h : s.firstCleanWait = some x) :
    s.drives[x].cleanWait = true ∧ ∀ y < x, s.drives[y].cleanWait = false := by
  obtain ⟨hx, before, after, hl, hbefore⟩ := List.find?_eq_some_iff_append.mp h
  have hsorted : (before ++ x :: after).Pairwise (· < ·) := hl ▸ List.pairwise_lt_finRange 16
  rw [List.pairwise_append, List.pairwise_cons] at hsorted
  obtain ⟨-, ⟨hafter, -⟩, -⟩ := hsorted
  refine ⟨hx, fun y hy => ?_⟩
  rcases List.mem_append.mp (hl ▸ List.mem_finRange y) with hm | hm
  · simpa using hbefore y hm
  · rcases List.mem_cons.mp hm with rfl | hm
    · exact absurd hy (lt_irrefl y)
    · exact absurd (hy.trans (hafter y hm)) (lt_irrefl y)

theorem asked_of_attempt {d : Fin 16} (hdue : s.attemptDue d = true) (hnone : s.cleanChoice = none) (huses : s.cleanUsesLeft = false)
    (hprompt : s.cleanPrompt = .none) (hroom : s.console.queue.length < 16) (h : lasting t = lasting (s.cleaningAttempt d)) :
    supplyAskedFor s t d := by
  have hattempt : s.cleaningAttempt d = (s.setCleanWait d true).askCleanSupply := by
    unfold State.cleaningAttempt
    rw [if_pos hdue]
    simp only [hnone]
    refine if_pos ?_
    rw [show (s.setCleanWait d true).cleanUsesLeft = s.cleanUsesLeft from rfl, huses,
      show (s.setCleanWait d true).cleanPrompt = s.cleanPrompt from rfl, hprompt]
    rfl
  have hself : (s.setCleanWait d true).drives[d].cleanWait = true := congrArg Drive.cleanWait (State.updDrive_self s d _)
  have hother : ∀ y, y ≠ d → (s.setCleanWait d true).drives[y].cleanWait = s.drives[y].cleanWait :=
    fun y hy => congrArg Drive.cleanWait (State.updDrive_other s d y _ hy)
  cases hfirst : (s.setCleanWait d true).firstCleanWait with
  | none =>
    rw [(firstCleanWait_eq_none_iff _).mp hfirst d] at hself
    cases hself
  | some x =>
    obtain ⟨hx, hlow⟩ := firstCleanWait_eq_some hfirst
    obtain ⟨c, n, hask, hqueue⟩ := ask_raised (s := s.setCleanWait d true)
      { kind := .cleanSupply, template := 14, block := .driveTable, subject := .drive x, fields := { noFields with drive := some x }, override := none }
      hroom
    have hlasts : lasting t = lasting { s.setCleanWait d true with console := c, cleanPrompt := .up n } := by
      rw [h, hattempt, State.askCleanSupply, hfirst]
      simp only [hask]
    refine ⟨x, n, ⟨_, (congrArg Console.queue (console_of_lasting hlasts)).trans hqueue, rfl, rfl, rfl, rfl, rfl⟩, ?_, fun y hy => ?_,
      congrArg (fun v : State => { v with console := s.console }) hlasts⟩
    · by_cases hxd : x = d
      · exact .inl hxd
      · exact .inr (hother x hxd ▸ hx)
    · have hyd : y ≠ d := fun hyd => by
        have hyes := hlow y hy
        rw [hyd, hself] at hyes
        cases hyes
      exact ⟨hyd, hother y hyd ▸ hlow y hy⟩

/-- What is said of the attempt is said of the command too, when it is read from the lasting part of the state it leaves. -/
theorem attempts_of_lasting {d : Fin 16} {leaves : State → Prop} (hdue : s.attemptDue d = true)
    (hhere : ∀ t, lasting t = lasting (s.cleaningAttempt d) → leaves t)
    (hstart : ∀ t, lasting t = lasting (s.start.cleaningAttempt d) → leaves t) :
    leaves (s.cleaningAttempt d) ∧ (calm s → ∃ t, exec (.cleaningAttempt d) s = .next t ∧ leaves t) := by
  refine ⟨hhere _ rfl, fun hcalm => ⟨_, congrArg Host.Outcome.next (if_pos hdue), hstart _ ?_⟩⟩
  exact (Still.refl s.start).cleaningAttempt.lasting_commit hcalm

theorem attempts_of_waits {d : Fin 16} (hdue : s.attemptDue d = true)
    (h : (∃ reel, s.cleanChoice = some reel ∧ s.freeSlot = none) ∨ (s.cleanChoice = none ∧ (s.cleanUsesLeft = true ∨ s.cleanPrompt ≠ .none))) :
    lasting (s.cleaningAttempt d) = lasting (s.setCleanWait d true)
      ∧ (calm s → ∃ t, exec (.cleaningAttempt d) s = .next t ∧ lasting t = lasting (s.setCleanWait d true)) :=
  attempts_of_lasting (leaves := fun t => lasting t = lasting (s.setCleanWait d true)) hdue
    (fun _ ht => ht.trans (congrArg lasting (waits_of_attempt hdue h)))
    (fun _ ht => (ht.trans (congrArg lasting (waits_of_attempt (s := s.start) hdue h)) :))

/-! ## The RETURN record of a drive in return wait (R92) -/

/-- A RETURN record has been opened for a drive, and its UNLOAD sent. -/
def returnOpened (s t : State) (d : Fin 16) (k : Nat) : Prop :=
  ∃ q : Rec, q.slot = k ∧ q.origin = .internal ∧ q.kind = .ret
    ∧ q.serial = none ∧ q.state = (if s.drives[d].state = .faulted then .faultwait else .unloading)
    ∧ q.outcome = (if s.drives[d].state = .faulted then some .driveFault else none) ∧ q.drive = some d ∧ .unload d ∈ t.sent
    ∧ lasting t = lasting { s with
        recs := s.recs ++ [q],
        drives := s.drives.set d { s.drives[d] with
          state := if s.drives[d].state = .faulted then .faulted else .unloading, holding := some k, returnWait := false } }

theorem opened_of_returnOpen {d : Fin 16} {k : Nat} (hslot : s.freeSlot = some k) (h : lasting t = lasting (s.returnOpen d))
    (hsent : ∀ o ∈ (s.returnOpen d).sent, o ∈ t.sent) : returnOpened s t d k := by
  have hopen : ∃ q : Rec, q.slot = k ∧ q.origin = .internal ∧ q.kind = .ret
      ∧ q.serial = none ∧ q.state = (if s.drives[d].state = .faulted then .faultwait else .unloading)
      ∧ q.outcome = (if s.drives[d].state = .faulted then some .driveFault else none) ∧ q.drive = some d
      ∧ s.returnOpen d = ({ s with
        recs := s.recs ++ [q],
        drives := s.drives.set d { s.drives[d] with
          state := if s.drives[d].state = .faulted then .faulted else .unloading, holding := some k, returnWait := false } } : State).send
            (.unload d) := by
    unfold State.returnOpen
    simp only [hslot]
    by_cases hfaulted : s.drives[d].state = .faulted
    · simp only [decide_eq_true hfaulted, if_pos hfaulted, if_true]
      exact ⟨_, rfl, rfl, rfl, rfl, rfl, rfl, rfl, rfl⟩
    · simp only [decide_eq_false hfaulted, if_neg hfaulted, Bool.false_eq_true, if_false]
      exact ⟨_, rfl, rfl, rfl, rfl, rfl, rfl, rfl, rfl⟩
  obtain ⟨q, hq, horigin, hkind, hserial, hstate, houtcome, hdrive, heq⟩ := hopen
  refine ⟨q, hq, horigin, hkind, hserial, hstate, houtcome, hdrive, hsent _ ?_, (h.trans (congrArg lasting heq) :)⟩
  rw [heq]
  exact List.mem_append_right _ (List.mem_singleton_self _)

/-- Settles O44. -/
theorem driveTableSteps : Obligations.DriveTableSteps := by
  intro d s usable waits attempts
  have husable : ∀ x, s.cleanUsable x = true ↔ usable x := cleanUsable_iff s
  have htrans := scores_trans (CleanReel.uses)
  have hneg := scores_neg (CleanReel.uses)
  refine ⟨attemptDue_iff s d, ?_, fun x hx => ?_, cleanUsesLeft_iff s, fun k => freeSlot_eq_some_iff,
    fun hdue => ⟨fun reel k hreel hslot hquiet => ?_, fun reel hreel hslot => attempts_of_waits hdue (.inl ⟨reel, hreel, hslot⟩),
      fun hnone hleft => attempts_of_waits hdue (.inr ⟨hnone, hleft⟩), fun hnone huses hprompt hroom => ?_⟩,
    fun hnot => ⟨cleaningAttempt_of_notDue hnot, ?_⟩, fun k hslot => ?_, fun hslot => ?_, fun hno => ?_⟩
  · rw [cleanChoice_eq, bestOf_eq_none_iff htrans hneg]
    refine ⟨fun h i x hx hfit => ?_, fun h x hx => ?_⟩
    · rw [← husable, h x (mem_given.mpr ⟨i, hx⟩)] at hfit
      cases hfit
    · obtain ⟨i, hi⟩ := mem_given.mp hx
      exact Bool.eq_false_iff.mpr fun hfit => h i x hi ((husable x).mp hfit)
  · rw [cleanChoice_eq] at hx
    have hbest := isBest_of_bestOf htrans hneg hx
    obtain ⟨i, hi, hothers⟩ := isBest_listed (decide_eq_false (lt_irrefl _)) hbest
    refine ⟨(husable x).mp hbest.1, i, hi, fun j y hj hy => ?_⟩
    rcases hothers j y hj ((husable y).mpr hy) with hlt | ⟨hle, hij⟩
    · exact .inl (of_decide_eq_true hlt)
    · rcases Nat.lt_or_ge y.uses x.uses with hlt | hge
      · exact .inl hlt
      · exact .inr ⟨Nat.le_antisymm (not_lt.mp (of_decide_eq_false hle)) hge, hij⟩
  · exact attempts_of_lasting (leaves := fun t => cleaningOpened s t d reel k) hdue (fun _ => opened_of_attempt hdue hreel hslot hquiet)
      (fun _ => opened_of_attempt (s := s.start) hdue hreel hslot hquiet)
  · exact attempts_of_lasting (leaves := fun t => supplyAskedFor s t d) hdue (fun _ => asked_of_attempt hdue hnone huses hprompt hroom)
      (fun _ => asked_of_attempt (s := s.start) hdue hnone huses hprompt hroom)
  · exact congrArg Host.Outcome.next (if_neg (by rw [hnot]; exact Bool.false_ne_true))
  · intro faulted opens
    refine ⟨opened_of_returnOpen hslot rfl fun _ h => h, fun hwait hcalm => ⟨_, congrArg Host.Outcome.next (if_pos ?_), ?_⟩⟩
    · rw [hwait, hslot]
      rfl
    · have hstill := (Still.refl s.start).returnOpen (d := d)
      exact opened_of_returnOpen (s := s.start) hslot (hstill.lasting_commit hcalm)
        (fun o ho => ((Still.refl (s.start.returnOpen d)).commit (hstill.calm hcalm)).sent.subset ho)
  · unfold State.returnOpen
    simp only [hslot]
    rfl
  · refine congrArg Host.Outcome.next (if_neg ?_)
    rcases hno with hwait | hslot
    · rw [hwait]
      exact Bool.false_ne_true
    · rw [hslot, Option.isSome_none, Bool.and_false]
      exact Bool.false_ne_true

end Cleaning

end Sys2Proof
end

section
/-! PROOFS. Events that leave the link unit something to do: a notice to offer, or a MOUNTED ending that is due (R17, R186, R187); and LOADED
(R81, R85). -/

namespace Sys2Proof

namespace Events

open Machine Safety Upkeep Settling Requests Posting DriveTable Reservation

variable {s t u v : State}

/-! ## The lasting part of an updated record -/

theorem map_updFirst {α : Type} {p : α → Bool} {f g : α → α} (hp : ∀ x, p (g x) = p x) (hfg : ∀ x, g (f x) = f (g x)) (l : List α) :
    (updFirst p f l).map g = updFirst p f (l.map g) := by
  induction l with
  | nil => rfl
  | cons x rest ih =>
    rw [List.map_cons, updFirst, updFirst, hp x]
    split
    · rw [List.map_cons, hfg]
    · rw [List.map_cons, ih]

/-- An update that has no part in a leg's passing marks. -/
theorem lasting_updRec {slot : Nat} {f : Rec → Rec} (hf : ∀ r, lastingRec (f r) = f (lastingRec r)) :
    lasting (s.updRec slot f) = (lasting s).updRec slot f :=
  congrArg (fun l => { lasting s with recs := l }) (map_updFirst (p := fun r => decide (r.slot = slot)) (g := lastingRec) (fun _ => rfl) hf s.recs)

theorem lasting_updRec_congr {slot : Nat} {f : Rec → Rec} (hf : ∀ r, lastingRec (f r) = f (lastingRec r)) (h : lasting t = lasting s) :
    lasting (t.updRec slot f) = lasting (s.updRec slot f) := by
  rw [lasting_updRec hf, lasting_updRec hf, h]

/-! ## The notice of an event (R187) -/

/-- An event that raised one notice and left no record waiting offers it at its end. -/
theorem lasting_commit_raised {k : NoticeKind} {subject : NoticeSubject} (hraised : nothingRaised u) (hwaits : noneWaits v)
    (h : lasting v = lasting (u.raise k subject)) : lasting v.commit = lasting (noticed u { kind := k, subject := subject }) := by
  rw [lasting_commit_of_noneWaits hwaits, lasting_offerNotices, h, ← lasting_offerNotices, NoticeOps.offerNotices_raise hraised]

/-! ## A MOUNTED ending that is due (R17) -/

/-- A record whose MOUNTED ending has been queued. -/
def endingPaid (r : Rec) : Rec := { r with mountedOwed := false }

theorem queueMounted_eq (s : State) (r : Rec) :
    s.queueMounted r = (s.enqueue false (.ending (mountedEnding r))).updRec r.slot endingPaid := rfl

/-- The state once its oldest waiting record, which is not POSTING, has been served when an ordinary entry is available. -/
def mountedServed (s : State) (r : Rec) : State := if 1 ≤ s.link.available then s.queueMounted r else s

theorem sent_mountedServed (s : State) (r : Rec) : (mountedServed s r).sent = s.sent := by
  unfold mountedServed
  split <;> rfl

theorem lasting_queueMounted {r q : Rec} (h : lasting t = lasting s) (hr : lastingRec q = lastingRec r) :
    lasting (t.queueMounted q) = lasting (s.queueMounted r) := by
  have hslot : q.slot = r.slot := (congrArg Rec.slot hr :)
  have hending : mountedEnding q = mountedEnding r := (congrArg mountedEnding hr :)
  rw [queueMounted_eq, queueMounted_eq, hslot, hending, lasting_updRec (f := endingPaid) (fun _ => rfl), lasting_updRec (f := endingPaid) (fun _ => rfl)]
  exact congrArg (fun x : State => (x.enqueue false (.ending (mountedEnding r))).updRec r.slot endingPaid) h

theorem find?_map_lasting (p : Rec → Bool) (hp : ∀ r, p (lastingRec r) = p r) (l : List Rec) :
    (l.map lastingRec).find? p = (l.find? p).map lastingRec := by
  induction l with
  | nil => rfl
  | cons r rest ih =>
    rw [List.map_cons, List.find?_cons, List.find?_cons, hp, ih]
    cases p r <;> rfl

theorem oldestWaiting_of_lasting (h : lasting t = lasting s) : t.oldestWaiting.map lastingRec = s.oldestWaiting.map lastingRec := by
  unfold State.oldestWaiting
  rw [← find?_map_lasting _ waits_lastingRec, ← find?_map_lasting _ waits_lastingRec, recs_of_lasting h]

theorem serveUpTo_of_fixed (h : s.serveOldest = s) (n : Nat) : s.serveUpTo n = s := by
  induction n with
  | zero => rfl
  | succ n ih => rw [State.serveUpTo, h, ih]

/-- One record waits, for its MOUNTED ending: it is served once, or waits on. -/
theorem serveWaiting_mounted {r : Rec} (hold : s.oldestWaiting = some r) (hstate : r.state ≠ .posting)
    (hrest : noneWaits (s.updRec r.slot endingPaid)) : s.serveWaiting = mountedServed s r := by
  have hserve : s.serveOldest = mountedServed s r := by
    have hneeds : r.needs = 1 := by
      unfold Rec.needs
      split
      next h => exact absurd h hstate
      next => rfl
    unfold State.serveOldest mountedServed
    simp only [hold, hneeds]
  have hmem : r ∈ s.recs := List.mem_of_find?_eq_some hold
  have hsucc : 2 * s.recs.length = (2 * s.recs.length - 1) + 1 := by
    have := List.length_pos_of_mem hmem
    omega
  unfold State.serveWaiting
  rw [hsucc, State.serveUpTo, hserve]
  by_cases hroom : 1 ≤ s.link.available
  · rw [mountedServed, if_pos hroom]
    exact serveUpTo_of_noneWaits (s := s.queueMounted r) hrest _
  · rw [mountedServed, if_neg hroom] at hserve ⊢
    exact serveUpTo_of_fixed hserve _

theorem sent_offerNotices (s : State) : s.offerNotices.sent = s.sent := by
  have hfold : ∀ (l : List Notice) (v : State), (l.foldl State.offerNotice v).sent = v.sent := fun l => by
    induction l with
    | nil => exact fun _ => rfl
    | cons n rest ih =>
      intro v
      rw [List.foldl_cons, ih]
      unfold State.offerNotice
      split <;> rfl
  exact hfold s.raised { s with raised := [] }

/-- The end of an event at which one record waits, for its MOUNTED ending. -/
theorem commit_mounted {r : Rec} (hold : s.oldestWaiting = some r) (hstate : r.state ≠ .posting)
    (hrest : noneWaits (s.updRec r.slot endingPaid)) :
    lasting s.commit = lasting (mountedServed s r).offerNotices ∧ s.sent <+: s.commit.sent := by
  have hlast : lasting s.railSettle = lasting s := lasting_railSettle s
  obtain ⟨q, hq, hqr⟩ : ∃ q, s.railSettle.oldestWaiting = some q ∧ lastingRec q = lastingRec r := by
    have h := oldestWaiting_of_lasting hlast
    rw [hold, Option.map_some] at h
    exact Option.map_eq_some_iff.mp h
  have hslot : q.slot = r.slot := (congrArg Rec.slot hqr :)
  have hqstate : q.state = r.state := (congrArg Rec.state hqr :)
  have hqrest : noneWaits (s.railSettle.updRec q.slot endingPaid) := by
    refine noneWaits_of_lasting ?_ hrest
    rw [hslot, lasting_updRec (f := endingPaid) fun _ => rfl, hlast, lasting_updRec (f := endingPaid) fun _ => rfl]
  have hserved : lasting (mountedServed s.railSettle q) = lasting (mountedServed s r) := by
    unfold mountedServed
    rw [link_of_lasting hlast]
    split
    · exact lasting_queueMounted hlast hqr
    · exact hlast
  have hcommit : s.commit = (mountedServed s.railSettle q).offerNotices.railSettle := by
    unfold State.commit
    rw [serveWaiting_mounted hq (hqstate ▸ hstate) hqrest]
  rw [hcommit]
  refine ⟨?_, ?_⟩
  · rw [lasting_railSettle, lasting_offerNotices, hserved, ← lasting_offerNotices]
  · refine (RailWork.refl s).railSettle.sent.trans ?_
    have hsent : (mountedServed s.railSettle q).offerNotices.sent = s.railSettle.sent := by
      rw [sent_offerNotices, sent_mountedServed]
    have hprefix := (RailWork.refl (mountedServed s.railSettle q).offerNotices).railSettle.sent
    rw [hsent] at hprefix
    exact hprefix

/-! ## LOADED (R81, R85, R16) -/

variable {d : Fin 16} {r : Rec} {ring : Bool}

/-- Whether a mount makes a drive due for cleaning (R85). -/
abbrev mountMakesDue (a : Accounting) (x : Drive) (r : Rec) : Prop :=
  r.kind ≠ .clean ∧ a.rates.interval[driveClassIndex x.cls] ≠ 0
    ∧ a.rates.interval[driveClassIndex x.cls] ≤ min 255 (x.mounts + 1)

/-- A record once its reel has been loaded. -/
def loadedRec (s : State) (d : Fin 16) (ring owed : Bool) (r : Rec) : Rec :=
  { r with
    state := if r.dismountPending = true then .unloading else .mounted, dismountPending := false, holdStart := s.acct.seconds,
    holdSecs := if r.dismountPending = true then 0 else r.holdSecs, mountedOwed := owed, ringAbsent := r.writeIntent && !ring,
    mountedDrive := some d }

/-- The mounts and the cleaning mark that a drive has once its mount has been counted. -/
def countedDrive (a : Accounting) (x : Drive) (r : Rec) : Drive :=
  { x with
    due := if mountMakesDue a x r then true else x.due,
    mounts := if mountMakesDue a x r then 0 else if r.kind = .clean then x.mounts else min 255 (x.mounts + 1) }

/-- A drive once its reel has been loaded. -/
def loadedDrive (a : Accounting) (x : Drive) (r : Rec) : Drive :=
  { countedDrive a x r with state := if r.dismountPending = true then .unloading else .mounted }

/-- The directory once a reel has been loaded. -/
def loadedDir (dir : List Entry) (r : Rec) (ring : Bool) : List Entry :=
  dir.map (fun e =>
    if some e.serial = r.serial then { e with ring := if ring then .present else .absent, mounts := min 65535 (e.mounts + 1) } else e)

/-- The cleaning-reel list once a reel has been loaded. -/
def loadedCleanList (l : Vector (Option CleanReel) 4) (r : Rec) : Vector (Option CleanReel) 4 :=
  if r.kind = .clean then
    l.map (fun x => x.map (fun y => if some y.serial = r.serial then { y with uses := y.uses - 1 } else y))
  else l

/-- The state once the reel of a record has been loaded, with the frames this queues. -/
def loadedState (s : State) (d : Fin 16) (ring owed : Bool) (r : Rec) (frames : List OutFrame) : State :=
  { s.updRec r.slot (fun _ => loadedRec s d ring owed r) with
    dir := loadedDir s.dir r ring, cleanList := loadedCleanList s.cleanList r, drives := s.drives.set d (loadedDrive s.acct s.drives[d] r),
    link := { s.link with outq := s.link.outq ++ frames } }

/-- The notice and the order of a LOADED, over what it leaves otherwise. -/
def loadedWith (s : State) (d : Fin 16) (r : Rec) (u : State) : State :=
  let v := if mountMakesDue s.acct s.drives[d] r then u.raise .cleaningDue (.drive d) else u
  if r.dismountPending = true then v.send (.unload d) else v

theorem loadedUpdate_of_rec (s : State) (r : Rec) (ring : Bool) :
    (r.serial.map (fun ser => s.loadedUpdate ser ring)).getD s = { s with dir := loadedDir s.dir r ring } := by
  unfold loadedDir
  cases hser : r.serial with
  | none =>
    simp only [Option.map_none, Option.getD_none, reduceCtorEq, if_false, List.map_id']
  | some ser =>
    simp only [Option.map_some, Option.getD_some, Option.some.injEq]
    rfl

theorem countLoaded_clean (h : r.kind = .clean) : s.countLoaded d r = { s with cleanList := loadedCleanList s.cleanList r } := by
  unfold State.countLoaded loadedCleanList
  rw [if_pos h]
  simp only [h]
  cases hser : r.serial with
  | none => simp only [Option.map_none, Option.getD_none, reduceCtorEq, if_false, Option.map_id', Vector.map_id']
  | some ser =>
    simp only [Option.map_some, Option.getD_some, Option.some.injEq]
    rfl

theorem countLoaded_eq (s : State) (d : Fin 16) (r : Rec) :
    s.countLoaded d r =
      let u : State := { s with cleanList := loadedCleanList s.cleanList r, drives := s.drives.set d (countedDrive s.acct s.drives[d] r) }
      if mountMakesDue s.acct s.drives[d] r then u.raise .cleaningDue (.drive d) else u := by
  by_cases hclean : r.kind = .clean
  · have hdue : ¬mountMakesDue s.acct s.drives[d] r := fun h => h.1 hclean
    have hsame : s.drives.set d (countedDrive s.acct s.drives[d] r) = s.drives := by
      simp only [countedDrive, if_neg hdue, if_pos hclean]
      exact Vector.set_getElem_self ..
    rw [countLoaded_clean hclean, if_neg hdue, hsame]
  · have hdrive : ∀ x : Drive, s.updDrive d (fun _ => x) = { s with drives := s.drives.set d x } := fun _ => rfl
    have hlist : loadedCleanList s.cleanList r = s.cleanList := if_neg hclean
    have hcount : s.countLoaded d r =
        let x := s.drives[d].counted s.acct.rates.interval[driveClassIndex s.drives[d].cls]
        let s := s.updDrive d (fun _ => x.1)
        if x.2 then s.raise .cleaningDue (.drive d) else s := by
      unfold State.countLoaded
      split
      next hkind => exact absurd hkind hclean
      next => rfl
    rw [hcount, hlist]
    unfold Drive.counted countedDrive
    by_cases hdue : mountMakesDue s.acct s.drives[d] r
    · obtain ⟨-, hsome, hreached⟩ := hdue
      simp only [satAdd, mountMakesDue, hclean, hsome, hreached, hdrive, ne_eq, not_false_eq_true, and_self, if_true]
    · have hnot : ¬(s.acct.rates.interval[driveClassIndex s.drives[d].cls] ≠ 0
          ∧ s.acct.rates.interval[driveClassIndex s.drives[d].cls] ≤ satAdd 255 s.drives[d].mounts 1) := fun hn => hdue ⟨hclean, hn⟩
      simp only [if_neg hnot, if_neg hdue, if_neg hclean, hdrive, Bool.false_eq_true, if_false]
      rfl

/-- Two updates of a record, the first of which is known. -/
theorem updRec_twice {slot : Nat} {q : Rec} {g : Rec → Rec} (h : s.rec? slot = some r) (hq : q.slot = slot) :
    (s.updRec slot (fun _ => q)).updRec slot g = s.updRec slot (fun _ => g q) := by
  have hr := slot_of_rec? h
  have hconst : s.updRec slot (fun _ => q) = s.updRec slot (fun x => if x = r then q else x) := updRec_congr h (if_pos rfl).symm
  have hslot : ∀ x : Rec, (if x = r then q else x).slot = x.slot := fun x => by
    split
    next hx => rw [hx, hq, hr]
    next => rfl
  rw [hconst, updRec_updRec _ _ hslot]
  exact updRec_congr h (congrArg g (if_pos rfl))

theorem recLoaded_eq (hr : s.rec? r.slot = some r) :
    s.recLoaded d r ring =
      let u := s.updRec r.slot (fun _ => loadedRec s d ring (decide (r.origin = .channel)) r)
      if r.dismountPending = true then (u.updDrive d (fun x => { x with state := .unloading })).send (.unload d) else u := by
  unfold State.recLoaded State.startHold
  dsimp only
  rw [updRec_const hr, updRec_twice hr]
  · by_cases hpending : r.dismountPending = true
    · have hhold : holdBetween s.acct.seconds s.acct.seconds = 0 := by
        rw [holdBetween, BitVec.sub_self]
        rfl
      rw [if_pos hpending, if_pos hpending, unload_eq, updRec_twice hr]
      · simp only [loadedRec, if_pos hpending]
        exact congrArg (fun n => ((s.updRec r.slot (fun _ => { r with
          state := .unloading, dismountPending := false, holdStart := s.acct.seconds, holdSecs := n,
          mountedOwed := decide (r.origin = .channel), ringAbsent := r.writeIntent && !ring, mountedDrive := some d })).updDrive d
            (fun x => { x with state := .unloading })).send (.unload d)) hhold
      · rfl
    · rw [if_neg hpending, if_neg hpending]
      have hno : r.dismountPending = false := Bool.not_eq_true _ ▸ hpending
      simp only [loadedRec, hno]
      rfl
  · rfl

/-- What LOADED does before the end of its event. -/
theorem loaded_eq (hr : s.rec? r.slot = some r) :
    let w := s.updDrive d (fun x => { x with state := .mounted })
    (((r.serial.map (fun ser => w.loadedUpdate ser ring)).getD w).countLoaded d r).recLoaded d r ring =
      loadedWith s d r (loadedState s d ring (decide (r.origin = .channel)) r []) := by
  intro w
  have hw : w.drives[d] = { s.drives[d] with state := .mounted } := State.updDrive_self s d _
  have hset : ∀ (l : Vector Drive 16) (x y : Drive), (l.set d x).set d y = l.set d y := fun _ _ _ => Vector.set_set ..
  let x : Drive := countedDrive s.acct { s.drives[d] with state := .mounted } r
  let c : State := { s with dir := loadedDir s.dir r ring, cleanList := loadedCleanList s.cleanList r, drives := s.drives.set d x }
  have hcount : ((r.serial.map (fun ser => w.loadedUpdate ser ring)).getD w).countLoaded d r =
      if mountMakesDue s.acct s.drives[d] r then c.raise .cleaningDue (.drive d) else c := by
    have hdrives : w.drives.set d (countedDrive w.acct w.drives[d] r) = s.drives.set d x := by
      rw [hw]
      exact hset ..
    rw [loadedUpdate_of_rec, countLoaded_eq]
    dsimp only
    rw [hdrives]
    simp only [hw]
    rfl
  have hdrive : ∀ v : State, v.drives = s.drives.set d x →
      (if r.dismountPending = true then (v.updDrive d (fun x => { x with state := .unloading })).send (.unload d) else v)
        = let v : State := { v with drives := s.drives.set d (loadedDrive s.acct s.drives[d] r) }
          if r.dismountPending = true then v.send (.unload d) else v := fun v hv => by
    have hself : (s.drives.set d x)[d] = x := Vector.getElem_set_self ..
    by_cases hp : r.dismountPending = true
    · have hloaded : loadedDrive s.acct s.drives[d] r = { x with state := .unloading } := by
        rw [loadedDrive, if_pos hp]
        rfl
      simp only [if_pos hp, State.updDrive, hv, hset, hloaded]
      simp only [Fin.getElem_fin] at hself ⊢
      simp only [hself]
    · have hloaded : loadedDrive s.acct s.drives[d] r = x := by
        rw [loadedDrive, if_neg hp]
        rfl
      simp only [if_neg hp, hloaded, ← hv]
  rw [hcount]
  unfold loadedWith
  by_cases hdue : mountMakesDue s.acct s.drives[d] r
  · rw [if_pos hdue, if_pos hdue, recLoaded_eq (s := c.raise .cleaningDue (.drive d)) hr]
    refine (hdrive _ rfl).trans ?_
    simp only [loadedState, List.append_nil]
    rfl
  · rw [if_neg hdue, if_neg hdue, recLoaded_eq (s := c) hr]
    refine (hdrive _ rfl).trans ?_
    simp only [loadedState, List.append_nil]
    rfl

/-! ### The end of a LOADED -/

theorem lasting_offerNotices_loadedWith (hu : nothingRaised u) :
    lasting (loadedWith s d r u).offerNotices =
      lasting (if mountMakesDue s.acct s.drives[d] r then noticed u { kind := .cleaningDue, subject := .drive d } else u) := by
  have hsend : lasting (loadedWith s d r u).offerNotices =
      lasting (if mountMakesDue s.acct s.drives[d] r then u.raise .cleaningDue (.drive d) else u).offerNotices := by
    rw [lasting_offerNotices, lasting_offerNotices]
    unfold loadedWith
    split <;> split <;> rfl
  rw [hsend]
  split
  · rw [NoticeOps.offerNotices_raise hu]
  · rw [offerNotices_of_nothingRaised hu]

theorem rec?_updRec_const {slot : Nat} {q : Rec} (h : s.rec? slot = some r) (hq : q.slot = slot) :
    (s.updRec slot (fun _ => q)).rec? slot = some q := by
  rw [State.rec?_updRec_self _ _ _ (fun _ _ => hq), h]
  rfl

theorem noneWaits_updRec {slot : Nat} {q : Rec} (hs : noneWaits s) (hq : q.waits = false) : noneWaits (s.updRec slot (fun _ => q)) :=
  fun x hx => (Edit.mem_updFirst_find hx).elim (hs x) fun ⟨_, _, h⟩ => h ▸ hq

/-- With no other record waiting, a record that comes to wait is the oldest to wait. -/
theorem oldestWaiting_updRec {slot : Nat} {q : Rec} (hs : noneWaits s) (h : s.rec? slot = some r) (hq : q.waits = true) :
    (s.updRec slot (fun _ => q)).oldestWaiting = some q := by
  have hfind : ∀ l : List Rec, (∀ x ∈ l, x.waits = false) → l.find? (fun x => decide (x.slot = slot)) = some r →
      (updFirst (fun x => decide (x.slot = slot)) (fun _ => q) l).find? Rec.waits = some q := fun l => by
    induction l with
    | nil => exact fun _ h => nomatch h
    | cons x rest ih =>
      intro hl hr
      unfold updFirst
      rw [List.find?_cons] at hr
      by_cases hx : x.slot = slot
      · rw [if_pos (decide_eq_true hx), List.find?_cons, hq]
      · rw [decide_eq_false hx] at hr
        rw [if_neg (by rw [decide_eq_false hx]; exact Bool.false_ne_true), List.find?_cons, hl x (by simp)]
        exact ih (fun y hy => hl y (by simp [hy])) hr
  exact hfind s.recs hs h

theorem sent_commit_of_noneWaits (h : noneWaits s) : s.sent <+: s.commit.sent := by
  rw [commit_of_noneWaits h]
  refine (RailWork.refl s).railSettle.sent.trans ?_
  have hprefix := (RailWork.refl s.railSettle.offerNotices).railSettle.sent
  rw [sent_offerNotices] at hprefix
  exact hprefix

/-- The MOUNTED ending of a record, as LOADED makes it. -/
def mountedFrame (d : Fin 16) (ring : Bool) (r : Rec) : OutFrame :=
  { kept := false, frame := .ending { endingOf .mounted (kindByte r.kind) r.corr with
      ringAbsent := r.writeIntent && !ring, drive := some d.val } }

theorem waits_loadedRec (owed : Bool) : (loadedRec s d ring owed r).waits = owed := by
  unfold Rec.waits loadedRec
  by_cases h : r.dismountPending = true
  · simp [h]
  · simp [Bool.not_eq_true _ ▸ h]

theorem sent_loadedWith (h : r.dismountPending = true) : (loadedWith s d r u).sent = u.sent ++ [.unload d] := by
  unfold loadedWith
  simp only [if_pos h]
  split <;> rfl

theorem recs_loadedWith (s u : State) (d : Fin 16) (r : Rec) : (loadedWith s d r u).recs = u.recs := by
  unfold loadedWith
  split <;> split <;> rfl

theorem available_loadedWith (s u : State) (d : Fin 16) (r : Rec) : (loadedWith s d r u).link.available = u.link.available := by
  unfold loadedWith
  split <;> split <;> rfl

/-- The serving of the record just loaded. -/
theorem mountedServed_loadedWith (hr : s.rec? r.slot = some r) :
    mountedServed (loadedWith s d r (loadedState s d ring true r [])) (loadedRec s d ring true r) =
      loadedWith s d r (loadedState s d ring (decide (s.link.available = 0)) r
        (if s.link.available ≠ 0 then [mountedFrame d ring r] else [])) := by
  have havail : (loadedWith s d r (loadedState s d ring true r [])).link.available = s.link.available := by
    rw [available_loadedWith, loadedState, List.append_nil]
  have hpaid : ((s.updRec r.slot (fun _ => loadedRec s d ring true r)).updRec r.slot endingPaid).recs =
      (s.updRec r.slot (fun _ => loadedRec s d ring false r)).recs := by
    rw [updRec_twice hr]
    · rfl
    · rfl
  unfold mountedServed
  rw [havail]
  by_cases hroom : s.link.available = 0
  · rw [if_neg (by omega), if_neg (by omega), decide_eq_true hroom]
  · rw [if_pos (by omega), if_pos hroom, decide_eq_false hroom, queueMounted_eq]
    unfold loadedWith
    have hstate : loadedState s d ring false r [mountedFrame d ring r] =
        ((loadedState s d ring true r []).enqueue false (.ending (mountedEnding (loadedRec s d ring true r)))).updRec r.slot endingPaid := by
      simp only [loadedState, List.append_nil]
      exact congrArg (fun l => { loadedState s d ring true r [mountedFrame d ring r] with recs := l }) hpaid.symm
    rw [hstate]
    split <;> split <;> rfl

/-- LOADED leaves the state that its rules give, the MOUNTED ending queued or owed. -/
theorem loaded_commit (hcalm : calm s) (hr : s.rec? r.slot = some r) :
    let owed := decide (r.origin = .channel ∧ s.link.available = 0)
    let frames := if r.origin = .channel ∧ s.link.available ≠ 0 then [mountedFrame d ring r] else []
    let v := loadedWith s d r (loadedState s d ring (decide (r.origin = .channel)) r [])
    let u := loadedState s d ring owed r frames
    lasting v.commit = lasting (if mountMakesDue s.acct s.drives[d] r then noticed u { kind := .cleaningDue, subject := .drive d } else u)
      ∧ v.sent <+: v.commit.sent := by
  intro owed frames v u
  by_cases hchannel : r.origin = .channel
  · have hv : v = loadedWith s d r (loadedState s d ring true r []) := by
      simp only [v, hchannel, decide_true]
    have hu : u = loadedState s d ring (decide (s.link.available = 0)) r (if s.link.available ≠ 0 then [mountedFrame d ring r] else []) := by
      simp only [u, owed, frames, hchannel, true_and]
    have hold : v.oldestWaiting = some (loadedRec s d ring true r) := by
      rw [hv, State.oldestWaiting, recs_loadedWith]
      exact oldestWaiting_updRec hcalm.1 hr (waits_loadedRec true)
    have hstate : (loadedRec s d ring true r).state ≠ .posting := by
      unfold loadedRec
      dsimp only
      split <;> exact nofun
    have hrest : noneWaits (v.updRec r.slot endingPaid) := by
      have hrecs : (v.updRec r.slot endingPaid).recs = (s.updRec r.slot (fun _ => loadedRec s d ring false r)).recs := by
        refine (congrArg (updFirst (fun q => decide (q.slot = r.slot)) endingPaid) (hv ▸ recs_loadedWith ..)).trans ?_
        exact congrArg State.recs (updRec_twice (q := loadedRec s d ring true r) (g := endingPaid) hr rfl)
      rw [noneWaits, hrecs]
      exact noneWaits_updRec hcalm.1 (waits_loadedRec false)
    obtain ⟨hlast, hsent⟩ := commit_mounted hold hstate hrest
    refine ⟨?_, hsent⟩
    rw [hlast, hv, mountedServed_loadedWith hr, ← hu]
    exact lasting_offerNotices_loadedWith hcalm.2
  · have hu : u = loadedState s d ring false r [] := by
      simp only [u, owed, frames, hchannel, false_and, decide_false, if_false]
    have hv : v = loadedWith s d r u := by
      simp only [v, hchannel, decide_false, hu]
    have hwaits : noneWaits v := by
      rw [hv, noneWaits, recs_loadedWith, hu]
      exact noneWaits_updRec hcalm.1 (waits_loadedRec false)
    refine ⟨?_, sent_commit_of_noneWaits hwaits⟩
    rw [lasting_commit_of_noneWaits hwaits, hv]
    exact lasting_offerNotices_loadedWith hcalm.2

/-- Settles O40. -/
theorem loadedMountsTheRecord : Obligations.LoadedMountsTheRecord := by
  intro d ring slot r s
  refine ⟨fun hno => ?_, fun hloading hholds hr hcalm => ?_⟩
  · refine congrArg Host.Outcome.next ?_
    rcases hno with hstate | hnone
    · exact if_neg hstate
    · have hrec : s.start.holdingRec d = none := by
        rw [State.holdingRec, show s.start.drives[d].holding = none from hnone]
        rfl
      simp only [hrec, ite_self]
      rfl
  · intro every mounts due pending mounted u
    obtain rfl := slot_of_rec? hr
    have hexec : exec (.loaded d ring) s =
        .next (loadedWith s.start d r (loadedState s.start d ring (decide (r.origin = .channel)) r [])).commit := by
      have hrec : s.start.holdingRec d = some r := by
        rw [State.holdingRec, show s.start.drives[d].holding = some r.slot from hholds]
        exact hr
      refine congrArg Host.Outcome.next ((if_pos hloading).trans ?_)
      simp only [hrec]
      rw [← loaded_eq (s := s.start) hr]
    obtain ⟨hlast, hsent⟩ := loaded_commit (s := s.start) (d := d) (ring := ring) hcalm hr
    have hu : lasting u = lasting (loadedState s.start d ring (decide (r.origin = .channel ∧ s.link.available = 0)) r
        (if r.origin = .channel ∧ s.link.available ≠ 0 then [mountedFrame d ring r] else [])) := by
      have hrecs := congrArg State.recs (updRec_congr (g := fun _ => loadedRec s d ring (decide (r.origin = .channel ∧ s.link.available = 0)) r)
        (f := fun r => { r with
          state := if pending then .unloading else .mounted, dismountPending := false, holdStart := s.acct.seconds,
          holdSecs := if pending then 0 else r.holdSecs, mountedOwed := decide (r.origin = .channel ∧ s.link.available = 0),
          ringAbsent := r.writeIntent && !ring, mountedDrive := some d }) hr rfl)
      exact congrArg (fun l => lasting { u with recs := l }) hrecs
    refine ⟨_, hexec, fun hdue => ?_, fun hdue => ?_, fun hpending => ?_⟩
    · rw [hu, hlast]
      exact congrArg lasting (if_neg hdue)
    · rw [hlast]
      exact (congrArg lasting (if_pos hdue)).trans (congrArg (noticed · { kind := .cleaningDue, subject := .drive d }) hu).symm
    · rw [sent_loadedWith hpending] at hsent
      obtain ⟨more, hmore⟩ := hsent
      exact ⟨more, hmore.symm⟩

end Events

end Sys2Proof
end

section
/-! PROOFS. What the giving up of a leg, of a reservation or of a drive does to the positions, the queues and the trips (R84, R96, R97,
R136), with no claim standing on a position. -/

namespace Sys2Proof

namespace Withdrawal

open Machine Safety Upkeep Settling Requests Posting DriveTable Reservation Events

variable {s t u : State} {slot : Nat} {r : Rec}

/-! ## Reservations (R97, R136) -/

/-- The shelf once the reservation of a leg has ended. -/
def shelfFreed (s : State) (ref : LegRef) : Vector ShelfPos 4 :=
  (s.shelfReserved ref).elim s.rail.shelf (fun p => s.rail.shelf.set p .empty)

/-- The station positions once the reservation of a leg has ended. -/
def posFreed (s : State) (ref : LegRef) : Vector StationPos 8 :=
  (s.stationReserved ref).elim s.station.pos (fun p => s.station.pos.set p StationPos.initial)

theorem claimShelf_nothing (h : s.rail.shelfWait = []) (p : Fin 4) : s.claimShelf p = s := by
  unfold State.claimShelf
  rw [h]

theorem claimStation_nothing (hres : s.station.resWait = []) (hsupply : s.station.supplyWait = []) (p : Fin 8) : s.claimStation p = s := by
  unfold State.claimStation
  rw [hres, hsupply]
  exact ite_self s

theorem freeShelf_nothing (h : s.rail.shelfWait = []) (p : Fin 4) : s.freeShelf p = s.setShelf p .empty :=
  claimShelf_nothing (s := s.setShelf p .empty) h p

theorem freeStation_nothing (hres : s.station.resWait = []) (hsupply : s.station.supplyWait = []) (p : Fin 8) :
    s.freeStation p = s.updPos p (fun _ => StationPos.initial) :=
  claimStation_nothing (s := s.updPos p (fun _ => StationPos.initial)) hres hsupply p

/-- With no claim on a position, the end of a reservation makes its position EMPTY and does nothing else. -/
theorem freeReservation_eq (h : noClaims s) (ref : LegRef) :
    s.freeReservation ref =
      { s with rail := { s.rail with shelf := shelfFreed s ref }, station := { s.station with pos := posFreed s ref } } := by
  obtain ⟨hshelf, hres, hsupply⟩ := h
  have hlists : { s with
      rail := { s.rail with shelfWait := s.rail.shelfWait.filter (fun x => x ≠ ref) },
      station := { s.station with resWait := s.station.resWait.filter (fun x => x ≠ ref) } } = s := by
    have hshelf' : s.rail.shelfWait.filter (fun x => x ≠ ref) = s.rail.shelfWait := by rw [hshelf]; rfl
    have hres' : s.station.resWait.filter (fun x => x ≠ ref) = s.station.resWait := by rw [hres]; rfl
    rw [hshelf', hres']
  have hsame : ∀ p, (s.setShelf p .empty).stationReserved ref = s.stationReserved ref := fun _ => rfl
  unfold State.freeReservation shelfFreed posFreed
  simp only [hlists]
  cases s.shelfReserved ref with
  | none =>
    cases s.stationReserved ref with
    | none => rfl
    | some q => exact freeStation_nothing hres hsupply q
  | some p =>
    simp only [freeShelf_nothing hshelf, hsame]
    cases s.stationReserved ref with
    | none => rfl
    | some q => exact freeStation_nothing (s := s.setShelf p .empty) hres hsupply q

theorem shelf_of_shelfReserved {ref : LegRef} {p : Fin 4} (h : s.shelfReserved ref = some p) : s.rail.shelf[p] = .reserved ref := by
  simpa using find_finRange_some h

theorem pos_of_stationReserved {ref : LegRef} {p : Fin 8} (h : s.stationReserved ref = some p) : s.station.pos[p].state = .reserved ref := by
  simpa using find_finRange_some h

theorem posFreed_other {ref : LegRef} {p : Fin 8} (h : s.station.pos[p].state ≠ .reserved ref) : (posFreed s ref)[p] = s.station.pos[p] := by
  cases hx : s.stationReserved ref with
  | none => rw [show posFreed s ref = s.station.pos by rw [posFreed, hx]; rfl]
  | some x =>
    have hne : x ≠ p := fun e => h (e ▸ pos_of_stationReserved hx)
    have hset : posFreed s ref = s.station.pos.set x StationPos.initial := by rw [posFreed, hx]; rfl
    simp only [hset]
    exact Vector.getElem_set_ne _ _ fun e => hne (Fin.ext e)

theorem map_set_same {α β : Type} {n : Nat} {f : α → β} {l : Vector α n} {p : Fin n} {x : α} (h : f x = f l[p]) :
    (l.set p x).map f = l.map f := by
  ext i hi
  simp only [Vector.getElem_map, Vector.getElem_set]
  split
  next e => subst e; exact h
  next => rfl

theorem lasting_shelfFreed (s : State) (ref : LegRef) : (shelfFreed s ref).map lastingShelf = s.rail.shelf.map lastingShelf := by
  unfold shelfFreed
  cases hp : s.shelfReserved ref with
  | none => rfl
  | some p => exact map_set_same (by rw [shelf_of_shelfReserved hp]; rfl)

theorem lasting_posFreed (s : State) (ref : LegRef) : (posFreed s ref).map lastingPos = s.station.pos.map lastingPos := by
  unfold posFreed
  cases hp : s.stationReserved ref with
  | none => rfl
  | some p => exact map_set_same (by rw [lastingPos, lastingPos, pos_of_stationReserved hp]; rfl)

theorem lasting_freeReservation (h : noClaims s) (ref : LegRef) : lasting (s.freeReservation ref) = lasting s := by
  rw [freeReservation_eq h]
  simp only [lasting, lasting_shelfFreed, lasting_posFreed]

theorem find?_finRange_of_lowest {n : Nat} {p : Fin n} {test : Fin n → Bool} (hp : test p = true) (hlow : ∀ x < p, test x = false) :
    (List.finRange n).find? test = some p := by
  rw [List.find?_eq_some_iff_append]
  refine ⟨hp, (List.finRange n).take p.val, (List.finRange n).drop (p.val + 1), ?_, fun x hx => ?_⟩
  · have hget : (List.finRange n)[p.val]'(by simp) = p := by simp
    conv_lhs => rw [← List.take_append_drop p.val (List.finRange n), List.drop_eq_getElem_cons (by simp), hget]
  · obtain ⟨i, hi, rfl⟩ := List.mem_iff_getElem.mp hx
    have hlt : (⟨i, by simp at hi; omega⟩ : Fin n) < p := Fin.lt_def.mpr (by simp at hi; omega)
    simpa using hlow _ hlt

/-- The first position that was reserved for a leg is EMPTY once its reservation has ended. -/
theorem reservationEnded_of_freed (hshelf : u.rail.shelf = shelfFreed s (.record slot)) (hpos : u.station.pos = posFreed s (.record slot)) :
    reservationEnded s u slot := by
  refine ⟨fun p hp hlow => ?_, fun p hp hlow => ?_⟩
  · have hfind : s.shelfReserved (.record slot) = some p :=
      find?_finRange_of_lowest (decide_eq_true hp) fun q hq => decide_eq_false (hlow q hq)
    rw [hshelf, shelfFreed, hfind]
    exact Vector.getElem_set_self ..
  · have hfind : s.stationReserved (.record slot) = some p :=
      find?_finRange_of_lowest (decide_eq_true hp) fun q hq => decide_eq_false (hlow q hq)
    rw [hpos, posFreed, hfind]
    exact Vector.getElem_set_self ..

/-! ## A leg leaves the rail scheduler (R96) -/

theorem lastingAcc_endEmptyGather (x : AccRec) : lastingAcc x.endEmptyGather = lastingAcc x := by
  unfold AccRec.endEmptyGather
  split
  next h =>
    have hx : outOfWork x.state = false := by rw [h.1]; rfl
    split
    · exact lastingAcc_work _ _ hx rfl rfl
    · exact lastingAcc_work _ _ hx rfl rfl
  next => rfl

/-- An accessor whose trip has lost the leg of a slot. -/
def tripLeft (slot : Nat) (x : AccRec) : AccRec := AccRec.endEmptyGather { x with trip := x.trip.map (Trip.without (.record slot)) }

theorem lastingAcc_tripLeft (slot : Nat) (x : AccRec) : lastingAcc (tripLeft slot x) = lastingAcc x := lastingAcc_endEmptyGather _

/-- The record whose leg has left the rail scheduler. -/
def legless (r : Rec) : Rec := { r with leg := none }

/-- The state in which a leg has left its queue, its trip and its record, its reservation still standing. -/
def legTaken (s : State) (slot : Nat) (l : Leg) : State :=
  ((s.setQueue l.acc ((s.rail.queues.get l.acc).filter (fun x => x ≠ slot))).updAcc l.acc (tripLeft slot)).updRec slot legless

theorem removeLeg_eq {l : Leg} (h : s.leg? slot = some l) : s.removeLeg slot = (legTaken s slot l).freeReservation (.record slot) := by
  unfold State.removeLeg
  rw [h]
  rfl

theorem removeLeg_nothing (h : s.leg? slot = none) : s.removeLeg slot = s := by
  unfold State.removeLeg
  rw [h]

theorem lasting_legTaken {l : Leg} : lasting (legTaken s slot l) = (lasting s).updRec slot legless := by
  unfold legTaken
  rw [lasting_updRec (f := legless) (fun _ => rfl), lasting_updAcc _ _ _ (lastingAcc_tripLeft slot), lasting_setQueue]

theorem noClaims_legTaken {l : Leg} (h : noClaims s) : noClaims (legTaken s slot l) := h

theorem leg?_of_rec? (h : s.rec? slot = some r) : s.leg? slot = r.leg := by
  rw [State.leg?, h]
  rfl

theorem updRec_id (s : State) (slot : Nat) : s.updRec slot id = s := by
  have hid : ∀ l : List Rec, updFirst (fun q => decide (q.slot = slot)) id l = l := fun l => by
    induction l with
    | nil => rfl
    | cons q rest ih =>
      unfold updFirst
      rw [ih]
      exact ite_self _
  exact congrArg (fun l => { s with recs := l }) (hid s.recs)

theorem updRec_self (h : s.rec? slot = some r) : s.updRec slot (fun _ => r) = s :=
  (updRec_congr (f := fun _ => r) (g := id) h rfl).trans (updRec_id s slot)

/-- The withdrawal of a leg leaves its record without it, and nothing else that lasts is changed. -/
theorem lasting_removeLeg (hclaims : noClaims s) (h : s.rec? slot = some r) :
    lasting (s.removeLeg slot) = lasting (s.updRec slot legless) := by
  cases hl : r.leg with
  | none =>
    have hsame : s.updRec slot legless = s := by
      rw [updRec_const h, show legless r = r from by rw [legless, ← hl], updRec_self h]
    rw [removeLeg_nothing ((leg?_of_rec? h).trans hl), hsame]
  | some l =>
    rw [removeLeg_eq ((leg?_of_rec? h).trans hl), lasting_freeReservation (noClaims_legTaken hclaims), lasting_legTaken,
      lasting_updRec (f := legless) (fun _ => rfl)]

theorem noClaims_removeLeg (h : noClaims s) : noClaims (s.removeLeg slot) := by
  cases hl : s.leg? slot with
  | none => rwa [removeLeg_nothing hl]
  | some l =>
    rw [removeLeg_eq hl, freeReservation_eq (noClaims_legTaken h)]
    exact h

/-- The legs of a record are given up. -/
theorem lasting_discardLegs (hclaims : noClaims s) (h : s.rec? slot = some r) :
    lasting (s.discardLegs slot) = lasting (s.updRec slot (fun r => { r with leg := none, nextLeg := none })) := by
  have htwice : (s.updRec slot legless).updRec slot (fun r => { r with nextLeg := none })
      = s.updRec slot (fun r => { r with leg := none, nextLeg := none }) := updRec_updRec _ _ fun _ => rfl
  rw [← htwice]
  exact lasting_updRec_congr (fun _ => rfl) (lasting_removeLeg hclaims h)

/-- A leg withdrawn is out of its accessor's queue, the other queue stands, and its reservation has ended. -/
theorem left_removeLeg {l : Leg} (hclaims : noClaims s) (h : s.leg? slot = some l) :
    leftQueue s (s.removeLeg slot) l.acc slot ∧ reservationEnded s (s.removeLeg slot) slot := by
  rw [removeLeg_eq h, freeReservation_eq (noClaims_legTaken hclaims)]
  refine ⟨⟨PerAcc.get_set_self .., PerAcc.get_set_other _ _ _ _ (otherAcc_ne _)⟩, reservationEnded_of_freed rfl rfl⟩

/-! ## What the other blocks leave of an accessor -/

/-- What the rail scheduler alone writes of an accessor: all but its FAULT prompt, the late mark of its scan, and where its put-back reels
are to go. -/
def railPart (x : AccRec) : AccRec :=
  { x with
    prompt := .none, trip := x.trip.map (fun t => { t with putBacks := [] }),
    scan := x.scan.map (fun
      | .station p k _ => .station p k false
      | t => t) }

/-- The accessors have been left to the rail scheduler. -/
def AccsKept (s t : State) : Prop := ∀ acc, railPart (t.acc acc) = railPart (s.acc acc)

namespace AccsKept

theorem refl (s : State) : AccsKept s s := fun _ => rfl

theorem trans (h : AccsKept s u) (g : AccsKept u t) : AccsKept s t := fun acc => (g acc).trans (h acc)

theorem same (h : AccsKept s u) (hsame : t.rail.accs = u.rail.accs) : AccsKept s t :=
  h.trans fun acc => congrArg (fun x : PerAcc AccRec => railPart (x.get acc)) hsame

theorem updAcc {acc : Acc} {f : AccRec → AccRec} (h : AccsKept s u) (hf : ∀ x, railPart (f x) = railPart x) : AccsKept s (u.updAcc acc f) :=
  h.trans fun who => by
    rw [State.acc_updAcc]
    split
    next e => rw [hf, e]
    next => rfl

theorem updRec {f : Rec → Rec} (h : AccsKept s u) : AccsKept s (u.updRec slot f) := h.same rfl

theorem updPos {p : Fin 8} {f : StationPos → StationPos} (h : AccsKept s u) : AccsKept s (u.updPos p f) := h.same rfl

theorem updDrive {d : Fin 16} {f : Drive → Drive} (h : AccsKept s u) : AccsKept s (u.updDrive d f) := h.same rfl

theorem setShelf {p : Fin 4} {x : ShelfPos} (h : AccsKept s u) : AccsKept s (u.setShelf p x) := h.same rfl

theorem ask {a : Ask} (h : AccsKept s u) : AccsKept s (u.ask a).1 := by
  unfold State.ask
  split
  · exact h
  · unfold State.pushPrompt
    dsimp only
    obtain ⟨lines, hlines⟩ := redisplay_eq { u with console := { u.console with
      queue := u.console.queue ++ [promptOf u.console.templates[a.template] a (freeNumber u.console.queue u.console.nextNum)],
      nextNum := (freeNumber u.console.queue u.console.nextNum + 1) % 256,
      expired := u.console.expired.filter (fun x => x ≠ freeNumber u.console.queue u.console.nextNum) } }
    rw [hlines]
    exact h.same rfl

theorem askStation {p : Fin 8} (h : AccsKept s u) : AccsKept s (u.askStation p) := by
  unfold State.askStation
  split
  · exact h
  · exact h.ask.updPos

theorem setDst {ref : LegRef} {dst : Place} (h : AccsKept s u) : AccsKept s (u.setDst ref dst) := by
  unfold State.setDst
  split
  · exact h.updRec
  · refine h.updAcc fun x => ?_
    unfold railPart
    cases x.trip <;> rfl

theorem claimShelf {p : Fin 4} (h : AccsKept s u) : AccsKept s (u.claimShelf p) := by
  unfold State.claimShelf
  split
  · exact h
  · split
    · exact AccsKept.setDst (AccsKept.setShelf (h.same rfl))
    · exact h

theorem freeShelf {p : Fin 4} (h : AccsKept s u) : AccsKept s (u.freeShelf p) := h.setShelf.claimShelf

theorem supplyAt {p : Fin 8} (h : AccsKept s u) : AccsKept s (u.supplyAt slot p) := h.updPos.askStation

theorem claimStation {p : Fin 8} (h : AccsKept s u) : AccsKept s (u.claimStation p) := by
  unfold State.claimStation
  split
  · split
    · exact AccsKept.setDst (AccsKept.updPos (h.same rfl))
    · split
      · exact AccsKept.supplyAt (h.same rfl)
      · exact h
  · exact h

theorem freeStation {p : Fin 8} (h : AccsKept s u) : AccsKept s (u.freeStation p) := h.updPos.claimStation

theorem freeReservation {ref : LegRef} (h : AccsKept s u) : AccsKept s (u.freeReservation ref) := by
  have hlists : AccsKept s { u with
      rail := { u.rail with shelfWait := u.rail.shelfWait.filter (fun x => x ≠ ref) },
      station := { u.station with resWait := u.station.resWait.filter (fun x => x ≠ ref) } } := h.same rfl
  unfold State.freeReservation
  dsimp only
  split
  · split
    · exact hlists.freeShelf.freeStation
    · exact hlists.freeStation
  · split
    · exact hlists.freeShelf
    · exact hlists

theorem reserveStation {ref : LegRef} (h : AccsKept s u) : AccsKept s ((u.reserveStation ref).getD u) := by
  unfold State.reserveStation
  cases u.emptyStation with
  | none => exact h
  | some p => exact h.updPos.setDst

theorem sendToStation {ref : LegRef} (h : AccsKept s u) : AccsKept s (u.sendToStation ref) := h.setDst.reserveStation

theorem legReady (h : AccsKept s u) : AccsKept s (u.legReady slot) := by
  unfold State.legReady
  split
  · exact h
  · exact h.same rfl

theorem makeLegs {l : Leg} {next : Option Leg} (h : AccsKept s u) : AccsKept s (u.makeLegs slot l next) := h.updRec.legReady

theorem reserve {d : Fin 16} (h : AccsKept s u) : AccsKept s (u.reserve slot d) := by
  unfold State.reserve
  split
  · exact h
  · exact h.updDrive.updRec.makeLegs

theorem allocateForRecord (h : AccsKept s u) : AccsKept s (u.allocateForRecord slot) := by
  unfold State.allocateForRecord
  split
  · exact h
  · split
    · split
      · exact h.reserve
      · exact h
    · exact h

theorem enterQueued (h : AccsKept s u) : AccsKept s (u.enterQueued slot) := h.updRec.allocateForRecord

theorem divert (h : AccsKept s u) : AccsKept s (u.divert slot) := by
  unfold State.divert
  dsimp only
  split
  · exact h.updRec.updRec
  · exact h.updRec.updRec.freeReservation.sendToStation

theorem tripOf (h : AccsKept s t) (acc : Acc) : tripOf t acc = tripOf s acc := by
  have hview : ∀ x : AccRec, x.trip.map (fun t => (t.legs, t.stops)) = (railPart x).trip.map (fun t => (t.legs, t.stops)) := fun x => by
    unfold railPart
    cases x.trip <;> rfl
  rw [Safety.tripOf, Safety.tripOf, hview (t.acc acc), hview (s.acc acc), h acc]

end AccsKept

/-- The trip that a leg has left, when its accessor does not gather an empty one. -/
theorem trip_tripLeft {x : AccRec} {tr : Trip} (h : x.trip = some tr) (hkeeps : x.state ≠ .gathering ∨ ∃ m ∈ tr.legs, m ≠ slot) :
    (tripLeft slot x).trip = some (tr.without (.record slot)) := by
  unfold tripLeft AccRec.endEmptyGather
  have hstays : ¬(x.state = .gathering ∧ ((x.trip.map (Trip.without (.record slot))).map (·.legs)).getD [] = []) := fun ⟨hstate, hlegs⟩ => by
    rw [h] at hlegs
    rcases hkeeps with hstate' | ⟨m, hm, hne⟩
    · exact hstate' hstate
    · have hmem : m ∈ tr.legs.filter (fun n => LegRef.record n ≠ .record slot) := List.mem_filter.mpr ⟨hm, by simpa using hne⟩
      rw [show tr.legs.filter (fun n => LegRef.record n ≠ .record slot) = [] from hlegs] at hmem
      cases hmem
  rw [if_neg hstays, h]
  rfl

/-! ## A leg is turned to the station (R105, R109) -/

theorem lasting_updRec_const {q q' : Rec} (h : lastingRec q = lastingRec q') :
    lasting (s.updRec slot (fun _ => q)) = lasting (s.updRec slot (fun _ => q')) := by
  have hmap : ∀ l : List Rec, (updFirst (fun x => decide (x.slot = slot)) (fun _ => q) l).map lastingRec =
      (updFirst (fun x => decide (x.slot = slot)) (fun _ => q') l).map lastingRec := fun l => by
    induction l with
    | nil => rfl
    | cons x rest ih =>
      unfold updFirst
      split
      · rw [List.map_cons, List.map_cons, h]
      · rw [List.map_cons, List.map_cons, ih]
  exact congrArg (fun l => { lasting s with recs := l }) (hmap s.recs)

theorem lasting_updLeg_congr {f : Leg → Leg} (hf : ∀ l, lastingLeg (f l) = f (lastingLeg l)) (h : lasting t = lasting s) :
    lasting (t.updLeg slot f) = lasting (s.updLeg slot f) := by
  refine lasting_updRec_congr (fun r => ?_) h
  unfold lastingRec
  cases hl : r.leg with
  | none => simp
  | some l => simp [hf]

/-- A leg bound for the station gets a position reserved, or will wait for one. -/
theorem lasting_reserveStation {ref : LegRef} (h : s.dstOf ref = some (.station none)) : lasting ((s.reserveStation ref).getD s) = lasting s := by
  have hsame : s.reserveFor ref = s.reserveStation ref := by
    unfold State.reserveFor
    rw [h]
  rw [← hsame, lasting_reserveFor_getD]

/-- The lowest EMPTY station position is reserved for a leg and named to it. -/
theorem reserveStation_at {p : Fin 8} {l : Leg} (hp : s.emptyStation = some p) (hl : s.leg? slot = some l) :
    ((s.reserveStation (.record slot)).getD s).station.pos = s.station.pos.set p { StationPos.initial with state := .reserved (.record slot) }
      ∧ ((s.reserveStation (.record slot)).getD s).leg? slot = some { l with dst := .station (some p) } := by
  unfold State.reserveStation
  rw [hp]
  refine ⟨rfl, (State.leg?_updLeg_self _ _ _).trans ?_⟩
  exact congrArg (Option.map fun l : Leg => { l with dst := .station (some p) }) hl

theorem lasting_sendToStation {l : Leg} (h : s.leg? slot = some l) :
    lasting (s.sendToStation (.record slot)) = lasting (s.updLeg slot (fun l => { l with dst := .station none })) := by
  refine lasting_reserveStation (s := s.setDst (.record slot) (.station none)) ?_
  rw [State.dstOf, show (s.setDst (.record slot) (.station none)).leg? slot = some { l with dst := .station none } from ?_]
  · rfl
  · rw [State.setDst, State.leg?_updLeg_self, h]
    rfl

/-- A record whose leg is turned to the station. -/
def divertedRec (r : Rec) (l : Leg) : Rec := { r with nextLeg := none, leg := some { l with diverted := true, dst := .station none } }

theorem lasting_divert {l : Leg} (hclaims : noClaims s) (h : s.rec? slot = some r) (hl : r.leg = some l) :
    lasting (s.divert slot) = lasting (s.updRec slot (fun _ => divertedRec r l)) := by
  have hslot := slot_of_rec? h
  let q : Rec := { r with nextLeg := none, leg := some { l with diverted := true } }
  have hturned : (s.updRec slot (fun r => { r with nextLeg := none })).updLeg slot (fun l => { l with diverted := true })
      = s.updRec slot (fun _ => q) := by
    unfold State.updLeg
    rw [updRec_const h, updRec_twice h]
    · rw [hl]
      rfl
    · exact hslot
  have hq : (s.updRec slot (fun _ => q)).rec? slot = some q := rec?_updRec_const h hslot
  have hleg : (s.updRec slot (fun _ => q)).leg? slot = some { l with diverted := true } := leg?_of_rec? hq
  unfold State.divert
  rw [hturned]
  dsimp only
  split
  next hbound =>
    refine lasting_updRec_const ?_
    have hstation : (l.dst.atStation) = true := by
      rw [State.stationBound, hleg] at hbound
      exact hbound
    cases hdst : l.dst with
    | station p => simp [q, divertedRec, lastingRec, lastingLeg, hdst, Place.unnamed]
    | cell c => rw [hdst] at hstation; cases hstation
    | drive d => rw [hdst] at hstation; cases hstation
    | shelf p => rw [hdst] at hstation; cases hstation
  next =>
    have hfreed : lasting ((s.updRec slot (fun _ => q)).freeReservation (.record slot)) = lasting (s.updRec slot (fun _ => q)) :=
      lasting_freeReservation (s := s.updRec slot (fun _ => q)) hclaims _
    have hleg' : ((s.updRec slot (fun _ => q)).freeReservation (.record slot)).leg? slot = some { l with diverted := true } := by
      rw [freeReservation_eq (s := s.updRec slot (fun _ => q)) hclaims]
      exact hleg
    rw [lasting_sendToStation hleg', lasting_updLeg_congr (f := fun l => { l with dst := .station none }) (fun _ => rfl) hfreed, State.updLeg, updRec_twice h]
    · rfl
    · exact hslot

/-! ## A record looks for a drive when none is FREE (R74) -/

theorem chooseDrive_of_noneFree (h : ∀ x : Fin 16, s.drives[x].state ≠ .free) (r : Rec) : s.chooseDrive r = none := by
  have hno : ∀ d : Fin 16, s.drives[d].candidate r.pool = false := fun d => Bool.not_eq_true _ ▸ fun hc => h d ((candidate_iff _ _).mp hc).1
  cases hreq : r.reqDrive with
  | none =>
    rw [chooseDrive_unnamed hreq, bestOf_eq_none_iff (betterDrive_trans s _) (betterDrive_neg s _)]
    exact fun d _ => hno d
  | some d =>
    rw [chooseDrive_named hreq]
    refine if_neg fun hfits => ?_
    split at hfits
    · exact h d hfits
    · rw [hno d] at hfits
      cases hfits

theorem enterQueued_of_noneFree (h : ∀ x : Fin 16, s.drives[x].state ≠ .free) : s.enterQueued slot = s.setRecState slot .queued := by
  unfold State.enterQueued State.allocateForRecord
  split
  · rfl
  · split
    · rw [chooseDrive_of_noneFree (s := s.setRecState slot .queued) h]
    · rfl

/-! ## The rail scheduler at the end of an event that raised a notice -/

theorem offerNotices_frame (s : State) : ∃ l, s.offerNotices = { s with raised := [], link := l } := by
  have hfold : ∀ (ns : List Notice) (v : State), ∃ l, ns.foldl State.offerNotice v = { v with link := l } := fun ns => by
    induction ns with
    | nil => exact fun v => ⟨_, rfl⟩
    | cons n rest ih =>
      intro v
      obtain ⟨l, hl⟩ := ih (v.offerNotice n)
      rw [List.foldl_cons, hl]
      unfold State.offerNotice
      split <;> exact ⟨_, rfl⟩
  exact hfold s.raised { s with raised := [] }

theorem railWork_commit (h : noneWaits u) : RailWork u u.commit := by
  have hoffered : ∀ w : State, RailWork w w.offerNotices := fun w => by
    obtain ⟨l, hl⟩ := offerNotices_frame w
    rw [hl]
    exact (RailWork.refl w).same rfl rfl rfl rfl
  rw [commit_of_noneWaits h]
  exact ((RailWork.refl u).railSettle.trans (hoffered _)).railSettle

end Withdrawal

end Sys2Proof
end

section
/-! PROOFS. UNLOADED makes the stow leg (R18, R79, R82); FAULT takes the drive out of service and gives its record's reel another way
(R83, R109). -/

namespace Sys2Proof

namespace DriveReports

open Machine Safety Upkeep Settling Requests Posting DriveTable Reservation Events Withdrawal

variable {s t u v : State} {slot : Nat} {r : Rec} {d : Fin 16}

/-! ## The stow leg (R18, R79) -/

/-- A record that is STOWING with its legs. -/
def stowingRec (legs : Leg × Option Leg) (r : Rec) : Rec := { r with state := .stowing, leg := some legs.1, nextLeg := legs.2 }

theorem lasting_stow (h : s.rec? slot = some r) : lasting (s.stow slot d) = lasting (s.updRec slot (stowingRec (s.stowLegs r d))) := by
  unfold State.stow State.makeLegs State.setRecState
  rw [h]
  exact (lasting_legReady _ _).trans (congrArg lasting (updRec_updRec _ _ fun _ => rfl))

/-- The stow leg leads from the drive to the home cell, the shelf or the station. -/
theorem stowLegs_spec (s : State) (r : Rec) (d : Fin 16) :
    (s.stowLegs r d).1.src = .drive d ∧ (s.stowLegs r d).1.acc = driveAcc d
      ∧ (s.stowLegs r d).1.expected = (if r.kind = .ret then none else r.serial)
      ∧ (∀ c, r.kind ≠ .ret → r.disposition ≠ some .manual → s.recHome r = some c →
          (nearDrive c d = true → (s.stowLegs r d).1.dst = .cell c ∧ (s.stowLegs r d).2 = none)
            ∧ (nearDrive c d = false → (s.stowLegs r d).1.dst = .shelf none
                ∧ ∃ m, (s.stowLegs r d).2 = some m ∧ m.src = .shelf none ∧ m.dst = .cell c ∧ m.acc = accOfColumn c.col))
      ∧ (r.kind = .ret ∨ r.disposition = some .manual ∨ s.recHome r = none →
          (s.stowLegs r d).1.dst = .station none ∧ (s.stowLegs r d).2 = none) := by
  by_cases hret : r.kind = .ret
  · have hlegs : s.stowLegs r d = ({ legOf r (driveAcc d) (.drive d) (.station none) with expected := none }, none) := by
      unfold State.stowLegs
      simp only [hret]
    rw [hlegs]
    exact ⟨rfl, rfl, (if_pos hret).symm, fun _ hno => absurd hret hno, fun _ => ⟨rfl, rfl⟩⟩
  · have hlegs : s.stowLegs r d = (s.recHome r).elim (legOf r (driveAcc d) (.drive d) (.station none), none) (fun c =>
        if r.disposition = some .manual then (legOf r (driveAcc d) (.drive d) (.station none), none)
        else if nearDrive c d then (legOf r (driveAcc d) (.drive d) (.cell c), none)
        else (legOf r (driveAcc d) (.drive d) (.shelf none), some (legOf r (accOfColumn c.col) (.shelf none) (.cell c)))) := by
      unfold State.stowLegs
      split
      next h => exact absurd h hret
      next => cases s.recHome r <;> rfl
    rw [hlegs, if_neg hret]
    cases hhome : s.recHome r with
    | none => exact ⟨rfl, rfl, rfl, fun _ _ _ h => absurd h (Option.some_ne_none _).symm, fun _ => ⟨rfl, rfl⟩⟩
    | some c =>
      rw [Option.elim_some]
      by_cases hmanual : r.disposition = some .manual
      · rw [if_pos hmanual]
        exact ⟨rfl, rfl, rfl, fun _ _ h => absurd hmanual h, fun _ => ⟨rfl, rfl⟩⟩
      · rw [if_neg hmanual]
        have hno : ¬(r.kind = .ret ∨ r.disposition = some .manual ∨ some c = none) := by
          rintro (h | h | h)
          · exact hret h
          · exact hmanual h
          · cases h
        by_cases hnear : nearDrive c d = true
        · rw [if_pos hnear]
          refine ⟨rfl, rfl, rfl, fun c' _ _ hc => ?_, fun h => absurd h hno⟩
          cases hc
          exact ⟨fun _ => ⟨rfl, rfl⟩, fun h => by rw [hnear] at h; cases h⟩
        · rw [if_neg hnear]
          refine ⟨rfl, rfl, rfl, fun c' _ _ hc => ?_, fun h => absurd h hno⟩
          cases hc
          exact ⟨fun h => absurd h hnear, fun _ => ⟨rfl, _, rfl, rfl, rfl, rfl⟩⟩

/-! ## UNLOADED (R82) -/

/-- The state once UNLOADED has been taken, but for the queue that the leg joins. -/
def unloadedTo (s : State) (slot : Nat) (d : Fin 16) (x : Drive) (f : Rec → Rec) (legs : Leg × Option Leg) : State :=
  ({ s with drives := s.drives.set d x } : State).updRec slot (fun r => stowingRec legs (f r))

theorem lasting_unloadedTo {f : Rec → Rec} {x : Drive} (h : s.rec? slot = some r) (hslot : (f r).slot = slot)
    (hf : ∀ d, s.stowLegs (f r) d = s.stowLegs r d) :
    lasting ((({ s with drives := s.drives.set d x } : State).updRec slot f).stow slot d) =
      lasting (unloadedTo s slot d x f (s.stowLegs r d)) := by
  have hr : ({ s with drives := s.drives.set d x } : State).rec? slot = some r := h
  have hfr : (({ s with drives := s.drives.set d x } : State).updRec slot (fun _ => f r)).rec? slot = some (f r) :=
    rec?_updRec_const hr hslot
  have hlegs : (({ s with drives := s.drives.set d x } : State).updRec slot (fun _ => f r)).stowLegs (f r) d = s.stowLegs r d := hf d
  unfold unloadedTo
  rw [updRec_const (f := f) hr, lasting_stow hfr, updRec_twice hr hslot, hlegs]
  exact congrArg lasting (updRec_congr hr rfl)

/-- UNLOADED is taken: the record is STOWING with its stow leg, the drive and record first changed as the drive's state asks. -/
theorem stowed_of_unloaded {x : Drive} {f : Rec → Rec} (hcalm : calm s) (h : s.rec? slot = some r)
    (hexec : exec (.unloaded d) s = .next ((({ s.start with drives := s.drives.set d x } : State).updRec slot f).stow slot d).commit)
    (hkeep : ∀ r, (f r).state = r.state ∧ (f r).mountedOwed = r.mountedOwed) (hslot : (f r).slot = r.slot)
    (hf : ∀ d, s.stowLegs (f r) d = s.stowLegs r d) :
    ∃ (t : State) (l : Leg) (next : Option Leg), exec (.unloaded d) s = .next t
      ∧ l.src = .drive d ∧ l.acc = driveAcc d ∧ l.expected = (if r.kind = .ret then none else r.serial)
      ∧ (∀ c, r.kind ≠ .ret → r.disposition ≠ some .manual → s.recHome r = some c →
          ((80 ≤ c.col ∧ c.col ≤ 119) ∨ (c.col < 80 ∧ d.val < 8) ∨ (120 ≤ c.col ∧ 8 ≤ d.val) → l.dst = .cell c ∧ next = none)
            ∧ (¬((80 ≤ c.col ∧ c.col ≤ 119) ∨ (c.col < 80 ∧ d.val < 8) ∨ (120 ≤ c.col ∧ 8 ≤ d.val)) → l.dst = .shelf none
                ∧ ∃ m, next = some m ∧ m.src = .shelf none ∧ m.dst = .cell c ∧ m.acc = accOfColumn c.col))
      ∧ (r.kind = .ret ∨ r.disposition = some .manual ∨ s.recHome r = none → l.dst = .station none ∧ next = none)
      ∧ lasting t = lasting (({ s with drives := s.drives.set d x } : State).updRec slot
          (fun r => { f r with state := .stowing, leg := some l, nextLeg := next })) := by
  obtain ⟨hsrc, hacc, hexpected, hhome, hstation⟩ := stowLegs_spec s r d
  refine ⟨_, _, _, hexec, hsrc, hacc, hexpected, fun c hkind hdisp hc => ?_, hstation, ?_⟩
  · obtain ⟨hnear, hfar⟩ := hhome c hkind hdisp hc
    exact ⟨fun hn => hnear ((nearDrive_iff c d).mpr hn), fun hn => hfar (Bool.not_eq_true _ ▸ fun h => hn ((nearDrive_iff c d).mp h))⟩
  · have hstill : Still s.start ((({ s.start with drives := s.drives.set d x } : State).updRec slot f).stow slot d) :=
      Still.stow (Still.keepRec ((Still.refl s.start).same rfl rfl rfl rfl) hkeep)
    rw [hstill.lasting_commit hcalm]
    exact lasting_unloadedTo (s := s.start) h (hslot.trans (slot_of_rec? h)) hf

theorem holdingRec_of_holds (hholds : s.drives[d].holding = some slot) (h : s.rec? slot = some r) : s.holdingRec d = some r := by
  rw [State.holdingRec, hholds]
  exact h

/-- UNLOADED of a drive that holds a record and is to be stowed from. -/
theorem exec_unloaded_from {left : DriveState} (hholds : s.drives[d].holding = some slot) (h : s.rec? slot = some r)
    (hstate : s.drives[d].state = left) (hleft : left = .loading ∨ left = .mounted ∨ left = .unloading) :
    exec (.unloaded d) s = .next (s.start.unloadedFrom d r left).commit := by
  show execUnloaded d s = _
  unfold execUnloaded
  rw [holdingRec_of_holds (s := s.start) hholds h, hstate]
  rcases hleft with rfl | rfl | rfl <;> rfl

theorem exec_unloaded_faulted (hholds : s.drives[d].holding = some slot) (h : s.rec? slot = some r)
    (hstate : s.drives[d].state = .faulted) :
    exec (.unloaded d) s = .next (if r.state = .faultwait then (s.start.stow r.slot d).commit else s.start) := by
  show execUnloaded d s = _
  unfold execUnloaded
  rw [holdingRec_of_holds (s := s.start) hholds h, hstate]

theorem unloaded_discarded (h : s.drives[d].holding = none ∨ (s.drives[d].state ≠ .loading ∧ s.drives[d].state ≠ .mounted
    ∧ s.drives[d].state ≠ .unloading ∧ s.drives[d].state ≠ .faulted)) : exec (.unloaded d) s = .next s.start := by
  show execUnloaded d s = _
  unfold execUnloaded
  rcases h with hnone | ⟨hloading, hmounted, hunloading, hfaulted⟩
  · have hrec : s.start.holdingRec d = none := by
      rw [State.holdingRec, show s.start.drives[d].holding = none from hnone]
      rfl
    rw [hrec]
  · cases s.start.holdingRec d with
    | none => rfl
    | some r =>
      dsimp only
      split
      next h => exact absurd h hloading
      next h => exact absurd h hmounted
      next h => exact absurd h hunloading
      next h => exact absurd h hfaulted
      next => rfl

/-! ## FAULT (R83) -/

/-- What a FAULT leaves, from the state its record and drive come to. -/
theorem fault_leaves (hcalm : calm s) (hexec : s.start.driveFault d = v)
    (hwaits : noneWaits v) (hraised : u.raised = s.raised)
    (h : lasting v = lasting (u.raise .driveFault (.drive d))) :
    ∃ t, exec (.fault d) s = .next t ∧ lasting t = lasting (noticed u { kind := .driveFault, subject := .drive d }) :=
  ⟨_, congrArg (fun v : State => Host.Outcome.next v.commit) hexec,
    lasting_commit_raised (hraised.trans hcalm.2) hwaits h⟩

/-- A drive that faults with its reel in it. -/
def faultedHolding (s : State) (d : Fin 16) : State :=
  { s with drives := s.drives.set d { s.drives[d] with state := .faulted, reel := true, status := none } }

/-- A drive that faults and holds nothing any more. -/
def faultedBare (s : State) (d : Fin 16) : State :=
  { s with drives := s.drives.set d { s.drives[d] with state := .faulted, holding := none, status := none } }

theorem driveFault_holding (hstate : s.drives[d].state = .loading ∨ s.drives[d].state = .mounted ∨ s.drives[d].state = .unloading
      ∨ s.drives[d].state = .awaitingStow) (hholds : s.drives[d].holding = some slot) :
    s.driveFault d = (faultedHolding (s.raise .driveFault (.drive d)) d).heldFault slot s.drives[d].state := by
  unfold State.driveFault
  dsimp only
  rcases hstate with h | h | h | h <;>
  · simp only [h, hholds, reduceCtorEq, if_false]
    rfl

theorem driveFault_reserved (hstate : s.drives[d].state = .reserved) (hholds : s.drives[d].holding = some slot) :
    s.driveFault d = (faultedBare (s.raise .driveFault (.drive d)) d).reservedFault slot := by
  unfold State.driveFault
  simp only [hstate, hholds, reduceCtorEq, if_false]
  rfl

theorem driveFault_faulted (hstate : s.drives[d].state = .faulted) : s.driveFault d = s := by
  unfold State.driveFault
  exact if_pos hstate

theorem heldFault_mounted (s : State) (slot : Nat) :
    s.heldFault slot .mounted = s.updRec slot (fun r => { r with
      state := .faultwait, outcome := some .driveFault, holdSecs := holdBetween r.holdStart s.acct.seconds }) := by
  unfold State.heldFault State.setOutcome State.stopHold State.setRecState
  dsimp only
  rw [updRec_updRec (f := fun r => { r with outcome := some .driveFault }) _ _ fun _ => rfl]
  exact updRec_updRec _ _ fun _ => rfl

theorem heldFault_moving {st : DriveState} (h : st = .loading ∨ st = .unloading) :
    s.heldFault slot st = s.updRec slot (fun r => { r with state := .faultwait, outcome := some .driveFault }) := by
  unfold State.heldFault State.setOutcome State.setRecState
  rcases h with rfl | rfl <;> exact updRec_updRec _ _ fun _ => rfl

/-! ### The record of a RESERVED drive -/

/-- The record has lost its drive. -/
def driveless (s : State) (slot : Nat) : State := s.updRec slot (fun r => { r with drive := none })

theorem reservedFault_waiting (h : s.rec? slot = some r) (hleg : r.leg = none) : s.reservedFault slot = (driveless s slot).enterQueued slot := by
  unfold State.reservedFault
  simp only [h, hleg]
  rfl

theorem reservedFault_left {l : Leg} (h : s.rec? slot = some r) (hleg : r.leg = some l) (haboard : l.onBoard = false) :
    s.reservedFault slot = ((driveless s slot).discardLegs slot).enterQueued slot := by
  unfold State.reservedFault
  simp only [h, hleg, haboard, Bool.false_eq_true, if_false]
  rfl

/-- The record's reel is on its way to its RING prompt at the station. -/
abbrev toRing (r : Rec) (l : Leg) : Prop := r.disposition = some .stationFirst ∧ (∃ p, l.dst = .station p) ∧ l.diverted = false

theorem atStation_iff (p : Place) : p.atStation = true ↔ ∃ q, p = .station q := by
  cases p <;> simp [Place.atStation]

theorem isDrive_iff (p : Place) : p.isDrive = true ↔ ∃ x, p = .drive x := by
  cases p <;> simp [Place.isDrive]

theorem onBoard_iff (l : Leg) : l.onBoard = true ↔ l.inHand = true ∨ l.state = .aboard := by
  simp [Leg.onBoard]

theorem placeSent_iff (s : State) (slot : Nat) (acc : Acc) :
    s.placeSent slot acc = true ↔ (∃ o, (s.acc acc).order = some o ∧ o.op = .place (.record slot))
      ∨ ∃ f, (s.acc acc).failed = some f ∧ f.op = .place (.record slot) := by
  simp [State.placeSent]

theorem reservedFault_aboard {l : Leg} (h : s.rec? slot = some r) (hleg : r.leg = some l) (haboard : l.onBoard = true) :
    (toRing r l → s.reservedFault slot = driveless s slot)
      ∧ (¬toRing r l → s.placeSent slot l.acc = true ∧ l.dst.isDrive = true →
          s.reservedFault slot = (driveless s slot).setOutcome slot .driveFault)
      ∧ (¬toRing r l → ¬(s.placeSent slot l.acc = true ∧ l.dst.isDrive = true) →
          s.reservedFault slot = ((driveless s slot).setOutcome slot .driveFault).divert slot) := by
  have hring : (decide (r.disposition = some .stationFirst) && l.dst.atStation && !l.diverted) = true ↔ toRing r l := by
    rw [Bool.and_eq_true, Bool.and_eq_true, decide_eq_true_eq, atStation_iff, Bool.not_eq_true', and_assoc]
  have hfault : s.reservedFault slot =
      if toRing r l then driveless s slot
      else if s.placeSent slot l.acc = true ∧ l.dst.isDrive = true then (driveless s slot).setOutcome slot .driveFault
      else ((driveless s slot).setOutcome slot .driveFault).divert slot := by
    unfold State.reservedFault
    simp only [h, hleg, haboard, if_true]
    refine if_congr hring rfl (if_congr ?_ rfl rfl)
    rw [Bool.and_eq_true]
    rfl
  exact ⟨fun hr => hfault.trans (if_pos hr), fun hr hs => hfault.trans ((if_neg hr).trans (if_pos hs)),
    fun hr hs => hfault.trans ((if_neg hr).trans (if_neg hs))⟩

/-! ### The cases of UNLOADED -/

theorem unloadedFrom_unloading (h : r.slot = slot) :
    s.unloadedFrom d r .unloading =
      (({ s with drives := s.drives.set d { s.drives[d] with state := .awaitingStow } } : State).updRec slot id).stow slot d := by
  subst h
  rw [updRec_id]
  rfl

theorem unloadedFrom_loading (h : r.slot = slot) :
    s.unloadedFrom d r .loading =
      (({ s with drives := s.drives.set d { s.drives[d] with state := .awaitingStow } } : State).updRec slot
        (fun r => { r with dismountPending := false })).stow slot d := by
  subst h
  rfl

theorem unloadedFrom_mounted (h : r.slot = slot) :
    s.unloadedFrom d r .mounted =
      (({ s with drives := s.drives.set d { s.drives[d] with
          state := .awaitingStow, due := if r.kind = .clean then false else s.drives[d].due } } : State).updRec slot
        (fun r => { r with holdSecs := holdBetween r.holdStart s.acct.seconds })).stow slot d := by
  subst h
  have hdue : (if DriveState.mounted = .mounted ∧ r.kind = .clean then false else s.drives[d].due)
      = if r.kind = .clean then false else s.drives[d].due := by
    simp only [true_and]
  unfold State.unloadedFrom
  rw [← hdue]
  rfl

theorem holdBetween_eq (x now : Seconds) : holdBetween x now = min 1048575 (now - x).toNat := Nat.min_comm ..

/-! ### The cases of FAULT -/

theorem still_faultedHolding (s : State) (d : Fin 16) : Still s (faultedHolding s d) := (Still.refl s).same rfl rfl rfl rfl

theorem still_faultedBare (s : State) (d : Fin 16) : Still s (faultedBare s d) := (Still.refl s).same rfl rfl rfl rfl

/-- A FAULT of a drive that holds its reel: its record waits in FAULTWAIT. -/
theorem fault_holding {f : Rec → Rec} (hcalm : calm s)
    (hstate : s.drives[d].state = .loading ∨ s.drives[d].state = .mounted ∨ s.drives[d].state = .unloading ∨ s.drives[d].state = .awaitingStow)
    (hholds : s.drives[d].holding = some slot)
    (hf : ∀ v : State, v.acct = s.acct → v.heldFault slot s.drives[d].state = v.updRec slot f) :
    ∃ t, exec (.fault d) s = .next t
      ∧ lasting t = lasting (noticed ((faultedHolding s d).updRec slot f) { kind := .driveFault, subject := .drive d }) := by
  refine fault_leaves hcalm (driveFault_holding (s := s.start) hstate hholds) ((still_faultedHolding _ d).heldFault.waits hcalm.1) rfl ?_
  exact (congrArg lasting (hf (faultedHolding (s.start.raise .driveFault (.drive d)) d) rfl) :)

/-- A FAULT of a RESERVED drive. -/
theorem fault_reserved (hcalm : calm s) (hstate : s.drives[d].state = .reserved) (hholds : s.drives[d].holding = some slot)
    (hraised : u.raised = s.raised)
    (h : lasting ((faultedBare (s.start.raise .driveFault (.drive d)) d).reservedFault slot) = lasting (u.raise .driveFault (.drive d))) :
    ∃ t, exec (.fault d) s = .next t ∧ lasting t = lasting (noticed u { kind := .driveFault, subject := .drive d }) :=
  fault_leaves hcalm (driveFault_reserved (s := s.start) hstate hholds) ((still_faultedBare _ d).reservedFault.waits hcalm.1) hraised h

theorem noneFree_faultedBare (h : ∀ x : Fin 16, s.drives[x].state ≠ .free) (x : Fin 16) : (faultedBare s d).drives[x].state ≠ .free := by
  by_cases hx : x = d
  · subst hx
    rw [show (faultedBare s x).drives[x] = _ from State.updDrive_self s x (fun y => { y with state := .faulted, holding := none, status := none })]
    exact nofun
  · rw [show (faultedBare s d).drives[x] = s.drives[x] from State.updDrive_other s d x (fun y => { y with state := .faulted, holding := none, status := none }) hx]
    exact h x

theorem rec?_driveless (h : s.rec? slot = some r) : (driveless s slot).rec? slot = some { r with drive := none } := by
  have hslot := slot_of_rec? h
  unfold driveless
  rw [updRec_const h]
  exact rec?_updRec_const h hslot

/-- The record of a RESERVED drive, its leg not aboard, goes back to QUEUED. -/
theorem reservedFault_back {l : Leg} (hfree : ∀ x : Fin 16, s.drives[x].state ≠ .free) (hclaims : noClaims s) (h : s.rec? slot = some r)
    (hleg : r.leg = some l) (haboard : l.onBoard = false) :
    s.reservedFault slot = ((driveless s slot).discardLegs slot).setRecState slot .queued := by
  have hdiscard := lasting_discardLegs (s := driveless s slot) hclaims (rec?_driveless h)
  rw [reservedFault_left h hleg haboard]
  refine enterQueued_of_noneFree fun x => ?_
  rw [drives_of_lasting hdiscard]
  exact hfree x

theorem lasting_reservedFault_back (hfree : ∀ x : Fin 16, s.drives[x].state ≠ .free) (hclaims : noClaims s) (h : s.rec? slot = some r)
    (hleg : ∀ l, r.leg = some l → l.onBoard = false) :
    lasting (s.reservedFault slot) = lasting (s.updRec slot (fun x => { x with
      state := .queued, drive := none, leg := none, nextLeg := if r.leg = none then r.nextLeg else none })) := by
  cases hl : r.leg with
  | none =>
    rw [reservedFault_waiting h hl, enterQueued_of_noneFree (s := driveless s slot) hfree]
    refine congrArg lasting (Eq.trans (updRec_updRec _ _ (by intro; rfl)) (updRec_congr h ?_))
    rw [if_pos rfl, ← hl]
  | some l =>
    rw [reservedFault_back hfree hclaims h hl (hleg l hl)]
    refine Eq.trans (lasting_updRec_congr (by intro; rfl) (lasting_discardLegs (s := driveless s slot) hclaims (rec?_driveless h)))
      (congrArg lasting ?_)
    unfold driveless
    rw [updRec_updRec (f := fun r => { r with drive := none }) _ _ fun _ => rfl]
    refine Eq.trans (updRec_updRec _ _ (by intro; rfl)) (updRec_congr h ?_)
    rw [if_neg (Option.some_ne_none l)]

/-- The leg of a record whose drive has faulted is withdrawn from its accessor's queue. -/
theorem withdrawn_fault {l : Leg} (hcalm : calm s) (hstate : s.drives[d].state = .reserved) (hholds : s.drives[d].holding = some slot)
    (h : s.rec? slot = some r) (hleg : r.leg = some l) (haboard : l.onBoard = false) (hfree : ∀ x : Fin 16, s.drives[x].state ≠ .free)
    (hclaims : noClaims s) : withdrawn (.fault d) s l.acc slot := by
  let w := faultedBare (s.start.raise .driveFault (.drive d)) d
  have hfault : s.start.driveFault d = w.reservedFault slot := driveFault_reserved (s := s.start) hstate hholds
  have hback := reservedFault_back (s := w) (noneFree_faultedBare (s := s.start.raise .driveFault (.drive d)) hfree) hclaims h hleg haboard
  obtain ⟨⟨hqueue, hother⟩, hended⟩ := left_removeLeg (s := driveless w slot) hclaims ((leg?_of_rec? (rec?_driveless (s := w) h)).trans hleg)
  refine ⟨_, congrArg (fun v : State => Host.Outcome.next v.commit) (hfault.trans hback), ⟨hqueue, hother⟩, hended, fun hin => ?_⟩
  have hstill : Still (s.start.raise .driveFault (.drive d)) (w.reservedFault slot) := (still_faultedBare _ d).reservedFault
  rw [hback] at hstill
  have hmem := (railWork_commit (hstill.waits hcalm.1)).queues l.acc slot hin
  rw [show (((driveless w slot).discardLegs slot).setRecState slot .queued).rail.queues.get l.acc = _ from hqueue] at hmem
  simpa using (List.mem_filter.mp hmem).2

/-- What FAULT makes of the trip of the record's leg: one aboard keeps its stops. -/
theorem trip_aboard {l : Leg} (h : s.rec? slot = some r) (hleg : r.leg = some l) (haboard : l.onBoard = true) :
    AccsKept s (s.reservedFault slot) := by
  obtain ⟨hring, hsent, hdivert⟩ := reservedFault_aboard h hleg haboard
  by_cases hr : toRing r l
  · rw [hring hr]
    exact (AccsKept.refl s).updRec
  · by_cases hs : s.placeSent slot l.acc = true ∧ l.dst.isDrive = true
    · rw [hsent hr hs]
      exact (AccsKept.refl s).updRec.updRec
    · rw [hdivert hr hs]
      exact (AccsKept.refl s).updRec.updRec.divert

/-- One not in hand leaves the trip with its stops. -/
theorem trip_left {l : Leg} {tr : Trip} (h : s.rec? slot = some r) (hleg : r.leg = some l) (haboard : l.onBoard = false)
    (htrip : (s.acc l.acc).trip = some tr) (hkeeps : (s.acc l.acc).state ≠ .gathering ∨ ∃ m ∈ tr.legs, m ≠ slot) :
    tripOf (s.reservedFault slot) l.acc = some (tripLess tr (.record slot)) := by
  have hleg' : (driveless s slot).leg? slot = some l := (leg?_of_rec? (rec?_driveless h)).trans hleg
  have hkept : AccsKept (legTaken (driveless s slot) slot l) (s.reservedFault slot) := by
    rw [reservedFault_left h hleg haboard, State.discardLegs, removeLeg_eq hleg']
    exact (AccsKept.refl _).freeReservation.updRec.enterQueued
  rw [hkept.tripOf]
  have hacc : (legTaken (driveless s slot) slot l).acc l.acc = tripLeft slot (s.acc l.acc) := State.acc_updAcc_self ..
  rw [tripOf, hacc, trip_tripLeft htrip hkeeps]
  rfl

/-- A leg turned away from the station gives up its shelf position and takes the lowest EMPTY station position. -/
theorem divert_reserves {l : Leg} (hclaims : noClaims s) (h : s.rec? slot = some r) (hleg : r.leg = some l)
    (hdst : ∀ p, l.dst ≠ .station p) :
    (∀ p : Fin 4, s.rail.shelf[p] = .reserved (.record slot) → (∀ q < p, s.rail.shelf[q] ≠ .reserved (.record slot)) →
        (s.divert slot).rail.shelf[p] = .empty)
      ∧ ∀ p : Fin 8, s.station.pos[p].state = .empty →
          (∀ q < p, s.station.pos[q].state ≠ .empty ∧ s.station.pos[q].state ≠ .reserved (.record slot)) →
          (s.divert slot).station.pos[p].state = .reserved (.record slot)
            ∧ ((s.divert slot).leg? slot).map (·.dst) = some (.station (some p)) := by
  let s₁ := (s.updRec slot (fun r => { r with nextLeg := none })).updLeg slot (fun l => { l with diverted := true })
  have hrec : s₁.rec? slot = some { r with nextLeg := none, leg := r.leg.map (fun l => { l with diverted := true }) } :=
    (State.rec?_updRec_self _ _ _ (by exact fun _ h => h)).trans
      (congrArg _ ((State.rec?_updRec_self _ _ _ (by exact fun _ h => h)).trans (congrArg _ h)))
  have hleg₁ : s₁.leg? slot = some { l with diverted := true } := (leg?_of_rec? hrec).trans (by rw [hleg]; rfl)
  have hbound : ¬s₁.stationBound slot = true := by
    rw [State.stationBound, hleg₁]
    exact fun h => (atStation_iff _).mp h |>.elim hdst
  let w : State := (s₁.freeReservation (.record slot)).setDst (.record slot) (.station none)
  have hfreed := freeReservation_eq (s := s₁) hclaims (.record slot)
  have hpos : w.station.pos = posFreed s (.record slot) := congrArg (fun v : State => v.station.pos) hfreed
  have hshelf : w.rail.shelf = shelfFreed s (.record slot) := congrArg (fun v : State => v.rail.shelf) hfreed
  have hdivert : s.divert slot = (w.reserveStation (.record slot)).getD w := if_neg hbound
  obtain ⟨hshelves, -⟩ := reservationEnded_of_freed (u := w) hshelf hpos
  refine ⟨fun p hp hlow => ?_, fun p hp hlow => ?_⟩
  · rw [hdivert]
    refine Eq.trans ?_ (hshelves p hp hlow)
    unfold State.reserveStation
    cases w.emptyStation <;> rfl
  · have hkept : ∀ q ≤ p, w.station.pos[q] = s.station.pos[q] := fun q hq => by
      simp only [hpos]
      refine posFreed_other fun hreserved => ?_
      rcases lt_or_eq_of_le hq with hlt | rfl
      · exact (hlow q hlt).2 hreserved
      · rw [hp] at hreserved
        cases hreserved
    have hempty : w.emptyStation = some p := find?_finRange_of_lowest (decide_eq_true (by rw [hkept p le_rfl]; exact hp))
      fun q hq => decide_eq_false (by rw [hkept q hq.le]; exact (hlow q hq).1)
    have hleg₂ : w.leg? slot = some { l with diverted := true, dst := .station none } := by
      have hsame : (s₁.freeReservation (.record slot)).leg? slot = s₁.leg? slot := by
        rw [hfreed]
        rfl
      exact (State.leg?_updLeg_self _ _ _).trans (by rw [hsame, hleg₁]; rfl)
    obtain ⟨hset, hnamed⟩ := reserveStation_at hempty hleg₂
    rw [hdivert, hnamed]
    refine ⟨?_, rfl⟩
    simp only [hset]
    exact congrArg StationPos.state (Vector.getElem_set_self ..)

/-- A drive that faults with no reel in it. -/
def faultedEmpty (s : State) (d : Fin 16) : State :=
  { s with drives := s.drives.set d { s.drives[d] with
      state := .faulted, holding := none, reel := false, cleanWait := false, status := none } }

theorem faultedEmpty_eq (s : State) (d : Fin 16) :
    (faultedBare s d).updDrive d (fun x => { x with reel := false, cleanWait := false }) = faultedEmpty s d := by
  have hself : (faultedBare s d).drives[d] = { s.drives[d] with state := .faulted, holding := none, status := none } :=
    State.updDrive_self s d (fun x => { x with state := .faulted, holding := none, status := none })
  unfold State.updDrive
  rw [hself]
  exact congrArg (fun l => { s with drives := l }) (Vector.set_set ..)

theorem driveFault_empty (hstate : s.drives[d].state = .free ∨ s.drives[d].state = .offline) :
    s.driveFault d = (faultedEmpty (s.raise .driveFault (.drive d)) d).tidyCleanSupply := by
  rw [← faultedEmpty_eq]
  unfold State.driveFault
  rcases hstate with h | h <;>
  · simp only [h, reduceCtorEq, if_false]
    rfl

theorem driveFault_unpolled (hstate : s.drives[d].state = .unpolled) (hwait : s.drives[d].returnWait = false) :
    s.driveFault d = ((faultedEmpty (s.raise .driveFault (.drive d)) d).tidyCleanSupply).settle (.drive d) := by
  rw [← faultedEmpty_eq]
  unfold State.driveFault
  simp only [hstate, hwait, reduceCtorEq, Bool.false_eq_true, if_false]
  rfl

theorem driveFault_returning (hstate : s.drives[d].state = .unpolled) (hwait : s.drives[d].returnWait = true) :
    s.driveFault d = ((s.raise .driveFault (.drive d)).updDrive d (fun x =>
      { x with state := .faulted, holding := none, reel := true, status := none })).settle (.drive d) := by
  unfold State.driveFault
  simp only [hstate, hwait, reduceCtorEq, if_false, if_true]

/-- A FAULT of a drive with no reel in it: the state `g`, but for the prompts, after what `f` does of the online poll. -/
theorem fault_empty {g : State} {f : State → State} (hcalm : calm s) (hquiet : givesUpQuietly s) (hraised : g.raised = s.raised)
    (hconsole : g.console = s.console) (hprompt : g.cleanPrompt = s.cleanPrompt)
    (hfault : s.start.driveFault d = f ((faultedEmpty (s.start.raise .driveFault (.drive d)) d).tidyCleanSupply))
    (hrecs : ∀ u, (f u).recs = u.recs)
    (hf : ∀ c p, f { faultedEmpty (s.start.raise .driveFault (.drive d)) d with console := c, cleanPrompt := p } =
      ({ g with console := c, cleanPrompt := p, sent := [] } : State).raise .driveFault (.drive d)) :
    ∃ t, exec (.fault d) s = .next t ∧ cleanSupplyLeft s t d
      ∧ lasting { t with console := s.console, cleanPrompt := s.cleanPrompt } =
        lasting (noticed g { kind := .driveFault, subject := .drive d }) := by
  let w := faultedEmpty (s.start.raise .driveFault (.drive d)) d
  have hother : ∀ x : Fin 16, x ≠ d → w.drives[x].cleanWait = s.drives[x].cleanWait :=
    fun x hx => congrArg Drive.cleanWait (State.updDrive_other s d x (fun y => { y with
      state := .faulted, holding := none, reel := false, cleanWait := false, status := none }) hx)
  have hself : w.drives[d].cleanWait = false := congrArg Drive.cleanWait (State.updDrive_self s d (fun y => { y with
      state := .faulted, holding := none, reel := false, cleanWait := false, status := none }))
  obtain ⟨hleft, hframe⟩ := cleanSupply_tidied (s := s) (u := w) rfl rfl hother hself hquiet
  have hv := Cleaning.eq_of_frame hframe
  have hwaits : noneWaits (f w.tidyCleanSupply) := by
    rw [noneWaits, hrecs, hv]
    exact hcalm.1
  obtain ⟨t, ht, hlast⟩ := fault_leaves (u := { g with console := w.tidyCleanSupply.console, cleanPrompt := w.tidyCleanSupply.cleanPrompt, sent := [] })
    hcalm hfault hwaits hraised (congrArg lasting ((congrArg f hv).trans (hf _ _)))
  refine ⟨t, ht, ?_, ?_⟩
  · unfold cleanSupplyLeft
    rw [show t.cleanPrompt = w.tidyCleanSupply.cleanPrompt from (cleanPrompt_of_lasting hlast :),
      show t.console = w.tidyCleanSupply.console from (console_of_lasting hlast :)]
    exact hleft
  · refine (congrArg (fun x : State => { x with console := s.console, cleanPrompt := s.cleanPrompt }) hlast).trans ?_
    rw [← hconsole, ← hprompt]
    rfl

/-- Settles O41. -/
theorem unloadedAndFault : Obligations.UnloadedAndFault := by
  intro d slot r s hcalm st held onDrive near stowed notice faulted bare full aboard settled
  have hraised : nothingRaised s := hcalm.2
  have haboard : ∀ l : Leg, l.onBoard = true ↔ aboard l := onBoard_iff
  refine ⟨fun ⟨hholds, hr⟩ => ⟨fun hst => ?_, fun hst => ?_, fun hst => ?_, fun hst hwait => ?_, fun hst hwait => ?_⟩, fun h => ?_,
    fun ⟨hholds, hr⟩ => ⟨fun hst => ?_, fun hst => ?_, fun hst => ?_, fun hst hleg hfree hclaims => ?_, fun l tr hst hleg htrip => ?_,
      fun l hst hleg hon => ?_⟩, fun hst hquiet => ?_, fun hst hwait => ?_, fun hst => ?_⟩
  · refine stowed_of_unloaded (f := id) hcalm hr ?_ (fun _ => ⟨rfl, rfl⟩) rfl fun _ => rfl
    rw [exec_unloaded_from hholds hr hst (.inr (.inr rfl)), unloadedFrom_unloading (slot_of_rec? hr)]
    rfl
  · refine stowed_of_unloaded (f := fun r => { r with dismountPending := false }) hcalm hr ?_ (fun _ => ⟨rfl, rfl⟩) rfl fun _ => rfl
    rw [exec_unloaded_from hholds hr hst (.inl rfl), unloadedFrom_loading (slot_of_rec? hr)]
    rfl
  · simp only [stowed, ← holdBetween_eq]
    refine stowed_of_unloaded (f := fun r => { r with holdSecs := holdBetween r.holdStart s.acct.seconds }) hcalm hr ?_ (fun _ => ⟨rfl, rfl⟩) rfl
      fun _ => rfl
    rw [exec_unloaded_from hholds hr hst (.inr (.inl rfl)), unloadedFrom_mounted (slot_of_rec? hr)]
    rfl
  · refine stowed_of_unloaded (f := id) hcalm hr ?_ (fun _ => ⟨rfl, rfl⟩) rfl fun _ => rfl
    have hsame : s.drives.set d s.drives[d] = s.drives := Vector.set_getElem_self ..
    rw [exec_unloaded_faulted hholds hr hst, if_pos hwait, updRec_id, slot_of_rec? hr, hsame]
    rfl
  · rw [exec_unloaded_faulted hholds hr hst, if_neg hwait]
    rfl
  · refine unloaded_discarded (h.imp id fun hst => ?_)
    simp only [st] at hst
    rcases hst with h | h | h | h | h <;> rw [h] <;> exact ⟨nofun, nofun, nofun, nofun⟩
  · refine fault_holding hcalm (.inr (.inl hst)) hholds fun v hv => ?_
    rw [show s.drives[d].state = .mounted from hst, heldFault_mounted, hv]
    simp only [holdBetween_eq]
  · refine fault_holding hcalm (hst.imp id fun h => .inr (.inl h)) hholds fun v hv => heldFault_moving hst
  · refine fault_holding hcalm (.inr (.inr (.inr hst))) hholds fun v hv => ?_
    rw [show s.drives[d].state = .awaitingStow from hst]
    rfl
  · have hlegs : ∀ l, r.leg = some l → l.onBoard = false := fun l hl => Bool.not_eq_true _ ▸ fun h => hleg l hl ((haboard l).mp h)
    refine ⟨fault_reserved hcalm hst hholds rfl ?_, fun l hl => withdrawn_fault hcalm hst hholds hr hl (hlegs l hl) hfree hclaims⟩
    rw [lasting_reservedFault_back (noneFree_faultedBare (s := s.start.raise .driveFault (.drive d)) hfree) hclaims hr hlegs]
    rfl
  · intro changed
    have hfault := driveFault_reserved (s := s.start) hst hholds
    refine ⟨fun hon => ⟨_, congrArg (fun v : State => Host.Outcome.next v.commit) hfault, ?_⟩,
      fun hoff hkeeps => ⟨_, congrArg (fun v : State => Host.Outcome.next v.commit) hfault, ?_⟩⟩
    · rw [(trip_aboard (s := faultedBare (s.start.raise .driveFault (.drive d)) d) hr hleg ((haboard l).mpr hon)).tripOf]
      exact congrArg (Option.map fun t : Trip => (t.legs, t.stops)) htrip
    · exact trip_left (s := faultedBare (s.start.raise .driveFault (.drive d)) d) hr hleg
        (Bool.not_eq_true _ ▸ fun h => hoff ((haboard l).mp h)) htrip hkeeps
  · intro sent ring
    let w := faultedBare (s.start.raise .driveFault (.drive d)) d
    let b := w.updRec slot (fun r => { r with drive := none, outcome := some .driveFault })
    obtain ⟨htoRing, hsent, hdivert⟩ := reservedFault_aboard (s := w) hr hleg ((haboard l).mpr hon)
    have hplace : (w.placeSent slot l.acc = true ∧ l.dst.isDrive = true) ↔ sent ∧ ∃ x, l.dst = .drive x :=
      and_congr (placeSent_iff w slot l.acc) (isDrive_iff l.dst)
    have houtcome : (driveless w slot).setOutcome slot .driveFault = b := updRec_updRec _ _ (by intro; rfl)
    have hrec : b.rec? slot = some { r with drive := none, outcome := some .driveFault } :=
      (State.rec?_updRec_self _ _ _ (by exact fun _ h => h)).trans (congrArg _ hr)
    rw [houtcome] at hsent hdivert
    refine ⟨fun h => fault_reserved hcalm hst hholds rfl (congrArg lasting (htoRing h) :),
      fun h hs hdrive => fault_reserved hcalm hst hholds rfl (congrArg lasting (hsent h (hplace.mpr ⟨hs, hdrive⟩)) :),
      fun h hno hclaims => ⟨fault_reserved hcalm hst hholds rfl ?_, fun hdst => ?_⟩⟩
    · rw [hdivert h fun hp => hno (hplace.mp hp), lasting_divert (s := b) hclaims hrec hleg]
      refine Eq.trans (congrArg lasting (updRec_updRec _ _ (by intro; rfl))) ?_
      exact (congrArg lasting (updRec_congr (s := w)
        (f := fun _ => divertedRec { r with drive := none, outcome := some .driveFault } l) (g := fun r => { r with
        drive := none, outcome := some .driveFault, nextLeg := none, leg := some { l with diverted := true, dst := .station none } }) hr rfl) :)
    · have hfault := (driveFault_reserved (s := s.start) hst hholds).trans (hdivert h fun hp => hno (hplace.mp hp))
      exact ⟨_, congrArg (fun v : State => Host.Outcome.next v.commit) hfault, divert_reserves (s := b) hclaims hrec hleg hdst⟩
  · intro gone
    rcases hst with hfree | hoff | ⟨hunpolled, hwait⟩
    · rw [if_neg (by rw [hfree]; exact nofun)]
      exact fault_empty (f := id) hcalm hquiet rfl rfl rfl (driveFault_empty (s := s.start) (.inl hfree)) (fun _ => rfl) fun _ _ => rfl
    · rw [if_neg (by rw [hoff]; exact nofun)]
      exact fault_empty (f := id) hcalm hquiet rfl rfl rfl (driveFault_empty (s := s.start) (.inr hoff)) (fun _ => rfl) fun _ _ => rfl
    · rw [if_pos hunpolled]
      exact fault_empty (f := fun u => u.settle (.drive d)) hcalm hquiet rfl rfl rfl (driveFault_unpolled (s := s.start) hunpolled hwait)
        (fun _ => rfl) fun _ _ => rfl
  · exact fault_leaves hcalm (driveFault_returning (s := s.start) hst hwait) hcalm.1 rfl rfl
  · refine ⟨_, congrArg (fun v : State => Host.Outcome.next v.commit) (driveFault_faulted (s := s.start) hst), ?_⟩
    exact lasting_commit (s := s.start) hcalm

end DriveReports

end Sys2Proof
end

section
/-! PROOFS. The gates of an order (R103, R110, R112), the order of a stop and one outside the stops, and what a stop without a position
does (R97, R134, R136). -/

namespace Sys2Proof

namespace OrderGates

open Machine Safety Settling Withdrawal

variable {s u : State} {acc : Acc} {n : NextOrder} {x : Stop} {rest : List Stop} {slot : Nat} {l : Leg}

/-! ## The lock and the gates (R110, R112) -/

theorem gatesOk_iff : s.gatesOk n = true ↔ s.guardOpen n.col = false ∧ (n.col = 100 → s.station.latchOpen = false) := by
  unfold State.gatesOk stationColumn
  cases s.guardOpen n.col <;> cases s.station.latchOpen <;> by_cases hcol : n.col = 100 <;> simp [hcol]

theorem gatesOk_of_open (h : s.guardOpen n.col = true ∨ (n.col = 100 ∧ s.station.latchOpen = true)) : s.gatesOk n = false := by
  refine Bool.eq_false_iff.mpr fun hok => ?_
  obtain ⟨hguard, hlatch⟩ := gatesOk_iff.mp hok
  rcases h with h | ⟨hcol, hopen⟩
  · exact absurd (h.symm.trans hguard) (by decide)
  · exact absurd (hopen.symm.trans (hlatch hcol)) (by decide)

/-- The lock is the accessor's, or free to be taken. -/
abbrev lockTaken (s : State) (acc : Acc) : Prop := s.rail.zone = some acc ∨ (s.rail.zone = none ∧ s.rail.middleOpen = false)

/-- The lock is the other accessor's, or GUARD_MIDDLE is OPEN. -/
abbrev lockRefused (s : State) (acc : Acc) : Prop :=
  s.rail.zone = some (otherAcc acc) ∨ (s.rail.zone = none ∧ s.rail.middleOpen = true)

theorem otherAcc_ne (acc : Acc) : otherAcc acc ≠ acc := by cases acc <;> decide

theorem askZone_taken (h : lockTaken s acc) : ∃ wait, s.askZone acc = { s with rail := { s.rail with zone := some acc, zoneWait := wait } } := by
  unfold State.askZone
  by_cases hmine : s.rail.zone = some acc
  · rw [if_pos hmine, ← hmine]
    exact ⟨s.rail.zoneWait, rfl⟩
  · rw [if_neg hmine, if_pos (h.resolve_left hmine)]
    exact ⟨_, rfl⟩

/-- An accessor that waits for the lock stands in its wait list, once. -/
def listedForLock (s : State) (acc : Acc) : List Acc := if acc ∈ s.rail.zoneWait then s.rail.zoneWait else s.rail.zoneWait ++ [acc]

/-- An accessor at a stop waits for the lock. -/
def waitForLock (x : AccRec) : AccRec := if x.state = .running then { x with state := .waitingZone } else x

theorem askZone_refused (h : lockRefused s acc) :
    s.askZone acc = ({ s with rail := { s.rail with zoneWait := listedForLock s acc } } : State).updAcc acc waitForLock := by
  have hmine : s.rail.zone ≠ some acc := by
    rcases h with h | h
    · rw [h]
      exact fun hsame => otherAcc_ne acc (Option.some.inj hsame)
    · simp [h]
  have hfree : ¬(s.rail.zone = none ∧ s.rail.middleOpen = false) := by
    rcases h with h | h <;> simp [h]
  unfold State.askZone listedForLock
  rw [if_neg hmine, if_neg hfree]
  by_cases hlisted : acc ∈ s.rail.zoneWait
  · rw [if_pos hlisted, if_pos (List.contains_iff_mem.mpr hlisted)]
    rfl
  · rw [if_neg hlisted, if_neg (by simpa using hlisted)]
    rfl

/-! ## The three answers to an order that is tested (R103) -/

/-- The order as it is sent. -/
def sentOrder (s : State) (acc : Acc) (n : NextOrder) : Order :=
  { op := n.op, col := n.col, place := n.place, holder := s.holderFor acc n.op, timer := (s.acc acc).limitOf n.op }

/-- The leg of a PICK that is sent is in hand. -/
def takesInHand (s : State) : OrderOp → State
  | .pick slot => s.updLeg slot (fun l => { l with inHand := true })
  | _ => s

/-- An accessor with its order in flight. -/
def atWork (o : Order) (x : AccRec) : AccRec := { x.unwait with order := some o, todo := none }

theorem sendOrder_eq (s : State) (acc : Acc) (n : NextOrder) : s.sendOrder acc n
    = ((takesInHand s n.op).updAcc acc (fun x => { x with order := some (sentOrder s acc n), todo := none })).send
        (.accessor acc (sentOrder s acc n)) := by
  obtain ⟨op, col, place, needsLock⟩ := n
  cases op <;> rfl

theorem takesInHand_rail (s : State) (op : OrderOp) : (takesInHand s op).rail = s.rail := by cases op <;> rfl

theorem takesInHand_sent (s : State) (op : OrderOp) : (takesInHand s op).sent = s.sent := by cases op <;> rfl

theorem sendOrder_acc (s : State) (acc : Acc) (n : NextOrder) :
    (s.sendOrder acc n).acc acc = { s.acc acc with order := some (sentOrder s acc n), todo := none } := by
  have hsame : (takesInHand s n.op).acc acc = s.acc acc := congrArg (fun r : Rail => r.accs.get acc) (takesInHand_rail s n.op)
  rw [sendOrder_eq, ← hsame]
  exact State.acc_updAcc_self (takesInHand s n.op) acc (fun x => { x with order := some (sentOrder s acc n), todo := none })

theorem sendOrder_sent (s : State) (acc : Acc) (n : NextOrder) :
    (s.sendOrder acc n).sent = s.sent ++ [.accessor acc (sentOrder s acc n)] := by
  rw [sendOrder_eq, State.send, State.updAcc_sent, takesInHand_sent]

theorem unwait_holders (x : AccRec) : x.unwait.holders = x.holders := by
  unfold AccRec.unwait
  split <;> rfl

theorem unwait_limitOf (x : AccRec) (op : OrderOp) : x.unwait.limitOf op = x.limitOf op := by
  unfold AccRec.unwait
  split <;> cases op <;> rfl

/-- The order is the same under the lock. -/
theorem sentOrder_unwait (s : State) (acc : Acc) (n : NextOrder) (zone : Option Acc) (wait : List Acc) :
    sentOrder (({ s with rail := { s.rail with zone := zone, zoneWait := wait } } : State).updAcc acc AccRec.unwait) acc n
      = sentOrder s acc n := by
  have hself : (({ s with rail := { s.rail with zone := zone, zoneWait := wait } } : State).updAcc acc AccRec.unwait).acc acc
      = (s.acc acc).unwait := State.acc_updAcc_self _ _ _
  have hholder : (({ s with rail := { s.rail with zone := zone, zoneWait := wait } } : State).updAcc acc AccRec.unwait).holderFor acc n.op
      = s.holderFor acc n.op := by
    unfold State.holderFor
    cases n.op with
    | pick slot =>
      show ((_ : State).acc acc).emptyHolder = (s.acc acc).emptyHolder
      rw [hself]
      unfold AccRec.emptyHolder
      rw [unwait_holders]
    | place ref => cases ref <;> rfl
    | _ => rfl
  unfold sentOrder
  rw [hholder, hself, unwait_limitOf]

theorem tryOrder_sends (hgates : s.gatesOk n = true) (hlock : n.needsLock = true → lockTaken s acc) :
    (s.tryOrder acc n).sent = s.sent ++ [.accessor acc (sentOrder s acc n)]
      ∧ (s.tryOrder acc n).acc acc = atWork (sentOrder s acc n) (s.acc acc)
      ∧ (s.tryOrder acc n).recs = (takesInHand s n.op).recs
      ∧ (s.tryOrder acc n).rail.zone = (if n.needsLock then some acc else s.rail.zone) := by
  obtain ⟨wait, hasked⟩ : ∃ wait, (if n.needsLock then s.askZone acc else s)
      = { s with rail := { s.rail with zone := if n.needsLock then some acc else s.rail.zone, zoneWait := wait } } := by
    by_cases hneeds : n.needsLock = true
    · obtain ⟨wait, h⟩ := askZone_taken (hlock hneeds)
      exact ⟨wait, by rw [if_pos hneeds, if_pos hneeds, h]⟩
    · exact ⟨s.rail.zoneWait, by rw [if_neg hneeds, if_neg hneeds]⟩
  have hzone : State.zoneOk { s with rail := { s.rail with
      zone := if n.needsLock then some acc else s.rail.zone, zoneWait := wait } } acc n = true := by
    unfold State.zoneOk
    cases n.needsLock <;> simp
  have htried : s.tryOrder acc n = ((({ s with rail := { s.rail with
      zone := if n.needsLock then some acc else s.rail.zone, zoneWait := wait } } : State).updAcc acc AccRec.unwait).sendOrder acc n) := by
    unfold State.tryOrder State.passGates
    rw [hasked, if_pos hzone]
    exact if_pos hgates
  rw [htried]
  refine ⟨(sendOrder_sent _ _ _).trans ?_, (sendOrder_acc _ _ _).trans ?_, ?_, ?_⟩
  · rw [sentOrder_unwait]
    rfl
  · rw [sentOrder_unwait, State.acc_updAcc_self]
    rfl
  · rw [sendOrder_eq]
    cases n.op <;> rfl
  · rw [sendOrder_eq]
    cases n.op <;> rfl

/-- Nothing has been sent, the accessor's order and what it is to be sent are as before, and so are the guards and the latch. -/
structure Held (s t : State) (acc : Acc) : Prop where
  sent : t.sent = s.sent
  order : (t.acc acc).order = (s.acc acc).order
  todo : (t.acc acc).todo = (s.acc acc).todo
  gates : ∀ m, t.gatesOk m = s.gatesOk m

theorem Held.refl (s : State) (acc : Acc) : Held s s acc := ⟨rfl, rfl, rfl, fun _ => rfl⟩

theorem Held.trans {t v : State} (h : Held s t acc) (h' : Held t v acc) : Held s v acc :=
  ⟨h'.sent.trans h.sent, h'.order.trans h.order, h'.todo.trans h.todo, fun m => (h'.gates m).trans (h.gates m)⟩

theorem held_zone (s : State) (acc : Acc) (zone : Option Acc) (wait : List Acc) :
    Held s { s with rail := { s.rail with zone := zone, zoneWait := wait } } acc := ⟨rfl, rfl, rfl, fun _ => rfl⟩

theorem held_updAcc (s : State) (acc : Acc) {f : AccRec → AccRec} (hf : ∀ x, (f x).order = x.order ∧ (f x).todo = x.todo) :
    Held s (s.updAcc acc f) acc := by
  refine ⟨rfl, ?_, ?_, fun _ => rfl⟩
  · rw [State.acc_updAcc_self, (hf _).1]
  · rw [State.acc_updAcc_self, (hf _).2]

theorem waitForLock_keeps (x : AccRec) : (waitForLock x).order = x.order ∧ (waitForLock x).todo = x.todo := by
  unfold waitForLock
  split <;> exact ⟨rfl, rfl⟩

theorem unwait_keeps (x : AccRec) : x.unwait.order = x.order ∧ x.unwait.todo = x.todo := by
  unfold AccRec.unwait
  split <;> exact ⟨rfl, rfl⟩

theorem held_askZone (s : State) (acc : Acc) : Held s (s.askZone acc) acc := by
  unfold State.askZone
  split
  next => exact Held.refl s acc
  next =>
    split
    next => exact held_zone s acc _ _
    next =>
      refine Held.trans ?_ (held_updAcc _ acc waitForLock_keeps)
      split
      next => exact Held.refl s acc
      next => exact held_zone s acc s.rail.zone _

theorem passGates_held (h : s.gatesOk n = false) : Held s (s.passGates acc n) acc := by
  have hwaits : Held s (s.updAcc acc AccRec.unwait) acc := held_updAcc _ acc unwait_keeps
  unfold State.passGates
  split
  next => exact if_neg (c := (s.updAcc acc AccRec.unwait).gatesOk n = true) (by rw [hwaits.gates, h]; decide) ▸ hwaits
  next => exact Held.refl s acc

/-- An OPEN guard or latch holds an order back, with the lock and without it. -/
theorem tryOrder_held (h : s.gatesOk n = false) : Held s (s.tryOrder acc n) acc := by
  unfold State.tryOrder
  split
  next => exact (held_askZone s acc).trans (passGates_held (((held_askZone s acc).gates n).trans h))
  next => exact passGates_held h

/-- Without the lock an order that needs it is not sent, and the accessor waits for it. -/
theorem tryOrder_waits (hneeds : n.needsLock = true) (h : lockRefused s acc) : s.tryOrder acc n
    = ({ s with rail := { s.rail with zoneWait := listedForLock s acc } } : State).updAcc acc waitForLock := by
  have hzone : State.zoneOk (({ s with rail := { s.rail with zoneWait := listedForLock s acc } } : State).updAcc acc waitForLock) acc n
      = false := by
    unfold State.zoneOk
    rw [hneeds]
    rcases h with h | ⟨h, -⟩
    · simpa [State.updAcc, h] using otherAcc_ne acc
    · simp [State.updAcc, h]
  unfold State.tryOrder State.passGates
  rw [if_pos hneeds, askZone_refused h, if_neg (by rw [hzone]; decide)]

/-! ## An order outside the stops (R103) -/

theorem sendNext_of_nextOrder (h : s.nextOrder acc = some n) : s.sendNext acc = s.tryOrder acc n := by
  unfold State.sendNext
  rw [h]

/-- An accessor that is not at a stop has none to bring to the head. -/
theorem orderSend_of_todo {op : OrderOp} (horder : (s.acc acc).order = none) (htodo : (s.acc acc).todo = some op)
    (hn : (s.acc acc).todoOrder acc op = some n) : s.orderSend acc = s.tryOrder acc n := by
  have hstays : s.bringStop acc = s := by
    unfold State.bringStop
    simp only [htodo, Option.isNone_some, Bool.and_false, Bool.false_and, Bool.false_eq_true, if_false]
  unfold State.orderSend
  rw [hstays]
  refine sendNext_of_nextOrder ?_
  unfold State.nextOrder
  simp only [horder, htodo]
  exact hn

/-- The values an order outside the stops has (R103, R111). -/
abbrev outsideStops (x : AccRec) (acc : Acc) (o : Order) : Prop :=
  (o.op = .scan ∧ o.timer = x.limScan
      ∧ ((∃ c, x.scan = some (.cell c) ∧ o.place = some (.cell c) ∧ o.col = c.col)
        ∨ ∃ p k late, x.scan = some (.station p k late) ∧ o.place = some (.station (some p)) ∧ o.col = 100))
    ∨ (o.op = .park ∧ o.timer = x.limPlace ∧ o.place = none ∧ o.col = (if acc = .a then 79 else 120))
    ∨ (o.op = .recover ∧ o.timer = x.limRecover ∧ o.place = none ∧ o.col = x.column)
    ∨ (o.op = .status ∧ o.timer = x.limPick ∧ o.place = none ∧ o.col = x.column)

/-- The column that decides whether an order outside the stops needs the lock: a PARK leaves the one the accessor stands at. -/
def lockColumn (x : AccRec) (o : Order) : Nat := if o.op = .park then x.column else o.col

/-- An order outside the stops, as it is tested. -/
def tested (x : AccRec) (o : Order) : NextOrder :=
  { op := o.op, col := o.col, place := o.place, needsLock := inMiddle (lockColumn x o) }

theorem todoOrder_of_outside {o : Order} (h : outsideStops (s.acc acc) acc o) :
    (s.acc acc).todoOrder acc o.op = some (tested (s.acc acc) o) := by
  obtain ⟨op, col, place, holder, timer⟩ := o
  rcases h with ⟨hop, -, ⟨c, hscan, hplace, hcol⟩ | ⟨p, k, late, hscan, hplace, hcol⟩⟩ | ⟨hop, -, hplace, hcol⟩ | ⟨hop, -, hplace, hcol⟩
      | ⟨hop, -, hplace, hcol⟩ <;> simp only at hop hplace hcol <;> subst hop hplace hcol
  · unfold AccRec.todoOrder
    rw [hscan]
    rfl
  · unfold AccRec.todoOrder
    rw [hscan]
    rfl
  · cases acc <;> rfl
  · rfl
  · rfl

theorem sentOrder_tested {o : Order} (h : outsideStops (s.acc acc) acc o) (hholder : o.holder = none) :
    sentOrder s acc (tested (s.acc acc) o) = o := by
  obtain ⟨op, col, place, holder, timer⟩ := o
  rcases h with ⟨hop, htimer, -⟩ | ⟨hop, htimer, -⟩ | ⟨hop, htimer, -⟩ | ⟨hop, htimer, -⟩ <;> simp only at hop htimer hholder <;>
    subst hop htimer hholder <;> rfl

section
variable {o : Order}

theorem exec_orderSend (s : State) (acc : Acc) : exec (.orderSend acc) s = .next (s.start.orderSend acc) := rfl

theorem orderSend_outside (horder : (s.acc acc).order = none) (htodo : (s.acc acc).todo = some o.op) (ho : outsideStops (s.acc acc) acc o) :
    s.start.orderSend acc = s.start.tryOrder acc (tested (s.acc acc) o) :=
  orderSend_of_todo (s := s.start) horder htodo (todoOrder_of_outside ho)

/-- Its gates open to it, the order is sent. -/
theorem outside_sent (horder : (s.acc acc).order = none) (htodo : (s.acc acc).todo = some o.op) (hholder : o.holder = none)
    (ho : outsideStops (s.acc acc) acc o) (hguard : s.guardOpen o.col = false) (hlatch : o.col = 100 → s.station.latchOpen = false)
    (hlock : inMiddle (lockColumn (s.acc acc) o) = true → lockTaken s acc) :
    ∃ t, exec (.orderSend acc) s = .next t ∧ t.sent = [.accessor acc o] ∧ t.acc acc = atWork o (s.acc acc)
      ∧ t.rail.zone = (if inMiddle (lockColumn (s.acc acc) o) then some acc else s.rail.zone) ∧ lasting t = lasting s := by
  obtain ⟨hsent, hacc, -, hzone⟩ := tryOrder_sends (s := s.start) (acc := acc) (n := tested (s.acc acc) o)
    (gatesOk_iff.mpr ⟨hguard, hlatch⟩) hlock
  have horderOf : sentOrder s.start acc (tested (s.acc acc) o) = o := sentOrder_tested (s := s.start) ho hholder
  rw [horderOf] at hsent hacc
  refine ⟨_, exec_orderSend s acc, ?_, ?_, ?_, (lasting_orderSend _ _).trans (lasting_start s)⟩ <;> rw [orderSend_outside horder htodo ho]
  · exact hsent
  · exact hacc
  · exact hzone

/-- An OPEN guard or latch holds it back. -/
theorem outside_held (horder : (s.acc acc).order = none) (htodo : (s.acc acc).todo = some o.op) (ho : outsideStops (s.acc acc) acc o)
    (hopen : s.guardOpen o.col = true ∨ (o.col = 100 ∧ s.station.latchOpen = true)) :
    ∃ t, exec (.orderSend acc) s = .next t ∧ t.sent = [] ∧ (t.acc acc).order = none ∧ (t.acc acc).todo = some o.op
      ∧ lasting t = lasting s := by
  have hheld : Held s.start (s.start.orderSend acc) acc := by
    rw [orderSend_outside horder htodo ho]
    exact tryOrder_held (gatesOk_of_open (s := s.start) hopen)
  exact ⟨_, exec_orderSend s acc, hheld.sent, hheld.order.trans horder, hheld.todo.trans htodo, (lasting_orderSend _ _).trans (lasting_start s)⟩

/-- Without the lock it waits. -/
theorem outside_waits (horder : (s.acc acc).order = none) (htodo : (s.acc acc).todo = some o.op) (ho : outsideStops (s.acc acc) acc o)
    (hneeds : inMiddle (lockColumn (s.acc acc) o) = true) (hlock : lockRefused s acc) :
    ∃ t, exec (.orderSend acc) s = .next t ∧ (t.sent = [] ∧ (t.acc acc).order = none ∧ (t.acc acc).todo = some o.op
        ∧ lasting t = lasting s) ∧ t.rail.zone = s.rail.zone ∧ t.acc acc = waitForLock (s.acc acc)
      ∧ t.rail.zoneWait = listedForLock s acc := by
  have hself : (s.start.orderSend acc) = ({ s.start with rail := { s.rail with zoneWait := listedForLock s acc } } : State).updAcc acc waitForLock := by
    rw [orderSend_outside horder htodo ho]
    exact tryOrder_waits (s := s.start) hneeds hlock
  have hacc : (s.start.orderSend acc).acc acc = waitForLock (s.acc acc) := by
    rw [hself, State.acc_updAcc_self]
    rfl
  obtain ⟨horder', htodo'⟩ := waitForLock_keeps (s.acc acc)
  refine ⟨_, exec_orderSend s acc, ⟨?_, ?_, ?_, (lasting_orderSend _ _).trans (lasting_start s)⟩, ?_, hacc, ?_⟩
  · rw [hself]
    rfl
  · rw [hacc, horder', horder]
  · rw [hacc, htodo', htodo]
  · rw [hself]
    rfl
  · rw [hself]
    rfl

end

/-! ## The order of a stop (R103) -/

/-- The accessor stands at a stop of its trip, with nothing in flight and nothing else to be sent. -/
structure AtStop (s : State) (acc : Acc) (x : Stop) (rest : List Stop) : Prop where
  order : (s.acc acc).order = none
  todo : (s.acc acc).todo = none
  state : (s.acc acc).state = .running ∨ (s.acc acc).state = .waitingZone
  stops : s.stops acc = x :: rest

theorem updAcc_id {f : AccRec → AccRec} (h : f (s.acc acc) = s.acc acc) : s.updAcc acc f = s := by
  unfold State.updAcc
  rw [show f (s.rail.accs.get acc) = s.rail.accs.get acc from h]
  cases acc <;> rfl

/-- The stops of a trip as they are. -/
theorem updStops_stops (h : s.stops acc = x :: rest) : s.updStops acc (fun _ => x :: rest) = s := by
  refine updAcc_id ?_
  unfold State.stops at h
  cases htrip : (s.acc acc).trip with
  | none =>
    rw [htrip] at h
    cases h
  | some tr =>
    rw [htrip] at h
    have hstops : tr.stops = x :: rest := h
    rw [Option.map_some, ← hstops, ← htrip]

theorem bringStop_of_idle (horder : (s.acc acc).order = none) (htodo : (s.acc acc).todo = none)
    (hstate : (s.acc acc).state = .running ∨ (s.acc acc).state = .waitingZone) :
    s.bringStop acc = s.chooseStop acc [] (s.stops acc) := by
  unfold State.bringStop
  refine if_pos ?_
  rw [horder, htodo]
  rcases hstate with hs | hs <;> rw [hs] <;> rfl

theorem bringStop_eq (h : AtStop s acc x rest) : s.bringStop acc = s.chooseStop acc [] (x :: rest) := by
  rw [bringStop_of_idle h.order h.todo h.state, h.stops]

/-- A stop whose place needs no position more stays at the head. -/
theorem bringStop_of_reserved (h : AtStop s acc x rest) (hx : s.unreserved x = false) : s.bringStop acc = s := by
  rw [bringStop_eq h]
  unfold State.chooseStop
  rw [if_neg (by rw [hx]; decide), List.append_nil]
  exact updStops_stops h.stops

theorem nextOrder_of_stop (h : AtStop s acc x rest) (hx : s.unreserved x = false) : s.nextOrder acc = s.stopOrder x := by
  unfold State.nextOrder
  simp only [h.order, h.todo, h.stops, if_pos h.state, hx]
  rfl

theorem orderSend_of_stop (h : AtStop s acc x rest) (hx : s.unreserved x = false) (hn : s.stopOrder x = some n) :
    s.orderSend acc = s.tryOrder acc n := by
  unfold State.orderSend
  rw [bringStop_of_reserved h hx]
  exact sendNext_of_nextOrder ((nextOrder_of_stop h hx).trans hn)

/-- The order of a stop, as it is tested. -/
def stopTested (op : OrderOp) (place : Place) : NextOrder :=
  { op := op, col := placeColumn place, place := some place, needsLock := inMiddle (placeColumn place) }

section
variable {op : OrderOp} {place : Place}

theorem atWork_of_stop (h : AtStop s acc x rest) (o : Order) : atWork o (s.acc acc) = { s.acc acc with state := .running, order := some o } := by
  unfold atWork AccRec.unwait
  rw [← h.todo]
  rcases h.state with hs | hs
  · rw [if_neg (by rw [hs]; decide), ← hs]
  · rw [if_pos hs]

theorem stop_sent (h : AtStop s acc x rest) (hx : s.unreserved x = false) (hn : s.stopOrder x = some (stopTested op place))
    (hguard : s.guardOpen (placeColumn place) = false) (hlatch : placeColumn place = 100 → s.station.latchOpen = false)
    (hlock : inMiddle (placeColumn place) = true → lockTaken s acc) :
    ∃ t, exec (.orderSend acc) s = .next t ∧ t.sent = [.accessor acc (sentOrder s acc (stopTested op place))]
      ∧ t.acc acc = { s.acc acc with state := .running, order := some (sentOrder s acc (stopTested op place)) }
      ∧ t.recs = (takesInHand s op).recs ∧ t.rail.zone = (if inMiddle (placeColumn place) then some acc else s.rail.zone)
      ∧ lasting t = lasting s := by
  have hstart : AtStop s.start acc x rest := ⟨h.order, h.todo, h.state, h.stops⟩
  have htried := orderSend_of_stop hstart hx hn
  obtain ⟨hsent, hacc, hrecs, hzone⟩ := tryOrder_sends (s := s.start) (acc := acc) (n := stopTested op place)
    (gatesOk_iff.mpr ⟨hguard, hlatch⟩) hlock
  rw [← htried] at hsent hacc hrecs hzone
  refine ⟨_, exec_orderSend s acc, hsent, hacc.trans (atWork_of_stop hstart _), hrecs.trans ?_, hzone, (lasting_orderSend _ _).trans (lasting_start s)⟩
  cases op <;> rfl

theorem stop_held (h : AtStop s acc x rest) (hx : s.unreserved x = false) (hn : s.stopOrder x = some (stopTested op place))
    (hopen : s.guardOpen (placeColumn place) = true ∨ (placeColumn place = 100 ∧ s.station.latchOpen = true)) :
    ∃ t, exec (.orderSend acc) s = .next t ∧ t.sent = [] ∧ (t.acc acc).order = none ∧ lasting t = lasting s := by
  have hstart : AtStop s.start acc x rest := ⟨h.order, h.todo, h.state, h.stops⟩
  have hheld : Held s.start (s.start.orderSend acc) acc := by
    rw [orderSend_of_stop hstart hx hn]
    exact tryOrder_held (gatesOk_of_open (s := s.start) hopen)
  exact ⟨_, exec_orderSend s acc, hheld.sent, hheld.order.trans h.order, (lasting_orderSend _ _).trans (lasting_start s)⟩

theorem stop_waits (h : AtStop s acc x rest) (hx : s.unreserved x = false) (hn : s.stopOrder x = some (stopTested op place))
    (hneeds : inMiddle (placeColumn place) = true) (hlock : s.rail.zone = some (otherAcc acc)) :
    ∃ t, exec (.orderSend acc) s = .next t ∧ t.sent = [] ∧ (t.acc acc).state = .waitingZone ∧ t.rail.zone = some (otherAcc acc)
      ∧ t.rail.zoneWait = listedForLock s acc ∧ lasting t = lasting s := by
  have hstart : AtStop s.start acc x rest := ⟨h.order, h.todo, h.state, h.stops⟩
  have hself : s.start.orderSend acc = ({ s.start with rail := { s.rail with zoneWait := listedForLock s acc } } : State).updAcc acc waitForLock := by
    rw [orderSend_of_stop hstart hx hn]
    exact tryOrder_waits (s := s.start) hneeds (.inl hlock)
  refine ⟨_, exec_orderSend s acc, ?_, ?_, ?_, ?_, (lasting_orderSend _ _).trans (lasting_start s)⟩ <;> rw [hself]
  · rfl
  · rw [State.acc_updAcc_self]
    show (waitForLock (s.acc acc)).state = _
    unfold waitForLock
    split
    next => rfl
    next hno => exact h.state.resolve_left hno
  · exact hlock
  · rfl

end

theorem leg?_of_recs (h : u.recs = s.recs) (m : Nat) : u.leg? m = s.leg? m := by
  unfold State.leg? State.rec?
  rw [h]

/-- The stop of a PICK. -/
theorem stopOrder_pick (hl : s.leg? slot = some l) : s.stopOrder ⟨.pick, .record slot⟩ = some (stopTested (.pick slot) l.src) := by
  unfold State.stopOrder State.stopPlace
  simp only [hl, Option.map_some]
  rfl

/-- The stop of a PLACE. -/
theorem stopOrder_place (hl : s.leg? slot = some l) : s.stopOrder ⟨.place, .record slot⟩ = some (stopTested (.place (.record slot)) l.dst) := by
  unfold State.stopOrder State.stopPlace State.dstOf
  simp only [hl, Option.map_some]
  rfl

theorem unreserved_pick {ref : LegRef} : s.unreserved ⟨.pick, ref⟩ = false := rfl

theorem unreserved_iff : s.unreserved x = true ↔
    x.op = .place ∧ (s.dstOf x.ref = some (.shelf none) ∨ s.dstOf x.ref = some (.station none)) := by
  unfold State.unreserved
  split
  next hop hdst => simp [hop, hdst]
  next hop hdst => simp [hop, hdst]
  next h1 h2 =>
    refine ⟨fun h => absurd h (by decide), ?_⟩
    rintro ⟨hop, hdst | hdst⟩
    · exact absurd hdst (h1 hop)
    · exact absurd hdst (h2 hop)

theorem unreserved_place (hl : s.leg? slot = some l) (hdst : l.dst ≠ .shelf none ∧ l.dst ≠ .station none) :
    s.unreserved ⟨.place, .record slot⟩ = false := by
  refine Bool.eq_false_iff.mpr fun h => ?_
  have hdstOf : s.dstOf (.record slot) = some l.dst := congrArg (Option.map Leg.dst) hl
  rcases (unreserved_iff.mp h).2 with h | h
  · exact hdst.1 (Option.some.inj (hdstOf.symm.trans h))
  · exact hdst.2 (Option.some.inj (hdstOf.symm.trans h))

/-! ## A stop without a position (R97, R134, R136) -/

/-- A stop that needs a position of the shelf, or of the station. -/
abbrev toShelf (s : State) (y : Stop) : Prop := y.op = .place ∧ s.dstOf y.ref = some (.shelf none)
abbrev toStation (s : State) (y : Stop) : Prop := y.op = .place ∧ s.dstOf y.ref = some (.station none)

/-- It cannot have one. -/
abbrev stuck (s : State) (y : Stop) : Prop :=
  (toShelf s y ∧ ∀ p : Fin 4, s.rail.shelf[p] ≠ .empty) ∨ (toStation s y ∧ ∀ p : Fin 8, s.station.pos[p].state ≠ .empty)

theorem unreserved_of_needs (h : toShelf s x ∨ toStation s x) : s.unreserved x = true := by
  rcases h with ⟨hop, hdst⟩ | ⟨hop, hdst⟩
  · exact unreserved_iff.mpr ⟨hop, .inl hdst⟩
  · exact unreserved_iff.mpr ⟨hop, .inr hdst⟩

theorem unreserved_of_stuck (h : stuck s x) : s.unreserved x = true :=
  unreserved_of_needs (h.imp And.left And.left)

theorem reserveFor_shelf {p : Fin 4} (hx : toShelf s x) (hp : s.rail.shelf[p] = .empty) (hlow : ∀ q < p, s.rail.shelf[q] ≠ .empty) :
    s.reserveFor x.ref = some ((s.setShelf p (.reserved x.ref)).setDst x.ref (.shelf (some p))) := by
  have hempty : s.emptyShelf = some p := find?_finRange_of_lowest (decide_eq_true hp) fun q hq => decide_eq_false (hlow q hq)
  unfold State.reserveFor State.reserveShelf
  rw [hx.2, hempty]
  rfl

theorem reserveFor_station {p : Fin 8} (hx : toStation s x) (hp : s.station.pos[p].state = .empty)
    (hlow : ∀ q < p, s.station.pos[q].state ≠ .empty) :
    s.reserveFor x.ref = some ((s.updPos p (fun _ => { StationPos.initial with state := .reserved x.ref })).setDst x.ref (.station (some p))) := by
  have hempty : s.emptyStation = some p := find?_finRange_of_lowest (decide_eq_true hp) fun q hq => decide_eq_false (hlow q hq)
  unfold State.reserveFor State.reserveStation
  rw [hx.2, hempty]
  rfl

theorem dstOf_setShelf (s : State) (p : Fin 4) (y : ShelfPos) {ref : LegRef} : (s.setShelf p y).dstOf ref = s.dstOf ref := by
  cases ref <;> rfl

theorem dstOf_updPos (s : State) (p : Fin 8) (f : StationPos → StationPos) {ref : LegRef} : (s.updPos p f).dstOf ref = s.dstOf ref := by
  cases ref <;> rfl

theorem reserveFor_stuck (h : stuck s x) : s.reserveFor x.ref = none := by
  unfold State.reserveFor
  rcases h with ⟨⟨-, hdst⟩, hfull⟩ | ⟨⟨-, hdst⟩, hfull⟩ <;> rw [hdst]
  · exact Option.map_eq_none_iff.mpr (List.find?_eq_none.mpr fun p _ => by simpa using hfull p)
  · exact Option.map_eq_none_iff.mpr (List.find?_eq_none.mpr fun p _ => by simpa using hfull p)

/-- A to-place that has been named to a leg or put-back is the one it has. -/
theorem dstOf_setDst {ref : LegRef} {old new : Place} (h : s.dstOf ref = some old) : (s.setDst ref new).dstOf ref = some new := by
  cases ref with
  | record n =>
    obtain ⟨l, hl, -⟩ := Option.map_eq_some_iff.mp h
    unfold State.setDst State.dstOf
    simp only [State.leg?_updLeg_self, hl]
    rfl
  | putBack who k =>
    obtain ⟨b, hb, -⟩ := Option.map_eq_some_iff.mp h
    obtain ⟨tr, htr, hfind⟩ := Option.bind_eq_some_iff.mp hb
    have hfound : (tr.putBacks.map fun b => if b.holder = k then { b with dst := new } else b).find? (fun b => b.holder = k)
        = some { b with dst := new } := by
      rw [List.find?_map]
      have hk : b.holder = k := by simpa using List.find?_some hfind
      have hsame : ((fun b : PutBack => decide (b.holder = k)) ∘ fun b => if b.holder = k then { b with dst := new } else b)
          = fun b => decide (b.holder = k) := by
        funext y
        by_cases hy : y.holder = k <;> simp [hy]
      rw [hsame, hfind, Option.map_some, if_pos hk]
    unfold State.setDst State.dstOf
    simp only [State.acc_updAcc_self, htr]
    exact congrArg (Option.map PutBack.dst) hfound

theorem unreserved_named {p : Place} (h : s.dstOf x.ref = some p) (hshelf : p ≠ .shelf none) (hstation : p ≠ .station none) :
    s.unreserved x = false := by
  refine Bool.eq_false_iff.mpr fun hx => ?_
  rcases (unreserved_iff.mp hx).2 with hx | hx
  · exact hshelf (Option.some.inj (h.symm.trans hx))
  · exact hstation (Option.some.inj (h.symm.trans hx))

theorem start_setDst (s : State) (ref : LegRef) (dst : Place) : (s.setDst ref dst).start = s.start.setDst ref dst := by
  cases ref <;> rfl

/-- Naming a to-place leaves each accessor at its stop. -/
theorem setDst_keeps (s : State) (ref : LegRef) (dst : Place) (acc : Acc) :
    ((s.setDst ref dst).acc acc).order = (s.acc acc).order ∧ ((s.setDst ref dst).acc acc).todo = (s.acc acc).todo
      ∧ ((s.setDst ref dst).acc acc).state = (s.acc acc).state ∧ (s.setDst ref dst).stops acc = s.stops acc := by
  cases ref with
  | record n => exact ⟨rfl, rfl, rfl, rfl⟩
  | putBack who k =>
    unfold State.stops State.setDst
    simp only [State.acc_updAcc]
    split
    next h =>
      subst h
      cases (s.acc acc).trip <;> exact ⟨rfl, rfl, rfl, rfl⟩
    next => exact ⟨rfl, rfl, rfl, rfl⟩

theorem atStop_of_accs {v : State} (haccs : v.rail.accs = s.rail.accs) (h : AtStop s acc x rest) : AtStop v acc x rest := by
  have hsame : v.acc acc = s.acc acc := congrArg (fun accs : PerAcc AccRec => accs.get acc) haccs
  refine ⟨hsame ▸ h.order, hsame ▸ h.todo, hsame ▸ h.state, ?_⟩
  have hstops := h.stops
  unfold State.stops at hstops ⊢
  rwa [hsame]

theorem atStop_setDst {ref : LegRef} {dst : Place} (h : AtStop s acc x rest) : AtStop (s.setDst ref dst) acc x rest := by
  obtain ⟨horder, htodo, hstate, hstops⟩ := setDst_keeps s ref dst acc
  exact ⟨horder.trans h.order, htodo.trans h.todo, hstate ▸ h.state, hstops.trans h.stops⟩

/-- The head stop gets the position that is reserved for it. -/
theorem orderSend_reserves (h : AtStop s acc x rest) (hx : s.unreserved x = true) (hu : s.reserveFor x.ref = some u)
    (hat : AtStop u acc x rest) (hnow : u.unreserved x = false) : s.orderSend acc = u.orderSend acc := by
  have hbring : s.bringStop acc = u := by
    rw [bringStop_eq h]
    unfold State.chooseStop
    rw [if_pos hx, hu]
    exact (congrArg (fun l => u.updStops acc fun _ => x :: l) (List.append_nil rest)).trans (updStops_stops hat.stops)
  unfold State.orderSend
  rw [hbring, bringStop_of_reserved hat hnow]

/-- Accessors change in either order when the changes commute. -/
theorem updAcc_comm {who : Acc} {f g : AccRec → AccRec} (h : ∀ y, g (f y) = f (g y)) :
    (s.updAcc acc f).updAcc who g = (s.updAcc who g).updAcc acc f := by
  unfold State.updAcc
  cases acc <;> cases who <;> simp [PerAcc.set, PerAcc.get, h]

theorem updStops_twice {f : List Stop → List Stop} {stops : List Stop} :
    (s.updStops acc f).updStops acc (fun _ => stops) = s.updStops acc (fun _ => stops) := by
  unfold State.updStops State.updAcc
  simp only [PerAcc.get_set_self, Option.map_map]
  cases acc <;> rfl

theorem dstOf_updStops {f : List Stop → List Stop} (ref : LegRef) : (s.updStops acc f).dstOf ref = s.dstOf ref := by
  cases ref with
  | record n => rfl
  | putBack who k =>
    unfold State.dstOf State.updStops
    simp only [State.acc_updAcc]
    split
    next h =>
      subst h
      cases (s.acc who).trip <;> rfl
    next => rfl

theorem setDst_updStops {f : List Stop → List Stop} (ref : LegRef) (dst : Place) :
    (s.updStops acc f).setDst ref dst = (s.setDst ref dst).updStops acc f := by
  cases ref with
  | record n => rfl
  | putBack who k =>
    unfold State.setDst State.updStops
    exact updAcc_comm fun y => by cases y.trip <;> rfl

theorem reserveFor_updStops {f : List Stop → List Stop} (ref : LegRef) :
    (s.updStops acc f).reserveFor ref = (s.reserveFor ref).map (fun v => v.updStops acc f) := by
  unfold State.reserveFor
  rw [dstOf_updStops]
  split
  next =>
    unfold State.reserveShelf
    rw [Option.map_map]
    exact congrArg (fun g => Option.map g s.emptyShelf) (funext fun p => setDst_updStops (s := s.setShelf p (.reserved ref)) ref _)
  next =>
    unfold State.reserveStation
    rw [Option.map_map]
    exact congrArg (fun g => Option.map g s.emptyStation) 
      (funext fun p => setDst_updStops (s := s.updPos p fun _ => { StationPos.initial with state := .reserved ref }) ref _)
  next => rfl

theorem unreserved_updStops {f : List Stop → List Stop} (y : Stop) : (s.updStops acc f).unreserved y = s.unreserved y := by
  unfold State.unreserved
  rw [dstOf_updStops]

/-- A stop that stands last instead of behind the others makes no difference to one that can be brought to the head. -/
theorem chooseStop_last {f : List Stop → List Stop} (behind : List Stop) (stops : List Stop) (hfree : ∃ y ∈ stops, s.unreserved y = false) :
    (s.updStops acc f).chooseStop acc behind (stops ++ [x]) = s.chooseStop acc (x :: behind) stops := by
  induction stops generalizing behind with
  | nil =>
    obtain ⟨y, hy, -⟩ := hfree
    exact absurd hy List.not_mem_nil
  | cons y more ih =>
    rw [List.cons_append]
    unfold State.chooseStop
    rw [unreserved_updStops, reserveFor_updStops]
    have hlist : more ++ [x] ++ behind = more ++ x :: behind := List.append_assoc more [x] behind
    by_cases hy : s.unreserved y = true
    · rw [if_pos hy, if_pos hy]
      cases s.reserveFor y.ref with
      | none =>
        refine ih (behind ++ [y]) ?_
        obtain ⟨w, hw, hwfree⟩ := hfree
        rcases List.mem_cons.mp hw with rfl | hw
        · exact absurd (hy.symm.trans hwfree) (by decide)
        · exact ⟨w, hw, hwfree⟩
      | some v =>
        show (v.updStops acc f).updStops acc (fun _ => y :: (more ++ [x] ++ behind)) = v.updStops acc fun _ => y :: (more ++ x :: behind)
        rw [updStops_twice, hlist]
    · rw [if_neg hy, if_neg hy, updStops_twice, hlist]

/-- A stuck stop moves behind the others while one of them needs no position. -/
theorem orderSend_moves (h : AtStop s acc x rest) (hx : stuck s x) (hfree : ∃ y ∈ rest, s.unreserved y = false) :
    s.orderSend acc = (s.updStops acc (fun _ => rest ++ [x])).orderSend acc := by
  have hacc : (s.updStops acc (fun _ => rest ++ [x])).acc acc
      = { s.acc acc with trip := (s.acc acc).trip.map (fun t => { t with stops := rest ++ [x] }) } := State.acc_updAcc_self _ _ _
  have hstops : (s.updStops acc (fun _ => rest ++ [x])).stops acc = rest ++ [x] := by
    have hold := h.stops
    unfold State.stops at hold ⊢
    rw [hacc]
    cases htrip : (s.acc acc).trip with
    | none =>
      rw [htrip] at hold
      cases hold
    | some tr => rfl
  have hbring : (s.updStops acc (fun _ => rest ++ [x])).bringStop acc = s.bringStop acc := by
    rw [bringStop_of_idle (by rw [hacc, h.order]) (by rw [hacc, h.todo]) (by rw [hacc]; exact h.state), hstops,
      chooseStop_last [] rest hfree, bringStop_eq h]
    conv_rhs => unfold State.chooseStop
    rw [if_pos (unreserved_of_stuck hx), reserveFor_stuck hx]
    rfl
  unfold State.orderSend
  rw [hbring]

/-- When every stop left is stuck, the head waits. -/
theorem chooseStop_stuck (behind stops : List Stop) (hall : ∀ y ∈ stops, stuck s y) (hhead : (behind ++ stops).head? = some x) :
    s.chooseStop acc behind stops = s.awaitPosition acc x := by
  induction stops generalizing behind with
  | nil =>
    rw [List.append_nil] at hhead
    cases behind with
    | nil => cases hhead
    | cons y more =>
      cases hhead
      rfl
  | cons y more ih =>
    have hy : stuck s y := hall y List.mem_cons_self
    unfold State.chooseStop
    rw [if_pos (unreserved_of_stuck hy), reserveFor_stuck hy]
    exact ih (behind ++ [y]) (fun w hw => hall w (List.mem_cons_of_mem _ hw)) (by rwa [List.append_assoc])

/-- A stop of the trip stands in a wait list already. -/
abbrev stands (s : State) (stops : List Stop) : Prop := ∃ y ∈ stops, y.ref ∈ s.rail.shelfWait ∨ y.ref ∈ s.station.resWait

theorem listed_iff (y : Stop) : s.listed y = true ↔ y.ref ∈ s.rail.shelfWait ∨ y.ref ∈ s.station.resWait := by
  unfold State.listed
  simp

theorem anyListed_iff (hstops : s.stops acc = x :: rest) :
    (s.listed x || (s.stops acc).any s.listed) = true ↔ stands s (x :: rest) := by
  rw [hstops, Bool.or_eq_true, List.any_eq_true]
  constructor
  · rintro (h | ⟨y, hy, hlisted⟩)
    · exact ⟨x, List.mem_cons_self, (listed_iff x).mp h⟩
    · exact ⟨y, hy, (listed_iff y).mp hlisted⟩
  · rintro ⟨y, hy, hlisted⟩
    exact .inr ⟨y, hy, (listed_iff y).mpr hlisted⟩

/-- The stop that waits stands in the list of what it needs, unless one of the trip stands in a list already. -/
theorem joinWait_eq [Decidable (¬stands s (x :: rest) ∧ toShelf s x)] [Decidable (¬stands s (x :: rest) ∧ toStation s x)]
    (hstops : s.stops acc = x :: rest) (hx : toShelf s x ∨ toStation s x) :
    s.joinWait acc x = { s with
      rail := { s.rail with shelfWait := s.rail.shelfWait ++ (if ¬stands s (x :: rest) ∧ toShelf s x then [x.ref] else []) },
      station := { s.station with resWait := s.station.resWait ++ (if ¬stands s (x :: rest) ∧ toStation s x then [x.ref] else []) } } := by
  unfold State.joinWait
  by_cases hstands : stands s (x :: rest)
  · rw [if_pos ((anyListed_iff hstops).mpr hstands), if_neg fun h => h.1 hstands, if_neg fun h => h.1 hstands, List.append_nil, List.append_nil]
  · rw [if_neg fun h => hstands ((anyListed_iff hstops).mp h)]
    rcases hx with hx | hx
    · rw [if_pos ⟨hstands, hx⟩, if_neg (fun h => by cases hx.2.symm.trans h.2.2), List.append_nil, hx.2]
    · rw [if_neg (fun h => by cases hx.2.symm.trans h.2.2), if_pos ⟨hstands, hx⟩, List.append_nil, hx.2]

/-- With every stop stuck an accessor without the lock sends nothing. -/
theorem orderSend_stuck (h : AtStop s acc x rest) (hall : ∀ y ∈ x :: rest, stuck s y) :
    s.orderSend acc = (s.awaitPosition acc x).sendNext acc := by
  unfold State.orderSend
  rw [bringStop_eq h, chooseStop_stuck [] (x :: rest) hall rfl]

theorem sendNext_unreserved (h : AtStop u acc x rest) (hx : u.unreserved x = true) : u.sendNext acc = u := by
  have hnone : u.nextOrder acc = none := by
    unfold State.nextOrder
    simp only [h.order, h.todo, h.stops, if_pos h.state, hx]
    rfl
  unfold State.sendNext
  rw [hnone]

/-! ## The obligation -/

/-- Settles O47, from what the gates answer to an order that is tested, at a stop and outside the stops, and from what a stop without a
position does. -/
theorem ordersPassTheirGates : Obligations.OrdersPassTheirGates := by
  unfold Obligations.OrdersPassTheirGates
  refine ⟨?_, ?_, ?_⟩
  · intro acc n l x rest h s horder htodo hstate hstops href hl place holder col middle hdst hholder
    have hat : AtStop s acc x rest := ⟨horder, htodo, hstate, hstops⟩
    obtain ⟨xop, ref⟩ := x
    obtain rfl : ref = .record n := href
    cases xop with
    | pick =>
      have hn := stopOrder_pick (s := s) hl
      refine ⟨fun hguard hlatch hlock => ?_, fun hopen => stop_held hat unreserved_pick hn hopen, fun hmiddle hzone =>
        stop_waits hat unreserved_pick hn ((Upkeep.Edit.inMiddle_iff _).mpr hmiddle) hzone⟩
      obtain ⟨t, hexec, hsent, hacc, hrecs, hzone, hlast⟩ := stop_sent hat unreserved_pick hn hguard hlatch fun hmiddle =>
        hlock.resolve_left (not_not_intro ((Upkeep.Edit.inMiddle_iff _).mp hmiddle))
      refine ⟨t, _, hexec, rfl, rfl, rfl, hholder, rfl, hsent, hacc, ?_, hzone.trans (if_congr (Upkeep.Edit.inMiddle_iff _) rfl rfl), hlast⟩
      rw [leg?_of_recs hrecs, takesInHand, State.leg?_updLeg_self, hl]
      rfl
    | place =>
      have hn := stopOrder_place (s := s) hl
      have hx := unreserved_place hl (hdst rfl)
      refine ⟨fun hguard hlatch hlock => ?_, fun hopen => stop_held hat hx hn hopen, fun hmiddle hzone =>
        stop_waits hat hx hn ((Upkeep.Edit.inMiddle_iff _).mpr hmiddle) hzone⟩
      obtain ⟨t, hexec, hsent, hacc, hrecs, hzone, hlast⟩ := stop_sent hat hx hn hguard hlatch fun hmiddle =>
        hlock.resolve_left (not_not_intro ((Upkeep.Edit.inMiddle_iff _).mp hmiddle))
      refine ⟨t, _, hexec, rfl, rfl, rfl, ?_, rfl, hsent, hacc, ?_, hzone.trans (if_congr (Upkeep.Edit.inMiddle_iff _) rfl rfl), hlast⟩
      · exact (congrArg (fun y : Option Leg => y.bind (·.holder)) hl).trans hholder
      · rw [leg?_of_recs hrecs]
        exact hl
  · intro acc o s horder htodo hholder x ho at' lock unsent
    have hlockIff : inMiddle (lockColumn (s.acc acc) o) = true ↔ lock := Upkeep.Edit.inMiddle_iff _
    refine ⟨fun hguard hlatch hlock => ?_, fun hopen => outside_held horder htodo ho hopen, fun hneeds hzone => ?_⟩
    · obtain ⟨t, hexec, hsent, hacc, hzone, hlast⟩ := outside_sent horder htodo hholder ho hguard hlatch fun hneeds =>
        hlock.resolve_left (not_not_intro (hlockIff.mp hneeds))
      refine ⟨t, hexec, hsent, hacc.trans ?_, hzone.trans (if_congr hlockIff rfl rfl), hlast⟩
      unfold atWork AccRec.unwait
      split <;> rfl
    · obtain ⟨t, hexec, hunsent, hsame, hacc, hwait⟩ := outside_waits horder htodo ho (hlockIff.mpr hneeds) hzone
      refine ⟨t, hexec, hunsent, hsame, ?_, hwait⟩
      rw [hacc]
      unfold waitForLock
      exact apply_ite AccRec.state _ _ _
  · intro acc x rest s horder htodo hstate hstops toShelf' toStation' noShelf noStation same stuck'
    have hat : AtStop s.start acc x rest := ⟨horder, htodo, hstate, hstops⟩
    refine ⟨fun p hx hp hlow => ?_, fun p hx hp hlow => ?_, fun hx hfree => ?_, fun hall => ?_⟩
    · refine congrArg Host.Outcome.next ?_
      rw [start_setDst]
      refine orderSend_reserves hat (unreserved_of_needs (.inl hx)) (reserveFor_shelf (s := s.start) hx hp hlow)
        (atStop_setDst (atStop_of_accs (s := s.start) rfl hat)) (unreserved_named (p := .shelf (some p)) (dstOf_setDst (old := .shelf none) ?_) nofun nofun)
      exact (dstOf_setShelf s.start p _).trans hx.2
    · refine congrArg Host.Outcome.next ?_
      rw [start_setDst]
      refine orderSend_reserves hat (unreserved_of_needs (.inr hx)) (reserveFor_station (s := s.start) hx hp hlow)
        (atStop_setDst (atStop_of_accs (s := s.start) rfl hat)) (unreserved_named (p := .station (some p)) (dstOf_setDst (old := .station none) ?_) nofun nofun)
      exact (dstOf_updPos s.start p (fun _ => { StationPos.initial with state := .reserved x.ref })).trans hx.2
    · refine congrArg Host.Outcome.next (orderSend_moves hat hx ?_)
      obtain ⟨y, hy, hshelf, hstation⟩ := hfree
      refine ⟨y, hy, Bool.eq_false_iff.mpr fun hneeds => ?_⟩
      obtain ⟨hop, hdst | hdst⟩ := unreserved_iff.mp hneeds
      · exact hshelf ⟨hop, hdst⟩
      · exact hstation ⟨hop, hdst⟩
    · have hneeds : toShelf s.start x ∨ toStation s.start x := (hall x List.mem_cons_self).imp And.left And.left
      intro hstands u
      have hjoin : s.start.joinWait acc x = u := joinWait_eq (s := s.start) hstops hneeds
      have hdst : ∀ ref, u.dstOf ref = s.dstOf ref := fun ref => by cases ref <;> rfl
      have hstuck : u.unreserved x = true := by
        rw [show u.unreserved x = s.start.unreserved x from ?_]
        · exact unreserved_of_needs hneeds
        · unfold State.unreserved
          rw [hdst]
          rfl
      have hsends := orderSend_stuck hat hall
      unfold State.awaitPosition at hsends
      simp only [hjoin] at hsends
      refine ⟨fun hno => ?_, fun hmine => ?_⟩
      · rw [if_neg (show ¬u.rail.zone = some acc from hno), sendNext_unreserved (atStop_of_accs (s := s.start) (v := u) rfl hat) hstuck] at hsends
        exact congrArg Host.Outcome.next hsends
      · rw [if_pos (show u.rail.zone = some acc from hmine)] at hsends
        refine congrArg Host.Outcome.next (hsends.trans ?_)
        have hnone : (u.updAcc acc (fun r => { r with todo := some .park })).bringStop acc = u.updAcc acc fun r => { r with todo := some .park } := by
          unfold State.bringStop
          simp only [State.acc_updAcc_self, Option.isNone_some, Bool.and_false, Bool.false_and, Bool.false_eq_true, if_false]
        show _ = ((u.updAcc acc (fun r => { r with todo := some .park })).bringStop acc).sendNext acc
        rw [hnone]

end OrderGates

end Sys2Proof
end

section
/-! PROOFS. The zone lock, a shelf or station position and a station scan go to the one first in line (R97, R98, R110, R137, R138). -/

namespace Sys2Proof

namespace FirstInLine

open Machine Safety Settling Withdrawal Cleaning OrderGates

variable {s : State} {acc : Acc} {n : NextOrder}

/-! ## The lock (R110) -/

theorem zoneGrant_first {who : Acc} {others : List Acc} (hwait : s.rail.zoneWait = who :: others) (hzone : s.rail.zone = none)
    (hopen : s.rail.middleOpen = false) : s.zoneGrant
      = ({ s with rail := { s.rail with zone := some who, zoneWait := others } } : State).updAcc who AccRec.unwait := by
  unfold State.zoneGrant
  rw [hwait]
  exact if_pos ⟨hzone, hopen⟩

theorem zoneGrant_nothing (h : s.rail.zone ≠ none ∨ s.rail.middleOpen = true) : s.zoneGrant = s := by
  have hno : ¬(s.rail.zone = none ∧ s.rail.middleOpen = false) := by
    rintro ⟨hzone, hclosed⟩
    rcases h with h | h
    · exact h hzone
    · exact absurd (h.symm.trans hclosed) (by decide)
  unfold State.zoneGrant
  split
  next => rfl
  next => exact if_neg hno

theorem unwait_state (x : AccRec) : x.unwait.state ≠ .waitingZone := by
  unfold AccRec.unwait
  split
  next => exact nofun
  next h => exact h

/-! ## Positions (R97, R137, R138) -/

/-- Naming a to-place changes no position and no wait list. -/
theorem setDst_rail (s : State) (ref : LegRef) (dst : Place) : (s.setDst ref dst).rail.shelf = s.rail.shelf
    ∧ (s.setDst ref dst).rail.shelfWait = s.rail.shelfWait ∧ (s.setDst ref dst).station = s.station := by
  cases ref <;> exact ⟨rfl, rfl, rfl⟩

theorem dstOf_start (s : State) (ref : LegRef) : s.start.dstOf ref = s.dstOf ref := by cases ref <;> rfl

/-- The stop that has waited longest gets the shelf position. -/
theorem claimShelf_first {p : Fin 4} {ref : LegRef} {rest : List LegRef} {l : Place} (hp : s.rail.shelf[p] = .empty)
    (hwait : s.rail.shelfWait = ref :: rest) (hdst : s.dstOf ref = some l) :
    (s.claimShelf p).rail.shelf = s.rail.shelf.set p (.reserved ref) ∧ (s.claimShelf p).rail.shelfWait = rest
      ∧ (s.claimShelf p).dstOf ref = some (.shelf (some p)) ∧ (s.claimShelf p).station = s.station := by
  let claimed : State := ({ s with rail := { s.rail with shelfWait := rest } } : State).setShelf p (.reserved ref)
  have hclaim : s.claimShelf p = claimed.setDst ref (.shelf (some p)) := by
    unfold State.claimShelf
    rw [hwait]
    exact if_pos hp
  obtain ⟨hshelf, hlist, hstation⟩ := setDst_rail claimed ref (.shelf (some p))
  rw [hclaim]
  refine ⟨hshelf, hlist, dstOf_setDst (old := l) ?_, hstation⟩
  cases ref <;> exact hdst

theorem claimShelf_nobody {p : Fin 4} (hwait : s.rail.shelfWait = []) : s.claimShelf p = s := by
  unfold State.claimShelf
  rw [hwait]

theorem emptyShelf_lowest {p : Fin 4} (hp : s.rail.shelf[p] = .empty) (hlow : ∀ q < p, s.rail.shelf[q] ≠ .empty) : s.emptyShelf = some p :=
  find?_finRange_of_lowest (decide_eq_true hp) fun q hq => decide_eq_false (hlow q hq)

theorem emptyStation_lowest {p : Fin 8} (hp : s.station.pos[p].state = .empty) (hlow : ∀ q < p, s.station.pos[q].state ≠ .empty) :
    s.emptyStation = some p :=
  find?_finRange_of_lowest (decide_eq_true hp) fun q hq => decide_eq_false (hlow q hq)

theorem exec_shelfPositionClaim {p : Fin 4} (hp : s.rail.shelf[p] = .empty) (hlow : ∀ q < p, s.rail.shelf[q] ≠ .empty) :
    exec .shelfPositionClaim s = .next (s.start.claimShelf p) := by
  show Host.Outcome.next (match s.emptyShelf with
     | some p => s.start.claimShelf p
     | none => s.start) = _
  rw [emptyShelf_lowest hp hlow]

/-- With no position EMPTY, or no stop waiting, nothing is claimed. -/
theorem exec_shelfPositionClaim_nothing (h : s.rail.shelfWait = [] ∨ ∀ p : Fin 4, s.rail.shelf[p] ≠ .empty) :
    exec .shelfPositionClaim s = .next { s with sent := [] } := by
  show Host.Outcome.next (match s.emptyShelf with
     | some p => s.start.claimShelf p
     | none => s.start) = _
  cases hfirst : s.emptyShelf with
  | none => rfl
  | some p =>
    have hp : s.rail.shelf[p] = .empty := by simpa using find_finRange_some hfirst
    exact congrArg Host.Outcome.next (claimShelf_nobody (s := s.start) (h.resolve_right fun hfull => hfull p hp))

theorem exec_stationPositionClaim {p : Fin 8} (hp : s.station.pos[p].state = .empty) (hlow : ∀ q < p, s.station.pos[q].state ≠ .empty) :
    exec .stationPositionClaim s = .next (s.start.claimStation p) := by
  show Host.Outcome.next (match s.emptyStation with
     | some p => s.start.claimStation p
     | none => s.start) = _
  rw [emptyStation_lowest hp hlow]

theorem claimStation_first {p : Fin 8} {ref : LegRef} {rest : List LegRef} {l : Place} (hp : s.station.pos[p].state = .empty)
    (hwait : s.station.resWait = ref :: rest) (hdst : s.dstOf ref = some l) :
    (s.claimStation p).station.pos[p].state = .reserved ref ∧ (s.claimStation p).station.resWait = rest
      ∧ (s.claimStation p).dstOf ref = some (.station (some p)) ∧ (s.claimStation p).rail.shelf = s.rail.shelf := by
  let claimed : State := ({ s with station := { s.station with resWait := rest } } : State).updPos p
    (fun _ => { StationPos.initial with state := .reserved ref })
  have hclaim : s.claimStation p = claimed.setDst ref (.station (some p)) := by
    unfold State.claimStation
    rw [if_pos hp, hwait]
  obtain ⟨hshelf, -, hstation⟩ := setDst_rail claimed ref (.station (some p))
  have hpos : claimed.station.pos[p] = { StationPos.initial with state := .reserved ref } := State.updPos_self _ _ _
  rw [hclaim]
  refine ⟨?_, congrArg Station.resWait hstation, dstOf_setDst (old := l) ?_, hshelf⟩
  · rw [hstation, hpos]
  · cases ref <;> exact hdst

/-- What the station unit asks for at a position that expects a record's reel. -/
def supplyAsk (r : Rec) (slot : Nat) (p : Fin 8) : Ask :=
  { kind := .supply, template := r.template, block := .stationUnit, subject := .slot slot,
    fields := { noFields with serial := r.serial, position := some p, account := some r.account }, override := none }

/-- A position that expects a record's reel, with its SUPPLY prompt raised. -/
def expectingAt (slot num : Nat) : StationPos :=
  { state := .expecting slot, owner := none, flow := some .supply, misses := 0, scan := .none, prompt := .up num }

theorem updPos_twice (s : State) (p : Fin 8) (f g : StationPos → StationPos) :
    (s.updPos p f).updPos p g = s.updPos p (fun x => g (f x)) := by
  unfold State.updPos
  simp

/-- A record takes a position, and its SUPPLY prompt is raised. -/
theorem supplyAt_raised {slot : Nat} {p : Fin 8} {r : Rec} (hr : s.rec? slot = some r) (hroom : s.console.queue.length < 16) :
    ∃ c k, s.supplyAt slot p = ({ s with console := c } : State).updPos p (fun _ => expectingAt slot k)
      ∧ c.queue = s.console.queue ++ [promptOf s.console.templates[r.template] (supplyAsk r slot p) k] := by
  let taken : State := s.updPos p (fun _ => { StationPos.initial with state := .expecting slot, flow := some .supply })
  have hpos : taken.station.pos[p] = { StationPos.initial with state := .expecting slot, flow := some .supply } := State.updPos_self _ _ _
  have hasks : taken.stationAsk p = some (supplyAsk r slot p) := by
    unfold State.stationAsk
    simp only [hpos]
    exact congrArg (Option.map _) hr
  obtain ⟨c, k, hask, hqueue⟩ := ask_raised (s := taken) (supplyAsk r slot p) hroom
  refine ⟨c, k, ?_, hqueue⟩
  show taken.askStation p = _
  have hasked : taken.askStation p = ({ taken with console := c } : State).updPos p (fun x => { x with prompt := .up k }) := by
    unfold State.askStation
    simp only [hasks, hask]
  rw [hasked]
  exact updPos_twice ({ s with console := c } : State) p (fun _ => { StationPos.initial with state := .expecting slot, flow := some .supply })
    (fun x => { x with prompt := .up k })

/-- The record that has waited longest takes the position. -/
theorem claimStation_supply {p : Fin 8} {slot : Nat} {rest : List Nat} {r : Rec} (hp : s.station.pos[p].state = .empty)
    (hwait : s.station.resWait = []) (hsupply : s.station.supplyWait = slot :: rest) (hr : s.rec? slot = some r)
    (hroom : s.console.queue.length < 16) :
    ∃ c k, s.claimStation p = ({ s with station := { s.station with supplyWait := rest }, console := c } : State).updPos p (fun _ => expectingAt slot k)
      ∧ c.queue = s.console.queue ++ [promptOf s.console.templates[r.template] (supplyAsk r slot p) k] := by
  have hclaim : s.claimStation p = ({ s with station := { s.station with supplyWait := rest } } : State).supplyAt slot p := by
    unfold State.claimStation
    rw [if_pos hp, hwait, hsupply]
  rw [hclaim]
  exact supplyAt_raised (s := { s with station := { s.station with supplyWait := rest } }) hr hroom

/-! ## A station scan (R98) -/

theorem tryOrder_keeps (s : State) (acc : Acc) (n : NextOrder) :
    (s.tryOrder acc n).rail.scanReqs = s.rail.scanReqs ∧ (s.tryOrder acc n).station = s.station := by
  have hasked : (s.askZone acc).rail.scanReqs = s.rail.scanReqs ∧ (s.askZone acc).station = s.station := by
    unfold State.askZone
    split
    next => exact ⟨rfl, rfl⟩
    next =>
      split
      next => exact ⟨rfl, rfl⟩
      next => split <;> exact ⟨rfl, rfl⟩
  have hpassed : ∀ v : State, (v.passGates acc n).rail.scanReqs = v.rail.scanReqs ∧ (v.passGates acc n).station = v.station := by
    intro v
    unfold State.passGates
    split
    next =>
      dsimp only
      split
      next =>
        rw [sendOrder_eq]
        cases n.op <;> exact ⟨rfl, rfl⟩
      next => exact ⟨rfl, rfl⟩
    next => exact ⟨rfl, rfl⟩
  unfold State.tryOrder
  split
  next => exact ⟨(hpassed _).1.trans hasked.1, (hpassed _).2.trans hasked.2⟩
  next => exact hpassed s

/-- The oldest request has been taken, and its scan is to be sent. -/
def scanTaken (s : State) (acc : Acc) (q : ScanReq) (rest : List ScanReq) : State :=
  (({ s with rail := { s.rail with scanReqs := rest } } : State).updPos q.pos (fun x => { x with scan := .inFlight q.kind })).updAcc acc
    (fun x => { x with scan := some (.station q.pos q.kind false), todo := some .scan })

theorem canTakeScan_iff : s.canTakeScan acc = true ↔ s.free acc = true ∧ s.station.latchOpen = false ∧ s.rail.scanReqs ≠ [] := by
  unfold State.canTakeScan
  cases s.station.latchOpen <;> simp

theorem stationScanTaken_first {q : ScanReq} {rest : List ScanReq} (hfree : s.free acc = true) (hlatch : s.station.latchOpen = false)
    (hreqs : s.rail.scanReqs = q :: rest) : s.stationScanTaken acc = (scanTaken s acc q rest).orderSend acc := by
  unfold State.stationScanTaken
  rw [if_pos (canTakeScan_iff.mpr ⟨hfree, hlatch, by simp [hreqs]⟩), hreqs]
  rfl

theorem stationScanTaken_nothing (h : s.free acc = false ∨ s.station.latchOpen = true ∨ s.rail.scanReqs = []) :
    s.stationScanTaken acc = s := by
  refine if_neg fun hcan => ?_
  obtain ⟨hfree, hlatch, hreqs⟩ := canTakeScan_iff.mp hcan
  rcases h with h | h | h
  · exact absurd (hfree.symm.trans h) (by decide)
  · exact absurd (h.symm.trans hlatch) (by decide)
  · exact hreqs h

/-- The SCAN of a station position, as it is tested. -/
def scanTested (p : Fin 8) : NextOrder := { op := .scan, col := 100, place := some (.station (some p)), needsLock := true }

/-- A station scan that is taken is sent under the zone lock. -/
theorem scanTaken_sent {q : ScanReq} {rest : List ScanReq} (horder : (s.acc acc).order = none) (hlatch : s.station.latchOpen = false)
    (hopen : s.rail.middleOpen = false) (hzone : s.rail.zone = none ∨ s.rail.zone = some acc) :
    let t := (scanTaken s acc q rest).orderSend acc
    t.rail.scanReqs = rest ∧ (t.acc acc).scan = some (.station q.pos q.kind false) ∧ t.station.pos[q.pos].scan = .inFlight q.kind
      ∧ t.rail.zone = some acc
      ∧ t.sent = s.sent ++ [.accessor acc { op := .scan, col := 100, place := some (.station (some q.pos)), holder := none,
                                             timer := (s.acc acc).limScan }] := by
  have hacc : (scanTaken s acc q rest).acc acc
      = { s.acc acc with scan := some (.station q.pos q.kind false), todo := some .scan } := State.acc_updAcc_self _ _ _
  have horder' : ((scanTaken s acc q rest).acc acc).order = none := by rw [hacc, horder]
  have htodo : ((scanTaken s acc q rest).acc acc).todo = some .scan := by rw [hacc]
  have hscan : ((scanTaken s acc q rest).acc acc).scan = some (.station q.pos q.kind false) := by rw [hacc]
  have htested : ((scanTaken s acc q rest).acc acc).todoOrder acc .scan = some (scanTested q.pos) := by
    unfold AccRec.todoOrder
    rw [hscan]
    rfl
  have hsends := orderSend_of_todo horder' htodo htested
  obtain ⟨hsent, hat, -, hlocked⟩ := tryOrder_sends (s := scanTaken s acc q rest) (acc := acc) (n := scanTested q.pos)
    (gatesOk_iff.mpr ⟨hopen, fun _ => hlatch⟩) fun _ => hzone.elim (fun h => .inr ⟨h, hopen⟩) .inl
  obtain ⟨hreqs, hstation⟩ := tryOrder_keeps (scanTaken s acc q rest) acc (scanTested q.pos)
  intro t
  rw [show t = _ from hsends]
  have hunwait : ∀ x : AccRec, x.unwait.scan = x.scan := fun x => by
    unfold AccRec.unwait
    split <;> rfl
  refine ⟨hreqs, ?_, ?_, hlocked, hsent.trans ?_⟩
  · rw [hat]
    exact (hunwait _).trans hscan
  · rw [hstation]
    exact congrArg StationPos.scan (State.updPos_self ({ s with rail := { s.rail with scanReqs := rest } } : State) q.pos
      (fun x => { x with scan := .inFlight q.kind }))
  · unfold sentOrder
    rw [hacc]
    rfl

/-! ## The obligation -/

/-- Settles O48, from what each of the four commands does for the one first in line. -/
theorem lockPositionsAndScans : Obligations.LockPositionsAndScans := by
  unfold Obligations.LockPositionsAndScans
  intro s
  refine ⟨fun who others hwait => ⟨fun hzone hopen => ?_, fun hno => ?_⟩, fun p ref rest l hp hlow hwait hdst => ?_,
    exec_shelfPositionClaim_nothing, fun p hp hlow => ⟨fun ref rest l hwait hdst => ?_, fun slot rest r hwait hsupply hr hroom => ?_⟩,
    fun acc q rest hfree hlatch hreqs horder hopen hzone => ?_, fun acc h => ?_⟩
  · have hgrant := zoneGrant_first (s := s.start) hwait hzone hopen
    refine ⟨_, rfl, ?_, ?_, ?_, (lasting_zoneGrant _).trans (lasting_start s)⟩
    · rw [hgrant]
      rfl
    · rw [hgrant]
      rfl
    · rw [hgrant, State.acc_updAcc_self]
      exact unwait_state _
  · exact congrArg Host.Outcome.next (zoneGrant_nothing (s := s.start) hno)
  · refine ⟨_, exec_shelfPositionClaim hp hlow, ?_⟩
    exact claimShelf_first (s := s.start) hp hwait ((dstOf_start s ref).trans hdst)
  · refine ⟨_, exec_stationPositionClaim hp hlow, ?_⟩
    exact claimStation_first (s := s.start) hp hwait ((dstOf_start s ref).trans hdst)
  · obtain ⟨c, k, htaken, hqueue⟩ := claimStation_supply (s := s.start) hp hwait hsupply hr hroom
    refine ⟨_, promptOf s.console.templates[r.template] (supplyAsk r slot p) k, exec_stationPositionClaim hp hlow, ?_⟩
    rw [htaken]
    exact ⟨rfl, hqueue, rfl, rfl, rfl, rfl, rfl, State.updPos_self _ _ _, rfl⟩
  · obtain ⟨hrest, hscan, hpos, hlocked, hsent⟩ := scanTaken_sent (s := s.start) (q := q) (rest := rest) horder hlatch hopen hzone
    refine ⟨_, congrArg Host.Outcome.next (stationScanTaken_first (s := s.start) hfree hlatch hreqs), hrest, hscan, hpos, hlocked, hsent, ?_⟩
    rw [← stationScanTaken_first (s := s.start) hfree hlatch hreqs]
    exact (lasting_stationScanTaken _ _).trans (lasting_start s)
  · exact congrArg Host.Outcome.next (stationScanTaken_nothing (s := s.start) h)

end FirstInLine

end Sys2Proof
end

section
/-! PROOFS. A leg that becomes READY, the opening, the filling and the start of a trip, and its gather window (R95, R98 to R102). -/

namespace Sys2Proof

namespace Trips

open Machine Safety Settling Withdrawal OrderGates

variable {s t u v : State} {acc : Acc} {n m : Nat} {l j : Leg} {tr : Trip}

/-! ## Free accessors and eligible legs (R98, R99) -/

theorem free_iff : s.free acc = true ↔ (s.acc acc).state = .idle ∧ (s.acc acc).scan = none ∧ s.rail.quiesce = false := by
  unfold State.free
  cases (s.acc acc).scan <;> cases s.rail.quiesce <;> simp

theorem heldBack_iff {prio : Fin 4} :
    s.heldBack acc prio = false ↔ ∀ x, s.audits.get acc = some x → x.state ≠ .done → x.yieldClass ≤ prio.val := by
  unfold State.heldBack State.activeAudit
  cases s.audits.get acc with
  | none => simp
  | some x =>
    by_cases hdone : x.state = .done
    · simp [Audit.active, Option.filter_some, hdone]
    · simp [Audit.active, Option.filter_some, hdone]

theorem canReserve_iff {dst : Place} : s.canReserve dst = true ↔
    (dst = .shelf none → ∃ p : Fin 4, s.rail.shelf[p] = .empty) ∧ (dst = .station none → ∃ p : Fin 8, s.station.pos[p].state = .empty) := by
  rw [← emptyShelf_isSome, ← emptyStation_isSome]
  unfold State.canReserve
  split
  next => simp
  next => simp
  next h1 h2 => exact ⟨fun _ => ⟨fun h => (h1 h).elim, fun h => (h2 h).elim⟩, fun _ => rfl⟩

theorem notAtStation_iff {place : Place} : place.atStation = false ↔ ∀ p, place ≠ .station p := by
  cases place <;> simp [Place.atStation]

theorem latched_iff {src dst : Place} : (s.station.latchOpen && (src.atStation || dst.atStation)) = false ↔
    (s.station.latchOpen = true → ∀ p, src ≠ .station p ∧ dst ≠ .station p) := by
  rw [Bool.and_eq_false_iff, Bool.or_eq_false_iff, notAtStation_iff, notAtStation_iff, ← forall_and]
  cases s.station.latchOpen <;> simp

theorem eligible_iff : s.eligible acc m = true ↔ ∃ l, s.leg? m = some l
    ∧ (∀ x, s.audits.get acc = some x → x.state ≠ .done → x.yieldClass ≤ l.prio.val)
    ∧ (s.station.latchOpen = true → ∀ p, l.src ≠ .station p ∧ l.dst ≠ .station p)
    ∧ (l.dst = .shelf none → ∃ p : Fin 4, s.rail.shelf[p] = .empty)
    ∧ (l.dst = .station none → ∃ p : Fin 8, s.station.pos[p].state = .empty) := by
  unfold State.eligible
  cases s.leg? m with
  | none => simp
  | some l =>
    rw [Option.map_some, Option.getD_some, Bool.and_eq_true, Bool.and_eq_true, Bool.not_eq_true', Bool.not_eq_true', heldBack_iff,
      latched_iff, canReserve_iff]
    simp [and_assoc]

/-! ## A leg joins a trip (R99) -/

theorem lowest_of_find? {k : Nat} {p : Fin k} {test : Fin k → Bool} (h : (List.finRange k).find? test = some p) :
    ∀ q < p, test q = false := by
  obtain ⟨-, i, hi, hp, hlow⟩ := List.find?_eq_some_iff_getElem.mp h
  intro q hq
  have hlen : q.val < i := by
    have hval : i = p.val := by rw [← hp]; simp
    omega
  simpa using hlow q.val hlen

/-- The to-place a leg has once it has joined: that of a leg that needs a position names the lowest one that was EMPTY. -/
def joinedDst (s t : State) (m : Nat) (old dst : Place) : Prop :=
  (old = .shelf none → ∃ p : Fin 4, dst = .shelf (some p) ∧ s.rail.shelf[p] = .empty
      ∧ t.rail.shelf[p] = .reserved (.record m) ∧ ∀ q < p, t.rail.shelf[q] ≠ .empty)
    ∧ (old = .station none → ∃ p : Fin 8, dst = .station (some p) ∧ s.station.pos[p].state = .empty
      ∧ t.station.pos[p].state = .reserved (.record m) ∧ ∀ q < p, t.station.pos[q].state ≠ .empty)
    ∧ (old ≠ .shelf none → old ≠ .station none → dst = old)

theorem joinedDst.named {old dst : Place} (h : joinedDst s t m old dst) : dst ≠ .shelf none ∧ dst ≠ .station none := by
  obtain ⟨hshelf, hstation, hother⟩ := h
  by_cases h1 : old = .shelf none
  · obtain ⟨p, rfl, -⟩ := hshelf h1
    exact ⟨nofun, nofun⟩
  · by_cases h2 : old = .station none
    · obtain ⟨p, rfl, -⟩ := hstation h2
      exact ⟨nofun, nofun⟩
    · rw [hother h1 h2]
      exact ⟨h1, h2⟩

/-- A reserved position stays so while more legs join. -/
theorem joinedDst.mono {old dst : Place} {legs : List Nat} (h : joinedDst s t m old dst) (hj : Joins t u acc legs) : joinedDst s u m old dst := by
  obtain ⟨hshelf, hstation, hother⟩ := h
  have hkeepShelf : ∀ p : Fin 4, t.rail.shelf[p] ≠ .empty → u.rail.shelf[p] = t.rail.shelf[p] := fun p hp =>
    (hj.shelf p).resolve_right fun h => hp h.1
  have hkeepPos : ∀ p : Fin 8, t.station.pos[p].state ≠ .empty → u.station.pos[p] = t.station.pos[p] := fun p hp =>
    (hj.station p).resolve_right fun h => hp h.1
  refine ⟨fun h => ?_, fun h => ?_, hother⟩
  · obtain ⟨p, hdst, hwas, hres, hlow⟩ := hshelf h
    refine ⟨p, hdst, hwas, (hkeepShelf p (by rw [hres]; exact nofun)).trans hres, fun q hq => ?_⟩
    rw [hkeepShelf q (hlow q hq)]
    exact hlow q hq
  · obtain ⟨p, hdst, hwas, hres, hlow⟩ := hstation h
    refine ⟨p, hdst, hwas, ?_, fun q hq => ?_⟩
    · rw [hkeepPos p (by rw [hres]; exact nofun)]
      exact hres
    · rw [hkeepPos q (hlow q hq)]
      exact hlow q hq

/-- The leg that joins, without its position. -/
def joining (s : State) (acc : Acc) (n : Nat) : State :=
  ((s.setQueue acc ((s.rail.queues.get acc).filter (fun x => x ≠ n))).updLeg n (fun l => { l with state := .assigned, front := false })).updAcc acc
    (fun x => { x with trip := x.trip.map (fun t => { t with legs := t.legs ++ [n] }) })

theorem tripJoin_eq (s : State) (acc : Acc) (n : Nat) :
    s.tripJoin acc n = ((joining s acc n).reserveFor (.record n)).getD (joining s acc n) := rfl

theorem reserveFor_rail (s : State) (n : Nat) :
    ((s.reserveFor (.record n)).getD s).rail.accs = s.rail.accs ∧ ((s.reserveFor (.record n)).getD s).rail.queues = s.rail.queues := by
  cases h : s.reserveFor (.record n) with
  | none => exact ⟨rfl, rfl⟩
  | some t => rcases reserveFor_cases h with rfl | ⟨p, -, rfl⟩ | ⟨p, -, rfl⟩ <;> exact ⟨rfl, rfl⟩

theorem tripJoin_acc (s : State) (acc : Acc) (n : Nat) : (s.tripJoin acc n).acc acc
    = { s.acc acc with trip := (s.acc acc).trip.map (fun t => { t with legs := t.legs ++ [n] }) } := by
  have haccs : (s.tripJoin acc n).acc acc = (joining s acc n).acc acc :=
    congrArg (fun accs : PerAcc AccRec => accs.get acc) (reserveFor_rail (joining s acc n) n).1
  exact haccs.trans (State.acc_updAcc_self ((s.setQueue acc ((s.rail.queues.get acc).filter (fun x => x ≠ n))).updLeg n
    (fun l => { l with state := .assigned, front := false })) acc _)

theorem tripJoin_queue (s : State) (acc : Acc) (n : Nat) :
    (s.tripJoin acc n).rail.queues.get acc = (s.rail.queues.get acc).filter (fun x => x ≠ n) := by
  have hqueues : (s.tripJoin acc n).rail.queues = (joining s acc n).rail.queues := (reserveFor_rail (joining s acc n) n).2
  rw [hqueues]
  exact PerAcc.get_set_self s.rail.queues acc _

/-- The leg that joins is ASSIGNED, without its front mark, and gets the lowest EMPTY position. -/
theorem tripJoin_leg (hl : s.leg? n = some l) (hroom : s.canReserve l.dst = true) :
    ∃ dst, (s.tripJoin acc n).leg? n = some { l with state := .assigned, front := false, dst := dst }
      ∧ joinedDst s (s.tripJoin acc n) n l.dst dst := by
  have hjoining : (joining s acc n).leg? n = some { l with state := .assigned, front := false } := by
    have hself := State.leg?_updLeg_self (s.setQueue acc ((s.rail.queues.get acc).filter (fun x => x ≠ n))) n
      (fun l => { l with state := .assigned, front := false })
    exact hself.trans (congrArg (Option.map _) hl)
  have hdst : (joining s acc n).dstOf (.record n) = some l.dst := congrArg (Option.map Leg.dst) hjoining
  obtain ⟨hshelf, hstation⟩ := canReserve_iff.mp hroom
  by_cases h1 : l.dst = .shelf none
  · obtain ⟨p, hp⟩ := Option.isSome_iff_exists.mp ((emptyShelf_isSome s).mpr (hshelf h1))
    have hres : (joining s acc n).reserveFor (.record n)
        = some (((joining s acc n).setShelf p (.reserved (.record n))).setDst (.record n) (.shelf (some p))) := by
      unfold State.reserveFor State.reserveShelf
      rw [hdst, h1, show (joining s acc n).emptyShelf = some p from hp]
      rfl
    rw [tripJoin_eq, hres, Option.getD_some]
    refine ⟨.shelf (some p), ?_, fun _ => ⟨p, rfl, by simpa using find_finRange_some hp, ?_, fun q hq => ?_⟩,
      fun h => (nomatch h1.symm.trans h), fun h => absurd h1 h⟩
    · exact (State.leg?_updLeg_self ((joining s acc n).setShelf p (.reserved (.record n))) n _).trans (congrArg (Option.map _) hjoining)
    · exact Vector.getElem_set_self _
    · have hqp : p.val ≠ q.val := (Fin.lt_def.mp hq).ne'
      have hlow : s.rail.shelf[q] ≠ .empty := by simpa using lowest_of_find? hp q hq
      intro hempty
      exact hlow ((Vector.getElem_set_ne (xs := s.rail.shelf) (x := ShelfPos.reserved (.record n)) p.isLt q.isLt hqp).symm.trans hempty)
  · by_cases h2 : l.dst = .station none
    · obtain ⟨p, hp⟩ := Option.isSome_iff_exists.mp ((emptyStation_isSome s).mpr (hstation h2))
      have hres : (joining s acc n).reserveFor (.record n)
          = some (((joining s acc n).updPos p (fun _ => { StationPos.initial with state := .reserved (.record n) })).setDst (.record n)
              (.station (some p))) := by
        unfold State.reserveFor State.reserveStation
        rw [hdst, h2, show (joining s acc n).emptyStation = some p from hp]
        rfl
      rw [tripJoin_eq, hres, Option.getD_some]
      refine ⟨.station (some p), ?_, fun h => absurd h h1, fun _ => ⟨p, rfl, by simpa using find_finRange_some hp, ?_, fun q hq => ?_⟩,
        fun _ h => absurd h2 h⟩
      · exact (State.leg?_updLeg_self ((joining s acc n).updPos p (fun _ => { StationPos.initial with state := .reserved (.record n) })) n
          _).trans (congrArg (Option.map _) hjoining)
      · exact congrArg StationPos.state (State.updPos_self (joining s acc n) p
          (fun _ => { StationPos.initial with state := .reserved (.record n) }))
      · have hlow : s.station.pos[q].state ≠ .empty := by simpa using lowest_of_find? hp q hq
        intro hempty
        refine hlow (Eq.trans ?_ hempty)
        exact congrArg StationPos.state (State.updPos_other (joining s acc n) p q
          (fun _ => { StationPos.initial with state := .reserved (.record n) }) hq.ne).symm
    · have hres : (joining s acc n).reserveFor (.record n) = some (joining s acc n) := by
        unfold State.reserveFor
        rw [hdst]
        split
        next h => exact absurd (Option.some.inj h) h1
        next h => exact absurd (Option.some.inj h) h2
        next => rfl
      rw [tripJoin_eq, hres, Option.getD_some]
      exact ⟨l.dst, hjoining, fun h => absurd h h1, fun h => absurd h h2, fun _ _ => rfl⟩

/-! ## The filling of a trip (R99, R100) -/

/-- A leg of the trip, as it stood in the queue and as it stands now. -/
def legJoined (s u : State) (m : Nat) : Prop :=
  ∃ j dst, s.leg? m = some j ∧ u.leg? m = some { j with state := .assigned, front := false, dst := dst } ∧ joinedDst s u m j.dst dst

theorem leg?_of_joins {legs : List Nat} (h : Joins s u acc legs) (hm : m ∉ legs) : u.leg? m = s.leg? m := by
  unfold State.leg?
  rw [h.recs m hm]

theorem legJoined.mono {legs : List Nat} (h : legJoined s u m) (hj : Joins u v acc legs) (hm : m ∉ legs) : legJoined s v m := by
  obtain ⟨j, dst, hold, hnow, hdst⟩ := h
  exact ⟨j, dst, hold, (leg?_of_joins hj hm).trans hnow, hdst.mono hj⟩

/-- An eligible leg is passed over because the legs that joined ahead of it have taken every position it needs. -/
def blocked (s u : State) (ahead legs : List Nat) (m : Nat) : Prop :=
  ∃ l, s.leg? m = some l
    ∧ ((l.dst = .shelf none ∧ ∀ p : Fin 4, s.rail.shelf[p] = .empty → ∃ k ∈ ahead, k ∈ legs ∧ u.rail.shelf[p] = .reserved (.record k))
      ∨ (l.dst = .station none ∧ ∀ p : Fin 8, s.station.pos[p].state = .empty →
          ∃ k ∈ ahead, k ∈ legs ∧ u.station.pos[p].state = .reserved (.record k)))

theorem blocked.mono {ahead legs more extra : List Nat} (h : blocked s u ahead legs m) (hj : Joins u v acc extra) (hsub : legs ⊆ more) :
    blocked s v ahead more m := by
  obtain ⟨l, hl, ⟨hdst, hall⟩ | ⟨hdst, hall⟩⟩ := h
  · refine ⟨l, hl, .inl ⟨hdst, fun p hp => ?_⟩⟩
    obtain ⟨k, hahead, hk, hres⟩ := hall p hp
    exact ⟨k, hahead, hsub hk, ((hj.shelf p).resolve_right fun h => nomatch hres.symm.trans h.1).trans hres⟩
  · refine ⟨l, hl, .inr ⟨hdst, fun p hp => ?_⟩⟩
    obtain ⟨k, hahead, hk, hres⟩ := hall p hp
    refine ⟨k, hahead, hsub hk, ?_⟩
    rw [(hj.station p).resolve_right fun h => nomatch hres.symm.trans h.1]
    exact hres

/-- What makes a leg ineligible that was eligible: the positions that the others have taken. -/
theorem blocked_of_joins {legs seen : List Nat} (hj : Joins s u acc legs) (hsub : legs ⊆ seen) (hm : m ∉ legs)
    (hwas : s.eligible acc m = true) (hno : u.eligible acc m = false) : blocked s u seen legs m := by
  obtain ⟨l, hl, hheld, hlatch, hshelf, hstation⟩ := eligible_iff.mp hwas
  have hlu : u.leg? m = some l := (leg?_of_joins hj hm).trans hl
  refine ⟨l, hl, ?_⟩
  by_contra hfree
  rw [not_or, not_and, not_and] at hfree
  refine absurd (hno.symm.trans (eligible_iff.mpr ⟨l, hlu, ?_, ?_, fun hdst => ?_, fun hdst => ?_⟩)) (by decide)
  · rw [hj.audits]
    exact hheld
  · rw [hj.latch]
    exact hlatch
  · by_contra hfull
    refine hfree.1 hdst fun p hp => ?_
    rcases hj.shelf p with hsame | ⟨-, k, hk, hres⟩
    · exact absurd ⟨p, hsame.trans hp⟩ hfull
    · exact ⟨k, hsub hk, hk, hres⟩
  · by_contra hfull
    refine hfree.2 hdst fun p hp => ?_
    rcases hj.station p with hsame | ⟨-, k, hk, hres⟩
    · exact absurd ⟨p, (congrArg StationPos.state hsame).trans hp⟩ hfull
    · exact ⟨k, hsub hk, hk, congrArg StationPos.state hres⟩

/-- The filling of a trip so far: `seen` of the queue has been looked at, and the legs `had` of it have joined. -/
structure Filled (s u : State) (acc : Acc) (tr : Trip) (seen had : List Nat) : Prop where
  joins : Joins s u acc had
  sub : had.Sublist seen
  queue : u.rail.queues.get acc = (s.rail.queues.get acc).filter (fun m => m ∉ had)
  own : u.acc acc = { s.acc acc with trip := some { tr with legs := tr.legs ++ had } }
  eligible : ∀ m ∈ had, s.eligible acc m = true
  legs : ∀ m ∈ had, legJoined s u m
  passed : ∀ m ∈ seen, m ∉ had → s.eligible acc m = false
    ∨ ∃ ahead behind, seen = ahead ++ m :: behind ∧ blocked s u ahead had m

theorem Filled.start (htr : (s.acc acc).trip = some tr) : Filled s s acc tr [] [] := by
  refine ⟨Joins.refl s acc, List.Sublist.refl _, ?_, ?_, fun m hm => absurd hm List.not_mem_nil, fun m hm => absurd hm List.not_mem_nil,
    fun m hm => absurd hm List.not_mem_nil⟩
  · exact (List.filter_eq_self.mpr fun m _ => by simp).symm
  · rw [List.append_nil, ← htr]

theorem Filled.tripSize {seen had : List Nat} (h : Filled s u acc tr seen had) : u.tripSize acc = tr.legs.length + had.length := by
  unfold State.tripSize
  rw [h.own]
  exact List.length_append

/-- A leg that is passed over. -/
theorem Filled.pass {seen had : List Nat} (h : Filled s u acc tr seen had) (hno : u.eligible acc n = false) :
    Filled s u acc tr (seen ++ [n]) had := by
  refine { h with sub := h.sub.trans (List.sublist_append_left _ _), passed := fun m hm hout => ?_ }
  rcases List.mem_append.mp hm with hm | hm
  · refine (h.passed m hm hout).imp_right fun ⟨ahead, behind, hseen, hblocked⟩ => ⟨ahead, behind ++ [n], ?_, hblocked⟩
    rw [hseen, List.append_assoc, List.cons_append]
  · rw [List.mem_singleton.mp hm] at hout ⊢
    by_cases hwas : s.eligible acc n = true
    · exact .inr ⟨seen, [], rfl, blocked_of_joins h.joins h.sub.subset hout hwas hno⟩
    · exact .inl (Bool.eq_false_iff.mpr hwas)

/-- A leg that joins. -/
theorem Filled.join {seen had : List Nat} (h : Filled s u acc tr seen had) (hyes : u.eligible acc n = true) :
    Filled s (u.tripJoin acc n) acc tr (seen ++ [n]) (had ++ [n]) := by
  have hj := tripJoin_joins u acc n
  refine ⟨h.joins.trans hj, h.sub.append (List.Sublist.refl _), ?_, ?_, fun m hm => ?_, fun m hm => ?_, fun m hm hout => ?_⟩
  · rw [tripJoin_queue, h.queue, List.filter_filter]
    refine List.filter_congr fun m _ => ?_
    simp [and_comm]
  · rw [tripJoin_acc, h.own]
    simp
  · by_cases hmem : m ∈ had
    · exact h.eligible m hmem
    · obtain rfl : m = n := by simpa [hmem] using hm
      exact h.joins.eligible hmem hyes
  · by_cases hmn : m = n
    · subst hmn
      obtain ⟨l, hl, -, -, hroom⟩ := eligible_iff.mp hyes
      obtain ⟨dst, hleg, hdst⟩ := tripJoin_leg (acc := acc) hl (canReserve_iff.mpr hroom)
      by_cases hmem : m ∈ had
      · obtain ⟨j, old, hold, hnow, hwas⟩ := h.legs m hmem
        obtain rfl := Option.some.inj (hl.symm.trans hnow)
        have hsame : dst = old := hdst.2.2 hwas.named.1 hwas.named.2
        exact ⟨j, old, hold, hsame ▸ hleg, hwas.mono hj⟩
      · refine ⟨l, dst, (leg?_of_joins h.joins hmem).symm.trans hl, hleg, ?_⟩
        obtain ⟨hshelf, hstation, hother⟩ := hdst
        refine ⟨fun hd => ?_, fun hd => ?_, hother⟩
        · obtain ⟨p, hp, hempty, hres, hlow⟩ := hshelf hd
          refine ⟨p, hp, ?_, hres, hlow⟩
          rcases h.joins.shelf p with hsame | ⟨hwas, -⟩
          · exact hsame.symm.trans hempty
          · exact hwas
        · obtain ⟨p, hp, hempty, hres, hlow⟩ := hstation hd
          refine ⟨p, hp, ?_, hres, hlow⟩
          rcases h.joins.station p with hsame | ⟨hwas, -⟩
          · exact (congrArg StationPos.state hsame).symm.trans hempty
          · exact hwas
    · have hmem : m ∈ had := by simpa [hmn] using hm
      exact (h.legs m hmem).mono hj (by simpa using hmn)
  · have hmn : m ≠ n := fun hmn => hout (by simp [hmn])
    have hseen : m ∈ seen := by simpa [hmn] using hm
    have hno : m ∉ had := fun hmem => hout (List.mem_append_left _ hmem)
    refine (h.passed m hseen hno).imp_right fun ⟨ahead, behind, hsplit, hblocked⟩ => ⟨ahead, behind ++ [n], ?_, ?_⟩
    · rw [hsplit, List.append_assoc, List.cons_append]
    · exact hblocked.mono hj (List.subset_append_left _ _)

/-- The rest of the queue is looked at until the trip is full. -/
theorem Filled.finish {seen had : List Nat} (rest : List Nat) (h : Filled s u acc tr seen had) :
    ∃ done left legs, rest = done ++ left ∧ (left = [] ∨ 3 ≤ tr.legs.length + legs.length)
      ∧ (legs = had ∨ tr.legs.length + legs.length ≤ 3)
      ∧ Filled s (rest.foldl (fun s slot => if s.tripSize acc < 3 && s.eligible acc slot then s.tripJoin acc slot else s) u) acc tr
          (seen ++ done) legs := by
  induction rest generalizing u seen had with
  | nil => exact ⟨[], [], had, rfl, .inl rfl, .inl rfl, by simpa using h⟩
  | cons x more ih =>
    rw [List.foldl_cons]
    by_cases hfull : 3 ≤ tr.legs.length + had.length
    · have hnone : ∀ l : List Nat, l.foldl (fun s slot => if s.tripSize acc < 3 && s.eligible acc slot then s.tripJoin acc slot else s) u = u := by
        intro l
        induction l with
        | nil => rfl
        | cons y l ih =>
          rw [List.foldl_cons, if_neg (by rw [h.tripSize]; simp; omega)]
          exact ih
      refine ⟨[], x :: more, had, rfl, .inr hfull, .inl rfl, ?_⟩
      rw [if_neg (by rw [h.tripSize]; simp; omega), hnone, List.append_nil]
      exact h
    · by_cases hyes : u.eligible acc x = true
      · rw [if_pos (by rw [h.tripSize, hyes]; simp; omega)]
        obtain ⟨done, left, legs, hrest, hleft, hroom, hdone⟩ := ih (h.join hyes)
        refine ⟨x :: done, left, legs, by rw [hrest, List.cons_append], hleft, .inr ?_, by simpa using hdone⟩
        rcases hroom with rfl | hroom
        · rw [List.length_append]
          simp
          omega
        · exact hroom
      · have hno := Bool.eq_false_iff.mpr hyes
        rw [if_neg (by rw [hno]; simp)]
        obtain ⟨done, left, legs, hrest, hleft, hroom, hdone⟩ := ih (h.pass hno)
        exact ⟨x :: done, left, legs, by rw [hrest, List.cons_append], hleft, hroom, by simpa using hdone⟩

/-- What a trip takes from the queue, with room for so many legs. -/
def takesLegs (s t : State) (acc : Acc) (legs : List Nat) (room : Nat) : Prop :=
  legs.Sublist (s.rail.queues.get acc) ∧ legs.length ≤ room ∧ t.rail.queues.get acc = (s.rail.queues.get acc).filter (fun m => m ∉ legs)
    ∧ (∀ m ∈ legs, s.eligible acc m = true) ∧ Joins s t acc legs ∧ (∀ m ∈ legs, legJoined s t m)
    ∧ ∃ seen left, s.rail.queues.get acc = seen ++ left ∧ (∀ m ∈ legs, m ∈ seen) ∧ (left = [] ∨ legs.length = room)
      ∧ ∀ m ∈ seen, m ∉ legs → s.eligible acc m = false
          ∨ ∃ ahead behind, s.rail.queues.get acc = ahead ++ m :: behind ∧ blocked s t ahead legs m

/-- The filling of a trip. -/
theorem tripFill_takes (htr : (s.acc acc).trip = some tr) : ∃ legs, takesLegs s (s.tripFill acc) acc legs (3 - tr.legs.length)
    ∧ (s.tripFill acc).acc acc = { s.acc acc with trip := some { tr with legs := tr.legs ++ legs } } := by
  obtain ⟨done, left, legs, hqueue, hleft, hroom, hfilled⟩ := (Filled.start htr).finish (s.rail.queues.get acc)
  rw [List.nil_append] at hfilled
  have hsub : legs.Sublist (s.rail.queues.get acc) := by
    rw [hqueue]
    exact hfilled.sub.trans (List.sublist_append_left _ _)
  refine ⟨legs, ⟨hsub, ?_, hfilled.queue, hfilled.eligible, hfilled.joins, hfilled.legs, done, left, hqueue,
    fun m hm => hfilled.sub.subset hm, hleft.imp_right fun hfull => ?_, fun m hm hout => ?_⟩, hfilled.own⟩
  · rcases hroom with rfl | hroom
    · exact Nat.zero_le _
    · omega
  · rcases hroom with rfl | hroom
    · simp at hfull ⊢
      omega
    · omega
  · refine (hfilled.passed m hm hout).imp_right fun ⟨ahead, behind, hdone, hblocked⟩ => ⟨ahead, behind ++ left, ?_, hblocked⟩
    rw [hqueue, hdone, List.append_assoc, List.cons_append]

/-- An eligible leg of the queue means that some leg joins, when there is room. -/
theorem takesLegs.ne_nil {legs : List Nat} {room : Nat} (h : takesLegs s t acc legs room) (hroom : room ≠ 0)
    (hm : m ∈ s.rail.queues.get acc) (he : s.eligible acc m = true) : legs ≠ [] := by
  rintro rfl
  obtain ⟨-, -, -, -, -, -, seen, left, hqueue, -, hleft, hpassed⟩ := h
  rcases hleft with rfl | hfull
  · rw [List.append_nil] at hqueue
    rcases hpassed m (hqueue ▸ hm) List.not_mem_nil with hno | ⟨ahead, behind, -, l, hl, hneeds⟩
    · exact absurd (he.symm.trans hno) (by decide)
    · obtain ⟨j, hj, -, -, hshelf, hstation⟩ := eligible_iff.mp he
      obtain rfl := Option.some.inj (hl.symm.trans hj)
      rcases hneeds with ⟨hdst, hall⟩ | ⟨hdst, hall⟩
      · obtain ⟨p, hp⟩ := hshelf hdst
        obtain ⟨k, -, hk, -⟩ := hall p hp
        exact absurd hk List.not_mem_nil
      · obtain ⟨p, hp⟩ := hstation hdst
        obtain ⟨k, -, hk, -⟩ := hall p hp
        exact absurd hk List.not_mem_nil
  · exact hroom hfull.symm

/-! ## The opening of a trip (R99) -/

/-- The accessor with an empty trip that gathers. -/
def gathers (s : State) (acc : Acc) : State :=
  s.updAcc acc (fun x => { x with state := .gathering, trip := some (Trip.opened x.gather) })

theorem anyEligible_iff : s.anyEligible acc = true ↔ ∃ m ∈ s.rail.queues.get acc, s.eligible acc m = true := List.any_eq_true

theorem tripOpen_opens (hfree : s.free acc = true) (hany : ∃ m ∈ s.rail.queues.get acc, s.eligible acc m = true) :
    s.tripOpen acc = (gathers s acc).tripFill acc :=
  if_pos (by rw [hfree, anyEligible_iff.mpr hany]; rfl)

theorem tripOpen_nothing (h : s.free acc = false ∨ ∀ m ∈ s.rail.queues.get acc, s.eligible acc m = false) : s.tripOpen acc = s := by
  refine if_neg fun hopens => ?_
  obtain ⟨hfree, hany⟩ := (Bool.and_eq_true _ _).mp hopens
  rcases h with h | h
  · exact absurd (hfree.symm.trans h) (by decide)
  · obtain ⟨m, hm, he⟩ := anyEligible_iff.mp hany
    exact absurd (he.symm.trans (h m hm)) (by decide)

/-- What the gathering accessor takes is what the accessor takes. -/
theorem takesLegs_of_gathers {legs : List Nat} {room : Nat} (h : takesLegs (gathers s acc) t acc legs room) : takesLegs s t acc legs room := by
  obtain ⟨hsub, hlen, hqueue, heligible, hjoins, hlegs, hseen⟩ := h
  refine ⟨hsub, hlen, hqueue, heligible, { hjoins with other := ?_ }, hlegs, hseen⟩
  rw [hjoins.other]
  exact State.acc_updAcc_other _ _ _ _ (OrderGates.otherAcc_ne acc)

/-! ## The start of a trip (R101, R102) -/

theorem startDue_iff : s.startDue acc = true ↔ (s.acc acc).state = .gathering ∧ s.rail.quiesce = false
    ∧ ∃ tr, (s.acc acc).trip = some tr
      ∧ (tr.runOut = true ∨ 3 ≤ tr.legs.length ∨ ∃ m ∈ tr.legs, ∃ l, s.leg? m = some l ∧ l.prio = 3) := by
  have hclass : ∀ m, ((s.leg? m).map (fun l => decide (l.prio = 3))).getD false = true ↔ ∃ l, s.leg? m = some l ∧ l.prio = 3 := by
    intro m
    cases s.leg? m <;> simp
  unfold State.startDue
  rw [Bool.and_eq_true, Bool.and_eq_true, decide_eq_true_iff, Bool.not_eq_true', and_assoc]
  refine and_congr_right fun _ => and_congr_right fun _ => ?_
  cases (s.acc acc).trip with
  | none => simp
  | some tr =>
    rw [Option.map_some, Option.getD_some, Bool.or_eq_true, Bool.or_eq_true, decide_eq_true_iff, List.any_eq_true, or_assoc]
    simp only [hclass, Option.some.injEq, exists_eq_left']

theorem nearer_iff {base : Nat} {p q : Place} : nearer base p q = true ↔
    distance (placeColumn p) base < distance (placeColumn q) base
      ∨ (distance (placeColumn p) base = distance (placeColumn q) base
          ∧ (placeColumn p < placeColumn q ∨ (placeColumn p = placeColumn q ∧ placeNumber p ≤ placeNumber q))) := by
  unfold nearer
  simp

/-- Of two places one is as near as the other. -/
theorem nearer_total {base : Nat} {p q : Place} (h : ¬nearer base p q = true) : nearer base q p = true := by
  rw [nearer_iff] at h ⊢
  omega

theorem nearer_trans {base : Nat} {p q r : Place} (h : nearer base p q = true) (h' : nearer base q r = true) : nearer base p r = true := by
  rw [nearer_iff] at h h' ⊢
  omega

theorem insertStop_perm (base : Nat) (x : Place × Stop) (stops : List (Place × Stop)) : (insertStop base x stops).Perm (x :: stops) := by
  induction stops with
  | nil => exact .refl _
  | cons y rest ih =>
    unfold insertStop
    split
    next => exact (ih.cons y).trans (.swap x y rest)
    next => exact .refl _

/-- The stops stand nearest first. -/
def nearestFirst (base : Nat) (stops : List (Place × Stop)) : Prop := stops.Pairwise (fun x y => nearer base x.1 y.1 = true)

theorem insertStop_sorted {base : Nat} {stops : List (Place × Stop)} (x : Place × Stop) (h : nearestFirst base stops) :
    nearestFirst base (insertStop base x stops) := by
  induction stops with
  | nil => exact List.pairwise_singleton _ _
  | cons y rest ih =>
    obtain ⟨hy, hrest⟩ := List.pairwise_cons.mp h
    unfold insertStop
    split
    next hyx =>
      refine List.pairwise_cons.mpr ⟨fun z hz => ?_, ih hrest⟩
      rcases List.mem_cons.mp ((insertStop_perm base x rest).mem_iff.mp hz) with rfl | hz
      · exact hyx
      · exact hy z hz
    next hyx =>
      have hxy := nearer_total hyx
      refine List.pairwise_cons.mpr ⟨fun z hz => ?_, h⟩
      rcases List.mem_cons.mp hz with rfl | hz
      · exact hxy
      · exact nearer_trans hxy (hy z hz)

theorem orderStops_spec (base : Nat) (stops : List (Place × Stop)) :
    (orderStops base stops).Perm stops ∧ nearestFirst base (orderStops base stops) := by
  have key : ∀ out, nearestFirst base out → (stops.foldl (fun out x => insertStop base x out) out).Perm (stops ++ out)
      ∧ nearestFirst base (stops.foldl (fun out x => insertStop base x out) out) := by
    induction stops with
    | nil => exact fun out h => ⟨.refl _, h⟩
    | cons x rest ih =>
      intro out h
      obtain ⟨hperm, hsorted⟩ := ih (insertStop base x out) (insertStop_sorted x h)
      exact ⟨hperm.trans ((List.Perm.append_left rest (insertStop_perm base x out)).trans List.perm_middle), hsorted⟩
  obtain ⟨hperm, hsorted⟩ := key [] List.Pairwise.nil
  exact ⟨hperm.trans (.of_eq (List.append_nil stops)), hsorted⟩

/-- The stops of one kind of legs, with their places. -/
def stopEntries (s : State) (op : StopOp) (place : Leg → Place) (legs : List Nat) : List (Place × Stop) :=
  legs.filterMap (fun slot => (s.leg? slot).map (fun l => (place l, { op := op, ref := .record slot })))

/-- The slot of a leg's stop. -/
def slotOfStop (x : Place × Stop) : Nat :=
  match x.2.ref with
  | .record slot => slot
  | .putBack _ _ => 0

theorem stopEntries_mem {op : StopOp} {place : Leg → Place} {legs : List Nat} {x : Place × Stop} (h : x ∈ stopEntries s op place legs) :
    ∃ l, s.leg? (slotOfStop x) = some l ∧ x = (place l, ⟨op, .record (slotOfStop x)⟩) := by
  obtain ⟨slot, -, hslot⟩ := List.mem_filterMap.mp h
  obtain ⟨l, hl, rfl⟩ := Option.map_eq_some_iff.mp hslot
  exact ⟨l, hl, rfl⟩

theorem stopEntries_slots {op : StopOp} {place : Leg → Place} {legs : List Nat} (h : ∀ m ∈ legs, (s.leg? m).isSome = true) :
    (stopEntries s op place legs).map slotOfStop = legs := by
  induction legs with
  | nil => rfl
  | cons m rest ih =>
    obtain ⟨l, hl⟩ := Option.isSome_iff_exists.mp (h m List.mem_cons_self)
    unfold stopEntries
    rw [List.filterMap_cons_some (by rw [hl]; rfl), List.map_cons]
    exact congrArg (List.cons m) (ih fun k hk => h k (List.mem_cons_of_mem _ hk))

/-- The legs of the stops of one kind, nearest first. -/
def orderedLegs (s : State) (base : Nat) (op : StopOp) (place : Leg → Place) (legs : List Nat) : List Nat :=
  (orderStops base (stopEntries s op place legs)).map slotOfStop

section
variable {base : Nat} {op : StopOp} {place : Leg → Place} {legs : List Nat}

theorem orderedLegs_perm (h : ∀ m ∈ legs, (s.leg? m).isSome = true) : (orderedLegs s base op place legs).Perm legs := by
  have hperm := (orderStops_spec base (stopEntries s op place legs)).1.map slotOfStop
  rwa [stopEntries_slots h] at hperm

theorem orderedLegs_entry {x : Place × Stop} (h : x ∈ orderStops base (stopEntries s op place legs)) :
    ∃ l, s.leg? (slotOfStop x) = some l ∧ x = (place l, ⟨op, .record (slotOfStop x)⟩) :=
  stopEntries_mem ((orderStops_spec base (stopEntries s op place legs)).1.mem_iff.mp h)

theorem orderedLegs_stops : (orderStops base (stopEntries s op place legs)).map (·.2)
    = (orderedLegs s base op place legs).map (fun m => (⟨op, .record m⟩ : Stop)) := by
  unfold orderedLegs
  rw [List.map_map]
  refine List.map_congr_left fun x hx => ?_
  obtain ⟨l, -, hx⟩ := orderedLegs_entry hx
  exact congrArg Prod.snd hx

theorem orderedLegs_sorted : (orderedLegs s base op place legs).Pairwise
    (fun m k => ∀ l j, s.leg? m = some l → s.leg? k = some j → nearer base (place l) (place j) = true) := by
  refine List.pairwise_map.mpr ((orderStops_spec base (stopEntries s op place legs)).2.imp_of_mem fun {x y} hx hy hnear l j hl hj => ?_)
  obtain ⟨l', hl', hx⟩ := orderedLegs_entry hx
  obtain ⟨j', hj', hy⟩ := orderedLegs_entry hy
  obtain rfl := Option.some.inj (hl.symm.trans hl')
  obtain rfl := Option.some.inj (hj.symm.trans hj')
  rw [hx, hy] at hnear
  exact hnear

end

/-- The stops of a trip that starts: the pickups, then the drops from the column of the last pickup. -/
theorem stopsOf_eq {column : Nat} {legs : List Nat} (hne : legs ≠ []) (h : ∀ m ∈ legs, (s.leg? m).isSome = true) :
    ∃ last, (orderedLegs s column .pick Leg.src legs).getLast?.bind s.leg? = some last
      ∧ s.stopsOf column legs = (orderedLegs s column .pick Leg.src legs).map (fun m => (⟨.pick, .record m⟩ : Stop))
          ++ (orderedLegs s (placeColumn last.src) .place Leg.dst legs).map (fun m => (⟨.place, .record m⟩ : Stop)) := by
  let picks := orderStops column (stopEntries s .pick Leg.src legs)
  have hpicks : picks ≠ [] := by
    intro hnil
    have hperm := orderedLegs_perm (base := column) (op := .pick) (place := Leg.src) h
    unfold orderedLegs at hperm
    rw [show orderStops column (stopEntries s .pick Leg.src legs) = [] from hnil] at hperm
    exact hne (List.nil_perm.mp hperm)
  obtain ⟨last, hlast, hentry⟩ := orderedLegs_entry (List.getLast_mem hpicks)
  have hget : picks.getLast? = some (picks.getLast hpicks) := List.getLast?_eq_some_getLast hpicks
  refine ⟨last, ?_, ?_⟩
  · unfold orderedLegs
    rw [List.getLast?_map, hget]
    exact hlast
  · rw [← orderedLegs_stops, ← orderedLegs_stops, ← List.map_append]
    unfold State.stopsOf
    show (picks ++ orderStops ((picks.getLast?.map fun x => placeColumn x.1).getD column) (s.placeStops legs)).map (·.2) = _
    rw [hget, Option.map_some, Option.getD_some, hentry]
    rfl

/-! ## A leg becomes READY (R95) -/

/-- A queued leg stays ahead of one that joins. -/
def staysAhead (s : State) (n : Nat) (l : Leg) (m : Nat) : Prop :=
  ∀ j, s.leg? m = some j → l.prio < j.prio
    ∨ (j.prio = l.prio ∧ (j.front = true ∨ (l.front = false ∧ s.agePlace m < s.agePlace n)))

theorem aheadOf_iff (hl : s.leg? n = some l) : s.aheadOf m n = true ↔ staysAhead s n l m := by
  unfold State.aheadOf staysAhead
  rw [hl]
  cases s.leg? m with
  | none => simp
  | some j => simp

theorem insertLeg_spec (hl : s.leg? n = some l) (queue : List Nat) : ∃ before after, queue = before ++ after
    ∧ s.insertLeg n queue = before ++ n :: after ∧ (∀ m ∈ before, staysAhead s n l m) ∧ ∀ m, after.head? = some m → ¬staysAhead s n l m := by
  induction queue with
  | nil => exact ⟨[], [], rfl, rfl, fun m hm => absurd hm List.not_mem_nil, fun m hm => nomatch hm⟩
  | cons x rest ih =>
    unfold State.insertLeg
    by_cases hx : s.aheadOf x n = true
    · obtain ⟨before, after, hrest, hqueue, hbefore, hafter⟩ := ih
      rw [if_pos hx]
      refine ⟨x :: before, after, by rw [hrest, List.cons_append], by rw [hqueue, List.cons_append], fun m hm => ?_, hafter⟩
      rcases List.mem_cons.mp hm with rfl | hm
      · exact (aheadOf_iff hl).mp hx
      · exact hbefore m hm
    · rw [if_neg hx]
      refine ⟨[], x :: rest, rfl, rfl, fun m hm => absurd hm List.not_mem_nil, fun m hm => ?_⟩
      obtain rfl : x = m := Option.some.inj hm
      exact fun hahead => hx ((aheadOf_iff hl).mpr hahead)

/-- The leg as it joins, READY. -/
def readied (s : State) (n : Nat) : State := s.updLeg n (fun l => { l with state := .ready })

theorem readied_leg (hl : s.leg? n = some l) : (readied s n).leg? n = some { l with state := .ready } :=
  (State.leg?_updLeg_self s n _).trans (congrArg (Option.map _) hl)

theorem readied_other (h : m ≠ n) : (readied s n).leg? m = s.leg? m := by
  exact congrArg (fun r : Option Rec => r.bind (·.leg)) (State.rec?_updRec_other s n m _ (fun _ hr => hr) h)

theorem agePlace_readied : (readied s n).agePlace m = s.agePlace m := by
  unfold State.agePlace readied State.updLeg State.updRec
  show List.findIdx _ (updFirst _ _ s.recs) = _
  induction s.recs with
  | nil => rfl
  | cons r rest ih =>
    unfold updFirst
    split
    next => simp [List.findIdx_cons]
    next => simp [List.findIdx_cons, ih]

/-- That it is READY leaves its place among the others. -/
theorem staysAhead_readied (hl : s.leg? n = some l) : staysAhead (readied s n) n { l with state := .ready } m ↔ staysAhead s n l m := by
  unfold staysAhead
  simp only [agePlace_readied]
  by_cases hmn : m = n
  · subst hmn
    rw [readied_leg hl, hl]
    simp
  · rw [readied_other hmn]

/-- A leg that becomes READY joins its queue behind those that stay ahead of it. -/
theorem legReady_joins (hl : s.leg? n = some l) : (s.legReady n).leg? n = some { l with state := .ready }
    ∧ (s.legReady n).rail.queues.get (otherAcc l.acc) = s.rail.queues.get (otherAcc l.acc)
    ∧ ∃ before after, s.rail.queues.get l.acc = before ++ after ∧ (s.legReady n).rail.queues.get l.acc = before ++ n :: after
        ∧ (∀ m ∈ before, staysAhead s n l m) ∧ ∀ m, after.head? = some m → ¬staysAhead s n l m := by
  have hready : s.legReady n = ((readied s n).setQueue l.acc ((readied s n).insertLeg n (s.rail.queues.get l.acc))).yieldAudit l.acc l.prio := by
    unfold State.legReady
    rw [hl]
    rfl
  obtain ⟨before, after, hqueue, hinserted, hbefore, hafter⟩ := insertLeg_spec (readied_leg hl) (s.rail.queues.get l.acc)
  refine ⟨?_, ?_, before, after, hqueue, ?_, fun m hm => (staysAhead_readied hl).mp (hbefore m hm),
    fun m hm => (not_congr (staysAhead_readied hl)).mp (hafter m hm)⟩ <;> rw [hready]
  · exact readied_leg hl
  · exact PerAcc.get_set_other s.rail.queues l.acc _ _ (OrderGates.otherAcc_ne l.acc)
  · exact (PerAcc.get_set_self s.rail.queues l.acc _).trans hinserted

/-! ## The gather window (R101) -/

/-- The window has counted out: the trip has its run-out mark. -/
def ranOut (s : State) (acc : Acc) (tr : Trip) : State :=
  ({ s with sent := [] } : State).updAcc acc (fun x => { x with trip := some { tr with runOut := true } })

theorem updAcc_congr {f g : AccRec → AccRec} (h : f (s.acc acc) = g (s.acc acc)) : s.updAcc acc f = s.updAcc acc g := by
  unfold State.updAcc
  rw [show f (s.rail.accs.get acc) = g (s.rail.accs.get acc) from h]

theorem exec_gatherWindowExpiry (hstate : (s.acc acc).state = .gathering) (htr : (s.acc acc).trip = some tr) (hwindow : tr.window = 0)
    (hmark : tr.runOut = false) : exec (.gatherWindowExpiry acc) s = .next (ranOut s acc tr).commit := by
  have hdue : (s.acc acc).state = .gathering ∧ ((s.acc acc).trip.map fun t => (t.window, t.runOut)) = some (0, false) :=
    ⟨hstate, by rw [htr, Option.map_some, hwindow, hmark]⟩
  show Host.Outcome.next (if (s.acc acc).state = .gathering ∧ ((s.acc acc).trip.map fun t => (t.window, t.runOut)) = some (0, false) then
      (s.start.updAcc acc (fun x => { x with trip := x.trip.map (fun t => { t with runOut := true }) })).commit
    else s.start) = _
  rw [if_pos hdue]
  refine congrArg (fun u : State => Host.Outcome.next u.commit) ?_
  exact updAcc_congr (s := s.start) (congrArg (fun o : Option Trip => ({ s.acc acc with trip := o } : AccRec))
    (congrArg (Option.map fun t : Trip => { t with runOut := true }) htr))

theorem exec_gatherWindowExpiry_nothing (h : (s.acc acc).state ≠ .gathering
    ∨ ∀ tr, (s.acc acc).trip = some tr → tr.window ≠ 0 ∨ tr.runOut = true) : exec (.gatherWindowExpiry acc) s = .next { s with sent := [] } := by
  refine congrArg Host.Outcome.next (if_neg ?_)
  rintro ⟨hstate, hdue⟩
  obtain ⟨tr, htr, hboth⟩ := Option.map_eq_some_iff.mp hdue
  obtain ⟨hwindow, hmark⟩ := Prod.mk.inj hboth
  rcases h with h | h
  · exact h hstate
  · rcases h tr htr with h | h
    · exact h hwindow
    · exact absurd (hmark.symm.trans h) (by decide)

theorem windowOut_ranOut (hwindow : tr.window = 0) : windowOut (ranOut s acc tr) acc tr.legs :=
  ⟨{ tr with runOut := true }, [], congrArg AccRec.trip (State.acc_updAcc_self _ _ _), (List.append_nil _).symm, hwindow, rfl⟩

theorem calm_ranOut (h : calm s) : calm (ranOut s acc tr) := h

/-- A window that has run out starts the trip, or leaves it GATHERING during QUIESCE. -/
theorem windowExpiry_spec (hcalm : calm s) (hstate : (s.acc acc).state = .gathering) (hwindow : tr.window = 0)
    (h : s.rail.quiesce = true ∨ (tr.legs ≠ [] ∧ ∀ m ∈ tr.legs, (s.leg? m).isSome = true)) :
    ∃ tr' more, ((ranOut s acc tr).commit.acc acc).trip = some tr' ∧ tr'.legs = tr.legs ++ more ∧ tr'.window = 0 ∧ tr'.runOut = true
      ∧ (s.rail.quiesce = true → ((ranOut s acc tr).commit.acc acc).state = .gathering)
      ∧ (s.rail.quiesce = false →
          (((ranOut s acc tr).commit.acc acc).state = .running ∨ ((ranOut s acc tr).commit.acc acc).state = .waitingZone) ∧ tr'.stops ≠ []) := by
  have hout : windowOut (ranOut s acc tr) acc tr.legs := windowOut_ranOut hwindow
  have hgathers : ((ranOut s acc tr).acc acc).state = .gathering :=
    (congrArg AccRec.state (State.acc_updAcc_self ({ s with sent := [] } : State) acc _)).trans hstate
  rw [commit_of_calm (calm_ranOut hcalm)]
  by_cases hquiesce : s.rail.quiesce = true
  · obtain ⟨hg, hw⟩ := railSettle_quiesce (ranOut s acc tr) acc tr.legs hquiesce hgathers hout
    obtain ⟨hg', tr', more, htr', hlegs, hzero, hmark⟩ := railSettle_quiesce (ranOut s acc tr).railSettle acc tr.legs
      ((quiesce_of_lasting (lasting_railSettle (ranOut s acc tr))).trans hquiesce) hg hw
    exact ⟨tr', more, htr', hlegs, hzero, hmark, fun _ => hg', fun hno => absurd (hquiesce.symm.trans hno) (by decide)⟩
  · have hrunning := Bool.eq_false_iff.mpr hquiesce
    obtain ⟨hne, hlegs⟩ := h.resolve_left hquiesce
    obtain ⟨n, hn⟩ := List.exists_mem_of_ne_nil _ hne
    have hstarted := railSettle_started (ranOut s acc tr).railSettle acc tr.legs (railSettle_starts (ranOut s acc tr) acc tr.legs hrunning hgathers hout n hn (hlegs n hn))
    obtain ⟨hstate', hstops, tr', more, htr', hall, hzero, hmark⟩ := hstarted
    refine ⟨tr', more, htr', hall, hzero, hmark, fun hno => absurd (hrunning.symm.trans hno) (by decide), fun _ => ⟨hstate', fun hnil => ?_⟩⟩
    unfold State.stops at hstops
    rw [htr', Option.map_some, Option.getD_some, hnil] at hstops
    cases hstops

/-! ## The obligation -/

theorem exec_tripOpen (s : State) (acc : Acc) : exec (.tripOpen acc) s = .next (s.start.tripOpen acc) := rfl

/-- A trip that opens. -/
theorem tripOpen_takes (hfree : s.free acc = true) (hany : ∃ m ∈ s.rail.queues.get acc, s.eligible acc m = true) :
    ∃ legs, legs ≠ [] ∧ takesLegs s (s.tripOpen acc) acc legs 3
      ∧ (s.tripOpen acc).acc acc = { s.acc acc with
          state := .gathering,
          trip := some { legs := legs, putBacks := [], stops := [], window := (s.acc acc).gather,
                         runOut := decide ((s.acc acc).gather = 0) } } := by
  have hacc : (gathers s acc).acc acc = { s.acc acc with state := .gathering, trip := some (Trip.opened (s.acc acc).gather) } :=
    State.acc_updAcc_self _ _ _
  obtain ⟨legs, htakes, hown⟩ := tripFill_takes (s := gathers s acc) (congrArg AccRec.trip hacc)
  rw [tripOpen_opens hfree hany]
  have hthree : takesLegs s ((gathers s acc).tripFill acc) acc legs 3 := takesLegs_of_gathers htakes
  obtain ⟨m, hm, he⟩ := hany
  refine ⟨legs, hthree.ne_nil (by decide) hm he, hthree, hown.trans ?_⟩
  rw [hacc]
  exact congrArg (fun l : List Nat => ({ s.acc acc with state := .gathering, trip := some { Trip.opened (s.acc acc).gather with legs := l } } : AccRec))
    (List.nil_append legs)

theorem gather_gathering (h : (s.acc acc).state = .gathering) : s.gather acc = s.tripFill acc := if_pos h

/-- Settles O46, from the filling of a trip leg by leg, the order of its stops, the place of a READY leg in its queue and the laws of the
gather window. -/
theorem tripsGatherAndStart : Obligations.TripsGatherAndStart := by
  unfold Obligations.TripsGatherAndStart
  intro acc s queue nothing startDue others takes
  have htakes : ∀ {t legs room}, takesLegs s.start t acc legs room → takes t legs room := by
    rintro t legs room ⟨hsub, hlen, hqueue, heligible, hj, hlegs, seen, left, hsplit, hseen, hleft, hpassed⟩
    refine ⟨hsub, hlen, hqueue, heligible, ⟨hj.other, hj.queue, hj.zone, hj.zoneWait, hj.scanReqs, hj.shelfWait, hj.resWait, hj.audits,
      hj.recs, hj.shelf, hj.station⟩, hlegs, seen, left, hsplit, hseen, hleft, fun m hm hout => ?_⟩
    exact (hpassed m hm hout).imp_right fun ⟨ahead, behind, hsplit, l, hl, hneeds⟩ => ⟨ahead, behind, l, hsplit, hl, hneeds⟩
  refine ⟨free_iff, fun m => eligible_iff, fun hfree hany => ?_, fun h => ?_, fun h => ?_, fun h => ?_, exec_gatherWindowExpiry_nothing,
    fun tr hstate htr => ?_, fun tr hstate htr hwindow hmark => exec_gatherWindowExpiry hstate htr hwindow hmark,
    fun tr hcalm hstate htr hwindow hmark h => ?_, fun tr hstate hquiesce htr hne hlegs hdue => ?_, fun n l hl => legReady_joins hl,
    fun base p q => nearer_iff⟩
  · obtain ⟨legs, hne, htaken, hacc⟩ := tripOpen_takes (s := s.start) hfree hany
    exact ⟨_, legs, exec_tripOpen s acc, hne, htakes htaken, htaken.2.2.2.2.1.sent, (lasting_tripOpen _ _).trans (lasting_start s), hacc⟩
  · exact congrArg Host.Outcome.next (tripOpen_nothing (s := s.start) h)
  · refine congrArg Host.Outcome.next (?_ : s.start.gather acc = s.start)
    unfold State.gather
    split
    next hstate =>
      refine tripFill_nothing _ _ ?_
      rcases h with h | ⟨tr, htr, hfull⟩ | h
      · exact absurd hstate h
      · left
        unfold State.tripSize
        rw [show (s.start.acc acc).trip = some tr from htr]
        exact hfull
      · exact .inr h
    next => rfl
  · refine congrArg Host.Outcome.next (if_neg fun hdue => ?_)
    obtain ⟨hstate, hrunning, tr, htr, hdue⟩ := startDue_iff.mp hdue
    rcases h with h | h | h
    · exact h hstate
    · exact absurd (h.symm.trans hrunning) (by decide)
    · exact h tr htr hdue
  · obtain ⟨legs, htaken, hacc⟩ := tripFill_takes (s := s.start) (acc := acc) htr
    exact ⟨_, legs, congrArg Host.Outcome.next (gather_gathering (s := s.start) hstate), htakes htaken, htaken.2.2.2.2.1.sent,
      (lasting_tripFill _ _).trans (lasting_start s), hacc⟩
  · obtain ⟨tr', more, htr', hspec⟩ := windowExpiry_spec hcalm hstate hwindow h
    exact ⟨_, tr', more, exec_gatherWindowExpiry hstate htr hwindow hmark, htr', hspec⟩
  · obtain ⟨last, hlast, hstops⟩ := stopsOf_eq (s := s) (column := (s.acc acc).column) hne hlegs
    refine ⟨orderedLegs s (s.acc acc).column .pick Leg.src tr.legs, orderedLegs s (placeColumn last.src) .place Leg.dst tr.legs, last, ?_,
      orderedLegs_perm hlegs, orderedLegs_perm hlegs, hlast, orderedLegs_sorted, orderedLegs_sorted⟩
    refine congrArg Host.Outcome.next ((if_pos (startDue_iff.mpr ⟨hstate, hquiesce, tr, htr, hdue⟩)).trans ?_)
    refine updAcc_congr (s := s.start) (congrArg (fun o : Option Trip => ({ s.acc acc with state := .running, trip := o } : AccRec)) ?_)
    rw [← hstops]
    exact congrArg (Option.map fun t : Trip => { t with window := 0, stops := s.stopsOf (s.acc acc).column t.legs }) htr

end Trips

end Sys2Proof
end

section
/-! PROOFS. The service of the waiting records: the frames of a POSTING record, its close and the slot that it frees, and the frames
that leave (R20, R184 to R186, R190). -/

namespace Sys2Proof

namespace Serving

open Machine Safety Upkeep Settling Requests Events

variable {s t u v a : State} {r q : Rec}

/-! ## Drives that act in turn (R86) -/

/-- A pass over the drives, each in the state that the one before it left. -/
def passed (waits : State → Fin 16 → Bool) (does : Fin 16 → State → State) (s : State) (n : Nat) : State :=
  ((List.finRange 16).take n).foldl (fun u d => if waits u d then does d u else u) s

theorem passed_succ {waits : State → Fin 16 → Bool} {does : Fin 16 → State → State} (d : Fin 16) :
    passed waits does s (d.val + 1)
      = if waits (passed waits does s d.val) d then does d (passed waits does s d.val) else passed waits does s d.val := by
  unfold passed
  rw [List.take_add_one, List.getElem?_eq_getElem (by simp), Option.toList_some, List.foldl_append, List.foldl_cons, List.foldl_nil]
  simp

theorem inTurn_foldl {waits : State → Fin 16 → Bool} {does : Fin 16 → State → State} :
    inTurn (fun u d => waits u d = true) does s ((List.finRange 16).foldl (fun u d => if waits u d then does d u else u) s) := by
  refine ⟨passed waits does s, rfl, ?_, fun d => ⟨fun h => ?_, fun h => ?_⟩⟩
  · unfold passed
    rw [List.take_of_length_le (by simp)]
  · rw [passed_succ, if_pos h]
  · rw [passed_succ, if_neg h]

/-- The drives in return wait have asked for their RETURN records. -/
def returnsAsked (s : State) : State := (List.finRange 16).foldl (fun s d => if s.drives[d].returnWait then s.returnOpen d else s) s

theorem recordFreed_eq (s : State) : s.recordFreed = (returnsAsked s).cleaningAttempts := rfl

/-- A record-freed event, said of what it leaves. -/
theorem recordFreedFrom_of (hlast : lasting t = lasting a.recordFreed) (hsent : a.recordFreed.sent <+: t.sent) : recordFreedFrom a t := by
  have hreturns : inTurn (fun u d => u.drives[d].returnWait = true) (fun d u => u.returnOpen d) a (returnsAsked a) :=
    inTurn_foldl (waits := fun u d => u.drives[d].returnWait) (does := fun d u => u.returnOpen d)
  have hattempts : attemptsMade (returnsAsked a) (returnsAsked a).cleaningAttempts :=
    inTurn_foldl (waits := fun u d => u.drives[d].cleanWait) (does := fun d u => u.cleaningAttempt d)
  rw [recordFreed_eq] at hlast hsent
  exact ⟨_, _, hreturns, hattempts, hlast, fun _ ho => hsent.subset ho⟩

theorem foldl_nothing {waits : State → Fin 16 → Bool} {does : Fin 16 → State → State} (h : ∀ d, waits s d = false) (l : List (Fin 16)) :
    l.foldl (fun u d => if waits u d then does d u else u) s = s := by
  induction l with
  | nil => rfl
  | cons d l ih => rw [List.foldl_cons, h d, if_neg Bool.false_ne_true, ih]

/-- With no drive in return or cleaning wait a freed slot changes nothing. -/
theorem recordFreed_nothing (h : ∀ d : Fin 16, s.drives[d].returnWait = false ∧ s.drives[d].cleanWait = false) : s.recordFreed = s := by
  rw [recordFreed_eq, returnsAsked, State.cleaningAttempts,
    foldl_nothing (waits := fun u d => u.drives[d].returnWait) (does := fun d u => u.returnOpen d) fun d => (h d).1]
  exact foldl_nothing (waits := fun u d => u.drives[d].cleanWait) (does := fun d u => u.cleaningAttempt d) (fun d => (h d).2) _

/-! ## The frames of a record (R20) -/

/-- The frames that a waiting record queues when it is served. -/
def framesOf (r : Rec) : List OutFrame :=
  (if r.mountedOwed = true then [(⟨false, .ending (mountedEnding r)⟩ : OutFrame)] else [])
    ++ (if r.state = .posting then r.usage.toList.map (fun u => ⟨false, .usage u⟩) ++ [⟨false, .ending (finalEnding r)⟩] else [])

theorem framesOf_lasting (h : lastingRec q = lastingRec r) : framesOf q = framesOf r := (congrArg framesOf h :)

theorem filter_updRec {f : Rec → Rec} (hf : ∀ r, (f r).slot = r.slot) (slot : Nat) :
    (s.updRec slot f).recs.filter (fun r => r.slot ≠ slot) = s.recs.filter (fun r => r.slot ≠ slot) := by
  show (updFirst _ _ s.recs).filter _ = _
  induction s.recs with
  | nil => rfl
  | cons r rest ih =>
    unfold updFirst
    split
    next h => simp [hf, of_decide_eq_true h]
    next h => rw [List.filter_cons, List.filter_cons, ih]

/-- A POSTING record queues its frames; of the records it changes its own alone. -/
theorem queueFrames_eq (s : State) (h : r.state = .posting) : ∃ recs, s.queueFrames r
      = { s with link := { s.link with outq := s.link.outq ++ framesOf r }, recs := recs }
    ∧ recs.filter (fun q => q.slot ≠ r.slot) = s.recs.filter (fun q => q.slot ≠ r.slot) := by
  unfold framesOf State.queueFrames
  rw [if_pos h]
  by_cases howed : r.mountedOwed = true
  · refine ⟨(s.updRec r.slot endingPaid).recs, ?_, filter_updRec (f := endingPaid) (fun _ => rfl) r.slot⟩
    rw [if_pos howed, if_pos howed]
    cases r.usage with
    | none => simp [queueMounted_eq, State.enqueue, State.updRec]
    | some u => simp [queueMounted_eq, State.enqueue, State.updRec]
  · refine ⟨s.recs, ?_, rfl⟩
    rw [if_neg howed, if_neg howed]
    cases r.usage with
    | none => simp [State.enqueue]
    | some u => simp [State.enqueue]

theorem offerNotice_eq (s : State) (n : Notice) :
    s.offerNotice n = { s with link := { s.link with outq := s.link.outq ++ offered s.link n } } := by
  unfold State.offerNotice offered
  by_cases h : s.link.enables.getLsbD (noticeBit n.kind) = true ∧ 0 < s.link.available
  · rw [if_pos h, if_pos (by simpa [State.enabled] using h)]
    rfl
  · rw [if_neg h, if_neg (by simpa [State.enabled] using h), List.append_nil]

theorem foldl_offerNotice (notices : List Notice) (s : State) :
    notices.foldl State.offerNotice s = { s with link := offeredTo s.link notices } := by
  induction notices generalizing s with
  | nil => rfl
  | cons n rest ih =>
    rw [List.foldl_cons, ih, offerNotice_eq]
    rfl

/-- A POSTING record queues its frames and the notices of its build, and closes. -/
theorem servePosting_eq (s : State) (h : r.state = .posting) : s.servePosting r
    = (closedIn { s with link := offeredTo { s.link with outq := s.link.outq ++ framesOf r } r.notices } r.slot).recordFreed := by
  obtain ⟨recs, hframes, hrecs⟩ := queueFrames_eq s h
  unfold State.servePosting State.close
  rw [foldl_offerNotice, hframes, LibraryStates.drained_eq]
  refine congrArg State.recordFreed ?_
  unfold closedIn
  simp only [hrecs]

/-! ## A record that closes (R1) -/

theorem lasting_closedIn (s : State) (slot : Nat) : lasting (closedIn s slot) = closedIn (lasting s) slot := by
  have hfilter : (s.recs.filter (fun q => q.slot ≠ slot)).map lastingRec = (s.recs.map lastingRec).filter (fun q => q.slot ≠ slot) := by
    rw [List.filter_map]
    rfl
  have hnil : s.recs.filter (fun q => q.slot ≠ slot) = [] ↔ (s.recs.map lastingRec).filter (fun q => q.slot ≠ slot) = [] := by
    rw [← hfilter, List.map_eq_nil_iff]
  have hlib : (if s.link.lib = .draining ∧ s.recs.filter (fun q => q.slot ≠ slot) = [] then LibState.offline else s.link.lib)
      = if s.link.lib = .draining ∧ (s.recs.map lastingRec).filter (fun q => q.slot ≠ slot) = [] then LibState.offline else s.link.lib :=
    if_congr (and_congr_right fun _ => hnil) rfl rfl
  calc lasting (closedIn s slot)
      = { lasting s with
          link := { s.link with
            lib := if s.link.lib = .draining ∧ s.recs.filter (fun q => q.slot ≠ slot) = [] then LibState.offline else s.link.lib },
          recs := (s.recs.filter (fun q => q.slot ≠ slot)).map lastingRec,
          cls := { s.cls with intake := s.cls.intake.filter (fun n => n ≠ slot) } } := rfl
    _ = closedIn (lasting s) slot := by
      rw [hfilter, hlib]
      rfl

theorem lasting_withLink (h : lasting t = lasting s) (l : Link) : lasting { t with link := l } = lasting { s with link := l } :=
  congrArg (fun x : State => { x with link := l }) h

theorem noneWaits_closedIn {slot : Nat} (h : ∀ q ∈ s.recs, q.waits = true → q.slot = slot) : noneWaits (closedIn s slot) := by
  intro q hq
  obtain ⟨hq, hslot⟩ := List.mem_filter.mp hq
  refine Bool.eq_false_iff.mpr fun hwaits => ?_
  exact absurd (h q hq hwaits) (of_decide_eq_true hslot)

/-- A record has closed, and the event ends. -/
theorem commit_closed (hcalm : calm a) : recordFreedFrom a a.recordFreed.commit
    ∧ ((∀ d : Fin 16, a.drives[d].returnWait = false ∧ a.drives[d].cleanWait = false) → lasting a.recordFreed.commit = lasting a) := by
  have hstill : Still a a.recordFreed := (Still.refl a).recordFreed
  have hlast := hstill.lasting_commit hcalm
  refine ⟨recordFreedFrom_of hlast ((Still.refl a.recordFreed).commit (hstill.calm hcalm)).sent, fun hidle => ?_⟩
  rw [hlast, recordFreed_nothing hidle]

/-! ## The command of a POSTING record, and of an owed MOUNTED ending (R17, R20) -/

theorem exec_mountedEndingServed (hold : s.oldestWaiting = some r) (hstate : r.state ≠ .posting) (hroom : r.needs ≤ s.link.available) :
    exec .mountedEndingServed s = .next (s.start.queueMounted r) := by
  show Host.Outcome.next (match s.oldestWaiting with
     | some (r : Rec) => if r.state ≠ RecState.posting ∧ r.needs ≤ s.link.available then s.start.queueMounted r else s.start
     | none => s.start) = _
  rw [hold]
  exact congrArg Host.Outcome.next (if_pos ⟨hstate, hroom⟩)

theorem exec_postingServed (hold : s.oldestWaiting = some r) (hstate : r.state = .posting) (hroom : r.needs ≤ s.link.available) :
    exec .postingServed s = .next (s.start.servePosting r).commit := by
  show Host.Outcome.next (match s.oldestWaiting with
     | some (r : Rec) => if r.state = RecState.posting ∧ r.needs ≤ s.link.available then (s.start.servePosting r).commit else s.start
     | none => s.start) = _
  rw [hold]
  exact congrArg Host.Outcome.next (if_pos ⟨hstate, hroom⟩)

/-- Settles O22. -/
theorem waitingRecordIsServed : Obligations.WaitingRecordIsServed := by
  intro r u s hold hroom
  refine ⟨fun hstate => exec_mountedEndingServed hold hstate hroom, fun hstate husage hraised honly => ?_⟩
  intro closed
  have hclosed : s.start.servePosting r = closed.recordFreed := by
    rw [servePosting_eq s.start hstate]
    unfold framesOf
    rw [if_pos hstate, husage, ← List.append_assoc]
    rfl
  have hcalm : calm closed := ⟨noneWaits_closedIn honly, hraised⟩
  obtain ⟨hfreed, hidle⟩ := commit_closed hcalm
  refine ⟨_, exec_postingServed hold hstate hroom, ?_⟩
  rw [hclosed]
  exact ⟨hfreed, hidle⟩

/-! ## The service at the end of an event (R186) -/

/-- The room a link has for ordinary frames, and what a record needs of it, are read from the lasting part. -/
theorem oldest_railSettle (hold : s.oldestWaiting = some r) : ∃ q, s.railSettle.oldestWaiting = some q ∧ lastingRec q = lastingRec r := by
  have h := oldestWaiting_of_lasting (lasting_railSettle s)
  rw [hold, Option.map_some] at h
  exact Option.map_eq_some_iff.mp h

theorem serveWaiting_succ (hold : s.oldestWaiting = some r) : ∃ n, s.serveWaiting = s.serveOldest.serveUpTo n := by
  have hmem : r ∈ s.recs := List.mem_of_find?_eq_some hold
  refine ⟨2 * s.recs.length - 1, ?_⟩
  have hsucc : 2 * s.recs.length = (2 * s.recs.length - 1) + 1 := by
    have := List.length_pos_of_mem hmem
    omega
  unfold State.serveWaiting
  rw [hsucc, State.serveUpTo, ← hsucc]

theorem serveOldest_posting (hold : s.oldestWaiting = some r) (hstate : r.state = .posting) (hroom : r.needs ≤ s.link.available) :
    s.serveOldest = s.servePosting r := by
  unfold State.serveOldest
  simp only [hold, if_pos hroom, hstate]

theorem serveOldest_mounted (hold : s.oldestWaiting = some r) (hstate : r.state ≠ .posting) (hroom : r.needs ≤ s.link.available) :
    s.serveOldest = s.queueMounted r := by
  unfold State.serveOldest
  simp only [hold, if_pos hroom]

theorem serveOldest_short (h : ∀ r, s.oldestWaiting = some r → s.link.available < r.needs) : s.serveOldest = s := by
  unfold State.serveOldest
  split
  next => rfl
  next r hold => exact if_neg (Nat.not_le_of_lt (h r hold))

/-- The oldest waiting record needs more entries than there are: nothing is queued. -/
theorem commit_short (hraised : nothingRaised s) (h : ∀ r, s.oldestWaiting = some r → s.link.available < r.needs) :
    lasting s.commit = lasting s := by
  have hlast := lasting_railSettle s
  have hshort : s.railSettle.serveOldest = s.railSettle := by
    refine serveOldest_short fun q hq => ?_
    obtain ⟨r, hr, hqr⟩ : ∃ r, s.oldestWaiting = some r ∧ lastingRec r = lastingRec q := by
      have hmap := oldestWaiting_of_lasting hlast
      rw [hq, Option.map_some] at hmap
      exact Option.map_eq_some_iff.mp hmap.symm
    have hneeds : r.needs = q.needs := (congrArg Rec.needs hqr :)
    rw [link_of_lasting hlast, ← hneeds]
    exact h r hr
  unfold State.commit
  rw [State.serveWaiting, serveUpTo_of_fixed hshort, offerNotices_of_nothingRaised ((raised_of_lasting hlast).trans hraised),
    lasting_railSettle, hlast]

/-- The oldest waiting record is POSTING, and no other record waits. -/
theorem commit_posting (hraised : nothingRaised s) (hold : s.oldestWaiting = some r) (hstate : r.state = .posting)
    (hroom : r.needs ≤ s.link.available) (honly : ∀ q ∈ s.recs, q.waits = true → q.slot = r.slot) :
    let closed := closedIn { s with link := offeredTo { s.link with outq := s.link.outq ++ framesOf r } r.notices } r.slot
    ∃ a, lasting a = lasting closed ∧ recordFreedFrom a s.commit
      ∧ ((∀ d : Fin 16, s.drives[d].returnWait = false ∧ s.drives[d].cleanWait = false) → lasting s.commit = lasting closed) := by
  intro closed
  have hlast := lasting_railSettle s
  have hlink := link_of_lasting hlast
  obtain ⟨q, hq, hqr⟩ := oldest_railSettle hold
  have hslot : q.slot = r.slot := (congrArg Rec.slot hqr :)
  have hneeds : q.needs = r.needs := (congrArg Rec.needs hqr :)
  have hnotices : q.notices = r.notices := (congrArg Rec.notices hqr :)
  have hqstate : q.state = .posting := (congrArg Rec.state hqr :).trans hstate
  obtain ⟨a, hadef⟩ : ∃ a, a
      = closedIn { s.railSettle with link := offeredTo { s.link with outq := s.link.outq ++ framesOf r } r.notices } r.slot := ⟨_, rfl⟩
  have ha : lasting a = lasting closed := by
    rw [hadef, lasting_closedIn, lasting_closedIn]
    exact congrArg (fun x => closedIn x r.slot) (lasting_withLink hlast _)
  have hserved : s.railSettle.serveOldest = a.recordFreed := by
    rw [serveOldest_posting hq hqstate (by rw [hneeds, hlink]; exact hroom), servePosting_eq _ hqstate, hlink, framesOf_lasting hqr, hnotices, hslot, hadef]
  have hcalm : calm a := by
    refine ⟨noneWaits_of_lasting ha (noneWaits_closedIn honly), ?_⟩
    have hsame := raised_of_lasting ha
    exact hsame.trans hraised
  have hstill : Still a a.recordFreed := (Still.refl a).recordFreed
  have hafter := hstill.calm hcalm
  have hcommit : s.commit = a.recordFreed.railSettle := by
    obtain ⟨n, hn⟩ := serveWaiting_succ hq
    unfold State.commit
    rw [hn, hserved, serveUpTo_of_noneWaits hafter.1, offerNotices_of_nothingRaised hafter.2]
  have hfreed : lasting s.commit = lasting a.recordFreed := by rw [hcommit, lasting_railSettle]
  refine ⟨a, ha, recordFreedFrom_of hfreed ?_, fun hidle => ?_⟩
  · rw [hcommit]
    exact (Still.refl a.recordFreed).railSettle.sent
  · rw [hfreed, recordFreed_nothing (s := a), ha]
    have hdrives : a.drives = s.drives := (congrArg State.drives ha :)
    rw [hdrives]
    exact hidle

/-! ## What the service adds to the queue (R186) -/

/-- The link has more at the tail of its queue, and the same backlog. -/
def Appends (l m : Link) : Prop := l.outq <+: m.outq ∧ m.backlog = l.backlog

theorem Appends.refl (l : Link) : Appends l l := ⟨List.prefix_rfl, rfl⟩

theorem Appends.trans {l m k : Link} (h : Appends l m) (h' : Appends m k) : Appends l k := ⟨h.1.trans h'.1, h'.2.trans h.2⟩

theorem appends_offeredTo (l : Link) (notices : List Notice) : Appends l (offeredTo l notices) := by
  induction notices generalizing l with
  | nil => exact Appends.refl l
  | cons n rest ih =>
    have hone : Appends l { l with outq := l.outq ++ offered l n } := ⟨List.prefix_append _ _, rfl⟩
    exact hone.trans (ih _)

theorem link_servePosting (s : State) (h : r.state = .posting) :
    ∃ lib, (s.servePosting r).link = { offeredTo { s.link with outq := s.link.outq ++ framesOf r } r.notices with lib := lib } := by
  rw [servePosting_eq s h, (Still.refl _).recordFreed.link]
  exact ⟨_, rfl⟩

theorem appends_servePosting (s : State) (h : r.state = .posting) :
    Appends { s.link with outq := s.link.outq ++ framesOf r } (s.servePosting r).link := by
  obtain ⟨lib, hlink⟩ := link_servePosting s h
  rw [hlink]
  exact appends_offeredTo _ r.notices

theorem framesOf_mounted (hwaits : r.waits = true) (hstate : r.state ≠ .posting) :
    framesOf r = [{ kept := false, frame := .ending (mountedEnding r) }] := by
  have howed : r.mountedOwed = true := by
    unfold Rec.waits at hwaits
    simpa [hstate] using hwaits
  unfold framesOf
  rw [if_pos howed, if_neg hstate]
  rfl

theorem waits_of_oldest (hold : s.oldestWaiting = some r) : r.waits = true := List.find?_some hold

/-- The oldest waiting record, when it is served, queues its frames. -/
theorem serveOldest_queues (hold : s.oldestWaiting = some r) (hroom : r.needs ≤ s.link.available) :
    Appends { s.link with outq := s.link.outq ++ framesOf r } s.serveOldest.link := by
  by_cases hstate : r.state = .posting
  · rw [serveOldest_posting hold hstate hroom]
    exact appends_servePosting s hstate
  · rw [serveOldest_mounted hold hstate hroom, framesOf_mounted (waits_of_oldest hold) hstate]
    exact Appends.refl _

theorem serveOldest_appends (s : State) : Appends s.link s.serveOldest.link := by
  cases hold : s.oldestWaiting with
  | none =>
    rw [serveOldest_short fun r hr => nomatch hold.symm.trans hr]
    exact Appends.refl _
  | some r =>
    by_cases hroom : r.needs ≤ s.link.available
    · have hframes : Appends s.link { s.link with outq := s.link.outq ++ framesOf r } := ⟨List.prefix_append _ _, rfl⟩
      exact hframes.trans (serveOldest_queues hold hroom)
    · rw [serveOldest_short fun q hq => by
        rw [← Option.some.inj (hold.symm.trans hq)]
        exact Nat.lt_of_not_le hroom]
      exact Appends.refl _

theorem serveUpTo_appends (n : Nat) (s : State) : Appends s.link (s.serveUpTo n).link := by
  induction n generalizing s with
  | zero => exact Appends.refl _
  | succ n ih => exact (serveOldest_appends s).trans (ih _)

theorem appends_offerNotices (s : State) : Appends s.link s.offerNotices.link := by
  unfold State.offerNotices
  rw [foldl_offerNotice]
  exact appends_offeredTo s.link s.raised

/-- The oldest waiting record is served: its frames stand first behind the queue. -/
theorem commit_queues (hold : s.oldestWaiting = some r) (hroom : r.needs ≤ s.link.available) :
    Appends { s.link with outq := s.link.outq ++ framesOf r } s.commit.link := by
  have hlink := link_of_lasting (lasting_railSettle s)
  obtain ⟨q, hq, hqr⟩ := oldest_railSettle hold
  have hneeds : q.needs = r.needs := (congrArg Rec.needs hqr :)
  have hqueued := serveOldest_queues hq (by rw [hneeds, hlink]; exact hroom)
  rw [hlink, framesOf_lasting hqr] at hqueued
  obtain ⟨n, hn⟩ := serveWaiting_succ hq
  have hserved : Appends { s.link with outq := s.link.outq ++ framesOf r } s.railSettle.serveWaiting.link := by
    rw [hn]
    exact hqueued.trans (serveUpTo_appends n _)
  unfold State.commit
  rw [link_of_lasting (lasting_railSettle _)]
  exact hserved.trans (appends_offerNotices _)

/-! ## One record that owes its MOUNTED ending -/

theorem updFirst_append {α : Type} {p : α → Bool} {f : α → α} {x : α} (older younger : List α) (h : ∀ y ∈ older, p y = false)
    (hx : p x = true) : updFirst p f (older ++ x :: younger) = older ++ f x :: younger := by
  induction older with
  | nil => exact if_pos hx
  | cons y rest ih =>
    rw [List.cons_append, List.cons_append, updFirst, if_neg (by rw [h y List.mem_cons_self]; exact Bool.false_ne_true)]
    exact congrArg (List.cons y) (ih fun z hz => h z (List.mem_cons_of_mem _ hz))

/-- No record waits once the only one that did has its ending queued. -/
theorem noneWaits_endingPaid (hold : s.oldestWaiting = some r) (hstate : r.state ≠ .posting) (hslots : (s.recs.map (·.slot)).Nodup)
    (honly : ∀ q ∈ s.recs, q.waits = true → q = r) : noneWaits (s.updRec r.slot endingPaid) := by
  obtain ⟨-, older, younger, hsplit, hfirst⟩ := List.find?_eq_some_iff_append.mp hold
  rw [hsplit, List.map_append, List.map_cons] at hslots
  have hnodup := List.nodup_append.mp hslots
  have holder : ∀ q ∈ older, decide (q.slot = r.slot) = false := fun q hq => decide_eq_false fun hsame =>
    hnodup.2.2 q.slot (List.mem_map_of_mem hq) r.slot List.mem_cons_self hsame
  have hrecs : (s.updRec r.slot endingPaid).recs = older ++ endingPaid r :: younger := by
    show updFirst _ _ s.recs = _
    rw [hsplit]
    exact updFirst_append older younger holder (decide_eq_true rfl)
  intro q hq
  rw [hrecs] at hq
  rcases List.mem_append.mp hq with hq | hq
  · simpa using hfirst q hq
  · rcases List.mem_cons.mp hq with rfl | hq
    · unfold endingPaid Rec.waits
      simpa using hstate
    · refine Bool.eq_false_iff.mpr fun hwaits => ?_
      have hsame := honly q (by rw [hsplit]; exact List.mem_append_right _ (List.mem_cons_of_mem _ hq)) hwaits
      have hout := (List.nodup_cons.mp hnodup.2.1).1
      exact hout (hsame ▸ List.mem_map_of_mem hq)

theorem commit_owed (hraised : nothingRaised s) (hold : s.oldestWaiting = some r) (hstate : r.state ≠ .posting)
    (hroom : 1 ≤ s.link.available) (hslots : (s.recs.map (·.slot)).Nodup) (honly : ∀ q ∈ s.recs, q.waits = true → q = r) :
    lasting s.commit
      = lasting (({ s with link := { s.link with outq := s.link.outq ++ framesOf r } } : State).updRec r.slot endingPaid) := by
  rw [(commit_mounted hold hstate (noneWaits_endingPaid hold hstate hslots honly)).1, mountedServed, if_pos hroom,
    offerNotices_of_nothingRaised (s := s.queueMounted r) hraised, framesOf_mounted (waits_of_oldest hold) hstate]
  rfl

/-! ## A freed kept entry (R185) -/

/-- How many entries of a queue are kept ones. -/
def keptOf (l : List OutFrame) : Nat := (l.filter (fun f => f.kept)).length

/-- The link with this queue and backlog, where receive-ready is given when a kept entry is free and the backlog empty. -/
def linkWith (l : Link) (queue : List OutFrame) (backlog : List Frame) : Link :=
  { l with outq := queue, backlog := backlog, lateTaken := if keptOf queue < 4 ∧ backlog = [] then false else l.lateTaken }

theorem receiveReady_iff (l : Link) : l.receiveReady = true ↔ keptOf l.outq < 4 ∧ l.backlog = [] := by
  unfold Link.receiveReady Link.keptFree Link.keptUsed keptOf
  simp

theorem givesReady (s : State) : (if s.link.receiveReady then { s with link := { s.link with lateTaken := false } } else s)
    = ({ s with link := linkWith s.link s.link.outq s.link.backlog } : State) := by
  unfold linkWith
  by_cases h : keptOf s.link.outq < 4 ∧ s.link.backlog = []
  · rw [if_pos ((receiveReady_iff _).mpr h), if_pos h]
  · rw [if_neg fun hready => h ((receiveReady_iff _).mp hready), if_neg h]

theorem serveBacklog_keeps (h : s.link.backlog = [] ∨ 4 ≤ keptOf s.link.outq) :
    s.serveBacklog = { s with link := linkWith s.link s.link.outq s.link.backlog } := by
  rw [← givesReady]
  unfold State.serveBacklog
  split
  next => rfl
  next b later hbacklog =>
    have hfull : s.link.keptFree = false := by
      have hkept : 4 ≤ s.link.keptUsed := h.resolve_left (by simp [hbacklog])
      exact decide_eq_false (by omega)
    simp only [hfull, Bool.false_eq_true, if_false]

theorem serveBacklog_takes {b : Frame} {later : List Frame} (hbacklog : s.link.backlog = b :: later) (h : keptOf s.link.outq < 4) :
    s.serveBacklog = { s with link := linkWith s.link (s.link.outq ++ [{ kept := true, frame := b }]) later } := by
  have hfree : s.link.keptFree = true := decide_eq_true h
  unfold State.serveBacklog
  rw [hbacklog]
  simp only [hfree, if_true]
  exact givesReady (({ s with link := { s.link with backlog := later } } : State).enqueue true b)

/-! ## The obligation for sent frames and the backlog -/

theorem waits_iff : r.waits = true ↔ r.state = .posting ∨ r.mountedOwed = true := by
  unfold Rec.waits
  simp

theorem oldestWaiting_iff : s.oldestWaiting = some r ↔ ∃ older younger, s.recs = older ++ r :: younger
    ∧ (r.state = .posting ∨ r.mountedOwed = true) ∧ ∀ q ∈ older, ¬(q.state = .posting ∨ q.mountedOwed = true) := by
  unfold State.oldestWaiting
  rw [List.find?_eq_some_iff_append]
  constructor
  · rintro ⟨hwaits, older, younger, hsplit, hfirst⟩
    refine ⟨older, younger, hsplit, waits_iff.mp hwaits, fun q hq hno => ?_⟩
    have hq := hfirst q hq
    rw [waits_iff.mpr hno] at hq
    cases hq
  · rintro ⟨older, younger, hsplit, hwaits, hfirst⟩
    refine ⟨waits_iff.mpr hwaits, older, younger, hsplit, fun q hq => ?_⟩
    rw [Bool.not_eq_true']
    exact Bool.eq_false_iff.mpr fun hno => hfirst q hq (waits_iff.mp hno)

theorem needs_eq (r : Rec) : r.needs = if r.state = .posting then (if r.mountedOwed = true then 3 else 2) else 1 := by
  unfold Rec.needs
  split
  next h => rw [if_pos h]
  next h => rw [if_neg h]

theorem available_eq (l : Link) : l.available = if l.backlog = [] then 28 - (l.outq.filter (fun f => !f.kept)).length else 0 := by
  unfold Link.available Link.ordUsed
  simp

/-- The event ends with this link: the oldest waiting record is served, or it waits on. -/
theorem served_of_exec {c : Instr} {l : Link} (hraised : nothingRaised s) (hexec : exec c s = .next ({ s with sent := [], link := l } : State).commit) :
    ((∀ r, s.oldestWaiting = some r → l.available < r.needs) → ∃ t, exec c s = .next t ∧ lasting t = lasting { s with link := l })
      ∧ (∀ r, s.oldestWaiting = some r → r.needs ≤ l.available →
          ∃ t more, exec c s = .next t ∧ t.link.outq = l.outq ++ framesOf r ++ more ∧ t.link.backlog = l.backlog)
      ∧ ∀ r, s.oldestWaiting = some r → r.needs ≤ l.available → recordLaw s → (∀ q ∈ s.recs, q.waits = true → q = r) →
          let queued : Link := { l with outq := l.outq ++ framesOf r }
          (r.state ≠ .posting → ∃ t, exec c s = .next t
              ∧ lasting t = lasting (({ s with link := queued } : State).updRec r.slot (fun q => { q with mountedOwed := false })))
            ∧ (r.state = .posting →
                ∃ t a, exec c s = .next t ∧ lasting a = lasting (closedIn { s with link := offeredTo queued r.notices } r.slot)
                  ∧ recordFreedFrom a t
                  ∧ ((∀ d : Fin 16, s.drives[d].returnWait = false ∧ s.drives[d].cleanWait = false) →
                      lasting t = lasting (closedIn { s with link := offeredTo queued r.notices } r.slot))) := by
  have hw : nothingRaised ({ s with sent := [], link := l } : State) := hraised
  refine ⟨fun hshort => ⟨_, hexec, commit_short hw hshort⟩, fun r hold hroom => ?_, fun r hold hroom hlaw honly => ?_⟩
  · obtain ⟨⟨more, hmore⟩, hbacklog⟩ := commit_queues (s := { s with sent := [], link := l }) hold hroom
    exact ⟨_, more, hexec, hmore.symm, hbacklog⟩
  · intro queued
    refine ⟨fun hstate => ⟨_, hexec, ?_⟩, fun hstate => ?_⟩
    · have hone : r.needs = 1 := by rw [needs_eq, if_neg hstate]
      exact commit_owed (s := { s with sent := [], link := l }) hw hold hstate (hone ▸ hroom) hlaw.2.1 honly
    · obtain ⟨a, ha, hfreed, hidle⟩ := commit_posting (s := { s with sent := [], link := l }) hw hold hstate hroom
        fun q hq hwaits => congrArg Rec.slot (honly q hq hwaits)
      exact ⟨_, a, hexec, ha, hfreed, hidle⟩

theorem exec_frameSent {f : OutFrame} {rest : List OutFrame} (houtq : s.link.outq = f :: rest) :
    exec .frameSent s = .next (({ s.start with link := { s.link with outq := rest } } : State).serveBacklog.commit) := by
  show execFrameSent s = _
  unfold execFrameSent
  rw [houtq]

theorem exec_frameSent_nothing (houtq : s.link.outq = []) : exec .frameSent s = .next { s with sent := [] } := by
  show execFrameSent s = _
  unfold execFrameSent
  rw [houtq]
  rfl

/-- Settles O21, from what a freed entry does with the backlog and from the service at the end of an event. -/
theorem sentFramesAndTheBacklog : Obligations.SentFramesAndTheBacklog := by
  intro s hraised kept waits needs oldest frames serves
  have hserves : ∀ {c : Instr} {queue : List OutFrame} {backlog : List Frame},
      exec c s = .next ({ s with sent := [], link := linkWith s.link queue backlog } : State).commit → serves c queue backlog := by
    intro c queue backlog hexec
    obtain ⟨hshort, hqueues, honly⟩ := served_of_exec hraised hexec
    have hfree : (linkWith s.link queue backlog).available = if backlog = [] then 28 - (queue.filter (fun f => !f.kept)).length else 0 :=
      available_eq _
    rw [hfree] at hshort
    refine ⟨fun hall => hshort fun r hr => ?_, fun r hr hroom => ?_, fun r hr hroom hlaw hone => ?_⟩
    · rw [needs_eq]
      exact hall r (oldestWaiting_iff.mp hr)
    · exact hqueues r (oldestWaiting_iff.mpr hr) (by rw [needs_eq, hfree]; exact hroom)
    · exact honly r (oldestWaiting_iff.mpr hr) (by rw [needs_eq, hfree]; exact hroom) hlaw fun q hq hwaits => hone q hq (waits_iff.mp hwaits)
  refine ⟨fun f rest houtq => ⟨fun h => hserves ?_, fun b later hbacklog h => hserves ?_⟩, fun houtq => ?_, fun h => hserves ?_,
    fun b later hbacklog h => hserves ?_⟩
  · rw [exec_frameSent houtq, serveBacklog_keeps (s := { s.start with link := { s.link with outq := rest } }) h]
    rfl
  · rw [exec_frameSent houtq, serveBacklog_takes (s := { s.start with link := { s.link with outq := rest } }) hbacklog h]
    rfl
  · exact exec_frameSent_nothing houtq
  · exact congrArg (fun x : State => Host.Outcome.next x.commit) (serveBacklog_keeps (s := s.start) h)
  · exact congrArg (fun x : State => Host.Outcome.next x.commit) (serveBacklog_takes (s := s.start) hbacklog h)

end Serving

end Sys2Proof
end

section
/-! PROOFS. Statements that fail: for each a concrete state that meets every premise the statement makes, and that a command of the
model takes where the statement does not go. Such a state need not be one that a run comes to: the statements speak of every state. -/

namespace Sys2Proof

namespace Refuted

open Machine Safety

/-- A volume, for every counterexample. -/
def volume : Serial := { c1 := 0x56, c2 := 0x4F, c3 := 0x4C, c4 := 0x30, c5 := 0x30, c6 := 0x30 }

/-- The state a command leaves. -/
def after (c : Instr) (s : State) : State :=
  match exec c s with
  | .next t => t
  | _ => s

theorem after_eq {c : Instr} {s t : State} (h : exec c s = .next t) : t = after c s := by
  rw [after, h]

theorem nothingOwed_of_unprompted {s : State} (hacc : ∀ acc, (s.acc acc).prompt = .none) (hclean : s.cleanPrompt = .none)
    (hrec : ∀ r ∈ s.recs, r.approve = .none) (hpos : ∀ p : Fin 8, s.station.pos[p].prompt = .none) : nothingOwed s :=
  ⟨fun acc u => by rw [hacc acc]; exact FaultPrompt.noConfusion, by rw [hclean]; exact PromptRef.noConfusion,
    fun r hr => by rw [hrec r hr]; exact PromptRef.noConfusion, fun p => by rw [hpos p]; exact PromptRef.noConfusion⟩

/-! ## ACCOUNT_READ_CLEAR -/

/-- A HELD record of account 0, in slot 0, that the budget does not hold, but with a READY leg between two cells of accessor A. -/
def heldWithLeg : Rec :=
  let r := internalRec 0 .mount (some volume) 0 .held
  { r with leg := some (legOf r .a (.cell { col := 10, row := 3 }) (.cell { col := 12, row := 3 })) }

/-- Account 0 is LIMITED, and the leg stands in the queue of an accessor that is IDLE. -/
def limitedWithLeg : State :=
  let s : State := { State.reset with recs := [heldWithLeg], acct := { State.reset.acct with
    accounts := State.reset.acct.accounts.set 0 { Account.initial with budget := .limited } } }
  { s with rail := { s.rail with
    queues := { a := [0], b := [] }, accs := { s.rail.accs with a := { AccRec.initial 0 with state := .idle } } } }

/-- The release has no record to free, but the search for work at its end makes the leg ASSIGNED. -/
theorem limitedWithLeg_assigned : ((after (.accountReadClear 0 0) limitedWithLeg).rec? 0).map Rec.leg ≠ some heldWithLeg.leg := by
  decide +kernel

theorem limitedWithLeg_records : recordLaw limitedWithLeg :=
  ⟨by decide +kernel, by decide +kernel, List.pairwise_singleton _ _, by decide +kernel, by decide +kernel⟩

/-- Refutes O57, in its clause of the records that are not released: a HELD record that the budget does not hold keeps all but its APPROVE
prompt, says the statement; one with a READY leg in the queue of an IDLE accessor has its leg taken into a trip. -/
theorem not_accountOperations : ¬ Obligations.AccountOperations := by
  intro h
  obtain ⟨-, hclear, -⟩ := h 0 0 limitedWithLeg (by decide +kernel)
  obtain ⟨-, hreleased⟩ := hclear (by decide +kernel)
  obtain ⟨hrecords, -⟩ := hreleased (by decide +kernel)
  obtain ⟨t, more, ht, -, -, hkept, -⟩ := hrecords limitedWithLeg_records
  obtain ⟨q, hq⟩ := hkept 0 heldWithLeg (by decide +kernel) rfl (by decide)
  refine limitedWithLeg_assigned ?_
  rw [show after (.accountReadClear 0 0) limitedWithLeg = t from (after_eq ht).symm, hq]
  rfl

/-! ## CANCEL -/

/-- A HELD CHANNEL record in slot 0 with its APPROVE prompt raised under number 0. -/
def heldPrompted : Rec :=
  { internalRec 0 .mount (some volume) 0 .held with origin := .channel, corr := some 1, approve := .up 0 }

/-- The APPROVE prompt of slot 0. -/
def approvePrompt : Prompt :=
  { num := 0, kind := .approve, template := 0, block := .requestTable, subject := .slot 0,
    fields := { serial := some volume, drive := none, position := none, account := none }, override := none, initial := 3, urgency := 3,
    left := 2, steps := 2, reply := 300, action := .fail, timer := 300 }

/-- The record is HELD, and drive 0, FREE and due, waits for cleaning with no reel in the list and no CLEAN_SUPPLY prompt raised. -/
def heldBesideDirty : State :=
  { State.reset with
    recs := [heldPrompted], console := { State.reset.console with queue := [approvePrompt], nextNum := 1 },
    drives := State.reset.drives.set 0 { Drive.initial with state := .free, due := true, cleanWait := true } }

/-- The record is cancelled and its frames go at once; its close lets the drive make its attempt, which raises CLEAN_SUPPLY. -/
theorem heldBesideDirty_prompts : (after (.cancel (.fields 1)) heldBesideDirty).console.queue ≠ [] := by
  decide +kernel

/-- Refutes O26: the queue loses the APPROVE prompt alone, says the statement of a HELD record, also where two ordinary entries are
available; there the record closes in the same command, and a drive that waits for cleaning raises a prompt. -/
theorem not_cancelByState : ¬ Obligations.CancelByState := by
  intro h
  obtain ⟨hheld, -, -, -⟩ := h 1 heldBesideDirty (by decide +kernel)
  obtain ⟨hprompt, -⟩ := hheld heldPrompted (by decide +kernel) (by decide +kernel) (by decide +kernel)
  obtain ⟨hup, -⟩ := hprompt rfl
    (nothingOwed_of_unprompted (fun acc => by cases acc <;> rfl) rfl (by decide +kernel) (by decide +kernel))
  obtain ⟨t, ht, hqueue, -⟩ := hup 0 rfl ⟨approvePrompt, by decide +kernel, rfl⟩
  refine heldBesideDirty_prompts ?_
  rw [← after_eq ht, hqueue]
  rfl

/-! ## An accessor that stops, beside one with an order to send -/

/-- A MOUNT record in slot 0 with its leg ASSIGNED to a trip of accessor A. -/
def assignedLeg : Leg :=
  { legOf (internalRec 0 .mount (some volume) 0 .staged) .a (.cell { col := 10, row := 3 }) (.cell { col := 12, row := 3 }) with
    state := .assigned }

def onTrip : Rec := { internalRec 0 .mount (some volume) 0 .staged with leg := some assignedLeg }

/-- Accessor A is STALLED on the trip of that leg, and accessor B has the PICK of the same leg to send. -/
def stalledBesidePick : State :=
  { State.reset with
    recs := [onTrip],
    rail := { State.reset.rail with accs := {
      a := { AccRec.initial 0 with
        state := .stalled, faults := 1,
        trip := some {
          legs := [0], putBacks := [], stops := [⟨.pick, .record 0⟩, ⟨.place, .record 0⟩], window := 0, runOut := false } }
      b := { AccRec.initial 199 with state := .idle, todo := some (.pick 0) } } } }

/-- The leg goes back to the queue of A, but B, at the end of the command, sends the PICK that it has to send and takes the leg in hand. -/
theorem stalledBesidePick_inHand : ((after (.accessorOffline 0 0) stalledBesidePick).leg? 0).map Leg.inHand = some true := by
  decide +kernel

/-- Refutes O45: the leg of a trip that ends is READY and not in hand, says the statement; an order that the other accessor has still to
send can name it. -/
theorem not_accessorOperations : ¬ Obligations.AccessorOperations := by
  intro h
  obtain ⟨-, -, -, -, -, hoffline, -⟩ :=
    h 0 0 .a { gather := 1, pick := 1, place := 1, scan := 1, recover := 1 } stalledBesidePick (by decide +kernel) rfl
  obtain ⟨-, hquiet⟩ := hoffline rfl (by decide +kernel) (by decide +kernel) (by decide +kernel) rfl rfl rfl (by decide +kernel)
    (nothingOwed_of_unprompted (fun acc => by cases acc <;> rfl) rfl (by decide +kernel) (by decide +kernel))
  obtain ⟨t, ht, -, hback, -⟩ := hquiet (fun k => FaultPrompt.noConfusion)
  obtain ⟨hleg, -⟩ := hback _ 0 assignedLeg rfl (by decide)
    ⟨rfl, rfl, by decide +kernel, by decide +kernel, by decide +kernel, by decide +kernel, by decide +kernel⟩ rfl
  have hinHand := stalledBesidePick_inHand
  rw [← after_eq ht, hleg] at hinHand
  exact absurd hinHand (by decide)

/-- The RECOVER of accessor A has run out of time. -/
def lateRecover : Order := { op := .recover, col := 0, place := none, holder := none, timer := 0 }

/-- Accessor A is RUNNING on the trip of the leg, and accessor B has the PICK of the same leg to send. -/
def lateBesidePick : State :=
  stalledBesidePick.updAcc .a (fun x => { x with state := .running, faults := 0, order := some lateRecover })

theorem lateBesidePick_inHand : ((after (.motionLimitExpiry .a) lateBesidePick).leg? 0).map Leg.inHand = some true := by
  decide +kernel

/-- Refutes O52: as in the refutation of O45, of the legs that go back to the queue at the first fault of a run. -/
theorem not_motionLimitExpiry : ¬ Obligations.MotionLimitExpiry := by
  intro h
  obtain ⟨-, hfirst, -, -⟩ := h .a lateRecover lateBesidePick (by decide +kernel) rfl
  obtain ⟨t, ht, -, -, -, -, -, -, hlegs, -⟩ := hfirst rfl (by decide) rfl
  obtain ⟨hback, -⟩ := hlegs _ 0 assignedLeg rfl (by decide)
    ⟨rfl, rfl, by decide +kernel, by decide +kernel, by decide +kernel, by decide +kernel, by decide +kernel⟩
  obtain ⟨hleg, -⟩ := hback rfl (by decide)
  have hinHand := lateBesidePick_inHand
  rw [← after_eq ht, hleg] at hinHand
  exact absurd hinHand (by decide)

/-! ## A PLACE into an OFFLINE drive -/

/-- The leg of a record of slot 0 from a cell to drive 0, with its reel aboard in holder 0 of accessor A. -/
def legToDrive : Leg :=
  { legOf (internalRec 0 .mount (some volume) 0 .held) .a (.cell { col := 10, row := 3 }) (.drive 0) with
    state := .aboard, holder := some 0 }

/-- A HELD record with that leg that owes its APPROVE prompt. -/
def heldOwing : Rec := { internalRec 0 .mount (some volume) 0 .held with leg := some legToDrive, approve := .owed }

/-- The PLACE of the leg into drive 0. -/
def placeInDrive : Order := { op := .place (.record 0), col := 10, place := some (.drive 0), holder := some 0, timer := 60 }

/-- The CLEAN_SUPPLY prompt, which no drive waits for any more. -/
def cleanPrompt : Prompt :=
  { num := 0, kind := .cleanSupply, template := 14, block := .driveTable, subject := .drive 0, fields := { noFields with drive := some 0 },
    override := none, initial := 3, urgency := 3, left := 2, steps := 2, reply := 300, action := .rearm, timer := 300 }

/-- The reel is placed into drive 0 while that is OFFLINE; the CLEAN_SUPPLY prompt stands in the queue. -/
def placingOffline : State :=
  { State.reset with
    recs := [heldOwing], cleanPrompt := .up 0, console := { State.reset.console with queue := [cleanPrompt], nextNum := 1 },
    drives := State.reset.drives.set 0 { Drive.initial with state := .offline },
    rail := { State.reset.rail with accs := {
      a := { AccRec.initial 0 with
        state := .running, holders := (Vector.replicate 3 Holder.empty).set 0 (.reel volume), order := some placeInDrive }
      b := AccRec.initial 199 } } }

/-- The fault of the drive gives the CLEAN_SUPPLY prompt up, and the space it leaves lets the APPROVE prompt be raised. -/
theorem placingOffline_approves : ((after (.placeCompletion .a) placingOffline).rec? 0).map Rec.approve = some (.up 1) := by
  decide +kernel

/-- Refutes O50: a record whose reel is placed into a drive in another state keeps its APPROVE prompt, says the statement; a HELD one that
owes it has it raised. -/
theorem not_placeCompletion : ¬ Obligations.PlaceCompletion := by
  intro h
  obtain ⟨hplace, -⟩ := h
  obtain ⟨-, hrecord, -⟩ := hplace .a placeInDrive 0 legToDrive heldOwing 0 volume placingOffline (by decide +kernel)
  obtain ⟨hplaced, -⟩ := hrecord rfl rfl rfl rfl rfl rfl
  obtain ⟨-, -, -, hother, -⟩ := hplaced rfl
  obtain ⟨t, ht, -, -, -, -, -, hrec, -⟩ := hother 0 rfl (by decide +kernel) (by decide +kernel) (by decide +kernel)
  have happroves := placingOffline_approves
  rw [← after_eq ht, hrec] at happroves
  exact absurd happroves (by decide)

end Refuted

end Sys2Proof
end

section
/-! PROOFS. A record that ends: what its entry into POSTING leaves at the end of the event, while its two ordinary entries are not
available (R15, R20, R170 to R176). -/

namespace Sys2Proof

namespace Ending

open Machine Safety Upkeep Settling Requests Posting Events Serving

variable {s t u v : State} {n : Nat} {q r : Rec} {o : FinalOutcome}

/-! ## What the build reads of a record (R170, R174) -/

/-- A record but for what its entry into POSTING writes. -/
def endingPart (r : Rec) : Rec :=
  { r with state := .posting, drive := none, leg := none, nextLeg := none, approve := .none, usage := none, notices := [] }

theorem posted_congr (h : endingPart q = endingPart r) : posted s q = posted s r := (congrArg (posted s) h :)

theorem built_congr (h : endingPart q = endingPart r) : built s q = built s r := (congrArg (built s) h :)

theorem rec?_lasting (s : State) (n : Nat) : (lasting s).rec? n = (s.rec? n).map lastingRec :=
  find?_map_lasting (fun r => decide (r.slot = n)) (fun _ => rfl) s.recs

/-- The link's flags after those of some notices are set. -/
def flagsWith (ns : List Notice) (flags : BitVec 9) : BitVec 9 := ns.foldl (fun f x => f ||| noticeMask x.kind) flags

theorem built_eq (s : State) (r : Rec) : built s r = { s with
    acct := (s.updAccount r.account (fun _ => builtAccount s r)).acct,
    link := { s.link with flags := flagsWith (builtNotices s r) s.link.flags } } := by
  have hflags : ∀ (ns : List Notice) (x : State), (ns.foldl (fun s n => s.setFlag n.kind) x).link.flags = flagsWith ns x.link.flags :=
    fun ns => by
      induction ns with
      | nil => exact fun _ => rfl
      | cons k rest ih => exact fun x => ih (x.setFlag k.kind)
  unfold built
  rw [setFlags_eq, hflags]
  rfl

theorem lasting_built (s : State) (r : Rec) : lasting (built s r) = built (lasting s) (lastingRec r) := by
  rw [built_eq, built_eq]
  rfl

theorem built_updRec (f : Rec → Rec) : built (u.updRec n f) q = (built u q).updRec n f := by
  rw [built_eq, built_eq]
  rfl

/-- The search for work keeps of a record that enters POSTING what it keeps of the state before. -/
theorem lasting_enterPosting (s : State) (n : Nat) : lasting (s.enterPosting n) = (lasting s).enterPosting n := by
  cases hr : s.rec? n with
  | none =>
    have hnone : (lasting s).rec? n = none := by rw [rec?_lasting, hr]; rfl
    simp only [State.enterPosting, hr, hnone]
  | some r =>
    have hsome : (lasting s).rec? n = some (lastingRec r) := by rw [rec?_lasting, hr]; rfl
    rw [enterPosting_eq hr, enterPosting_eq hsome, lasting_updRec (f := fun _ => posted s r) (fun _ => rfl), lasting_built]
    rfl

theorem enterPosting_updRec (hq : q.slot = n) (hsome : (u.rec? n).isSome) :
    (u.updRec n (fun _ => q)).enterPosting n = (built u q).updRec n (fun _ => posted u q) := by
  obtain ⟨r, hr⟩ := Option.isSome_iff_exists.mp hsome
  rw [enterPosting_eq (rec?_updRec_const hr hq), built_updRec, updRec_twice ((rec?_built u q n).trans hr) hq]
  rfl

/-! ## The end of a record, with no room for its frames -/

/-- The record as it is when its outcome has been fixed. -/
def withOutcome (r : Rec) (o : FinalOutcome) : Rec := { r with outcome := some o }

/-- `endsIn` says nothing more than what the search for work keeps of the record's entry into POSTING. -/
theorem endsIn_of_lasting (hsome : (u.rec? r.slot).isSome)
    (h : lasting t = lasting ((u.updRec r.slot (fun _ => withOutcome r o)).enterPosting r.slot)) : endsIn t u r o := by
  have hposted := enterPosting_updRec (n := r.slot) (q := withOutcome r o) rfl hsome
  have hlast := h
  rw [hposted, built_eq] at hlast
  have hacct : t.acct = (u.updAccount r.account (fun _ => builtAccount u r)).acct := (congrArg State.acct hlast :)
  have hself : t.acct.accounts[r.account] = builtAccount u r := by rw [hacct, State.updAccount_self]
  refine ⟨h, posted u (withOutcome r o), usageOf r o (chargeInputs u.acct.rates r) (builtAccount u r), rfl, rfl, rfl, rfl, rfl, rfl, rfl, ?_, ?_, ?_, ?_,
    fun m hm => ?_, ?_, ?_⟩
  · rw [hself]; rfl
  · rw [hself]; rfl
  · rw [hself]; rfl
  · rw [hself]; rfl
  · rw [hacct, State.updAccount_other _ _ _ _ hm]
  · have hlink := link_of_lasting hlast
    rw [hlink]
    rfl
  · exact congrArg (fun x : State => { x with acct := u.acct, link := u.link }) hlast

theorem needs_posted (hwaits : r.waits = false) : (posted s r).needs = 2 := by
  have howed : r.mountedOwed = false := (Bool.or_eq_false_iff.mp hwaits).2
  show (if r.mountedOwed then 3 else 2) = 2
  rw [howed]
  rfl

/-- The oldest waiting record needs more entries than there are: the link unit offers the notices raised at the event. -/
theorem lasting_commit_short (h : ∀ r, s.oldestWaiting = some r → s.link.available < r.needs) :
    lasting s.commit = lasting s.offerNotices := by
  have hlast := lasting_railSettle s
  have hshort : s.railSettle.serveOldest = s.railSettle := by
    refine serveOldest_short fun q hq => ?_
    have hmap := oldestWaiting_of_lasting hlast
    rw [hq, Option.map_some] at hmap
    obtain ⟨r, hr, hqr⟩ := Option.map_eq_some_iff.mp hmap.symm
    have hneeds : r.needs = q.needs := (congrArg Rec.needs hqr :)
    rw [link_of_lasting hlast, ← hneeds]
    exact h r hr
  unfold State.commit
  rw [State.serveWaiting, serveUpTo_of_fixed hshort, lasting_railSettle, lasting_offerNotices, hlast, lasting_offerNotices]

theorem oldestWaiting_enterPosting (hwaits : noneWaits v) (hr : v.rec? n = some r) :
    (v.enterPosting n).oldestWaiting = some (posted v r) := by
  rw [enterPosting_eq hr]
  refine oldestWaiting_updRec (r := r) (fun x hx => hwaits x ?_) ((rec?_built v r n).trans hr) rfl
  rw [← built_recs v r]
  exact hx

theorem available_enterPosting (v : State) (n : Nat) : (v.enterPosting n).link.available = v.link.available := by
  cases hr : v.rec? n with
  | none => simp only [State.enterPosting, hr]
  | some r =>
    rw [enterPosting_eq hr, built_eq]
    rfl

/-- The frames of a record that has ended wait for two ordinary entries. -/
theorem lasting_commit_ended (hwaits : noneWaits v) (hr : v.rec? n = some r) (hroom : v.link.available < 2) :
    lasting (v.enterPosting n).commit = lasting (v.enterPosting n).offerNotices := by
  refine lasting_commit_short fun q hq => ?_
  rw [oldestWaiting_enterPosting hwaits hr] at hq
  cases hq
  rw [available_enterPosting, needs_posted (hwaits r (List.mem_of_find?_eq_some hr))]
  exact hroom

/-- A state that the search for work does not tell from `u`, but for the fields of the record that its entry into POSTING writes. -/
def endsFrom (v u : State) (r : Rec) (o : FinalOutcome) : Prop :=
  ∃ q, q.slot = r.slot ∧ endingPart q = endingPart (withOutcome r o) ∧ lasting v = lasting (u.updRec r.slot (fun _ => q))

theorem lasting_endsFrom (hsome : (u.rec? r.slot).isSome) (h : endsFrom v u r o) :
    lasting (v.enterPosting r.slot) = lasting ((u.updRec r.slot (fun _ => withOutcome r o)).enterPosting r.slot) := by
  obtain ⟨q, hslot, hpart, hlast⟩ := h
  rw [lasting_enterPosting, hlast, ← lasting_enterPosting, enterPosting_updRec hslot hsome,
    enterPosting_updRec (n := r.slot) (q := withOutcome r o) rfl hsome, posted_congr hpart, built_congr hpart]

theorem rec?_of_lasting (h : lasting t = lasting s) (hr : s.rec? n = some r) : ∃ q, t.rec? n = some q ∧ lastingRec q = lastingRec r := by
  have hmap := congrArg (fun x => x.rec? n) h
  simp only [rec?_lasting, hr, Option.map_some] at hmap
  exact Option.map_eq_some_iff.mp hmap

theorem rec?_endsFrom (hsome : (u.rec? r.slot).isSome) (h : endsFrom v u r o) : ∃ q, v.rec? r.slot = some q := by
  obtain ⟨x, hx⟩ := Option.isSome_iff_exists.mp hsome
  obtain ⟨q, hslot, -, hlast⟩ := h
  obtain ⟨y, hy, -⟩ := rec?_of_lasting hlast (rec?_updRec_const hx hslot)
  exact ⟨y, hy⟩

/-- A record has ended, and nothing was raised at the event. -/
theorem endsIn_commit (hcalm : calm v) (hroom : v.link.available < 2) (hsome : (u.rec? r.slot).isSome) (h : endsFrom v u r o) :
    endsIn (v.enterPosting r.slot).commit u r o := by
  obtain ⟨q, hq⟩ := rec?_endsFrom hsome h
  refine endsIn_of_lasting hsome ?_
  have hraised : nothingRaised (v.enterPosting r.slot) := by
    rw [enterPosting_eq hq, built_eq]
    exact hcalm.2
  rw [lasting_commit_ended hcalm.1 hq hroom, offerNotices_of_nothingRaised hraised]
  exact lasting_endsFrom hsome h

/-- A frame offered before a record enters POSTING is offered after it. -/
theorem offerNotice_enterPosting (s : State) (x : Notice) (n : Nat) :
    (s.enterPosting n).offerNotice x = (s.offerNotice x).enterPosting n := by
  have hrec : (s.offerNotice x).rec? n = s.rec? n := by rw [offerNotice_eq]; rfl
  cases hr : s.rec? n with
  | none =>
    rw [hr] at hrec
    simp only [State.enterPosting, hr, hrec]
  | some r =>
    rw [hr] at hrec
    rw [enterPosting_eq hr, enterPosting_eq hrec, built_eq, built_eq, offerNotice_eq, offerNotice_eq]
    rfl

theorem enterPosting_setRaised (s : State) (l : List Notice) (n : Nat) :
    { s.enterPosting n with raised := l } = ({ s with raised := l } : State).enterPosting n := by
  cases hr : s.rec? n with
  | none =>
    have hnone : ({ s with raised := l } : State).rec? n = none := hr
    simp only [State.enterPosting, hr, hnone]
  | some r =>
    have hsome : ({ s with raised := l } : State).rec? n = some r := hr
    rw [enterPosting_eq hr, enterPosting_eq hsome, built_eq, built_eq]
    rfl

theorem raised_enterPosting (s : State) (n : Nat) : (s.enterPosting n).raised = s.raised := by
  cases hr : s.rec? n with
  | none => simp only [State.enterPosting, hr]
  | some r => rw [enterPosting_eq hr, built_eq]; rfl

/-- The notices raised are offered alike before a record enters POSTING and after it. -/
theorem offerNotices_enterPosting (s : State) (n : Nat) : (s.enterPosting n).offerNotices = s.offerNotices.enterPosting n := by
  have hcomm : ∀ (l : List Notice) (x : State), l.foldl State.offerNotice (x.enterPosting n) = (l.foldl State.offerNotice x).enterPosting n :=
    fun l => by
      induction l with
      | nil => exact fun _ => rfl
      | cons k rest ih =>
        intro x
        rw [List.foldl_cons, offerNotice_enterPosting, ih]
        rfl
  unfold State.offerNotices
  rw [raised_enterPosting, enterPosting_setRaised, hcomm]

/-- A record has ended at an event that raised one notice. -/
theorem endsIn_commit_raised {k : NoticeKind} {subject : NoticeSubject} (hwaits : noneWaits v) (hraised : nothingRaised u)
    (hroom : v.link.available < 2) (hsome : (u.rec? r.slot).isSome) (h : endsFrom v (u.raise k subject) r o) :
    endsIn (v.enterPosting r.slot).commit (noticed u { kind := k, subject := subject }) r o := by
  have hsome' : ((u.raise k subject).rec? r.slot).isSome := hsome
  obtain ⟨q, hq⟩ := rec?_endsFrom hsome' h
  refine endsIn_of_lasting hsome ?_
  rw [lasting_commit_ended hwaits hq hroom, lasting_offerNotices, lasting_endsFrom hsome' h, ← lasting_offerNotices, offerNotices_enterPosting]
  have hoffer : ((u.raise k subject).updRec r.slot (fun _ => withOutcome r o)).offerNotices
      = (noticed u { kind := k, subject := subject }).updRec r.slot (fun _ => withOutcome r o) :=
    NoticeOps.offerNotices_raise (s := u.updRec r.slot (fun _ => withOutcome r o)) hraised k subject
  rw [hoffer]

end Ending

end Sys2Proof
end

section
/-! PROOFS. Prompts that are asked for while the queue has room and while it is full, and the space report: what it raises first, and
that it raises until nothing is owed or the queue is full (R151, R152). -/

namespace Sys2Proof

namespace Raising

open Machine Safety Upkeep Posting Events Reservation DriveTable
open FirstInLine (supplyAsk)

variable {s t u v : State} {a : Ask} {c : Console} {k n slot : Nat} {p q : Fin 8} {r : Rec} {ser : Serial}

/-! ## A prompt is asked for (R151) -/

/-- The console after a raise: one prompt more at the tail, under a number that none had, which leaves the expired list. -/
structure Raises (b : Console) (a : Ask) (c : Console) (k : Nat) : Prop where
  queue : c.queue = b.queue ++ [promptOf b.templates[a.template] a k]
  expired : c.expired = b.expired.filter (fun x => x ≠ k)
  fresh : ∀ x ∈ b.queue, x.num ≠ k

theorem ask_raises (a : Ask) (hroom : s.console.queue.length < 16) :
    ∃ c k, s.ask a = ({ s with console := c }, .up k) ∧ Raises s.console a c k := by
  have hfull : s.console.full = false := decide_eq_false (by omega)
  obtain ⟨n, hn⟩ : ∃ n, n = freeNumber s.console.queue s.console.nextNum := ⟨_, rfl⟩
  obtain ⟨lines, hlines⟩ := redisplay_eq { s with console := { s.console with
      queue := s.console.queue ++ [promptOf s.console.templates[a.template] a n], nextNum := (n + 1) % 256,
      expired := s.console.expired.filter (fun x => x ≠ n) } }
  unfold State.ask
  rw [if_neg (by rw [hfull]; exact Bool.false_ne_true), State.pushPrompt]
  dsimp only
  rw [← hn, hlines]
  exact ⟨_, n, rfl, rfl, rfl, hn ▸ (freeNumber_spec _ (by omega)).2⟩

theorem ask_full (a : Ask) (hfull : 16 ≤ s.console.queue.length) : s.ask a = (s, .owed) := if_pos (decide_eq_true hfull)

/-- The prompt a block holds after it has asked for one: a number while the queue has room, and none while it is full. -/
theorem ask_cases (a : Ask) (s : State) :
    (∃ c k, s.ask a = ({ s with console := c }, .up k) ∧ Raises s.console a c k)
      ∨ (s.ask a = (s, .owed) ∧ 16 ≤ s.console.queue.length) := by
  by_cases hroom : s.console.queue.length < 16
  · exact .inl (ask_raises a hroom)
  · exact .inr ⟨ask_full a (by omega), by omega⟩

/-! ## What each block asks for (R10, R87, R113, R138, R142, R143) -/

def faultAsk (acc : Acc) (urgency : Option Nat) : Ask :=
  { kind := .fault, template := 13, block := .railScheduler, subject := .accessor acc, fields := noFields, override := urgency }

def cleanAsk (d : Fin 16) : Ask :=
  { kind := .cleanSupply, template := 14, block := .driveTable, subject := .drive d, fields := { noFields with drive := some d },
    override := none }

def approveAsk (slot : Nat) (r : Rec) : Ask :=
  { kind := .approve, template := if r.budgetHeld then 15 else r.template, block := .requestTable, subject := .slot slot,
    fields := { noFields with serial := r.serial, account := some r.account }, override := none }

/-- What the hold on a FAULT prompt becomes after it was asked for. -/
def faultHold (urgency : Option Nat) : PromptRef → FaultPrompt
  | .up n => .up n
  | _ => .owed urgency

theorem askFault_eq (s : State) (acc : Acc) (urgency : Option Nat) :
    s.askFault acc urgency = (s.ask (faultAsk acc urgency)).1.updAcc acc
      (fun x => { x with prompt := faultHold urgency (s.ask (faultAsk acc urgency)).2 }) := rfl

theorem askCleanSupply_eq {d : Fin 16} (h : s.firstCleanWait = some d) :
    s.askCleanSupply = { (s.ask (cleanAsk d)).1 with cleanPrompt := (s.ask (cleanAsk d)).2 } := by
  unfold State.askCleanSupply
  rw [h]
  rfl

theorem askApprove_eq (h : s.rec? slot = some r) :
    s.askApprove slot = (s.ask (approveAsk slot r)).1.updRec slot (fun x => { x with approve := (s.ask (approveAsk slot r)).2 }) := by
  unfold State.askApprove
  rw [h]
  rfl

theorem askStation_eq (h : s.stationAsk p = some a) :
    s.askStation p = (s.ask a).1.updPos p (fun x => { x with prompt := (s.ask a).2 }) := by
  unfold State.askStation
  rw [h]

theorem askStation_nothing (h : s.stationAsk p = none) : s.askStation p = s := by
  unfold State.askStation
  rw [h]

theorem askFault_raises (acc : Acc) (urgency : Option Nat) (hroom : s.console.queue.length < 16) :
    ∃ c k, s.askFault acc urgency = ({ s with console := c } : State).updAcc acc (fun x => { x with prompt := .up k })
      ∧ Raises s.console (faultAsk acc urgency) c k := by
  obtain ⟨c, k, hask, hc⟩ := ask_raises (faultAsk acc urgency) hroom
  exact ⟨c, k, by rw [askFault_eq, hask]; rfl, hc⟩

theorem askApprove_raises (h : s.rec? slot = some r) (hroom : s.console.queue.length < 16) :
    ∃ c k, s.askApprove slot = ({ s with console := c } : State).updRec slot (fun x => { x with approve := .up k })
      ∧ Raises s.console (approveAsk slot r) c k := by
  obtain ⟨c, k, hask, hc⟩ := ask_raises (approveAsk slot r) hroom
  exact ⟨c, k, by rw [askApprove_eq h, hask], hc⟩

theorem askStation_raises (h : s.stationAsk p = some a) (hroom : s.console.queue.length < 16) :
    ∃ c k, s.askStation p = ({ s with console := c } : State).updPos p (fun x => { x with prompt := .up k })
      ∧ Raises s.console a c k := by
  obtain ⟨c, k, hask, hc⟩ := ask_raises a hroom
  exact ⟨c, k, by rw [askStation_eq h, hask], hc⟩

/-! ## What the station unit asks for at a position -/

def ringAsk (r : Rec) (p : Fin 8) : Ask :=
  { kind := .ring, template := r.template, block := .stationUnit, subject := .slot r.slot,
    fields := { serial := r.serial, drive := none, position := some p, account := some r.account }, override := none }

def collectAsk (owner : Option Rec) (ser : Serial) (p : Fin 8) : Ask :=
  { kind := .collect, template := 12, block := .stationUnit,
    subject := (owner.map (fun r => PromptSubject.slot r.slot)).getD (.position p),
    fields := { serial := some ser, drive := none, position := some p, account := owner.map (·.account) }, override := none }

theorem stationAsk_expecting (h : s.station.pos[p].state = .expecting slot) :
    s.stationAsk p = (s.rec? slot).map (fun r => supplyAsk r slot p) := by
  unfold State.stationAsk
  simp only [h]
  rfl

theorem stationAsk_ring (h : s.station.pos[p].state = .holding ser) (hflow : s.station.pos[p].flow = some .ring) :
    s.stationAsk p = (s.station.pos[p].owner.bind s.rec?).map (fun r => ringAsk r p) := by
  unfold State.stationAsk
  simp only [h, hflow]
  rfl

theorem stationAsk_collect (h : s.station.pos[p].state = .holding ser) (hflow : s.station.pos[p].flow = some .collect) :
    s.stationAsk p = some (collectAsk (s.station.pos[p].owner.bind s.rec?) ser p) := by
  unfold State.stationAsk
  simp only [h, hflow]
  rfl

/-! ## What raises change (R152) -/

/-- An accessor, a record and a station position without their holds on a prompt. -/
def calmed (x : AccRec) : AccRec := { x with prompt := .none }

def unapproved (r : Rec) : Rec := { r with approve := .none }

def unasked (x : StationPos) : StationPos := { x with prompt := .none }

/-- The state without its prompts. -/
def promptless (s : State) : State :=
  { s with
    console := State.reset.console, cleanPrompt := .none, recs := s.recs.map unapproved,
    rail := { s.rail with accs := { a := calmed s.rail.accs.a, b := calmed s.rail.accs.b } },
    station := { s.station with pos := s.station.pos.map unasked } }

theorem promptless_updRec {f : Rec → Rec} (hf : ∀ r, unapproved (f r) = unapproved r) : promptless (s.updRec slot f) = promptless s :=
  congrArg (fun l => { promptless s with recs := l })
    (updFirst_map (fun r => decide (r.slot = slot)) f unapproved s.recs fun r _ => hf r)

theorem promptless_updPos {f : StationPos → StationPos} (hf : ∀ x, unasked (f x) = unasked x) : promptless (s.updPos p f) = promptless s := by
  have hmap : (s.updPos p f).station.pos.map unasked = s.station.pos.map unasked := Withdrawal.map_set_same (hf _)
  exact congrArg (fun l => { promptless s with station := { s.station with pos := l } }) hmap

/-- A HELD record that owes its APPROVE prompt. -/
def owesApprove (r : Rec) : Prop := r.state = .held ∧ r.approve = .owed

/-- From `s` to `t` blocks have raised prompts that they owed, and nothing else has changed: new prompts stand at the tail of the queue
under numbers that none had, and a hold on a prompt that was not owed is as it was. -/
structure Raised (s t : State) : Prop where
  queue : ∃ new, t.console.queue = s.console.queue ++ new ∧ ∀ x ∈ new, ∀ y ∈ s.console.queue, y.num ≠ x.num
  full : 16 ≤ s.console.queue.length → t.console = s.console
  rest : promptless t = promptless s
  fault : ∀ acc, (∀ u, (s.acc acc).prompt ≠ .owed u) → (t.acc acc).prompt = (s.acc acc).prompt
  clean : s.cleanPrompt ≠ .owed → t.cleanPrompt = s.cleanPrompt
  approve : ∀ slot r, s.rec? slot = some r → ¬owesApprove r → t.rec? slot = some r
  station : ∀ p : Fin 8, s.station.pos[p].prompt ≠ .owed → t.station.pos[p] = s.station.pos[p]

namespace Raised

theorem refl (s : State) : Raised s s :=
  ⟨⟨[], by simp, by simp⟩, fun _ => rfl, rfl, fun _ _ => rfl, fun _ => rfl, fun _ _ h _ => h, fun _ _ => rfl⟩

theorem trans (h : Raised s u) (g : Raised u t) : Raised s t where
  queue := by
    obtain ⟨l, hl, hfresh⟩ := h.queue
    obtain ⟨m, hm, hlater⟩ := g.queue
    refine ⟨l ++ m, by rw [hm, hl, List.append_assoc], fun x hx y hy => ?_⟩
    rcases List.mem_append.mp hx with hx | hx
    · exact hfresh x hx y hy
    · exact hlater x hx y (hl ▸ List.mem_append_left l hy)
  full hfull := by
    have hsame := h.full hfull
    rw [← hsame] at hfull ⊢
    exact g.full hfull
  rest := g.rest.trans h.rest
  fault acc hs := by
    have hsame := h.fault acc hs
    rw [← hsame] at hs ⊢
    exact g.fault acc hs
  clean hs := by
    have hsame := h.clean hs
    rw [← hsame] at hs ⊢
    exact g.clean hs
  approve slot r hr howes := g.approve slot r (h.approve slot r hr howes) howes
  station p hs := by
    have hsame := h.station p hs
    rw [← hsame] at hs ⊢
    exact g.station p hs

theorem foldl {α : Type} {f : State → α → State} (hf : ∀ u x, Raised u (f u x)) (l : List α) (h : Raised s u) : Raised s (l.foldl f u) := by
  induction l generalizing u with
  | nil => exact h
  | cons x rest ih => exact ih (h.trans (hf u x))

/-! ## One block raises what it owes -/

/-- What asking for a prompt does to the console, and when the prompt stays owed. -/
theorem ask_grows (a : Ask) (s : State) : ∃ c, (s.ask a).1 = { s with console := c }
    ∧ (∃ new, c.queue = s.console.queue ++ new ∧ ∀ x ∈ new, ∀ y ∈ s.console.queue, y.num ≠ x.num)
    ∧ (16 ≤ s.console.queue.length → c = s.console) ∧ ((s.ask a).2 = .owed → 16 ≤ c.queue.length) := by
  rcases ask_cases a s with ⟨c, k, hask, hc⟩ | ⟨hask, hfull⟩
  · rw [hask]
    refine ⟨c, rfl, ⟨_, hc.queue, fun x hx y hy => ?_⟩, fun hfull => ?_, fun h => nomatch h⟩
    · rw [List.mem_singleton.mp hx]
      exact hc.fresh y hy
    · rw [ask_full a hfull] at hask
      exact (congrArg State.console (Prod.mk.inj hask).1).symm
  · rw [hask]
    exact ⟨s.console, rfl, ⟨[], by simp, by simp⟩, fun _ => rfl, fun _ => hfull⟩

theorem askFault {acc : Acc} {urgency : Option Nat} (howed : ∃ u, (s.acc acc).prompt = .owed u) : Raised s (s.askFault acc urgency) := by
  obtain ⟨c, hc, hqueue, hfull, -⟩ := ask_grows (faultAsk acc urgency) s
  rw [askFault_eq, hc]
  refine ⟨hqueue, hfull, ?_, fun who hs => ?_, fun _ => rfl, fun _ _ h _ => h, fun _ _ => rfl⟩
  · cases acc <;> rfl
  · obtain ⟨u, hu⟩ := howed
    have hne : who ≠ acc := fun h => hs u (h ▸ hu)
    exact congrArg AccRec.prompt (State.acc_updAcc_other ({ s with console := c } : State) acc who _ hne)

theorem askCleanSupply (howed : s.cleanPrompt = .owed) : Raised s s.askCleanSupply := by
  cases hd : s.firstCleanWait with
  | none =>
    unfold State.askCleanSupply
    rw [hd]
    exact ⟨⟨[], by simp, by simp⟩, fun _ => rfl, rfl, fun _ _ => rfl, fun h => absurd howed h, fun _ _ h _ => h, fun _ _ => rfl⟩
  | some d =>
    obtain ⟨c, hc, hqueue, hfull, -⟩ := ask_grows (cleanAsk d) s
    rw [askCleanSupply_eq hd, hc]
    exact ⟨hqueue, hfull, rfl, fun _ _ => rfl, fun h => absurd howed h, fun _ _ h _ => h, fun _ _ => rfl⟩

theorem askApprove (hr : s.rec? slot = some r) (howed : owesApprove r) : Raised s (s.askApprove slot) := by
  obtain ⟨c, hc, hqueue, hfull, -⟩ := ask_grows (approveAsk slot r) s
  rw [askApprove_eq hr, hc]
  refine ⟨hqueue, hfull, ?_, fun _ _ => rfl, fun _ => rfl, fun m q hq howes => ?_, fun _ _ => rfl⟩
  · exact promptless_updRec (s := { s with console := c }) fun _ => rfl
  · have hne : m ≠ slot := fun h => howes (by rw [h, hr] at hq; cases hq; exact howed)
    have hother := State.rec?_updRec_other ({ s with console := c } : State) slot m
      (fun x => { x with approve := (s.ask (approveAsk slot r)).2 }) (fun _ h => h) hne
    exact hother.trans hq

theorem askStation (howed : s.station.pos[p].prompt = .owed) : Raised s (s.askStation p) := by
  cases ha : s.stationAsk p with
  | none =>
    rw [askStation_nothing ha]
    exact refl s
  | some a =>
    obtain ⟨c, hc, hqueue, hfull, -⟩ := ask_grows a s
    rw [askStation_eq ha, hc]
    refine ⟨hqueue, hfull, ?_, fun _ _ => rfl, fun _ => rfl, fun _ _ h _ => h, fun q hs => ?_⟩
    · exact promptless_updPos (s := { s with console := c }) fun _ => rfl
    · have hne : q ≠ p := fun h => hs (h ▸ howed)
      exact State.updPos_other ({ s with console := c } : State) p q _ hne

theorem raiseOwedFault (s : State) (acc : Acc) : Raised s (s.raiseOwedFault acc) := by
  unfold State.raiseOwedFault
  split
  next u hu => exact askFault ⟨u, hu⟩
  next => exact refl s

theorem raiseOwedClean (s : State) : Raised s s.raiseOwedClean := by
  unfold State.raiseOwedClean
  split
  next h => exact askCleanSupply h
  next => exact refl s

theorem raiseOwedApprove (s : State) (slot : Nat) : Raised s (s.raiseOwedApprove slot) := by
  unfold State.raiseOwedApprove
  split
  next r hr =>
    split
    next howes => exact askApprove hr howes
    next => exact refl s
  next => exact refl s

theorem raiseOwedStation (s : State) (p : Fin 8) : Raised s (s.raiseOwedStation p) := by
  unfold State.raiseOwedStation
  split
  next h => exact askStation h
  next => exact refl s

theorem spaceReport (s : State) : Raised s s.spaceReport :=
  foldl raiseOwedStation _ (foldl raiseOwedApprove _ ((foldl raiseOwedFault _ (refl s)).trans (raiseOwedClean _)))

end Raised

/-! ## What the raises leave owed -/

theorem rec?_promptless (s : State) (n : Nat) : (promptless s).rec? n = (s.rec? n).map unapproved := List.find?_map ..

theorem rec?_eq_none_of_promptless (h : promptless t = promptless s) (n : Nat) : t.rec? n = none ↔ s.rec? n = none := by
  have hmap := congrArg (fun x => x.rec? n) h
  simp only [rec?_promptless] at hmap
  rw [← Option.map_eq_none_iff (f := unapproved), hmap, Option.map_eq_none_iff]

theorem pos_of_promptless (h : promptless t = promptless s) (p : Fin 8) : unasked t.station.pos[p] = unasked s.station.pos[p] := by
  have hmap := congrArg (fun x : State => x.station.pos[p]) h
  simpa [promptless] using hmap

theorem stationAsk_eq_none_iff : s.stationAsk p = none ↔
    (∀ slot, s.station.pos[p].state = .expecting slot → s.rec? slot = none)
      ∧ ∀ ser, s.station.pos[p].state = .holding ser → s.station.pos[p].flow ≠ some .collect
          ∧ (s.station.pos[p].flow = some .ring → s.station.pos[p].owner.bind s.rec? = none) := by
  unfold State.stationAsk
  dsimp only
  generalize s.station.pos[p] = x
  cases x.state with
  | empty => simp
  | reserved ref => simp
  | expecting slot => simp
  | holding ser =>
    cases x.flow with
    | none => simp
    | some flow => cases flow <;> simp

theorem stationAsk_eq_none_of_promptless (h : promptless t = promptless s) (hasks : s.stationAsk p = none) : t.stationAsk p = none := by
  have hpos := pos_of_promptless h p
  have hstate : t.station.pos[p].state = s.station.pos[p].state := (congrArg StationPos.state hpos :)
  have hflow : t.station.pos[p].flow = s.station.pos[p].flow := (congrArg StationPos.flow hpos :)
  have howner : t.station.pos[p].owner = s.station.pos[p].owner := (congrArg StationPos.owner hpos :)
  obtain ⟨hexpecting, hholding⟩ := stationAsk_eq_none_iff.mp hasks
  rw [stationAsk_eq_none_iff, hstate, hflow, howner]
  refine ⟨fun slot hslot => (rec?_eq_none_of_promptless h slot).mpr (hexpecting slot hslot), fun ser hser => ?_⟩
  obtain ⟨hcollect, hring⟩ := hholding ser hser
  refine ⟨hcollect, fun hr => ?_⟩
  have hnone := hring hr
  cases ho : s.station.pos[p].owner with
  | none => rfl
  | some n =>
    rw [ho] at hnone
    exact (rec?_eq_none_of_promptless h n).mpr hnone

/-- Either the queue is full, or a block owes no more than it can raise. -/
def Settled (P : State → Prop) (s : State) : Prop := 16 ≤ s.console.queue.length ∨ P s

theorem Settled.mono {P : State → Prop} (hP : ∀ {u t}, Raised u t → P u → P t) (h : Settled P s) (g : Raised s t) : Settled P t := by
  rcases h with hfull | hs
  · exact .inl (by rw [g.full hfull]; exact hfull)
  · exact .inr (hP g hs)

theorem settled_foldl {α : Type} {f : State → α → State} {P : α → State → Prop} (hf : ∀ u x, Raised u (f u x))
    (hP : ∀ x {u t}, Raised u t → P x u → P x t) (hdone : ∀ u x, Settled (P x) (f u x)) (l : List α) {x : α} (hx : x ∈ l) (s : State) :
    Settled (P x) (l.foldl f s) := by
  induction l generalizing s with
  | nil => nomatch hx
  | cons y rest ih =>
    rcases List.mem_cons.mp hx with rfl | hx
    · exact (hdone s x).mono (hP x) (Raised.foldl hf rest (Raised.refl _))
    · exact ih hx _

def faultSettled (acc : Acc) (s : State) : Prop := ∀ u, (s.acc acc).prompt ≠ .owed u

def approveSettled (slot : Nat) (s : State) : Prop := ∀ r, s.rec? slot = some r → ¬owesApprove r

def stationSettled (p : Fin 8) (s : State) : Prop := s.station.pos[p].prompt = .owed → s.stationAsk p = none

theorem faultSettled.mono {acc : Acc} (h : Raised s t) (hs : faultSettled acc s) : faultSettled acc t := fun u => by
  rw [h.fault acc hs]
  exact hs u

theorem approveSettled.mono (h : Raised s t) (hs : approveSettled slot s) : approveSettled slot t := fun r hr => by
  cases hq : s.rec? slot with
  | none =>
    rw [(rec?_eq_none_of_promptless h.rest slot).mpr hq] at hr
    nomatch hr
  | some q =>
    rw [h.approve slot q hq (hs q hq)] at hr
    cases hr
    exact hs _ hq

theorem stationSettled.mono (h : Raised s t) (hs : stationSettled p s) : stationSettled p t := fun howed => by
  by_cases hold : s.station.pos[p].prompt = .owed
  · exact stationAsk_eq_none_of_promptless h.rest (hs hold)
  · rw [h.station p hold] at howed
    exact absurd howed hold

theorem raiseOwedFault_settled (s : State) (acc : Acc) : Settled (faultSettled acc) (s.raiseOwedFault acc) := by
  unfold State.raiseOwedFault
  split
  next u hu =>
    rw [askFault_eq]
    rcases ask_cases (faultAsk acc u) s with ⟨c, k, hask, -⟩ | ⟨hask, hfull⟩
    · refine .inr fun w => ?_
      rw [hask, State.acc_updAcc_self]
      exact FaultPrompt.noConfusion
    · rw [hask]
      exact .inl hfull
  next hno => exact .inr hno

theorem raiseOwedClean_settled (s : State) : Settled (fun t => t.cleanPrompt ≠ .owed) s.raiseOwedClean := by
  unfold State.raiseOwedClean
  split
  next hs =>
    cases hd : s.firstCleanWait with
    | none =>
      unfold State.askCleanSupply
      rw [hd]
      exact .inr PromptRef.noConfusion
    | some d =>
      rw [askCleanSupply_eq hd]
      rcases ask_cases (cleanAsk d) s with ⟨c, k, hask, -⟩ | ⟨hask, hfull⟩
      · rw [hask]
        exact .inr PromptRef.noConfusion
      · rw [hask]
        exact .inl hfull
  next hno => exact .inr hno

theorem raiseOwedApprove_settled (s : State) (slot : Nat) : Settled (approveSettled slot) (s.raiseOwedApprove slot) := by
  unfold State.raiseOwedApprove
  split
  next r hr =>
    split
    next howes =>
      rw [askApprove_eq hr]
      rcases ask_cases (approveAsk slot r) s with ⟨c, k, hask, -⟩ | ⟨hask, hfull⟩
      · rw [hask]
        have hrec := State.rec?_updRec_self ({ s with console := c } : State) slot (fun x => { x with approve := .up k }) fun _ h => h
        have hsame : ({ s with console := c } : State).rec? slot = some r := hr
        refine .inr fun q hq => ?_
        rw [hsame] at hrec
        cases hq.symm.trans hrec
        exact fun h => PromptRef.noConfusion h.2
      · rw [hask]
        exact .inl hfull
    next hno => exact .inr fun q hq => by rw [hr] at hq; cases hq; exact hno
  next hno => exact .inr fun q hq => by rw [hno] at hq; nomatch hq

theorem raiseOwedStation_settled (s : State) (p : Fin 8) : Settled (stationSettled p) (s.raiseOwedStation p) := by
  unfold State.raiseOwedStation
  split
  next hs =>
    cases ha : s.stationAsk p with
    | none =>
      rw [askStation_nothing ha]
      exact .inr fun _ => ha
    | some a =>
      rw [askStation_eq ha]
      rcases ask_cases a s with ⟨c, k, hask, -⟩ | ⟨hask, hfull⟩
      · refine .inr fun howed => ?_
        rw [hask] at howed
        rw [State.updPos_self] at howed
        nomatch howed
      · rw [hask]
        exact .inl hfull
  next hno => exact .inr fun howed => absurd howed hno

end Raising

end Sys2Proof
end

section
/-! PROOFS. What the station unit does when the prompt of a position has been answered or has failed: a supply that ends, and a reel that
goes home or is to be collected (R21, R139 to R144). -/

namespace Sys2Proof

namespace Flows

open Machine Safety Upkeep Settling Posting Events Reservation DriveTable Ending Raising Withdrawal

variable {s t u v : State} {c : Cell} {p q : Fin 8} {slot n : Nat} {r : Rec} {ser : Serial} {o : FinalOutcome} {a : Ask}

/-! ## Nothing owed -/

theorem nothingOwed_updPos {f : StationPos → StationPos} (h : nothingOwed s) (hp : (f s.station.pos[p]).prompt ≠ .owed) :
    nothingOwed (s.updPos p f) := by
  obtain ⟨hfault, hclean, happrove, hstation⟩ := h
  refine ⟨hfault, hclean, happrove, fun x => ?_⟩
  by_cases hx : x = p
  · rw [hx, State.updPos_self]
    exact hp
  · rw [State.updPos_other _ _ _ _ hx]
    exact hstation x

theorem nothingOwed_updRec {f : Rec → Rec} (h : nothingOwed s) (hf : ∀ x ∈ s.recs, (f x).approve ≠ .owed) : nothingOwed (s.updRec slot f) := by
  obtain ⟨hfault, hclean, happrove, hstation⟩ := h
  refine ⟨hfault, hclean, fun x hx => ?_, hstation⟩
  rcases mem_updFirst _ _ _ _ hx with hx | ⟨y, hy, -, rfl⟩
  · exact happrove x hx
  · exact hf y hy

theorem nothingOwed_updAcc {acc : Acc} {f : AccRec → AccRec} (h : nothingOwed s) (hf : ∀ k, (f (s.acc acc)).prompt ≠ .owed k) :
    nothingOwed (s.updAcc acc f) := by
  obtain ⟨hfault, hclean, happrove, hstation⟩ := h
  refine ⟨fun who k => ?_, hclean, happrove, hstation⟩
  by_cases hwho : who = acc
  · rw [hwho, State.acc_updAcc_self]
    exact hf k
  · rw [State.acc_updAcc_other _ _ _ _ hwho]
    exact hfault who k

/-- The search for work keeps every hold on a prompt but those of the station positions it leaves. -/
theorem nothingOwed_of_lasting (h : lasting t = lasting s) (hstation : t.station = s.station) (hs : nothingOwed s) : nothingOwed t := by
  obtain ⟨hfault, hclean, happrove, hpos⟩ := hs
  refine ⟨fun acc k => ?_, ?_, fun x hx => ?_, fun x => ?_⟩
  · have hprompt : (t.acc acc).prompt = (s.acc acc).prompt := (congrArg AccRec.prompt (acc_of_lasting h acc) :)
    rw [hprompt]
    exact hfault acc k
  · rw [cleanPrompt_of_lasting h]
    exact hclean
  · obtain ⟨y, hy, hyx⟩ := List.mem_map.mp (recs_of_lasting h ▸ List.mem_map_of_mem (f := lastingRec) hx)
    have hprompt : x.approve = y.approve := (congrArg Rec.approve hyx.symm :)
    rw [hprompt]
    exact happrove y hy
  · rw [hstation]
    exact hpos x

theorem nothingOwed_enterPosting (h : nothingOwed s) : nothingOwed (s.enterPosting slot) := by
  cases hr : s.rec? slot with
  | none => simpa only [State.enterPosting, hr] using h
  | some r =>
    rw [enterPosting_eq hr, built_eq]
    exact nothingOwed_updRec h fun _ _ => PromptRef.noConfusion

/-! ## The station beside the search for work -/

theorem station_legReady (s : State) (slot : Nat) : (s.legReady slot).station = s.station := by
  unfold State.legReady
  split
  next => rfl
  next l hl =>
    dsimp only
    generalize hu : (s.updLeg slot (fun l => { l with state := .ready })).setQueue l.acc _ = u
    have hstation : u.station = s.station := by rw [← hu]; rfl
    rw [← hstation]
    rfl

theorem lasting_makeLegs (s : State) (slot : Nat) (l : Leg) (next : Option Leg) :
    lasting (s.makeLegs slot l next) = lasting (s.updRec slot (fun r => { r with leg := some l, nextLeg := next })) :=
  lasting_legReady _ _

theorem station_makeLegs (s : State) (slot : Nat) (l : Leg) (next : Option Leg) : (s.makeLegs slot l next).station = s.station :=
  station_legReady _ _

/-- Only what the change makes of the position matters. -/
theorem updPos_congr {f g : StationPos → StationPos} (h : f s.station.pos[p] = g s.station.pos[p]) : s.updPos p f = s.updPos p g :=
  congrArg (fun x => { s with station := { s.station with pos := s.station.pos.set p x } }) h

/-! ## The position of a prompt -/

theorem positionOf_eq (h : s.station.pos[q].prompt = .up n) (honly : ∀ x : Fin 8, s.station.pos[x].prompt = .up n → x = q) :
    s.positionOf n = some q := by
  unfold State.positionOf
  cases hfind : (List.finRange 8).find? (fun p => decide (s.station.pos[p].prompt = .up n)) with
  | none =>
    have hnone := List.find?_eq_none.mp hfind q (List.mem_finRange q)
    exact absurd (decide_eq_true h) hnone
  | some x =>
    have hx := List.find?_some hfind
    rw [honly x (of_decide_eq_true hx)]

theorem state_updPos {f : StationPos → StationPos} (hf : (f s.station.pos[p]).state = s.station.pos[p].state) (x : Fin 8) :
    (s.updPos p f).station.pos[x].state = s.station.pos[x].state := by
  by_cases hx : x = p
  · rw [hx, State.updPos_self, hf]
  · rw [State.updPos_other _ _ _ _ hx]

theorem expecting_updPos {f : StationPos → StationPos} (hf : (f s.station.pos[p]).state = s.station.pos[p].state) (slot : Nat) :
    (s.updPos p f).expecting slot = s.expecting slot := by
  unfold State.expecting
  simp only [state_updPos hf]

/-! ## A supply ends (R21, R139) -/

theorem lasting_markScanLate (s : State) (p : Fin 8) : lasting (s.markScanLate p) = lasting s := by
  unfold State.markScanLate bothAccs
  exact (lasting_updAcc _ .b _ fun _ => rfl).trans (lasting_updAcc _ .a _ fun _ => rfl)

theorem lasting_updPos_set (x : StationPos) (hx : lastingPos x = x) :
    lasting (s.updPos p (fun _ => x)) = (lasting s).updPos p (fun _ => x) := by
  have hmap : (s.station.pos.set p x).map lastingPos = (s.station.pos.map lastingPos).set p x := by
    rw [Vector.map_set, hx]
  exact congrArg (fun l => { lasting s with station := { (lasting s).station with pos := l } }) hmap

theorem station_markScanLate (s : State) (p : Fin 8) : (s.markScanLate p).station = s.station := by
  unfold State.markScanLate bothAccs
  rfl

/-- A position whose prompt has gone expects a record's reel no more; no claim stands on it. -/
theorem endSupply_eq (hclaims : noClaims s) (hq : s.expecting slot = some q) (hprompt : s.station.pos[q].prompt = .none) :
    ∃ w, s.endSupply slot = w.updPos q (fun _ => StationPos.initial) ∧ w.station = s.station ∧ lasting w = lasting s
      ∧ w.rail.scanReqs = s.rail.scanReqs.filter (fun x => x.pos ≠ q) := by
  obtain ⟨-, hres, hsupply⟩ := hclaims
  have hlist : ({ s with station := { s.station with supplyWait := s.station.supplyWait.filter (fun x => x ≠ slot) } } : State) = s := by
    rw [hsupply]
    exact congrArg (fun l => { s with station := { s.station with supplyWait := l } }) hsupply.symm
  have hdrop : s.dropStation q = s := by
    unfold State.dropStation
    rw [hprompt]
    refine congrArg (fun l => { s with station := { s.station with pos := l } }) ?_
    ext1 i hi
    rw [Vector.getElem_set]
    split
    next hqi =>
      subst hqi
      have hpos : s.station.pos[q.val].prompt = .none := hprompt
      show { s.station.pos[q.val] with prompt := PromptRef.none } = s.station.pos[q.val]
      rw [← hpos]
    next => rfl
  refine ⟨(s.withdrawScan q).markScanLate q, ?_, station_markScanLate _ _, lasting_markScanLate _ _, rfl⟩
  unfold State.endSupply
  simp only [hlist, hq, hdrop]
  exact freeStation_nothing (s := (s.withdrawScan q).markScanLate q) ((congrArg Station.resWait (station_markScanLate _ _)).trans hres)
    ((congrArg Station.supplyWait (station_markScanLate _ _)).trans hsupply) q

/-- A record whose supply ends with an outcome enters POSTING from a state in which its position is EMPTY. -/
theorem supplyFails_eq (hclaims : noClaims s) (hr : s.rec? slot = some r) (hq : s.expecting slot = some q)
    (hprompt : s.station.pos[q].prompt = .none) :
    ∃ w, s.supplyFails slot o = w.enterPosting slot ∧ w.station = (s.updPos q (fun _ => StationPos.initial)).station
      ∧ lasting w = lasting ((s.updPos q (fun _ => StationPos.initial)).updRec slot (fun _ => withOutcome r o))
      ∧ ∀ x ∈ w.rail.scanReqs, x.pos ≠ q := by
  have hset : s.setOutcome slot o = s.updRec slot (fun _ => withOutcome r o) := updRec_const hr
  obtain ⟨w, hw, hstation, hlast, hreqs⟩ := endSupply_eq (s := s.setOutcome slot o) hclaims hq hprompt
  refine ⟨w.updPos q (fun _ => StationPos.initial), by rw [← hw]; rfl, ?_, ?_, fun x hx => ?_⟩
  · show { w.station with pos := w.station.pos.set q StationPos.initial } = _
    rw [hstation]
    rfl
  · have hpos : lasting (w.updPos q (fun _ => StationPos.initial)) = (lasting w).updPos q (fun _ => StationPos.initial) := lasting_updPos_set _ rfl
    rw [hpos, hlast, hset]
    have hinit : lasting ((s.updRec slot (fun _ => withOutcome r o)).updPos q (fun _ => StationPos.initial))
        = (lasting (s.updRec slot (fun _ => withOutcome r o))).updPos q (fun _ => StationPos.initial) :=
      lasting_updPos_set StationPos.initial rfl
    exact hinit.symm
  · have hx' : x ∈ w.rail.scanReqs := hx
    rw [hreqs] at hx'
    exact of_decide_eq_true (List.mem_filter.mp hx').2

/-! ## A reel goes home, or is to be collected (R140, R142, R143) -/

/-- The record of a reel that goes home from a station position. -/
def homeward (r : Rec) (p : Fin 8) (c : Cell) (st : RecState) : Rec :=
  { r with state := st, nextLeg := none, leg := some (legOf r (accOfColumn c.col) (.station (some p)) (.cell c)) }

/-- The record of a reel that is to be collected. -/
def toCollect (r : Rec) : Rec := { r with state := .collect, leg := none, nextLeg := none }

theorem stationHome_home {st : RecState} (hr : s.rec? slot = some r) (hc : s.recHome r = some c) :
    (s.stationHome slot p st).station = (s.updPos p (fun x => { x with flow := some .pickup })).station
      ∧ lasting (s.stationHome slot p st)
        = lasting ((s.updPos p (fun x => { x with flow := some .pickup })).updRec slot (fun _ => homeward r p c st)) := by
  have hhome : s.stationHome slot p st = (((s.updPos p (fun x => { x with flow := some .pickup })).setRecState slot st).makeLegs slot
      (legOf r (accOfColumn c.col) (.station (some p)) (.cell c)) none) := by
    unfold State.stationHome
    simp only [hr, hc]
  have hslot := slot_of_rec? hr
  rw [hhome]
  refine ⟨station_makeLegs _ _ _ _, ?_⟩
  rw [lasting_makeLegs, State.setRecState, updRec_const (s := s.updPos p _) (f := fun r => { r with state := st }) hr,
    updRec_twice (s := s.updPos p _) (q := { r with state := st }) hr hslot]
  rfl

theorem stationHome_collect {st : RecState} (hr : s.rec? slot = some r) (hc : s.recHome r = none) :
    s.stationHome slot p st = s.enterCollect slot p := by
  unfold State.stationHome
  simp only [hr, hc]

theorem enterCollect_raises (hr : s.rec? slot = some r) (hser : s.station.pos[p].state = .holding ser)
    (hroom : s.console.queue.length < 16) :
    ∃ c k, s.enterCollect slot p
        = (({ s with console := c } : State).updRec slot (fun _ => toCollect r)).updPos p
            (fun x => { x with flow := some .collect, owner := some slot, prompt := .up k })
      ∧ Raises s.console (collectAsk (some r) ser p) c k := by
  obtain ⟨v, hv⟩ : ∃ v, v = (s.updRec slot (fun _ => toCollect r)).updPos p (fun x => { x with flow := some .collect, owner := some slot }) :=
    ⟨_, rfl⟩
  have henter : s.enterCollect slot p = v.askStation p := by
    rw [hv, ← updRec_const (f := toCollect) hr]
    rfl
  have hpos : v.station.pos[p] = { s.station.pos[p] with flow := some .collect, owner := some slot } := by
    rw [hv, State.updPos_self]
    rfl
  have hrec : v.rec? slot = some (toCollect r) := by
    rw [hv]
    exact rec?_updRec_const (q := toCollect r) hr (slot_of_rec? hr :)
  have hask := stationAsk_collect (s := v) (p := p) (ser := ser) (by rw [hpos]; exact hser) (by rw [hpos])
  have howner : v.station.pos[p].owner.bind v.rec? = some (toCollect r) := by rw [hpos]; exact hrec
  rw [howner] at hask
  obtain ⟨c, k, hc, hraises⟩ := askStation_raises hask (by rw [hv]; exact hroom)
  refine ⟨c, k, ?_, by rw [hv] at hraises; exact hraises⟩
  rw [henter, hc, hv]
  exact FirstInLine.updPos_twice (({ s with console := c } : State).updRec slot fun _ => toCollect r) p
    (fun x => { x with flow := some .collect, owner := some slot }) (fun x => { x with prompt := .up k })

theorem rec?_setOutcome (hr : s.rec? slot = some r) : (s.setOutcome slot o).rec? slot = some (withOutcome r o) := by
  rw [State.setOutcome, updRec_const hr]
  exact rec?_updRec_const (q := withOutcome r o) hr (slot_of_rec? hr :)

theorem updRec_setOutcome (hr : s.rec? slot = some r) (q : Rec) :
    (s.setOutcome slot o).updRec slot (fun _ => q) = s.updRec slot (fun _ => q) := by
  rw [State.setOutcome, updRec_const hr, updRec_twice (q := { r with outcome := some o }) hr (slot_of_rec? hr :)]

/-- A ring fitting that ends with an outcome sends the reel home. -/
theorem ringFails_home (hr : s.rec? slot = some r) (hc : s.recHome r = some c) :
    (s.ringFails slot p o).station = (s.updPos p (fun x => { x with flow := some .pickup })).station
      ∧ lasting (s.ringFails slot p o) = lasting ((s.updPos p (fun x => { x with flow := some .pickup })).updRec slot
          (fun _ => homeward (withOutcome r o) p c .returning)) := by
  obtain ⟨hstation, hlast⟩ := stationHome_home (s := s.setOutcome slot o) (p := p) (st := .returning) (rec?_setOutcome hr) hc
  refine ⟨hstation, hlast.trans ?_⟩
  have hset := updRec_setOutcome (s := s.updPos p (fun x => { x with flow := some .pickup })) (o := o) hr
    (homeward (withOutcome r o) p c .returning)
  exact congrArg lasting hset

/-- With no home cell the reel is to be collected. -/
theorem ringFails_collect (hr : s.rec? slot = some r) (hc : s.recHome r = none) (hser : s.station.pos[p].state = .holding ser)
    (hroom : s.console.queue.length < 16) :
    ∃ c k, s.ringFails slot p o
        = (({ s with console := c } : State).updRec slot (fun _ => toCollect (withOutcome r o))).updPos p
            (fun x => { x with flow := some .collect, owner := some slot, prompt := .up k })
      ∧ Raises s.console (collectAsk (some r) ser p) c k := by
  have hset := rec?_setOutcome (o := o) hr
  obtain ⟨c, k, hc', hraises⟩ := enterCollect_raises (s := s.setOutcome slot o) (p := p) (ser := ser) hset hser hroom
  refine ⟨c, k, ?_, hraises⟩
  have hfails : s.ringFails slot p o = (s.setOutcome slot o).enterCollect slot p := stationHome_collect (s := s.setOutcome slot o) hset hc
  rw [hfails, hc']
  exact congrArg (fun x : State => x.updPos p (fun x => { x with flow := some .collect, owner := some slot, prompt := .up k }))
    (updRec_setOutcome (s := { s with console := c }) (o := o) hr (toCollect (withOutcome r o)))

end Flows

end Sys2Proof
end

section
/-! PROOFS. Prompts that expire (R157 to R159): an escalation, a REARM, and a FAIL by the kind of the prompt. -/

namespace Sys2Proof

namespace Expiry

open Machine Safety Upkeep Settling Posting Events Reservation DriveTable Ending Raising Flows

variable {s t u v w : State} {k : Console} {p : Prompt} {q : Fin 8} {slot n m : Nat} {r : Rec} {ser : Serial} {o : FinalOutcome} {c : Cell}

/-! ## The end of an event that raised PROMPT_EXPIRED -/

/-- The notice of a prompt that has expired. -/
def expiredNotice (n : Nat) : Notice := { kind := .promptExpired, subject := .prompt n }

theorem lasting_expired_commit (hcalm : calm u) (howed : nothingOwed v) (hv : lasting v = lasting (u.raise .promptExpired (.prompt n))) :
    lasting v.spaceReport.commit = lasting (noticed u (expiredNotice n)) := by
  rw [spaceReport_of_nothingOwed howed, lasting_commit_raised hcalm.2 (noneWaits_of_lasting hv hcalm.1) hv]
  rfl

theorem flagSet_noticed (u : State) (x : Notice) : (noticed u x).flagSet x.kind = true := by
  simp only [noticed, State.flagSet, BitVec.getLsbD_or, NoticeOps.getLsbD_noticeMask, decide_true, Bool.or_true]

theorem flagSet_of_endsIn {x : Notice} (hsome : (u.rec? r.slot).isSome) (h : endsIn t (noticed u x) r o) : t.flagSet x.kind = true := by
  obtain ⟨y, hy⟩ := Option.isSome_iff_exists.mp hsome
  have hrec : ((noticed u x).updRec r.slot (fun _ => withOutcome r o)).rec? r.slot = some (withOutcome r o) :=
    rec?_updRec_const (s := noticed u x) (q := withOutcome r o) hy rfl
  have hlink := link_of_lasting h.1
  have hflag := (flagSet_enterPosting hrec x.kind).mpr (.inl (flagSet_noticed u x))
  unfold State.flagSet at hflag ⊢
  rw [hlink]
  exact hflag

theorem console_of_endsIn (h : endsIn t u r o) : t.console = u.console := by
  obtain ⟨-, q, y, -, -, -, -, -, -, -, -, -, -, -, -, -, hlast⟩ := h
  exact (congrArg State.console hlast :)

/-- A record that ends at an event that raised PROMPT_EXPIRED. -/
theorem expired_ends (hcalm : calm u) (hroom : u.link.available < 2) (hsome : (u.rec? r.slot).isSome) (howed : nothingOwed w)
    (hwaits : noneWaits w) (h : endsFrom w (u.raise .promptExpired (.prompt n)) r o) :
    (w.enterPosting r.slot).spaceReport.commit.console = u.console
      ∧ (w.enterPosting r.slot).spaceReport.commit.flagSet .promptExpired = true
      ∧ endsIn (w.enterPosting r.slot).spaceReport.commit (noticed u (expiredNotice n)) r o := by
  have hlink : w.link.available = u.link.available := by
    obtain ⟨q, -, -, hlast⟩ := h
    rw [link_of_lasting hlast]
    rfl
  have hends : endsIn (w.enterPosting r.slot).commit (noticed u (expiredNotice n)) r o :=
    endsIn_commit_raised hwaits hcalm.2 (by rw [hlink]; exact hroom) hsome h
  have hconsole := console_of_endsIn hends
  rw [spaceReport_of_nothingOwed (nothingOwed_enterPosting howed)]
  exact ⟨hconsole, flagSet_of_endsIn hsome hends, hends⟩

/-! ## What a timer that has run out does (R157, R158) -/

theorem num_of_prompt? (h : s.prompt? n = some p) : p.num = n := by
  simpa using List.find?_some h

theorem exec_expiry (hp : s.prompt? n = some p) (htimer : p.timer = 0) :
    exec (.replyTimerExpiry n) s = .next (s.start.expirePrompt p) := by
  show execReplyTimerExpiry n s = _
  unfold execReplyTimerExpiry
  simp only [hp, htimer, if_true]

theorem exec_expiry_running (hp : s.prompt? n = some p) (htimer : p.timer ≠ 0) : exec (.replyTimerExpiry n) s = .next s.start := by
  show execReplyTimerExpiry n s = _
  unfold execReplyTimerExpiry
  simp only [hp, htimer, if_false]

theorem exec_expiry_unknown (hp : ∀ q ∈ s.console.queue, q.num ≠ n) : exec (.replyTimerExpiry n) s = .next s.start := by
  have hnone : s.prompt? n = none := List.find?_eq_none.mpr fun q hq => by simpa using hp q hq
  show execReplyTimerExpiry n s = _
  unfold execReplyTimerExpiry
  simp only [hnone]

theorem escalates (hp : s.prompt? n = some p) (htimer : p.timer = 0) (hleft : p.left ≠ 0) :
    ∃ t, exec (.replyTimerExpiry n) s = .next t
      ∧ t.console.queue = s.console.queue.map (fun q => if q.num = n then q.escalated else q)
      ∧ { t with console := s.console } = { s with sent := [] } := by
  obtain ⟨lines, hlines⟩ := redisplay_eq (s.start.updPrompt n Prompt.escalated)
  refine ⟨_, exec_expiry hp htimer, ?_⟩
  unfold State.expirePrompt
  rw [if_pos hleft, num_of_prompt? hp, hlines]
  exact ⟨rfl, rfl⟩

theorem rearms (hp : s.prompt? n = some p) (htimer : p.timer = 0) (hleft : p.left = 0) (hact : p.action = .rearm) (hcalm : calm s) :
    ∃ t, exec (.replyTimerExpiry n) s = .next t
      ∧ t.console.queue = s.console.queue.map (fun q => if q.num = n then q.rearmed else q)
      ∧ lasting t = lasting (noticed { s with console := t.console } (expiredNotice n)) := by
  obtain ⟨lines, hlines⟩ := redisplay_eq (s.start.updPrompt n Prompt.rearmed)
  have hexpire : s.start.expirePrompt p = ((s.start.updPrompt n Prompt.rearmed).redisplay.raise .promptExpired (.prompt n)).commit := by
    unfold State.expirePrompt
    rw [if_neg (not_not.mpr hleft), hact, ← num_of_prompt? hp]
    rfl
  have hlast := lasting_commit_raised (v := (s.start.updPrompt n Prompt.rearmed).redisplay.raise .promptExpired (.prompt n))
    (k := .promptExpired) (subject := .prompt n) (by rw [hlines]; exact hcalm.2) (by rw [hlines]; exact hcalm.1) rfl
  have hconsole := console_of_lasting hlast
  rw [exec_expiry hp htimer, hexpire]
  refine ⟨_, rfl, ?_, ?_⟩
  · rw [hconsole, hlines]
    rfl
  · rw [hconsole, hlast, hlines]
    rfl

/-! ## A FAIL expiry (R158, R159) -/

/-- The console with an expired prompt off the queue and in the expired list. -/
structure Expired (b : Console) (n : Nat) (c : Console) : Prop where
  queue : c.queue = b.queue.filter (fun q => q.num ≠ n)
  listed : c.expired = pushExpired b.expired n

/-- The state in which a FAIL expiry is handed to the block that raised the prompt. -/
def told (s : State) (k : Console) (n : Nat) : State := ({ s with sent := [], console := k } : State).raise .promptExpired (.prompt n)

theorem exec_fail (hp : s.prompt? n = some p) (htimer : p.timer = 0) (hleft : p.left = 0) (hact : p.action = .fail) :
    ∃ k, Expired s.console n k ∧ exec (.replyTimerExpiry n) s = .next (((told s k n).handFail p).spaceReport.commit) := by
  obtain ⟨shown, lines, hremoved⟩ := requeued_removePrompt s.start n
  refine ⟨{ s.console with queue := s.console.queue.filter (fun q => q.num ≠ n), shown := shown, lines := lines,
                           expired := pushExpired s.console.expired n }, ⟨rfl, rfl⟩, ?_⟩
  rw [exec_expiry hp htimer]
  unfold State.expirePrompt
  rw [if_neg (not_not.mpr hleft), hact]
  dsimp only
  unfold State.failPrompt
  rw [num_of_prompt? hp, hremoved]
  rfl

/-- A FAIL prompt whose timer has run out, in a part with nothing owed and nothing to be sent. -/
structure Fails (s : State) (p : Prompt) (n : Nat) : Prop where
  prompt : s.prompt? n = some p
  timer : p.timer = 0
  left : p.left = 0
  action : p.action = .fail
  calm : calm s
  owed : nothingOwed s

theorem Fails.runs (h : Fails s p n) :
    ∃ k, Expired s.console n k ∧ exec (.replyTimerExpiry n) s = .next (((told s k n).handFail p).spaceReport.commit) :=
  exec_fail h.prompt h.timer h.left h.action

/-- What lasts does not tell the console from the rest. -/
theorem lasting_setConsole (b : Console) (h : lasting t = lasting u) : lasting { t with console := b } = lasting { u with console := b } :=
  congrArg (fun x : State => { x with console := b }) h

theorem went_of (hu : calm u) (howed : nothingOwed v)
    (hv : lasting v = lasting (({ u with console := k } : State).raise .promptExpired (.prompt n))) :
    ∃ t, v.spaceReport.commit = t ∧ t.console = k
      ∧ ∀ b, lasting { t with console := b } = lasting (noticed { u with console := b } (expiredNotice n)) := by
  have hlast := lasting_expired_commit (u := { u with console := k }) hu howed hv
  have hconsole := console_of_lasting hlast
  exact ⟨_, rfl, hconsole, fun b => lasting_setConsole b hlast⟩

theorem ends_of (hu : calm u) (hroom : u.link.available < 2) (hsome : (u.rec? r.slot).isSome) (howed : nothingOwed w) (hwaits : noneWaits w)
    (h : endsFrom w (({ u with console := k } : State).raise .promptExpired (.prompt n)) r o) :
    ∃ t, (w.enterPosting r.slot).spaceReport.commit = t ∧ t.console = k ∧ t.flagSet .promptExpired = true
      ∧ endsIn t (noticed { u with console := k } (expiredNotice n)) r o :=
  ⟨_, rfl, expired_ends (u := { u with console := k }) hu hroom hsome howed hwaits h⟩

theorem waits_of_owed {x : Rec} (hr : r.waits = false) (hx : x.state ≠ .posting) (howed : x.mountedOwed = r.mountedOwed) :
    x.waits = false := by
  have hnone : r.mountedOwed = false := (Bool.or_eq_false_iff.mp hr).2
  exact Bool.or_eq_false_iff.mpr ⟨decide_eq_false hx, howed.trans hnone⟩

/-! ### By the kind of the prompt -/

theorem fail_approve (h : Fails s p n) (hblock : p.block = .requestTable) (hsubject : p.subject = .slot slot) (hr : s.rec? slot = some r)
    (hroom : s.link.available < 2) :
    ∃ t, exec (.replyTimerExpiry n) s = .next t ∧ Expired s.console n t.console ∧ t.flagSet .promptExpired = true
      ∧ endsIn t (noticed { s with console := t.console } (expiredNotice n)) r .operatorTimeout := by
  obtain ⟨k, hk, hexec⟩ := h.runs
  obtain rfl := slot_of_rec? hr
  have hand : (told s k n).handFail p
      = (((told s k n).updRec r.slot (fun x => { x with approve := .none })).setOutcome r.slot .operatorTimeout).enterPosting r.slot := by
    unfold State.handFail
    simp only [hblock, hsubject]
    rfl
  have hq : ((told s k n).updRec r.slot (fun x => { x with approve := .none })).setOutcome r.slot .operatorTimeout
      = (told s k n).updRec r.slot (fun _ => { r with approve := .none, outcome := some .operatorTimeout }) := by
    rw [updRec_const (s := told s k n) (f := fun x => { x with approve := .none }) hr, State.setOutcome,
      updRec_twice (s := told s k n) (q := { r with approve := .none }) hr rfl]
  obtain ⟨t, ht, hconsole, hflag, hends⟩ := ends_of (u := s) (k := k) (n := n) (r := r) (o := .operatorTimeout)
    (w := (told s k n).updRec r.slot (fun _ => { r with approve := .none, outcome := some .operatorTimeout })) h.calm hroom (by rw [hr]; rfl)
    (nothingOwed_updRec (s := told s k n) h.owed fun _ _ => PromptRef.noConfusion)
    (noneWaits_updRec (s := told s k n) h.calm.1 (h.calm.1 r (List.mem_of_find?_eq_some hr)))
    ⟨{ r with approve := .none, outcome := some .operatorTimeout }, rfl, rfl, rfl⟩
  rw [hand, hq, ht] at hexec
  rw [← hconsole] at hk hends
  exact ⟨t, hexec, hk, hflag, hends⟩

theorem handFail_station (h : Fails s p n) (hblock : p.block = .stationUnit) (hup : s.station.pos[q].prompt = .up n)
    (honly : ∀ x : Fin 8, s.station.pos[x].prompt = .up n → x = q) : (told s k n).handFail p = (told s k n).failStation q := by
  have hposition : (told s k n).positionOf p.num = some q := by
    rw [num_of_prompt? h.prompt]
    exact positionOf_eq (s := told s k n) hup honly
  unfold State.handFail
  simp only [hblock, hposition]

theorem fail_supply (h : Fails s p n) (hblock : p.block = .stationUnit) (hr : s.rec? slot = some r)
    (hstate : s.station.pos[q].state = .expecting slot) (hup : s.station.pos[q].prompt = .up n)
    (honly : ∀ x : Fin 8, s.station.pos[x].prompt = .up n → x = q) (hq : s.expecting slot = some q) (hclaims : noClaims s)
    (hroom : s.link.available < 2) :
    ∃ t, exec (.replyTimerExpiry n) s = .next t ∧ Expired s.console n t.console ∧ t.flagSet .promptExpired = true
      ∧ endsIn t (noticed { s.updPos q (fun _ => StationPos.initial) with console := t.console } (expiredNotice n)) r .operatorTimeout := by
  obtain ⟨k, hk, hexec⟩ := h.runs
  obtain rfl := slot_of_rec? hr
  obtain ⟨g, hg⟩ : ∃ g, g = (told s k n).promptGone q := ⟨_, rfl⟩
  have hpos : g.station.pos[q] = { s.station.pos[q] with prompt := .none } := by rw [hg]; exact State.updPos_self _ _ _
  have hand : (told s k n).handFail p = g.supplyFails r.slot .operatorTimeout := by
    have hgstate : g.station.pos[q].state = .expecting r.slot := by rw [hpos]; exact hstate
    rw [handFail_station h hblock hup honly]
    unfold State.failStation
    rw [← hg]
    simp only [hgstate]
  have hexpecting : g.expecting r.slot = some q := by
    rw [hg]
    exact (expecting_updPos (s := told s k n) (p := q) (f := fun x => { x with prompt := .none }) rfl r.slot).trans hq
  obtain ⟨w, hw, hstation, hlast, -⟩ := supplyFails_eq (s := g) (slot := r.slot) (r := r) (q := q) (o := .operatorTimeout) (by rw [hg]; exact hclaims)
    (by rw [hg]; exact hr) hexpecting (by rw [hpos])
  have hset : g.updPos q (fun _ => StationPos.initial) = (told s k n).updPos q (fun _ => StationPos.initial) := by
    rw [hg]
    exact FirstInLine.updPos_twice (told s k n) q _ _
  rw [hset] at hstation hlast
  have hkept : (withOutcome r .operatorTimeout).waits = false := h.calm.1 r (List.mem_of_find?_eq_some hr)
  obtain ⟨t, ht, hconsole, hflag, hends⟩ := ends_of (u := s.updPos q (fun _ => StationPos.initial)) (k := k) (n := n) (r := r)
    (o := .operatorTimeout) (w := w) h.calm hroom (by rw [Option.isSome_iff_exists]; exact ⟨r, hr⟩)
    (nothingOwed_of_lasting hlast hstation (nothingOwed_updRec
      (nothingOwed_updPos (s := told s k n) (p := q) (f := fun _ => StationPos.initial) h.owed PromptRef.noConfusion)
      fun _ _ => h.owed.2.2.1 r (List.mem_of_find?_eq_some hr)))
    (noneWaits_of_lasting hlast (noneWaits_updRec (s := (told s k n).updPos q (fun _ => StationPos.initial)) h.calm.1 hkept))
    ⟨withOutcome r .operatorTimeout, rfl, rfl, hlast⟩
  rw [hand, hw, ht] at hexec
  rw [← hconsole] at hk hends
  exact ⟨t, hexec, hk, hflag, hends⟩

/-- The state in which a FAIL expiry of a position's prompt reaches the position. -/
theorem promptGone_told {f : StationPos → StationPos} :
    ((told s k n).promptGone q).updPos q f = (told s k n).updPos q (fun x => f { x with prompt := .none }) :=
  FirstInLine.updPos_twice (told s k n) q _ _

/-- A RING prompt that fails is handed to the record whose reel the position holds. -/
theorem failStation_ring (hstate : s.station.pos[q].state = .holding ser) (hflow : s.station.pos[q].flow = some .ring)
    (howner : s.station.pos[q].owner = some slot) : s.failStation q = (s.promptGone q).ringFails slot q .operatorTimeout := by
  have hpos : (s.promptGone q).station.pos[q] = { s.station.pos[q] with prompt := .none } := State.updPos_self _ _ _
  generalize hg : s.promptGone q = g at hpos
  have hgstate : g.station.pos[q].state = .holding ser := by rw [hpos]; exact hstate
  have hgflow : g.station.pos[q].flow = some .ring := by rw [hpos]; exact hflow
  have hgowner : g.station.pos[q].owner = some slot := by rw [hpos]; exact howner
  unfold State.failStation
  simp only [hg, hgstate, hgflow, hgowner]

theorem fail_ring_home (h : Fails s p n) (hblock : p.block = .stationUnit) (hr : s.rec? slot = some r)
    (hstate : s.station.pos[q].state = .holding ser) (hflow : s.station.pos[q].flow = some .ring) (howner : s.station.pos[q].owner = some slot)
    (hup : s.station.pos[q].prompt = .up n) (honly : ∀ x : Fin 8, s.station.pos[x].prompt = .up n → x = q) (hc : s.recHome r = some c) :
    ∃ t, exec (.replyTimerExpiry n) s = .next t ∧ Expired s.console n t.console
      ∧ ∀ b, lasting { t with console := b } = lasting (noticed
          { (s.updPos q (fun x => { x with flow := some .pickup, prompt := .none })).updRec slot
              (fun _ => homeward (withOutcome r .operatorTimeout) q c .returning) with console := b } (expiredNotice n)) := by
  obtain ⟨k, hk, hexec⟩ := h.runs
  obtain ⟨hstation, hlast⟩ := ringFails_home (s := (told s k n).promptGone q) (slot := slot) (p := q) (o := .operatorTimeout) hr hc
  rw [promptGone_told] at hstation hlast
  have hwaits : (homeward (withOutcome r .operatorTimeout) q c .returning).waits = false :=
    waits_of_owed (h.calm.1 r (List.mem_of_find?_eq_some hr)) RecState.noConfusion rfl
  have happrove := h.owed.2.2.1 r (List.mem_of_find?_eq_some hr)
  obtain ⟨t, ht, hconsole, hwent⟩ := went_of (k := k) (n := n)
    (u := (s.updPos q (fun x => { x with flow := some .pickup, prompt := .none })).updRec slot
      (fun _ => homeward (withOutcome r .operatorTimeout) q c .returning))
    ⟨noneWaits_updRec h.calm.1 hwaits, h.calm.2⟩
    (nothingOwed_of_lasting hlast hstation (nothingOwed_updRec
      (nothingOwed_updPos (s := told s k n) (f := fun x => { x with flow := some .pickup, prompt := .none }) h.owed PromptRef.noConfusion)
      fun _ _ => happrove))
    hlast
  rw [handFail_station h hblock hup honly, failStation_ring (s := told s k n) hstate hflow howner, ht] at hexec
  rw [← hconsole] at hk
  exact ⟨t, hexec, hk, hwent⟩

/-- The console after an expired prompt has left it and another has been raised. -/
structure ExpiredThenRaised (b : Console) (n : Nat) (a : Ask) (c : Console) (k : Nat) : Prop where
  queue : ∃ t, c.queue = b.queue.filter (fun q => q.num ≠ n) ++ [promptOf t a k]
  listed : c.expired = (pushExpired b.expired n).filter (fun x => x ≠ k)
  fresh : ∀ x ∈ b.queue.filter (fun q => q.num ≠ n), x.num ≠ k

theorem Expired.raises {b d : Console} {a : Ask} (h : Expired b n k) (hd : Raises k a d m) : ExpiredThenRaised b n a d m where
  queue := ⟨_, h.queue ▸ hd.queue⟩
  listed := h.listed ▸ hd.expired
  fresh := h.queue ▸ hd.fresh

theorem fail_ring_collect (h : Fails s p n) (hblock : p.block = .stationUnit) (hr : s.rec? slot = some r)
    (hstate : s.station.pos[q].state = .holding ser) (hflow : s.station.pos[q].flow = some .ring) (howner : s.station.pos[q].owner = some slot)
    (hup : s.station.pos[q].prompt = .up n) (honly : ∀ x : Fin 8, s.station.pos[x].prompt = .up n → x = q) (hc : s.recHome r = none)
    (hroom : (s.console.queue.filter (fun q => q.num ≠ n)).length < 16) :
    ∃ t m, exec (.replyTimerExpiry n) s = .next t ∧ ExpiredThenRaised s.console n (collectAsk (some r) ser q) t.console m
      ∧ ∀ b, lasting { t with console := b } = lasting (noticed
          { (s.updPos q (fun x => { x with flow := some .collect, owner := some slot, prompt := .up m })).updRec slot
              (fun _ => toCollect (withOutcome r .operatorTimeout)) with console := b } (expiredNotice n)) := by
  obtain ⟨k, hk, hexec⟩ := h.runs
  have hpos : ((told s k n).promptGone q).station.pos[q].state = .holding ser := by
    rw [State.promptGone, State.updPos_self]
    exact hstate
  obtain ⟨d, m, hd, hraises⟩ := ringFails_collect (s := (told s k n).promptGone q) (slot := slot) (p := q) (o := .operatorTimeout) hr hc hpos
    (by rw [show ((told s k n).promptGone q).console.queue = k.queue from rfl, hk.queue]; exact hroom)
  have hraised : Raises k (collectAsk (some r) ser q) d m := hraises
  have hwaits : (toCollect (withOutcome r .operatorTimeout)).waits = false :=
    waits_of_owed (h.calm.1 r (List.mem_of_find?_eq_some hr)) RecState.noConfusion rfl
  have happrove := h.owed.2.2.1 r (List.mem_of_find?_eq_some hr)
  have hcollects : ((told s k n).promptGone q).ringFails slot q .operatorTimeout
      = (({ told s k n with console := d } : State).updRec slot (fun _ => toCollect (withOutcome r .operatorTimeout))).updPos q
          (fun x => { x with flow := some .collect, owner := some slot, prompt := .up m }) := by
    rw [hd]
    exact FirstInLine.updPos_twice
      (({ told s k n with console := d } : State).updRec slot (fun _ => toCollect (withOutcome r .operatorTimeout))) q
      (fun x => { x with prompt := .none }) (fun x => { x with flow := some .collect, owner := some slot, prompt := .up m })
  obtain ⟨t, ht, hconsole, hwent⟩ := went_of (k := d) (n := n)
    (u := (s.updPos q (fun x => { x with flow := some .collect, owner := some slot, prompt := .up m })).updRec slot
      (fun _ => toCollect (withOutcome r .operatorTimeout)))
    (v := (((told s k n).promptGone q).ringFails slot q .operatorTimeout))
    ⟨noneWaits_updRec h.calm.1 hwaits, h.calm.2⟩
    (by
      rw [hcollects]
      exact nothingOwed_updPos (s := ({ told s k n with console := d } : State).updRec slot _)
        (nothingOwed_updRec (s := { told s k n with console := d }) h.owed fun _ _ => happrove) PromptRef.noConfusion)
    (by rw [hcollects]; rfl)
  rw [handFail_station h hblock hup honly, failStation_ring (s := told s k n) hstate hflow howner, ht] at hexec
  have hdone := hk.raises hraised
  rw [← hconsole] at hdone
  exact ⟨t, m, hexec, hdone, hwent⟩

theorem failStation_collect (hstate : s.station.pos[q].state = .holding ser) (hflow : s.station.pos[q].flow = some .collect) :
    s.failStation q = (s.promptGone q).askStation q
      ∧ (s.promptGone q).stationAsk q = some (collectAsk (s.station.pos[q].owner.bind s.rec?) ser q) := by
  have hpos : (s.promptGone q).station.pos[q] = { s.station.pos[q] with prompt := .none } := State.updPos_self _ _ _
  have hrec : (s.promptGone q).rec? = s.rec? := rfl
  generalize hg : s.promptGone q = g at hpos hrec
  have hgstate : g.station.pos[q].state = .holding ser := by rw [hpos]; exact hstate
  have hgflow : g.station.pos[q].flow = some .collect := by rw [hpos]; exact hflow
  constructor
  · unfold State.failStation
    simp only [hg, hgstate, hgflow]
  · rw [stationAsk_collect hgstate hgflow, hpos, hrec]

theorem fail_collect (h : Fails s p n) (hblock : p.block = .stationUnit) (hstate : s.station.pos[q].state = .holding ser)
    (hflow : s.station.pos[q].flow = some .collect) (hup : s.station.pos[q].prompt = .up n)
    (honly : ∀ x : Fin 8, s.station.pos[x].prompt = .up n → x = q) (hroom : (s.console.queue.filter (fun q => q.num ≠ n)).length < 16) :
    ∃ t m, exec (.replyTimerExpiry n) s = .next t
      ∧ ExpiredThenRaised s.console n (collectAsk (s.station.pos[q].owner.bind s.rec?) ser q) t.console m
      ∧ ∀ b, lasting { t with console := b } = lasting (noticed
          { s.updPos q (fun x => { x with prompt := .up m }) with console := b } (expiredNotice n)) := by
  obtain ⟨k, hk, hexec⟩ := h.runs
  obtain ⟨hand, hask⟩ := failStation_collect (s := told s k n) hstate hflow
  obtain ⟨d, m, hd, hraises⟩ := askStation_raises hask
    (by rw [show ((told s k n).promptGone q).console.queue = k.queue from rfl, hk.queue]; exact hroom)
  have hraised : Raises k (collectAsk (s.station.pos[q].owner.bind s.rec?) ser q) d m := hraises
  have hasked : ((told s k n).promptGone q).askStation q
      = ({ told s k n with console := d } : State).updPos q (fun x => { x with prompt := .up m }) := by
    rw [hd]
    exact FirstInLine.updPos_twice ({ told s k n with console := d } : State) q (fun x => { x with prompt := .none })
      (fun x => { x with prompt := .up m })
  obtain ⟨t, ht, hconsole, hwent⟩ := went_of (k := d) (n := n) (u := s.updPos q (fun x => { x with prompt := .up m }))
    (v := ({ told s k n with console := d } : State).updPos q (fun x => { x with prompt := .up m })) h.calm
    (nothingOwed_updPos (s := { told s k n with console := d }) h.owed PromptRef.noConfusion) rfl
  rw [handFail_station h hblock hup honly, hand, hasked, ht] at hexec
  have hdone := hk.raises hraised
  rw [← hconsole] at hdone
  exact ⟨t, m, hexec, hdone, hwent⟩

theorem fail_fault {acc : Acc} (h : Fails s p n) (hblock : p.block = .railScheduler) (hsubject : p.subject = .accessor acc)
    (hroom : (s.console.queue.filter (fun q => q.num ≠ n)).length < 16) :
    ∃ t m, exec (.replyTimerExpiry n) s = .next t ∧ ExpiredThenRaised s.console n (faultAsk acc p.override) t.console m
      ∧ ∀ b, lasting { t with console := b } = lasting (noticed
          { s.updAcc acc (fun x => { x with prompt := .up m }) with console := b } (expiredNotice n)) := by
  obtain ⟨k, hk, hexec⟩ := h.runs
  have hand : (told s k n).handFail p = (told s k n).askFault acc p.override := by
    unfold State.handFail
    simp only [hblock, hsubject]
  obtain ⟨d, m, hd, hraises⟩ := askFault_raises (s := told s k n) acc p.override (by
    rw [show (told s k n).console.queue = k.queue from rfl, hk.queue]
    exact hroom)
  have hraised : Raises k (faultAsk acc p.override) d m := hraises
  obtain ⟨t, ht, hconsole, hwent⟩ := went_of (k := d) (n := n) (u := s.updAcc acc (fun x => { x with prompt := .up m }))
    (v := ({ told s k n with console := d } : State).updAcc acc (fun x => { x with prompt := .up m })) h.calm
    (nothingOwed_updAcc (s := { told s k n with console := d }) h.owed fun _ => FaultPrompt.noConfusion) rfl
  rw [hand, hd, ht] at hexec
  have hdone := hk.raises hraised
  rw [← hconsole] at hdone
  exact ⟨t, m, hexec, hdone, hwent⟩

theorem fail_clean (h : Fails s p n) (hblock : p.block = .driveTable) :
    ∃ t, exec (.replyTimerExpiry n) s = .next t ∧ Expired s.console n t.console
      ∧ ∀ b, lasting { t with console := b } = lasting (noticed { s with cleanPrompt := .none, console := b } (expiredNotice n)) := by
  obtain ⟨k, hk, hexec⟩ := h.runs
  have hand : (told s k n).handFail p = { told s k n with cleanPrompt := .none } := by
    unfold State.handFail
    simp only [hblock]
  obtain ⟨hfault, -, happrove, hstation⟩ := h.owed
  obtain ⟨t, ht, hconsole, hwent⟩ := went_of (k := k) (n := n) (u := { s with cleanPrompt := .none })
    (v := { told s k n with cleanPrompt := .none }) h.calm ⟨hfault, PromptRef.noConfusion, happrove, hstation⟩ rfl
  rw [hand, ht] at hexec
  rw [← hconsole] at hk
  exact ⟨t, hexec, hk, hwent⟩

end Expiry

end Sys2Proof
end

section
/-! PROOFS. The space report: what it raises first, and what it leaves owed (R152); and the prompts that expire, put together. -/

namespace Sys2Proof

namespace Spacing

open Machine Safety Upkeep Posting Events Reservation DriveTable Ending Raising Flows Expiry
open FirstInLine (supplyAsk)

variable {s t u v : State} {a : Ask} {k n slot : Nat} {p q : Fin 8} {r : Rec} {ser : Serial} {acc : Acc} {c : Console}

/-! ## What the space report leaves owed -/

theorem spaceReport_settled (s : State) :
    (∀ acc, Settled (faultSettled acc) s.spaceReport) ∧ Settled (fun t => t.cleanPrompt ≠ .owed) s.spaceReport
      ∧ (∀ slot, Settled (approveSettled slot) s.spaceReport) ∧ ∀ p, Settled (stationSettled p) s.spaceReport := by
  obtain ⟨faults, hfaults⟩ : ∃ v, v = bothAccs.foldl State.raiseOwedFault s := ⟨_, rfl⟩
  obtain ⟨approves, happroves⟩ : ∃ v, v = (faults.raiseOwedClean.recs.map (·.slot)).foldl State.raiseOwedApprove faults.raiseOwedClean := ⟨_, rfl⟩
  have hreport : s.spaceReport = (List.finRange 8).foldl State.raiseOwedStation approves := by rw [happroves, hfaults]; rfl
  have hclean : Raised faults faults.raiseOwedClean := Raised.raiseOwedClean faults
  have happrove : Raised faults.raiseOwedClean approves := happroves ▸ Raised.foldl Raised.raiseOwedApprove _ (Raised.refl _)
  have hstation : Raised approves s.spaceReport := hreport ▸ Raised.foldl Raised.raiseOwedStation _ (Raised.refl _)
  refine ⟨fun acc => ?_, ?_, fun slot => ?_, fun p => ?_⟩
  · have hfault : Settled (faultSettled acc) faults := hfaults ▸ settled_foldl (P := faultSettled) Raised.raiseOwedFault
      (fun _ => faultSettled.mono) raiseOwedFault_settled bothAccs (by cases acc <;> decide) s
    exact hfault.mono faultSettled.mono ((hclean.trans happrove).trans hstation)
  · refine (raiseOwedClean_settled faults).mono (fun h hs => ?_) (happrove.trans hstation)
    rw [h.clean hs]
    exact hs
  · have happroved : Settled (approveSettled slot) approves := by
      by_cases hslot : slot ∈ faults.raiseOwedClean.recs.map (·.slot)
      · exact happroves ▸ settled_foldl (P := approveSettled) Raised.raiseOwedApprove (fun _ => approveSettled.mono) raiseOwedApprove_settled _
          hslot faults.raiseOwedClean
      · refine .inr (approveSettled.mono happrove fun r hr => ?_)
        exact absurd (List.mem_map.mpr ⟨r, List.mem_of_find?_eq_some hr, slot_of_rec? hr⟩) hslot
    exact happroved.mono approveSettled.mono hstation
  · exact hreport ▸ settled_foldl (P := stationSettled) Raised.raiseOwedStation (fun _ => stationSettled.mono) raiseOwedStation_settled _
      (List.mem_finRange p) approves

/-- The report stops when the queue is full, or when nothing is owed that a block can raise. -/
theorem nothing_more (h : (∀ acc, Settled (faultSettled acc) t) ∧ Settled (fun t => t.cleanPrompt ≠ .owed) t
      ∧ (∀ slot, Settled (approveSettled slot) t) ∧ ∀ p, Settled (stationSettled p) t) :
    16 ≤ t.console.queue.length
      ∨ (∀ acc u, (t.acc acc).prompt ≠ .owed u) ∧ t.cleanPrompt ≠ .owed ∧ (∀ slot r, t.rec? slot = some r → ¬owesApprove r)
        ∧ ∀ q : Fin 8, t.station.pos[q].prompt = .owed →
            (∀ slot, t.station.pos[q].state = .expecting slot → t.rec? slot = none)
              ∧ ∀ ser, t.station.pos[q].state = .holding ser → t.station.pos[q].flow ≠ some .collect
                  ∧ (t.station.pos[q].flow = some .ring → t.station.pos[q].owner.bind t.rec? = none) := by
  by_cases hfull : 16 ≤ t.console.queue.length
  · exact .inl hfull
  · obtain ⟨hfault, hclean, happrove, hstation⟩ := h
    exact .inr ⟨fun acc => (hfault acc).resolve_left hfull, hclean.resolve_left hfull, fun slot => (happrove slot).resolve_left hfull,
      fun q howed => stationAsk_eq_none_iff.mp ((hstation q).resolve_left hfull howed)⟩

/-! ## What the space report raises first -/

/-- A report that raises a prompt as its first, and then others. -/
structure Leads (s : State) (a : Ask) (k : Nat) (t : State) : Prop where
  queue : ∃ x more, t.console.queue = s.console.queue ++ promptOf x a k :: more ∧ ∀ y ∈ more, y.num ≠ k
  fresh : ∀ x ∈ s.console.queue, x.num ≠ k

theorem leads_of (hc : Raises s.console a c k) (hv : v.console = c) (h : Raised v t) : Leads s a k t := by
  obtain ⟨more, hmore, hfresh⟩ := h.queue
  rw [hv, hc.queue] at hmore
  rw [hv, hc.queue] at hfresh
  refine ⟨⟨_, more, by rw [hmore, List.append_assoc]; rfl, fun y hy heq => ?_⟩, hc.fresh⟩
  exact hfresh y hy _ (List.mem_append_right _ List.mem_cons_self) heq.symm

theorem raiseOwedFault_quiet (h : ∀ u, (s.acc acc).prompt ≠ .owed u) : s.raiseOwedFault acc = s := by
  unfold State.raiseOwedFault
  split
  next u hu => exact absurd hu (h u)
  next => rfl

theorem raiseOwedFault_owed {urgency : Option Nat} (h : (s.acc acc).prompt = .owed urgency) : s.raiseOwedFault acc = s.askFault acc urgency := by
  unfold State.raiseOwedFault
  rw [h]

theorem raiseOwedClean_quiet (h : s.cleanPrompt ≠ .owed) : s.raiseOwedClean = s := by
  unfold State.raiseOwedClean
  split
  next hs => exact absurd hs h
  next => rfl

theorem raiseOwedApprove_quiet (h : ∀ r, s.rec? slot = some r → ¬owesApprove r) : s.raiseOwedApprove slot = s := by
  unfold State.raiseOwedApprove
  split
  next r hr => exact if_neg (h r hr)
  next => rfl

theorem raiseOwedStation_quiet (h : s.station.pos[p].prompt ≠ .owed) : s.raiseOwedStation p = s := by
  unfold State.raiseOwedStation
  split
  next hs => exact absurd hs h
  next => rfl

theorem foldl_quiet {α : Type} {f : State → α → State} {l : List α} (h : ∀ x ∈ l, f s x = s) : l.foldl f s = s := by
  induction l with
  | nil => rfl
  | cons x rest ih =>
    rw [List.foldl_cons, h x List.mem_cons_self]
    exact ih fun y hy => h y (List.mem_cons_of_mem x hy)

/-- The report after the FAULT prompts. -/
theorem raised_after_faults (s : State) : Raised ((s.raiseOwedFault .a).raiseOwedFault .b) s.spaceReport :=
  Raised.foldl Raised.raiseOwedStation _ (Raised.foldl Raised.raiseOwedApprove _ (Raised.raiseOwedClean _))

theorem fault_first {urgency : Option Nat} (howed : (s.acc acc).prompt = .owed urgency)
    (hquiet : acc = .b → ∀ v, (s.acc .a).prompt ≠ .owed v) (hroom : s.console.queue.length < 16) :
    ∃ k, Leads s (faultAsk acc urgency) k s.spaceReport ∧ (s.spaceReport.acc acc).prompt = .up k := by
  obtain ⟨c, k, hask, hc⟩ := askFault_raises acc urgency hroom
  have hlater : Raised (s.askFault acc urgency) s.spaceReport := by
    cases acc with
    | a =>
      have hrest := raised_after_faults s
      rw [raiseOwedFault_owed howed] at hrest
      exact (Raised.raiseOwedFault _ _).trans hrest
    | b =>
      have hrest := raised_after_faults s
      rw [raiseOwedFault_quiet (hquiet rfl), raiseOwedFault_owed howed] at hrest
      exact hrest
  have hup : ((s.askFault acc urgency).acc acc).prompt = .up k := by rw [hask, State.acc_updAcc_self]
  refine ⟨k, leads_of hc (by rw [hask]; rfl) hlater, ?_⟩
  rw [hlater.fault acc (by rw [hup]; exact fun _ => FaultPrompt.noConfusion), hup]

/-- With no FAULT prompt owed the report begins with the CLEAN_SUPPLY prompt. -/
theorem spaceReport_of_noFault (hquiet : ∀ acc u, (s.acc acc).prompt ≠ .owed u) :
    s.spaceReport = (List.finRange 8).foldl State.raiseOwedStation
      ((s.raiseOwedClean.recs.map (·.slot)).foldl State.raiseOwedApprove s.raiseOwedClean) := by
  have hfaults : bothAccs.foldl State.raiseOwedFault s = s := foldl_quiet fun acc _ => raiseOwedFault_quiet (hquiet acc)
  unfold State.spaceReport
  rw [hfaults]

theorem clean_first {d : Fin 16} (hquiet : ∀ acc u, (s.acc acc).prompt ≠ .owed u) (howed : s.cleanPrompt = .owed)
    (hd : s.firstCleanWait = some d) (hroom : s.console.queue.length < 16) :
    ∃ k, Leads s (cleanAsk d) k s.spaceReport ∧ s.spaceReport.cleanPrompt = .up k := by
  obtain ⟨c, k, hask, hc⟩ := ask_raises (cleanAsk d) hroom
  have hclean : s.raiseOwedClean = { s with console := c, cleanPrompt := .up k } := by
    unfold State.raiseOwedClean
    rw [howed, askCleanSupply_eq hd, hask]
  have hlater : Raised s.raiseOwedClean s.spaceReport := by
    rw [spaceReport_of_noFault hquiet]
    exact Raised.foldl Raised.raiseOwedStation _ (Raised.foldl Raised.raiseOwedApprove _ (Raised.refl _))
  have hup : s.raiseOwedClean.cleanPrompt = .up k := by rw [hclean]
  refine ⟨k, leads_of hc (by rw [hclean]) hlater, ?_⟩
  rw [hlater.clean (by rw [hup]; exact PromptRef.noConfusion), hup]

theorem spaceReport_of_noClean (hquiet : ∀ acc u, (s.acc acc).prompt ≠ .owed u) (hclean : s.cleanPrompt ≠ .owed) :
    s.spaceReport = (List.finRange 8).foldl State.raiseOwedStation ((s.recs.map (·.slot)).foldl State.raiseOwedApprove s) := by
  rw [spaceReport_of_noFault hquiet, raiseOwedClean_quiet hclean]

theorem approve_first {before after : List Rec} (hquiet : ∀ acc u, (s.acc acc).prompt ≠ .owed u) (hclean : s.cleanPrompt ≠ .owed)
    (hrecs : s.recs = before ++ r :: after) (hr : s.rec? r.slot = some r) (howed : owesApprove r) (hbefore : ∀ x ∈ before, ¬owesApprove x)
    (hroom : s.console.queue.length < 16) :
    ∃ k, Leads s (approveAsk r.slot r) k s.spaceReport ∧ s.spaceReport.rec? r.slot = some { r with approve := .up k } := by
  obtain ⟨c, k, hask, hc⟩ := askApprove_raises hr hroom
  have hquiet' : (before.map (·.slot)).foldl State.raiseOwedApprove s = s := by
    refine foldl_quiet fun m hm => raiseOwedApprove_quiet fun x hx => ?_
    obtain ⟨y, hy, rfl⟩ := List.mem_map.mp hm
    have hfind : before.find? (fun z => decide (z.slot = y.slot)) = some x := by
      have hall : (before ++ r :: after).find? (fun z => decide (z.slot = y.slot)) = some x := hrecs ▸ hx
      rw [List.find?_append] at hall
      cases hb : before.find? (fun z => decide (z.slot = y.slot)) with
      | none => exact absurd (List.find?_eq_none.mp hb y hy) (by simp)
      | some z => rw [hb] at hall; exact hall
    exact hbefore x (List.mem_of_find?_eq_some hfind)
  have hraise : s.raiseOwedApprove r.slot = s.askApprove r.slot := by
    unfold State.raiseOwedApprove
    rw [hr]
    exact if_pos howed
  have hlater : Raised (s.askApprove r.slot) s.spaceReport := by
    rw [spaceReport_of_noClean hquiet hclean, hrecs, List.map_append, List.foldl_append, hquiet', List.map_cons, List.foldl_cons, hraise]
    exact Raised.foldl Raised.raiseOwedStation _ (Raised.foldl Raised.raiseOwedApprove _ (Raised.refl _))
  have hup : (s.askApprove r.slot).rec? r.slot = some { r with approve := .up k } := by
    have hself := State.rec?_updRec_self ({ s with console := c } : State) r.slot (fun x => { x with approve := .up k }) fun _ h => h
    have hsame : ({ s with console := c } : State).rec? r.slot = some r := hr
    rw [hask, hself, hsame]
    rfl
  exact ⟨k, leads_of hc (by rw [hask]; rfl) hlater, hlater.approve _ _ hup fun h => PromptRef.noConfusion h.2⟩

theorem station_first (hquiet : ∀ acc u, (s.acc acc).prompt ≠ .owed u) (hclean : s.cleanPrompt ≠ .owed)
    (happrove : ∀ x ∈ s.recs, ¬owesApprove x) (howed : s.station.pos[p].prompt = .owed) (hbefore : ∀ x < p, s.station.pos[x].prompt ≠ .owed)
    (hask : s.stationAsk p = some a) (hroom : s.console.queue.length < 16) :
    ∃ k, Leads s a k s.spaceReport ∧ s.spaceReport.station.pos[p] = { s.station.pos[p] with prompt := .up k } := by
  obtain ⟨c, k, hasked, hc⟩ := askStation_raises hask hroom
  have happroves : (s.recs.map (·.slot)).foldl State.raiseOwedApprove s = s :=
    foldl_quiet fun m _ => raiseOwedApprove_quiet fun x hx => happrove x (List.mem_of_find?_eq_some hx)
  have hraise : s.raiseOwedStation p = s.askStation p := by
    unfold State.raiseOwedStation
    rw [howed]
  obtain ⟨before, after, hsplit⟩ := List.append_of_mem (List.mem_finRange p)
  have hquiet' : before.foldl State.raiseOwedStation s = s := by
    refine foldl_quiet fun x hx => raiseOwedStation_quiet (hbefore x ?_)
    have hsorted := List.pairwise_lt_finRange 8
    rw [hsplit, List.pairwise_append] at hsorted
    exact hsorted.2.2 x hx p List.mem_cons_self
  have hlater : Raised (s.askStation p) s.spaceReport := by
    rw [spaceReport_of_noClean hquiet hclean, happroves, hsplit, List.foldl_append, hquiet', List.foldl_cons, hraise]
    exact Raised.foldl Raised.raiseOwedStation _ (Raised.refl _)
  have hup : (s.askStation p).station.pos[p] = { s.station.pos[p] with prompt := .up k } := by
    rw [hasked, State.updPos_self]
  refine ⟨k, leads_of hc (by rw [hasked]; rfl) hlater, ?_⟩
  rw [hlater.station p (by rw [hup]; exact PromptRef.noConfusion), hup]

/-! ## PROMPTS (R157 to R159, R152) -/

theorem firstCleanWait_of {d : Fin 16} (hd : s.drives[d].cleanWait = true) (hlow : ∀ x < d, s.drives[x].cleanWait = false) :
    s.firstCleanWait = some d := by
  cases hx : s.firstCleanWait with
  | none => exact absurd ((firstCleanWait_eq_none_iff s).mp hx d) (by rw [hd]; exact Bool.noConfusion)
  | some x =>
    obtain ⟨hwait, hlowest⟩ := Cleaning.firstCleanWait_eq_some hx
    rcases lt_trichotomy x d with hlt | heq | hgt
    · exact absurd (hlow x hlt) (by rw [hwait]; exact Bool.noConfusion)
    · rw [heq]
    · exact absurd hd (by rw [hlowest d hgt]; exact Bool.noConfusion)

/-- The prompt that a report raises first. -/
theorem first_of {holds : State → Nat → Prop} (h : Leads s.start a k s.start.spaceReport) (hholds : holds s.start.spaceReport k) :
    ∃ t q more, exec .owedPromptRaise s = .next t ∧ t.console.queue = s.console.queue ++ q :: more ∧ q.kind = a.kind
      ∧ q.template.val = a.template.val ∧ q.subject = a.subject ∧ q.fields = a.fields ∧ (∀ x ∈ s.console.queue, x.num ≠ q.num)
      ∧ holds t q.num := by
  obtain ⟨x, more, hqueue, -⟩ := h.queue
  exact ⟨_, _, more, rfl, hqueue, rfl, rfl, rfl, rfl, h.fresh, hholds⟩

theorem urgency_of_leads {t : State} (h : Leads s a k t) {x : Prompt} (hx : x ∈ t.console.queue) (hnum : x.num = k) :
    x.override = a.override ∧ ∀ w, a.override = some w → x.urgency = w := by
  obtain ⟨y, more, hqueue, hmore⟩ := h.queue
  rw [hqueue] at hx
  rcases List.mem_append.mp hx with hx | hx
  · exact absurd hnum (h.fresh x hx)
  · rcases List.mem_cons.mp hx with rfl | hx
    · exact ⟨rfl, fun w hw => by simp only [promptOf, hw, Option.getD_some]⟩
    · exact absurd hnum (hmore x hx)

theorem askedFor_of {b d : Console} (h : ExpiredThenRaised b n a d k) :
    askedFor (b.queue.filter (fun q => q.num ≠ n)) d.queue a.kind a.template.val a.subject a.fields k
      ∧ d.expired = (pushExpired b.expired n).filter (fun x => x ≠ k) := by
  obtain ⟨t, ht⟩ := h.queue
  exact ⟨⟨_, ht, rfl, rfl, rfl, rfl, rfl⟩, h.listed⟩

theorem urgency_of_raised {b d : Console} (h : ExpiredThenRaised b n a d k) {x : Prompt} (hx : x ∈ d.queue) (hnum : x.num = k) :
    x.override = a.override ∧ ∀ w, a.override = some w → x.urgency = w := by
  obtain ⟨t, ht⟩ := h.queue
  rw [ht] at hx
  rcases List.mem_append.mp hx with hx | hx
  · exact absurd hnum (h.fresh x hx)
  · rw [List.mem_singleton.mp hx]
    exact ⟨rfl, fun w hw => by simp only [promptOf, hw, Option.getD_some]⟩

/-- Settles O56: an expiry is followed from the prompt's removal to the end of the event, kind by kind, and the space report block by
block. -/
theorem promptsExpireAndAreRaised : Obligations.PromptsExpireAndAreRaised := by
  intro n p s expires raises gone listed told' fieldsAt held
  refine ⟨fun hp ht => exec_expiry_running hp ht, exec_expiry_unknown, fun hp ht hl => escalates hp ht hl,
    fun hp ht hl ha hc => rearms hp ht hl ha hc, ?_, ?_, ?_, ?_, ?_⟩
  · intro hp ht hl ha hcalm howed ended went asked at'
    have h : Fails s p n := ⟨hp, ht, hl, ha, hcalm, howed⟩
    refine ⟨?_, ?_, ?_, ?_, ?_, ?_, ?_⟩
    · intro slot r _ hblock hsub hr _ hroom
      obtain ⟨t, hexec, hk, hflag, hends⟩ := fail_approve h hblock hsub hr hroom
      exact ⟨t, hexec, hk.queue, hk.listed, hflag, hends⟩
    · intro q slot r _ hblock _ hr hstate ⟨hup, honly⟩ hq hclaims hroom
      obtain ⟨t, hexec, hk, hflag, hends⟩ := fail_supply h hblock hr hstate hup honly hq hclaims hroom
      exact ⟨t, hexec, hk.queue, hk.listed, hflag, hends⟩
    · intro q slot r ser c _ hblock _ hr _ hstate hflow howner ⟨hup, honly⟩ hc
      obtain ⟨t, hexec, hk, hwent⟩ := fail_ring_home h hblock hr hstate hflow howner hup honly hc
      refine ⟨t, hexec, hk.queue, hk.listed, (hwent s.console).trans ?_⟩
      have hconst := updRec_const (s := s.updPos q (fun x => { x with flow := some .pickup, prompt := .none })) (f := fun r =>
        { r with state := .returning, outcome := some .operatorTimeout, nextLeg := none,
                 leg := some (legOf r (accOfColumn c.col) (.station (some q)) (.cell c)) }) hr
      exact congrArg (fun u => lasting (noticed u (expiredNotice n))) hconst.symm
    · intro q slot r ser _ hblock _ hr _ hstate hflow howner ⟨hup, honly⟩ hc hroom
      obtain ⟨t, m, hexec, hk, hwent⟩ := fail_ring_collect h hblock hr hstate hflow howner hup honly hc hroom
      refine ⟨t, m, hexec, ?_, (hwent s.console).trans ?_⟩
      · have hasked := askedFor_of hk
        rw [← slot_of_rec? hr]
        exact hasked
      · have hconst := updRec_const (s := s.updPos q (fun x => { x with flow := some .collect, prompt := .up m })) (f := fun r =>
          { r with state := .collect, outcome := some .operatorTimeout, leg := none, nextLeg := none }) hr
        have hpos : s.updPos q (fun x => { x with flow := some .collect, owner := some slot, prompt := .up m })
            = s.updPos q (fun x => { x with flow := some .collect, prompt := .up m }) := updPos_congr (by rw [← howner])
        rw [hpos]
        exact congrArg (fun u => lasting (noticed u (expiredNotice n))) hconst.symm
    · intro q ser _ hblock hstate hflow ⟨hup, honly⟩ hroom
      obtain ⟨t, m, hexec, hk, hwent⟩ := fail_collect h hblock hstate hflow hup honly hroom
      refine ⟨fun slot r _ howner hr => ⟨t, m, hexec, ?_, hwent s.console⟩, fun _ howner => ⟨t, m, hexec, ?_, hwent s.console⟩⟩
      · rw [howner, Option.bind_some, hr] at hk
        have hasked := askedFor_of hk
        rw [← slot_of_rec? hr]
        exact hasked
      · rw [howner, Option.bind_none] at hk
        exact askedFor_of hk
    · intro acc _ hblock hsub hroom
      obtain ⟨t, m, hexec, hk, hwent⟩ := fail_fault h hblock hsub hroom
      exact ⟨t, m, hexec, askedFor_of hk, fun x hx hnum => urgency_of_raised hk hx hnum, hwent s.console⟩
    · intro _ hblock _
      obtain ⟨t, hexec, hk, hwent⟩ := fail_clean h hblock
      exact ⟨t, hexec, hk.queue, hk.listed, hwent s.console⟩
  · intro hroom first quiet
    refine ⟨?_, ?_, ?_, ?_⟩
    · intro acc u howed hquiet
      obtain ⟨k, hl, hup⟩ := fault_first (s := s.start) howed hquiet hroom
      exact first_of (holds := fun t k => (t.acc acc).prompt = .up k ∧ ∀ v, u = some v → ∀ x ∈ t.console.queue, x.num = k → x.urgency = v)
        hl ⟨hup, fun v hv x hx hnum => (urgency_of_leads hl hx hnum).2 v hv⟩
    · intro d hquiet hclean hd hlow
      obtain ⟨k, hl, hup⟩ := clean_first (s := s.start) hquiet hclean (firstCleanWait_of (s := s.start) hd hlow) hroom
      exact first_of (holds := fun t k => t.cleanPrompt = .up k) hl hup
    · intro before r after hquiet hclean hrecs hr hheld hbefore
      obtain ⟨k, hl, hup⟩ := approve_first (s := s.start) hquiet hclean hrecs hr hheld hbefore hroom
      have hraised := first_of (holds := fun t k => t.rec? r.slot = some { r with approve := .up k }) hl hup
      have htemplate : (approveAsk r.slot r).template.val = if r.budgetHeld = true then 15 else r.template.val := by
        unfold approveAsk
        split <;> rfl
      rw [htemplate] at hraised
      exact hraised
    · intro q hquiet hclean happrove howed hlow up
      have hfirst : ∀ a, s.start.stationAsk q = some a → ∃ k, Leads s.start a k s.start.spaceReport ∧ up s.start.spaceReport k :=
        fun a ha => station_first (s := s.start) hquiet hclean happrove howed hlow ha hroom
      refine ⟨fun slot r hstate hr => ?_, fun slot r ser hstate hflow howner hr => ?_, fun slot r ser hstate hflow howner hr => ?_,
        fun ser hstate hflow howner => ?_⟩
      · obtain ⟨k, hl, hup⟩ := hfirst (supplyAsk r slot q) ((stationAsk_expecting (s := s.start) hstate).trans (congrArg (Option.map _) hr))
        exact first_of (holds := up) hl hup
      · obtain ⟨k, hl, hup⟩ := hfirst (ringAsk r q) ((stationAsk_ring (s := s.start) hstate hflow).trans
          (congrArg (Option.map _) ((congrArg (fun o => Option.bind o s.rec?) howner).trans hr)))
        rw [← slot_of_rec? hr]
        exact first_of (holds := up) hl hup
      · obtain ⟨k, hl, hup⟩ := hfirst (collectAsk (some r) ser q) ((stationAsk_collect (s := s.start) hstate hflow).trans
          (congrArg (fun o => some (collectAsk o ser q)) ((congrArg (fun o => Option.bind o s.rec?) howner).trans hr)))
        rw [← slot_of_rec? hr]
        exact first_of (holds := up) hl hup
      · obtain ⟨k, hl, hup⟩ := hfirst (collectAsk none ser q) ((stationAsk_collect (s := s.start) hstate hflow).trans
          (congrArg (fun o => some (collectAsk o ser q)) (congrArg (fun o => Option.bind o s.rec?) howner)))
        exact first_of (holds := up) hl hup
  · have hraised := Raised.spaceReport s.start
    have hsettled := spaceReport_settled s.start
    obtain ⟨t, ht⟩ : ∃ t, t = s.start.spaceReport := ⟨_, rfl⟩
    rw [← ht] at hraised hsettled
    obtain ⟨new, hnew, -⟩ := hraised.queue
    exact ⟨t, new, by rw [ht]; rfl, hnew, congrArg (fun x : State => { x with sent := [], console := s.console }) hraised.rest,
      nothing_more hsettled⟩
  · intro hfull
    exact ⟨_, rfl, (Raised.spaceReport s.start).full hfull⟩
  · intro howed
    show execOwedPromptRaise s = _
    unfold execOwedPromptRaise
    rw [spaceReport_of_nothingOwed (s := s.start) howed]
    rfl

end Spacing

end Sys2Proof
end

section
/-! PROOFS. What every operator line comes to (R155, R156): how it is read, that the operator is told ANSWER TAKEN at the end of the event, and
that no station scan is asked for at its end. -/

namespace Sys2Proof

namespace Lines

open Machine Safety Upkeep Settling Posting Events Reservation DriveTable Ending Raising Flows Expiry Serving

variable {s t u v w : State} {c k : Console} {p : Prompt} {q : Fin 8} {slot n m : Nat} {r : Rec} {ser : Serial} {o : FinalOutcome}
  {line : List Byte} {word : AnswerWord}

/-! ## A line is read (R155) -/

theorem parseAnswer_digits {digits spaces rest : List Byte} (hdigits : digits ≠ []) (hdigit : ∀ b ∈ digits, isDigit b = true)
    (hspaces : spaces ≠ []) (hspace : ∀ b ∈ spaces, b = 0x20) (hrest : rest.head? ≠ some 0x20) :
    parseAnswer (digits ++ spaces ++ rest) = (wordOf rest).map (fun w => (digitsValue digits, w)) := by
  obtain ⟨b, spaces', rfl⟩ := List.exists_cons_of_ne_nil hspaces
  have hb : b = 0x20 := hspace b List.mem_cons_self
  have htake : (digits ++ (b :: spaces' ++ rest)).takeWhile isDigit = digits := by
    rw [List.takeWhile_append_of_pos hdigit, List.cons_append, List.takeWhile_cons_of_neg (by rw [hb]; decide), List.append_nil]
  have hdrop : (digits ++ (b :: spaces' ++ rest)).dropWhile isDigit = b :: spaces' ++ rest := by
    rw [List.dropWhile_append_of_pos hdigit, List.cons_append, List.dropWhile_cons_of_neg (by rw [hb]; decide)]
  have hnone : (b :: spaces' ++ rest).takeWhile (· = 0x20) ≠ [] := by
    rw [List.cons_append, List.takeWhile_cons_of_pos (p := fun x : Byte => decide (x = 0x20)) (decide_eq_true hb)]
    exact List.cons_ne_nil _ _
  have hword : (b :: spaces' ++ rest).dropWhile (· = 0x20) = rest := by
    rw [List.dropWhile_append_of_pos fun x hx => decide_eq_true (hspace x hx)]
    cases rest with
    | nil => rfl
    | cons x rest => exact List.dropWhile_cons_of_neg fun hx => hrest (congrArg some (of_decide_eq_true hx))
  unfold parseAnswer
  rw [List.append_assoc]
  simp only [htake, hdrop, hword, List.isEmpty_eq_false_iff.mpr hdigits, List.isEmpty_eq_false_iff.mpr hnone, Bool.or_self,
    Bool.false_eq_true, if_false]

/-! ## Reply lines at the end of an event -/

theorem replies_of_lasting (h : lasting t = lasting s) : replyLines t = replyLines s := by rw [replyLines, console_of_lasting h]; rfl

theorem replies_enterPosting (s : State) (n : Nat) : replyLines (s.enterPosting n) = replyLines s := by
  cases hr : s.rec? n with
  | none => simp only [State.enterPosting, hr]
  | some r =>
    rw [enterPosting_eq hr, built_eq]
    rfl

theorem replies_offerNotice (s : State) (x : Notice) : replyLines (s.offerNotice x) = replyLines s := by
  rw [offerNotice_eq]
  rfl

theorem replies_foldl {α : Type} {f : State → α → State} (hf : ∀ u x, replyLines (f u x) = replyLines u) (l : List α) (s : State) :
    replyLines (l.foldl f s) = replyLines s := by
  induction l generalizing s with
  | nil => rfl
  | cons x rest ih => exact (ih (f s x)).trans (hf s x)

theorem replies_close (s : State) (n : Nat) : replyLines (s.close n) = replyLines s := by
  refine (Still.recordFreed (Still.refl _)).replies.trans ?_
  unfold State.drained
  split <;> rfl

theorem replies_queueFrames (s : State) (r : Rec) : replyLines (s.queueFrames r) = replyLines s := by
  unfold State.queueFrames
  cases r.mountedOwed <;> cases r.usage <;> rfl

theorem replies_serveOldest (s : State) : replyLines s.serveOldest = replyLines s := by
  unfold State.serveOldest
  split
  · rfl
  · split
    · split
      · exact (replies_close _ _).trans ((replies_foldl replies_offerNotice _ _).trans (replies_queueFrames _ _))
      · rfl
    · rfl

theorem replies_serveUpTo (s : State) (n : Nat) : replyLines (s.serveUpTo n) = replyLines s := by
  induction n generalizing s with
  | zero => rfl
  | succ n ih => exact (ih s.serveOldest).trans (replies_serveOldest s)

theorem replies_commit (s : State) : replyLines s.commit = replyLines s := by
  have hoffered : ∀ u : State, replyLines u.offerNotices = replyLines u := fun u => replies_foldl replies_offerNotice u.raised { u with raised := [] }
  unfold State.commit
  rw [replies_of_lasting (lasting_railSettle _), hoffered]
  exact (replies_serveUpTo _ _).trans (replies_of_lasting (lasting_railSettle s))

/-! ## Scan requests at the end of an event -/

/-- No raise asks for a scan. -/
theorem reqs_of_raised (h : Raised s t) : t.rail.scanReqs = s.rail.scanReqs := (congrArg (fun x : State => x.rail.scanReqs) h.rest :)

theorem reqs_legReady (s : State) (slot : Nat) : (s.legReady slot).rail.scanReqs = s.rail.scanReqs := by
  unfold State.legReady
  split <;> rfl

theorem reqs_reserve (s : State) (slot : Nat) (d : Fin 16) : (s.reserve slot d).rail.scanReqs = s.rail.scanReqs := by
  unfold State.reserve
  split
  · rfl
  · exact reqs_legReady _ _

theorem reqs_allocateForRecord (s : State) (slot : Nat) : (s.allocateForRecord slot).rail.scanReqs = s.rail.scanReqs := by
  unfold State.allocateForRecord
  split
  · rfl
  · split
    · split
      · exact reqs_reserve _ _ _
      · rfl
    · rfl

theorem reqs_dropPrompt (s : State) (ref : PromptRef) (b : RaisingBlock) : (s.dropPrompt ref b).rail.scanReqs = s.rail.scanReqs := by
  unfold State.dropPrompt
  split
  · unfold State.withdraw
    split
    · split
      · refine (reqs_of_raised (Raised.spaceReport _)).trans ?_
        obtain ⟨shown, lines, hremoved⟩ := requeued_removePrompt s _
        rw [hremoved]
      · rfl
    · rfl
  · rfl

theorem reqs_askCleanSupply (s : State) : s.askCleanSupply.rail.scanReqs = s.rail.scanReqs := by
  cases hd : s.firstCleanWait with
  | none =>
    unfold State.askCleanSupply
    rw [hd]
  | some d =>
    obtain ⟨c, hc, -⟩ := Raised.ask_grows (cleanAsk d) s
    rw [askCleanSupply_eq hd, hc]

theorem reqs_cleaningAttempt (s : State) (d : Fin 16) : (s.cleaningAttempt d).rail.scanReqs = s.rail.scanReqs := by
  have htidy : ∀ u : State, u.tidyCleanSupply.rail.scanReqs = u.rail.scanReqs := fun u => by
    unfold State.tidyCleanSupply
    split
    · rfl
    · exact reqs_dropPrompt _ _ _
  unfold State.cleaningAttempt
  split
  · split
    · split
      · exact (reqs_allocateForRecord _ _).trans (htidy _)
      · rfl
    · dsimp only
      split
      · exact (reqs_askCleanSupply _).trans rfl
      · rfl
  · rfl

theorem reqs_foldl {α : Type} {f : State → α → State} (hf : ∀ u x, (f u x).rail.scanReqs = u.rail.scanReqs) (l : List α) (s : State) :
    (l.foldl f s).rail.scanReqs = s.rail.scanReqs := by
  induction l generalizing s with
  | nil => rfl
  | cons x rest ih => exact (ih (f s x)).trans (hf s x)

theorem reqs_returnOpen (s : State) (d : Fin 16) : (s.returnOpen d).rail.scanReqs = s.rail.scanReqs := by
  unfold State.returnOpen
  split <;> rfl

theorem reqs_recordFreed (s : State) : s.recordFreed.rail.scanReqs = s.rail.scanReqs := by
  have hattempt : ∀ (u : State) (d : Fin 16), (if u.drives[d].cleanWait then u.cleaningAttempt d else u).rail.scanReqs = u.rail.scanReqs :=
    fun u d => by
      split
      · exact reqs_cleaningAttempt _ _
      · rfl
  unfold State.recordFreed State.cleaningAttempts
  rw [reqs_foldl hattempt]
  refine reqs_foldl (fun u d => ?_) _ _
  split
  · exact reqs_returnOpen _ _
  · rfl

theorem reqs_close (s : State) (n : Nat) : (s.close n).rail.scanReqs = s.rail.scanReqs := by
  unfold State.close
  rw [reqs_recordFreed]
  unfold State.drained
  split <;> rfl

theorem reqs_offerNotice (s : State) (x : Notice) : (s.offerNotice x).rail.scanReqs = s.rail.scanReqs := by
  rw [offerNotice_eq]

theorem reqs_queueFrames (s : State) (r : Rec) : (s.queueFrames r).rail.scanReqs = s.rail.scanReqs := by
  unfold State.queueFrames
  cases r.mountedOwed <;> cases r.usage <;> rfl

theorem reqs_serveOldest (s : State) : s.serveOldest.rail.scanReqs = s.rail.scanReqs := by
  unfold State.serveOldest
  split
  · rfl
  · split
    · split
      · unfold State.servePosting
        rw [reqs_close, reqs_foldl reqs_offerNotice, reqs_queueFrames]
      · rfl
    · rfl

theorem reqs_serveUpTo (s : State) (n : Nat) : (s.serveUpTo n).rail.scanReqs = s.rail.scanReqs := by
  induction n generalizing s with
  | zero => rfl
  | succ n ih =>
    unfold State.serveUpTo
    rw [ih, reqs_serveOldest]

/-- The end of an event asks for no scan. -/
theorem mem_reqs_commit {x : ScanReq} (h : x ∈ s.commit.rail.scanReqs) : x ∈ s.rail.scanReqs := by
  have hoffered : ∀ u : State, u.offerNotices.rail.scanReqs = u.rail.scanReqs := fun u => by
    unfold State.offerNotices
    exact reqs_foldl reqs_offerNotice u.raised { u with raised := [] }
  unfold State.commit at h
  have hsettled := (RailWork.refl s.railSettle.serveWaiting.offerNotices).railSettle.reqs x h
  rw [hoffered, State.serveWaiting, reqs_serveUpTo] at hsettled
  exact (RailWork.refl s).railSettle.reqs x hsettled

end Lines

end Sys2Proof
end

section
/-! PROOFS. A record that goes on its way: into QUEUED, STAGED or SUPPLY, from the intake or from HELD (R10, R12, R14, R138). -/

namespace Sys2Proof

namespace Onward

open Machine Safety Upkeep Settling Posting Events Reservation DriveTable Ending Raising Flows
open FirstInLine (supplyAsk expectingAt supplyAt_raised)

variable {s t u v w : State} {c : Console} {k : Nat} {p q : Fin 8} {slot n : Nat} {r : Rec} {ser : Serial} {o : FinalOutcome} {st : RecState}

/-! ## The three states (R10) -/

theorem setRecState_eq (hr : s.rec? slot = some r) : s.setRecState slot st = s.updRec slot (fun _ => { r with state := st }) := updRec_const hr

theorem rec?_setRecState (hr : s.rec? slot = some r) : (s.setRecState slot st).rec? slot = some { r with state := st } := by
  rw [setRecState_eq hr]
  exact rec?_updRec_const (q := { r with state := st }) hr (slot_of_rec? hr :)

/-- With no drive FREE a record that enters QUEUED waits. -/
theorem enterQueued_eq (hfree : ∀ x : Fin 16, s.drives[x].state ≠ .free) (hr : s.rec? slot = some r) :
    s.enterQueued slot = s.updRec slot (fun _ => { r with state := .queued }) := by
  have hnone := Withdrawal.chooseDrive_of_noneFree (s := s.setRecState slot .queued) hfree { r with state := .queued }
  unfold State.enterQueued
  rw [allocateForRecord_nothing (rec?_setRecState hr) hnone, setRecState_eq hr]

/-- An EJECT goes to the station from where its reel is. -/
def ejected (s : State) (r : Rec) : Rec := { r with state := .staged, leg := some (s.ejectLeg r), nextLeg := none }

theorem enterStaged_lasting (hr : s.rec? slot = some r) :
    lasting (s.enterStaged slot) = lasting (s.updRec slot (fun _ => ejected s r)) ∧ (s.enterStaged slot).station = s.station := by
  have henter : s.enterStaged slot = (s.setRecState slot .staged).makeLegs slot (s.ejectLeg r) none := by
    unfold State.enterStaged
    rw [hr]
  rw [henter]
  refine ⟨?_, station_makeLegs _ _ _ _⟩
  rw [lasting_makeLegs, setRecState_eq hr, updRec_twice (q := { r with state := .staged }) hr (slot_of_rec? hr :)]
  rfl

/-- A reel that an operator is to bring has the lowest EMPTY position, and its SUPPLY prompt is raised. -/
theorem enterSupply_at (hr : s.rec? slot = some r) (hp : s.station.pos[p].state = .empty) (hlow : ∀ q < p, s.station.pos[q].state ≠ .empty)
    (hroom : s.console.queue.length < 16) :
    ∃ c k, s.enterSupply slot = (({ s with console := c } : State).updRec slot (fun _ => { r with state := .supply })).updPos p
        (fun _ => expectingAt slot k)
      ∧ c.queue = s.console.queue ++ [promptOf s.console.templates[r.template] (supplyAsk r slot p) k] := by
  have hset := rec?_setRecState (st := .supply) hr
  obtain ⟨c, k, hc, hqueue⟩ := supplyAt_raised (s := s.setRecState slot .supply) (p := p) hset hroom
  refine ⟨c, k, ?_, hqueue⟩
  have hempty : (s.setRecState slot .supply).emptyStation = some p := FirstInLine.emptyStation_lowest (s := s.setRecState slot .supply) hp hlow
  unfold State.enterSupply State.startSupply State.supplyOrWait
  simp only [hempty]
  rw [hc, ← setRecState_eq (s := { s with console := c }) hr]
  rfl

/-- With no position EMPTY it waits for one. -/
theorem enterSupply_waits (hr : s.rec? slot = some r) (hfull : ∀ p : Fin 8, s.station.pos[p].state ≠ .empty) :
    s.enterSupply slot = ({ s with station := { s.station with supplyWait := s.station.supplyWait ++ [slot] } } : State).updRec slot
      (fun _ => { r with state := .supply }) := by
  have hempty : (s.setRecState slot .supply).emptyStation = none :=
    List.find?_eq_none.mpr fun p _ => by
      rw [decide_eq_true_eq]
      exact hfull p
  unfold State.enterSupply State.startSupply State.supplyOrWait
  simp only [hempty]
  rw [← setRecState_eq (s := { s with station := { s.station with supplyWait := s.station.supplyWait ++ [slot] } }) hr]
  rfl

/-! ## A record leaves HELD (R12, R14) -/

/-- What a record of its kind and disposition does next. -/
theorem moveOn_queued (hr : s.rec? slot = some r) (hkind : r.kind = .mount) (hdisp : r.disposition ≠ some .manual) :
    s.moveOn slot = s.enterQueued slot := by
  unfold State.moveOn
  simp only [hr, hkind, hdisp, if_false]

theorem moveOn_staged (hr : s.rec? slot = some r) (hkind : r.kind = .eject) : s.moveOn slot = s.enterStaged slot := by
  unfold State.moveOn
  simp only [hr, hkind]

theorem moveOn_supply (hr : s.rec? slot = some r) (h : r.kind = .enter ∨ (r.kind = .mount ∧ r.disposition = some .manual)) :
    s.moveOn slot = s.enterSupply slot := by
  unfold State.moveOn
  rcases h with hkind | ⟨hkind, hdisp⟩
  · simp only [hr, hkind]
  · simp only [hr, hkind, hdisp, if_true]

theorem rec?_unheld (hr : s.rec? slot = some r) : (s.updRec slot Rec.unheld).rec? slot = some r.unheld := by
  rw [updRec_const hr]
  exact rec?_updRec_const (q := r.unheld) hr (slot_of_rec? hr :)

/-- A volume the robot needs and cannot reach ends the record. -/
theorem continueHeld_fails (hr : s.rec? slot = some r) (hneeds : r.unheld.needsReach = true) (ho : s.continuationFails r = some o) :
    s.continueHeld slot = ((s.updRec slot (fun _ => r.unheld)).postWith slot o) := by
  have hfails : (s.updRec slot Rec.unheld).continuationFails r.unheld = some o := ho
  unfold State.continueHeld
  simp only [rec?_unheld hr, hneeds, hfails, if_true]
  rw [updRec_const hr]

theorem continueHeld_moves (hr : s.rec? slot = some r) (h : r.unheld.needsReach = true → s.continuationFails r = none) :
    s.continueHeld slot = (s.updRec slot (fun _ => r.unheld)).moveOn slot := by
  have hmoves : s.continueHeld slot = (s.updRec slot Rec.unheld).moveOn slot := by
    unfold State.continueHeld
    simp only [rec?_unheld hr]
    split
    next hneeds =>
      have hnone : (s.updRec slot Rec.unheld).continuationFails r.unheld = none := h hneeds
      simp only [hnone]
    next => rfl
  rw [hmoves, updRec_const hr]

theorem continuationFails_eq {y : Serial} (hser : r.serial = some y) :
    s.continuationFails r = (match (s.entry? y).map Entry.loc with
      | none => some .unknownVolume
      | some .missing => some .volumeMissing
      | some .outside => some .volumeOutside
      | some _ => none) := by
  unfold State.continuationFails
  rw [hser]
  rfl

theorem continuationFails_reached {y : Serial} {e : Entry} (hser : r.serial = some y) (he : s.entry? y = some e) (hmissing : e.loc ≠ .missing)
    (hout : e.loc ≠ .outside) : s.continuationFails r = none := by
  rw [continuationFails_eq hser, he, Option.map_some]
  cases hloc : e.loc <;> simp_all

end Onward

end Sys2Proof
end

section
/-! PROOFS. A valid answer is taken: the prompt leaves the queue, the answer is counted, and the block that raised the prompt acts on it (R12,
R14, R87, R114, R139, R142, R144, R156). -/

namespace Sys2Proof

namespace Answering

open Machine Safety Upkeep Settling Posting Events Reservation DriveTable Ending Raising Flows Expiry Lines Onward
open FirstInLine (supplyAsk expectingAt)

variable {s t u v w x : State} {c k : Console} {p : Prompt} {q : Fin 8} {slot n m : Nat} {r y : Rec} {ser : Serial} {o : FinalOutcome}
  {line : List Byte} {word : AnswerWord} {a : Accounting} {l : ReplyLine}

/-! ## A line is judged (R155) -/

/-- The state in which the operator has been told something. -/
def toldLine (s : State) (l : ReplyLine) : State :=
  { s with sent := [], console := { s.console with lines :=
      if 16 ≤ (s.console.lines.filter (fun x => !x.isDisplay)).length then s.console.lines else s.console.lines ++ [.reply l] } }

theorem exec_invalid (h : parseAnswer line = none) : exec (.answerLine line) s = .next (toldLine s .invalidAnswer) := by
  show execAnswerLine line s = _
  unfold execAnswerLine State.judgeAnswer
  rw [h]
  rfl

theorem exec_unknown (h : parseAnswer line = some (n, word)) (hp : ∀ p ∈ s.console.queue, p.num ≠ n) :
    exec (.answerLine line) s = .next (toldLine s (if n ∈ s.console.expired then .tooLate else .unknownPrompt)) := by
  have hnone : s.start.prompt? n = none := List.find?_eq_none.mpr fun q hq => by simpa using hp q hq
  show execAnswerLine line s = _
  unfold execAnswerLine State.judgeAnswer
  simp only [h, hnone, List.contains_eq_mem, decide_eq_true_eq]
  rfl

/-- The words that a prompt's kind does not take. -/
def invalidWord (k : PromptKind) (w : AnswerWord) : Prop :=
  (k = .approve ∧ w = .done) ∨ (k = .fault ∧ w ≠ .done) ∨ (k ≠ .approve ∧ k ≠ .fault ∧ w = .accept)

theorem wordValid_iff (k : PromptKind) (w : AnswerWord) : wordValid k w = true ↔ ¬invalidWord k w := by
  unfold invalidWord
  cases k <;> cases w <;> decide

theorem exec_invalid_word (h : parseAnswer line = some (n, word)) (hp : s.prompt? n = some p) (hword : invalidWord p.kind word) :
    exec (.answerLine line) s = .next (toldLine s .invalidAnswer) := by
  have hvalid : wordValid p.kind word = false := Bool.not_eq_true _ ▸ fun hv => (wordValid_iff _ _).mp hv hword
  have hprompt : s.start.prompt? n = some p := hp
  show execAnswerLine line s = _
  unfold execAnswerLine State.judgeAnswer
  simp only [h, hprompt, hvalid, Bool.false_eq_true, if_false]
  rfl

/-! ## The answer is counted (R156) -/

/-- A valid answer to a queued prompt. -/
structure Answers (s : State) (line : List Byte) (n : Nat) (word : AnswerWord) (p : Prompt) : Prop where
  parse : parseAnswer line = some (n, word)
  prompt : s.prompt? n = some p
  valid : ¬invalidWord p.kind word

/-- The state in which an answer that has been counted is handed on. -/
def counting (s : State) (c : Console) (subject : PromptSubject) : State := { s.countAnswer subject with sent := [], console := c }

theorem countAnswer_console (s : State) (c : Console) (subject : PromptSubject) :
    ({ s with sent := [], console := c } : State).countAnswer subject = counting s c subject := by
  cases subject with
  | slot n =>
    have hrec : ({ s with sent := [], console := c } : State).rec? n = s.rec? n := rfl
    unfold counting State.countAnswer
    simp only [hrec]
    cases s.rec? n <;> rfl
  | _ => rfl

theorem Answers.runs (h : Answers s line n word p) :
    ∃ c, c.queue = s.console.queue.filter (fun q => q.num ≠ n)
      ∧ (c.lines.filter (fun x => !x.isDisplay) = replyLines s ∧ c = { s.console with queue := c.queue, shown := c.shown, lines := c.lines })
      ∧ exec (.answerLine line) s
        = .next (((((counting s c p.subject).handAnswer p word).spaceReport).replyLine (.taken n)).commit) := by
  have hremoved := requeued_removePrompt s.start n
  have hreplies : replyLines (s.start.removePrompt n) = replyLines s := (Still.removePrompt (Still.refl s.start)).replies
  obtain ⟨shown, lines, hc⟩ := hremoved
  refine ⟨{ s.console with queue := s.console.queue.filter (fun q => q.num ≠ n), shown := shown, lines := lines }, rfl, ⟨?_, rfl⟩, ?_⟩
  · rw [hc] at hreplies
    exact hreplies
  · have hprompt : s.start.prompt? n = some p := h.prompt
    show execAnswerLine line s = _
    unfold execAnswerLine State.judgeAnswer
    simp only [h.parse, hprompt, (wordValid_iff _ _).mpr h.valid, if_true]
    unfold State.takeAnswer
    rw [num_of_prompt? h.prompt, hc]
    exact congrArg (fun x : State => Host.Outcome.next (((x.handAnswer p word).spaceReport.replyLine (.taken n)).commit))
      (countAnswer_console s _ p.subject)

/-- The account that an answer is charged to. -/
def chargedFor (a : Accounting) (n : Fin 128) : Accounting :=
  { a with accounts := a.accounts.set n { a.accounts[n] with prompts := min 65535 (a.accounts[n].prompts + 1) } }

def countedRec (r : Rec) : Rec := { r with prompts := min 15 (r.prompts + 1) }

/-- A state whose answer has been counted in an account. -/
def charging (s : State) (c : Console) (n : Fin 128) : State := { s with sent := [], console := c, acct := chargedFor s.acct n }

theorem counting_slot (hr : s.rec? slot = some r) :
    counting s c (.slot slot) = (charging s c r.account).updRec slot (fun _ => countedRec r) := by
  unfold counting State.countAnswer
  simp only [hr]
  rw [updRec_const hr]
  rfl

/-! ## The end of the event -/

theorem lasting_setBooks (b : Console) (a : Accounting) (h : lasting t = lasting u) :
    lasting { t with console := b, acct := a } = lasting { u with console := b, acct := a } :=
  congrArg (fun x : State => { x with console := b, acct := a }) h

/-- An answer that ends no record: what lasts of the state that it left. -/
theorem took (hv : lasting v = lasting x) (hcalm : calm x) (howed : nothingOwed v) (l : ReplyLine) :
    ∃ t, (v.spaceReport.replyLine l).commit = t ∧ t.console.queue = x.console.queue ∧ t.acct = x.acct
      ∧ (∀ q ∈ v.rail.scanReqs, q ∈ t.rail.scanReqs ∨ ∃ who, (t.acc who).scan = some (.station q.pos q.kind false))
      ∧ ∀ b a, lasting { t with console := b, acct := a } = lasting { x with console := b, acct := a } := by
  have hvcalm : calm v := ⟨noneWaits_of_lasting hv hcalm.1, (raised_of_lasting hv).trans hcalm.2⟩
  have hcalm' : calm (v.replyLine l) := hvcalm
  have hlast : lasting (v.replyLine l).commit = lasting (v.replyLine l) := lasting_commit hcalm'
  have hsaid : lasting (v.replyLine l) = lasting { x with console := (v.replyLine l).console } := lasting_setConsole _ hv
  have hconsole := console_of_lasting hlast
  have hacct := acct_of_lasting (hlast.trans hsaid)
  have hqueue := congrArg Console.queue (console_of_lasting hv)
  have hscans : RailWork (v.replyLine l) (v.replyLine l).commit := by
    rw [commit_of_calm hcalm']
    exact (RailWork.refl _).railSettle.railSettle
  rw [spaceReport_of_nothingOwed howed]
  refine ⟨_, rfl, ?_, hacct, hscans.taken, fun b a => ?_⟩
  · rw [hconsole, ← hqueue]
    rfl
  · have hset := lasting_setBooks b a (hlast.trans hsaid)
    exact hset

theorem replyLine_enterPosting (s : State) (n : Nat) (l : ReplyLine) : (s.enterPosting n).replyLine l = (s.replyLine l).enterPosting n := by
  cases hr : s.rec? n with
  | none =>
    have hnone : (s.replyLine l).rec? n = none := hr
    simp only [State.enterPosting, hr, hnone]
  | some r =>
    have hsome : (s.replyLine l).rec? n = some r := hr
    rw [enterPosting_eq hr, enterPosting_eq hsome, built_eq, built_eq]
    rfl

theorem account_of_endsIn (hsome : (u.rec? r.slot).isSome) (h : endsIn t u r o) : t.acct.accounts[r.account] = builtAccount u r := by
  obtain ⟨y, hy⟩ := Option.isSome_iff_exists.mp hsome
  have hrec : (u.updRec r.slot (fun _ => withOutcome r o)).rec? r.slot = some (withOutcome r o) := rec?_updRec_const hy rfl
  have haccount := account_enterPosting hrec
  rw [acct_of_lasting h.1]
  exact haccount

/-- An answer that ends a record. -/
theorem ended (hcalm : calm w) (howed : nothingOwed w) (hroom : w.link.available < 2) (hsome : (u.rec? r.slot).isSome) (h : endsFrom w u r o)
    (l : ReplyLine) :
    ∃ t, ((w.enterPosting r.slot).spaceReport.replyLine l).commit = t ∧ t.console.queue = w.console.queue
      ∧ endsIn t { u with console := t.console } r o ∧ t.acct.accounts[r.account].prompts = u.acct.accounts[r.account].prompts := by
  obtain ⟨q, hslot, hpart, hlast⟩ := h
  have hends := endsIn_commit (v := w.replyLine l) (u := { u with console := (w.replyLine l).console }) (o := o) hcalm hroom hsome
    ⟨q, hslot, hpart, lasting_setConsole _ hlast⟩
  have hconsole := console_of_endsIn hends
  have haccount := account_of_endsIn (u := { u with console := (w.replyLine l).console }) hsome hends
  rw [spaceReport_of_nothingOwed (nothingOwed_enterPosting howed), replyLine_enterPosting]
  have hqueue : ((w.replyLine l).enterPosting r.slot).commit.console.queue = w.console.queue := by
    rw [hconsole]
    rfl
  refine ⟨_, rfl, hqueue, ?_, ?_⟩
  · rw [hconsole]
    exact hends
  · rw [haccount]
    rfl

/-! ## ANSWER TAKEN (R156) -/

theorem replies_handAnswer (s : State) (p : Prompt) (word : AnswerWord) : replyLines (s.handAnswer p word) = replyLines s := by
  have hstation : ∀ q, replyLines (s.answerStation q word) = replyLines s := fun q => by
    have hgone : Still s (s.promptGone q) := (Still.refl s).updPos
    unfold State.answerStation
    dsimp only
    split
    · split
      · exact hgone.requestScan.replies
      · exact (replies_enterPosting _ _).trans hgone.setOutcome.endSupply.replies
    · split
      · unfold State.ringFitted
        dsimp only
        split
        · refine (Still.enterQueued (Still.updPos (Still.same hgone ?_ ?_ ?_ ?_ ?_))).replies <;> rfl
        · exact hgone.updPos.enterQueued.replies
      · exact (hgone.setOutcome.stationHome (by decide)).replies
    · split
      · exact hgone.requestScan.replies
      · exact hgone.askStation.replies
    · exact hgone.replies
  have happrove : ∀ m, replyLines ((s.updRec m (fun r => { r with approve := .none })).answerApprove m word) = replyLines s := fun m => by
    have hgone : Still s (s.updRec m (fun r => { r with approve := .none })) := (Still.refl s).keepRec fun _ => ⟨rfl, rfl⟩
    have hunheld : Still s ((s.updRec m (fun r => { r with approve := .none })).updRec m Rec.unheld) := hgone.keepRec fun _ => ⟨rfl, rfl⟩
    unfold State.answerApprove
    split
    · exact (replies_enterPosting _ _).trans hgone.setOutcome.replies
    · unfold State.continueHeld
      dsimp only
      split
      · exact hunheld.replies
      · split
        · split
          · exact (replies_enterPosting _ _).trans hunheld.setOutcome.replies
          · exact hunheld.moveOn.replies
        · exact hunheld.moveOn.replies
  unfold State.handAnswer
  split
  · exact happrove _
  · exact ((Still.refl s).updAcc.updAcc).replies
  · unfold State.answerClean
    dsimp only
    split
    · refine (Still.cleaningAttempts (Still.same (Still.refl s) ?_ ?_ ?_ ?_ ?_)).replies <;> rfl
    · rfl
  · split
    · exact hstation _
    · rfl
  · rfl

/-- A valid answer is told ANSWER TAKEN while the printer has room for a reply line. -/
theorem told_taken (h : Answers s line n word p) (hroom : (s.console.lines.filter (fun x => !x.isDisplay)).length < 16) :
    ∃ t, exec (.answerLine line) s = .next t ∧ ConsoleLine.reply (.taken n) ∈ t.console.lines := by
  obtain ⟨c, -, ⟨hlines, -⟩, hexec⟩ := h.runs
  refine ⟨_, hexec, ?_⟩
  obtain ⟨v, hv⟩ : ∃ v, v = ((counting s c p.subject).handAnswer p word).spaceReport := ⟨_, rfl⟩
  have hreplies : replyLines v = replyLines s := by
    rw [hv, (Still.spaceReport (Still.refl _)).replies, replies_handAnswer]
    exact hlines
  have hsaid : replyLines (v.replyLine (.taken n)) = replyLines s ++ [.reply (.taken n)] := by
    have hlt : ¬16 ≤ (v.console.lines.filter (fun x => !x.isDisplay)).length := by
      rw [show v.console.lines.filter (fun x => !x.isDisplay) = replyLines s from hreplies]
      exact Nat.not_le.mpr hroom
    unfold replyLines State.replyLine pushReply
    rw [if_neg hlt, List.filter_append]
    exact congrArg (· ++ [ConsoleLine.reply (.taken n)]) hreplies
  rw [← hv]
  have hcommit := replies_commit (v.replyLine (.taken n))
  rw [hsaid] at hcommit
  exact List.mem_of_mem_filter (p := fun x : ConsoleLine => !x.isDisplay) (by
    rw [show (v.replyLine (.taken n)).commit.console.lines.filter (fun x => !x.isDisplay) = _ from hcommit]
    exact List.mem_append_right _ List.mem_cons_self)

end Answering

end Sys2Proof
end

section
/-! PROOFS. The answers to each kind of prompt (R12, R14, R87, R114, R139, R142, R144). -/

namespace Sys2Proof

namespace AnswerKinds

open Machine Safety Upkeep Settling Posting Events Reservation DriveTable Ending Raising Flows Expiry Lines Onward Answering
open FirstInLine (supplyAsk expectingAt)

variable {s t u v w x : State} {c : Console} {k : Nat} {p : Prompt} {q : Fin 8} {slot n m : Nat} {r y z : Rec} {ser : Serial}
  {o : FinalOutcome} {line : List Byte} {word : AnswerWord} {d : Disposition}

/-- A valid answer in a part with nothing owed and nothing to be sent. -/
structure Calmly (s : State) (line : List Byte) (n : Nat) (word : AnswerWord) (p : Prompt) : Prop where
  answers : Answers s line n word p
  calm : calm s
  owed : nothingOwed s

/-- A record whose answer has been counted, changed but for its slot and what would make it wait. -/
structure Moved (r z : Rec) : Prop where
  slot : z.slot = r.slot
  waits : z.waits = false
  approve : z.approve ≠ .owed

theorem Moved.calm (hz : Moved r z) (hcalm : Safety.calm s) (c : Console) (n : Fin 128) :
    Safety.calm ((charging s c n).updRec slot (fun _ => z)) :=
  ⟨noneWaits_updRec (s := charging s c n) hcalm.1 hz.waits, hcalm.2⟩

theorem Moved.owed (hz : Moved r z) (howed : nothingOwed s) (c : Console) (n : Fin 128) :
    nothingOwed ((charging s c n).updRec slot (fun _ => z)) :=
  nothingOwed_updRec (s := charging s c n) howed fun _ _ => hz.approve

/-- The answer ends the record. -/
theorem ends_post (h : Calmly s line n word p) (hr : s.rec? r.slot = some r) (hroom : s.link.available < 2) (hz : Moved r z)
    (hy : y.slot = r.slot) (hsame : endingPart (withOutcome z o) = endingPart (withOutcome y o)) (haccount : y.account = r.account)
    (hand : ∀ c, (counting s c p.subject).handAnswer p word = ((charging s c r.account).updRec r.slot (fun _ => z)).postWith r.slot o) :
    ∃ t, exec (.answerLine line) s = .next t ∧ t.console.queue = s.console.queue.filter (fun q => q.num ≠ n)
      ∧ endsIn t { s with console := t.console, acct := chargedFor s.acct r.account } y o
      ∧ t.acct.accounts[r.account].prompts = min 65535 (s.acct.accounts[r.account].prompts + 1) := by
  obtain ⟨c, hqueue, -, hexec⟩ := h.answers.runs
  have hpost : ((charging s c r.account).updRec r.slot (fun _ => z)).postWith r.slot o
      = ((charging s c r.account).updRec r.slot (fun _ => withOutcome z o)).enterPosting r.slot := by
    unfold State.postWith State.setOutcome
    rw [updRec_twice (s := charging s c r.account) (q := z) hr hz.slot]
    rfl
  have hzo : Moved r (withOutcome z o) := ⟨hz.slot, hz.waits, hz.approve⟩
  obtain ⟨t, ht, hgone, hends, hprompts⟩ := ended (w := (charging s c r.account).updRec r.slot (fun _ => withOutcome z o))
    (u := { s with acct := chargedFor s.acct r.account, console := c }) (r := y) (o := o) (hzo.calm h.calm c _) (hzo.owed h.owed c _) hroom
    (by rw [hy]; exact Option.isSome_iff_exists.mpr ⟨r, hr⟩) ⟨withOutcome z o, hz.slot.trans hy.symm, hsame, by rw [hy]; rfl⟩ (.taken n)
  rw [hy] at ht
  rw [hand c, hpost, ht] at hexec
  have hcharged : t.acct.accounts[r.account].prompts = (chargedFor s.acct r.account).accounts[r.account].prompts := by
    simpa only [haccount] using hprompts
  refine ⟨t, hexec, hgone.trans hqueue, hends, hcharged.trans ?_⟩
  simp [chargedFor]

/-- The answer moves the record on, and what lasts is that of a state beside it. -/
theorem goes_on (h : Calmly s line n word p) {f : Console → State} {b : Fin 128}
    (hand : ∀ c, c.queue = s.console.queue.filter (fun q => q.num ≠ n) → ∃ v, (counting s c p.subject).handAnswer p word = v
      ∧ lasting v = lasting (f c) ∧ nothingOwed v ∧ Safety.calm (f c))
    (hacct : ∀ c, (f c).acct = chargedFor s.acct b) :
    ∃ c t, c.queue = s.console.queue.filter (fun q => q.num ≠ n) ∧ exec (.answerLine line) s = .next t
      ∧ t.console.queue = (f c).console.queue ∧ t.acct = chargedFor s.acct b
      ∧ lasting { t with console := s.console, acct := s.acct } = lasting { f c with console := s.console, acct := s.acct } := by
  obtain ⟨c, hqueue, -, hexec⟩ := h.answers.runs
  obtain ⟨v, hv, hlast, howed, hcalm⟩ := hand c hqueue
  obtain ⟨t, ht, hq, ha, -, hwent⟩ := took hlast hcalm howed (.taken n)
  rw [hv, ht] at hexec
  exact ⟨c, t, hqueue, hexec, hq, ha.trans (hacct c), hwent _ _⟩

/-! ## APPROVE (R12, R14) -/

theorem hand_approve (hblock : p.block = .requestTable) (hsubject : p.subject = .slot slot) (hr : s.rec? slot = some r) :
    (counting s c p.subject).handAnswer p word
      = ((charging s c r.account).updRec slot (fun _ => { countedRec r with approve := .none })).answerApprove slot word := by
  unfold State.handAnswer
  rw [hsubject, counting_slot hr]
  simp only [hblock]
  rw [updRec_twice (s := charging s c r.account) (q := countedRec r) hr (slot_of_rec? hr :)]

/-- A record that an ACCEPT answer lets go on. -/
def freedRec (r : Rec) (d : Disposition) : Rec :=
  { countedRec r with approve := .none, disposition := some d, heldDisp := none, budgetHeld := false }

/-- The disposition that a HELD record goes on with. -/
def heldWay (r : Rec) : Disposition := if r.budgetHeld = true then r.heldDisp.getD .robot else .robot

theorem unheld_counted (r : Rec) : ({ countedRec r with approve := .none } : Rec).unheld = freedRec r (heldWay r) := rfl

theorem moved_freed (h : Calmly s line n word p) (hr : s.rec? r.slot = some r) : Moved r (freedRec r d) :=
  ⟨rfl, h.calm.1 r (List.mem_of_find?_eq_some hr), PromptRef.noConfusion⟩

theorem approve_declined (h : Calmly s line n .decline p) (hblock : p.block = .requestTable) (hsubject : p.subject = .slot r.slot)
    (hr : s.rec? r.slot = some r) (hroom : s.link.available < 2) :
    ∃ t, exec (.answerLine line) s = .next t ∧ t.console.queue = s.console.queue.filter (fun q => q.num ≠ n)
      ∧ endsIn t { s with console := t.console, acct := chargedFor s.acct r.account } (countedRec r) .operatorDeclined
      ∧ t.acct.accounts[r.account].prompts = min 65535 (s.acct.accounts[r.account].prompts + 1) :=
  ends_post (z := { countedRec r with approve := .none }) (y := countedRec r) h hr hroom
    ⟨rfl, h.calm.1 r (List.mem_of_find?_eq_some hr), PromptRef.noConfusion⟩ rfl rfl rfl fun _ => hand_approve hblock hsubject hr

theorem hand_accept (hblock : p.block = .requestTable) (hsubject : p.subject = .slot slot) (hr : s.rec? slot = some r) :
    (counting s c p.subject).handAnswer p .accept
      = ((charging s c r.account).updRec slot (fun _ => { countedRec r with approve := .none })).continueHeld slot :=
  hand_approve hblock hsubject hr

theorem rec?_approved (hr : s.rec? slot = some r) :
    ((charging s c r.account).updRec slot (fun _ => { countedRec r with approve := .none })).rec? slot
      = some { countedRec r with approve := .none } :=
  rec?_updRec_const (s := charging s c r.account) (q := { countedRec r with approve := .none }) hr (slot_of_rec? hr :)

theorem approve_ended (h : Calmly s line n .accept p) (hblock : p.block = .requestTable) (hsubject : p.subject = .slot r.slot)
    (hr : s.rec? r.slot = some r) (hroom : s.link.available < 2) (hneeds : (freedRec r (heldWay r)).needsReach = true)
    (ho : s.continuationFails r = some o) :
    ∃ t, exec (.answerLine line) s = .next t ∧ t.console.queue = s.console.queue.filter (fun q => q.num ≠ n)
      ∧ endsIn t { s with console := t.console, acct := chargedFor s.acct r.account }
          (countedRec { r with disposition := some (heldWay r), heldDisp := none, budgetHeld := false }) o
      ∧ t.acct.accounts[r.account].prompts = min 65535 (s.acct.accounts[r.account].prompts + 1) := by
  refine ends_post (z := freedRec r (heldWay r))
    (y := countedRec { r with disposition := some (heldWay r), heldDisp := none, budgetHeld := false }) h hr hroom (moved_freed h hr) rfl rfl rfl fun c => ?_
  rw [hand_accept hblock hsubject hr, continueHeld_fails (rec?_approved hr) hneeds ho, unheld_counted,
    updRec_twice (s := charging s c r.account) (q := { countedRec r with approve := .none }) hr rfl]

/-- A record that goes on is that of the HELD one, freed. -/
theorem hand_moves (hblock : p.block = .requestTable) (hsubject : p.subject = .slot slot) (hr : s.rec? slot = some r)
    (hreach : (freedRec r (heldWay r)).needsReach = true → s.continuationFails r = none) :
    (counting s c p.subject).handAnswer p .accept
      = ((charging s c r.account).updRec slot (fun _ => freedRec r (heldWay r))).moveOn slot := by
  have hmoves := continueHeld_moves (s := (charging s c r.account).updRec slot (fun _ => { countedRec r with approve := .none }))
    (rec?_approved hr) hreach
  rw [hand_accept hblock hsubject hr, hmoves, unheld_counted,
    updRec_twice (s := charging s c r.account) (q := { countedRec r with approve := .none }) hr (slot_of_rec? hr :)]

theorem rec?_freed (hr : s.rec? slot = some r) :
    ((charging s c r.account).updRec slot (fun _ => freedRec r d)).rec? slot = some (freedRec r d) :=
  rec?_updRec_const (s := charging s c r.account) (q := freedRec r d) hr (slot_of_rec? hr :)

theorem updRec_freed (hr : s.rec? slot = some r) (z : Rec) :
    ((charging s c r.account).updRec slot (fun _ => freedRec r d)).updRec slot (fun _ => z)
      = (charging s c r.account).updRec slot (fun _ => z) :=
  updRec_twice (s := charging s c r.account) (q := freedRec r d) hr (slot_of_rec? hr :)

/-- The record goes on and stands in a state of its own. -/
theorem moved_to (h : Calmly s line n .accept p) (hr : s.rec? r.slot = some r) {st : RecState} (hst : st ≠ .posting) :
    Moved r { freedRec r d with state := st } :=
  ⟨rfl, waits_of_owed (h.calm.1 r (List.mem_of_find?_eq_some hr)) hst rfl, PromptRef.noConfusion⟩

theorem approve_queued (h : Calmly s line n .accept p) (hblock : p.block = .requestTable) (hsubject : p.subject = .slot r.slot)
    (hr : s.rec? r.slot = some r) (hkind : r.kind = .mount) (hd : heldWay r ≠ .manual) (hreach : s.continuationFails r = none)
    (hfree : ∀ x : Fin 16, s.drives[x].state ≠ .free) :
    ∃ t, exec (.answerLine line) s = .next t ∧ t.console.queue = s.console.queue.filter (fun q => q.num ≠ n)
      ∧ t.acct = chargedFor s.acct r.account
      ∧ lasting { t with console := s.console, acct := s.acct }
        = lasting (s.updRec r.slot (fun _ => { freedRec r (heldWay r) with state := .queued })) := by
  have hz := moved_to (d := heldWay r) h hr (st := .queued) RecState.noConfusion
  obtain ⟨c, t, hc, hexec, hqueue, hacct, hwent⟩ := goes_on h (b := r.account)
    (f := fun c => (charging s c r.account).updRec r.slot (fun _ => { freedRec r (heldWay r) with state := .queued }))
    (fun c _ => ⟨_, by
      rw [hand_moves hblock hsubject hr fun _ => hreach, moveOn_queued (rec?_freed hr) hkind fun he => hd (Option.some.inj he),
        enterQueued_eq (s := (charging s c r.account).updRec r.slot (fun _ => freedRec r (heldWay r))) hfree (rec?_freed hr), updRec_freed hr], rfl, hz.owed h.owed c _, hz.calm h.calm c _⟩) fun _ => rfl
  exact ⟨t, hexec, hqueue.trans hc, hacct, hwent⟩

theorem approve_staged (h : Calmly s line n .accept p) (hblock : p.block = .requestTable) (hsubject : p.subject = .slot r.slot)
    (hr : s.rec? r.slot = some r) (hkind : r.kind = .eject) (hreach : s.continuationFails r = none) :
    ∃ t, exec (.answerLine line) s = .next t ∧ t.console.queue = s.console.queue.filter (fun q => q.num ≠ n)
      ∧ t.acct = chargedFor s.acct r.account
      ∧ lasting { t with console := s.console, acct := s.acct }
        = lasting (s.updRec r.slot (fun _ => { freedRec r (heldWay r) with
            state := .staged, leg := some (s.ejectLeg r), nextLeg := none })) := by
  have hz : Moved r { freedRec r (heldWay r) with state := .staged, leg := some (s.ejectLeg r), nextLeg := none } :=
    ⟨rfl, waits_of_owed (h.calm.1 r (List.mem_of_find?_eq_some hr)) RecState.noConfusion rfl, PromptRef.noConfusion⟩
  obtain ⟨c, t, hc, hexec, hqueue, hacct, hwent⟩ := goes_on h (b := r.account)
    (f := fun c => (charging s c r.account).updRec r.slot
      (fun _ => { freedRec r (heldWay r) with state := .staged, leg := some (s.ejectLeg r), nextLeg := none }))
    (fun c _ => by
      obtain ⟨hlast, hstation⟩ := enterStaged_lasting (rec?_freed (s := s) (c := c) (d := heldWay r) hr)
      rw [updRec_freed hr] at hlast
      refine ⟨_, by rw [hand_moves hblock hsubject hr fun _ => hreach, moveOn_staged (rec?_freed hr) hkind], hlast, ?_, hz.calm h.calm c _⟩
      exact nothingOwed_of_lasting hlast hstation (hz.owed h.owed c _)) fun _ => rfl
  exact ⟨t, hexec, hqueue.trans hc, hacct, hwent⟩

theorem needsReach_iff (x : Rec) : x.needsReach = true ↔ x.kind ≠ .enter ∧ x.disposition ≠ some .manual := by
  simp [Rec.needsReach]

/-- An ENTER, or a MANUAL mount, needs no volume that the robot can reach. -/
theorem not_needsReach (hkind : r.kind = .enter ∨ (r.kind = .mount ∧ heldWay r = .manual)) :
    ¬(freedRec r (heldWay r)).needsReach = true := by
  rw [needsReach_iff]
  rintro ⟨henter, hmanual⟩
  rcases hkind with hkind | ⟨-, hd⟩
  · exact henter hkind
  · exact hmanual (congrArg some hd)

theorem approve_supply_at (h : Calmly s line n .accept p) (hblock : p.block = .requestTable) (hsubject : p.subject = .slot r.slot)
    (hr : s.rec? r.slot = some r) (hkind : r.kind = .enter ∨ (r.kind = .mount ∧ heldWay r = .manual))
    (hempty : s.station.pos[q].state = .empty) (hlow : ∀ x < q, s.station.pos[x].state ≠ .empty)
    (hroom : (s.console.queue.filter (fun q => q.num ≠ n)).length < 16) :
    ∃ t k x, exec (.answerLine line) s = .next t
      ∧ t.console.queue = s.console.queue.filter (fun q => q.num ≠ n) ++ [promptOf x (supplyAsk r r.slot q) k]
      ∧ t.acct = chargedFor s.acct r.account
      ∧ lasting { t with console := s.console, acct := s.acct }
        = lasting ((s.updPos q (fun _ => expectingAt r.slot k)).updRec r.slot
            (fun _ => { freedRec r (heldWay r) with state := .supply })) := by
  have hz := moved_to (d := heldWay r) h hr (st := .supply) RecState.noConfusion
  obtain ⟨c, hc, -, hexec⟩ := h.answers.runs
  obtain ⟨d, k, hd, hqueue⟩ := enterSupply_at (rec?_freed (s := s) (c := c) (d := heldWay r) hr) hempty hlow (by
    rw [← hc] at hroom
    exact hroom)
  have hand : (counting s c p.subject).handAnswer p .accept
      = ((charging s d r.account).updRec r.slot (fun _ => { freedRec r (heldWay r) with state := .supply })).updPos q
          (fun _ => expectingAt r.slot k) := by
    have hmanual : r.kind = .enter ∨ (r.kind = .mount ∧ (freedRec r (heldWay r)).disposition = some .manual) :=
      hkind.imp id fun ⟨hk, hw⟩ => ⟨hk, congrArg some hw⟩
    rw [hand_moves hblock hsubject hr fun hn => absurd hn (not_needsReach hkind), moveOn_supply (rec?_freed hr) hmanual, hd]
    exact congrArg (fun x : State => x.updPos q (fun _ => expectingAt r.slot k)) (updRec_freed (s := s) (c := d) hr _)
  obtain ⟨t, ht, hq, ha, -, hwent⟩ := took (v := ((charging s d r.account).updRec r.slot
      (fun _ => { freedRec r (heldWay r) with state := .supply })).updPos q (fun _ => expectingAt r.slot k)) rfl (hz.calm h.calm d _)
    (nothingOwed_updPos (hz.owed h.owed d _) PromptRef.noConfusion) (.taken n)
  rw [hand, ht] at hexec
  have hq' : t.console.queue = d.queue := hq
  exact ⟨t, k, _, hexec, hq'.trans (hqueue.trans (congrArg (· ++ _) hc)), ha, hwent s.console s.acct⟩

theorem approve_supply_waits (h : Calmly s line n .accept p) (hblock : p.block = .requestTable) (hsubject : p.subject = .slot r.slot)
    (hr : s.rec? r.slot = some r) (hkind : r.kind = .enter ∨ (r.kind = .mount ∧ heldWay r = .manual))
    (hfull : ∀ x : Fin 8, s.station.pos[x].state ≠ .empty) :
    ∃ t, exec (.answerLine line) s = .next t ∧ t.console.queue = s.console.queue.filter (fun q => q.num ≠ n)
      ∧ t.acct = chargedFor s.acct r.account
      ∧ lasting { t with console := s.console, acct := s.acct }
        = lasting (({ s with station := { s.station with supplyWait := s.station.supplyWait ++ [r.slot] } } : State).updRec r.slot
            (fun _ => { freedRec r (heldWay r) with state := .supply })) := by
  have hz := moved_to (d := heldWay r) h hr (st := .supply) RecState.noConfusion
  obtain ⟨waiting, hwaiting⟩ : ∃ x : State, x = { s with station := { s.station with supplyWait := s.station.supplyWait ++ [r.slot] } } :=
    ⟨_, rfl⟩
  have hmanual : r.kind = .enter ∨ (r.kind = .mount ∧ (freedRec r (heldWay r)).disposition = some .manual) :=
    hkind.imp id fun ⟨hk, hw⟩ => ⟨hk, congrArg some hw⟩
  obtain ⟨c, t, hc, hexec, hqueue, hacct, hwent⟩ := goes_on h (b := r.account)
    (f := fun c => (charging waiting c r.account).updRec r.slot (fun _ => { freedRec r (heldWay r) with state := .supply }))
    (fun c _ => ⟨_, by
      rw [hand_moves hblock hsubject hr fun hn => absurd hn (not_needsReach hkind), moveOn_supply (rec?_freed hr) hmanual,
        enterSupply_waits (rec?_freed hr) hfull, hwaiting]
      exact updRec_freed (s := { s with station := { s.station with supplyWait := s.station.supplyWait ++ [r.slot] } }) hr _, rfl,
      hz.owed (s := waiting) (by rw [hwaiting]; exact h.owed) c _, hz.calm (s := waiting) (by rw [hwaiting]; exact h.calm) c _⟩)
    fun _ => by rw [hwaiting]; rfl
  rw [hwaiting] at hwent
  exact ⟨t, hexec, hqueue.trans hc, hacct, hwent⟩

end AnswerKinds

end Sys2Proof
end

section
/-! PROOFS. The answers to the prompts of the station unit, the drive table and the rail scheduler (R70, R87, R114, R139, R142, R144). -/

namespace Sys2Proof

namespace AnswerUnits

open Machine Safety Upkeep Settling Posting Events Reservation DriveTable Ending Raising Flows Expiry Lines Onward Answering AnswerKinds

variable {s t u v w x g : State} {c : Console} {k : Nat} {p : Prompt} {q : Fin 8} {slot n m : Nat} {r y z : Rec} {ser : Serial}
  {o : FinalOutcome} {line : List Byte} {word : AnswerWord} {kind : ScanKind} {cell : Cell}

/-! ## What the station unit makes of an answer -/

/-- An answer is counted in the record of its prompt, or in no record. -/
theorem counting_cases (s : State) (c : Console) (subject : PromptSubject) :
    (∃ m r, s.rec? m = some r ∧ counting s c subject = (charging s c r.account).updRec m (fun _ => countedRec r))
      ∨ ∃ a, counting s c subject = { s with sent := [], console := c, acct := a } := by
  cases subject with
  | slot m =>
    cases hr : s.rec? m with
    | none =>
      refine .inr ⟨s.acct, ?_⟩
      unfold counting State.countAnswer
      simp only [hr]
    | some r => exact .inl ⟨m, r, hr, counting_slot hr⟩
  | _ => exact .inr ⟨_, rfl⟩

theorem counting_rest (s : State) (c : Console) (subject : PromptSubject) :
    ∃ recs a, counting s c subject = { s with sent := [], console := c, recs := recs, acct := a } := by
  rcases counting_cases s c subject with ⟨m, r, -, h⟩ | ⟨a, h⟩
  · exact ⟨_, _, h⟩
  · exact ⟨_, _, h⟩

theorem station_counting (s : State) (c : Console) (subject : PromptSubject) : (counting s c subject).station = s.station := by
  obtain ⟨recs, a, h⟩ := counting_rest s c subject
  rw [h]

theorem counting_calm (hcalm : calm s) (c : Console) (subject : PromptSubject) : calm (counting s c subject) := by
  rcases counting_cases s c subject with ⟨m, r, hr, h⟩ | ⟨a, h⟩
  · rw [h]
    exact ⟨noneWaits_updRec (s := charging s c r.account) hcalm.1 (q := countedRec r) (hcalm.1 r (List.mem_of_find?_eq_some hr)), hcalm.2⟩
  · rw [h]
    exact hcalm

theorem counting_owed (howed : nothingOwed s) (c : Console) (subject : PromptSubject) : nothingOwed (counting s c subject) := by
  rcases counting_cases s c subject with ⟨m, r, hr, h⟩ | ⟨a, h⟩
  · rw [h]
    exact nothingOwed_updRec (s := charging s c r.account) howed fun _ _ => howed.2.2.1 r (List.mem_of_find?_eq_some hr)
  · rw [h]
    exact howed

/-- The prompt is that of one position alone. -/
structure At (s : State) (q : Fin 8) (n : Nat) : Prop where
  up : s.station.pos[q].prompt = .up n
  only : ∀ x : Fin 8, s.station.pos[x].prompt = .up n → x = q

theorem hand_station (h : Answers s line n word p) (hblock : p.block = .stationUnit) (hat : At s q n) :
    (counting s c p.subject).handAnswer p word = (counting s c p.subject).answerStation q word := by
  have hposition : (counting s c p.subject).positionOf p.num = some q := by
    rw [num_of_prompt? h.prompt]
    exact positionOf_eq (by rw [station_counting]; exact hat.up) (by rw [station_counting]; exact hat.only)
  unfold State.handAnswer
  simp only [hblock, hposition]

theorem pos_promptGone (s : State) (q : Fin 8) : (s.promptGone q).station.pos[q] = { s.station.pos[q] with prompt := .none } :=
  State.updPos_self _ _ _

theorem answerStation_supply (hstate : s.station.pos[q].state = .expecting slot) :
    s.answerStation q word
      = if word = .done then (s.promptGone q).requestScan q .supply else (s.promptGone q).supplyFails slot .operatorDeclined := by
  have hpos := pos_promptGone s q
  generalize hg : s.promptGone q = g at hpos
  have hgstate : g.station.pos[q].state = .expecting slot := by rw [hpos]; exact hstate
  unfold State.answerStation
  simp only [hg, hgstate]

theorem answerStation_ring (hstate : s.station.pos[q].state = .holding ser) (hflow : s.station.pos[q].flow = some .ring)
    (howner : s.station.pos[q].owner = some slot) :
    s.answerStation q word
      = if word = .done then (s.promptGone q).ringFitted slot q else (s.promptGone q).ringFails slot q .operatorDeclined := by
  have hpos := pos_promptGone s q
  generalize hg : s.promptGone q = g at hpos
  have hgstate : g.station.pos[q].state = .holding ser := by rw [hpos]; exact hstate
  have hgflow : g.station.pos[q].flow = some .ring := by rw [hpos]; exact hflow
  have hgowner : g.station.pos[q].owner = some slot := by rw [hpos]; exact howner
  unfold State.answerStation
  simp only [hg, hgstate, hgflow, hgowner]

theorem answerStation_collect (hstate : s.station.pos[q].state = .holding ser) (hflow : s.station.pos[q].flow = some .collect) :
    s.answerStation q word
      = if word = .done then (s.promptGone q).requestScan q .collect else (s.promptGone q).askStation q := by
  have hpos := pos_promptGone s q
  generalize hg : s.promptGone q = g at hpos
  have hgstate : g.station.pos[q].state = .holding ser := by rw [hpos]; exact hstate
  have hgflow : g.station.pos[q].flow = some .collect := by rw [hpos]; exact hflow
  unfold State.answerStation
  simp only [hg, hgstate, hgflow]

/-! ## DONE: a scan is asked for (R98, R139, R144) -/

theorem requestScan_eq (h : ∀ x ∈ s.rail.scanReqs, x.pos ≠ q) :
    s.requestScan q kind = { s.updPos q (fun x => { x with scan := .requested kind }) with
      rail := { s.rail with scanReqs := s.rail.scanReqs ++ [{ pos := q, kind := kind }] } } := by
  have hany : s.rail.scanReqs.any (fun x => decide (x.pos = q)) = false := by
    simpa using h
  have hno : ¬s.rail.scanReqs.any (fun x => decide (x.pos = q)) = true := fun hc => Bool.false_ne_true (hany.symm.trans hc)
  exact if_neg hno

theorem lasting_requestScan (h : ∀ x ∈ s.rail.scanReqs, x.pos ≠ q) : lasting (s.requestScan q kind) = lasting s := by
  rw [requestScan_eq h]
  exact lasting_updPos s q (fun x => { x with scan := .requested kind }) (lastingPos_scan _ _)

/-- A scan asked for at an answer: the request stands, or an accessor has taken it. -/
theorem took_scan {g : State} (hcalm : calm g) (howed : nothingOwed g) (hnone : ∀ x ∈ g.rail.scanReqs, x.pos ≠ q) (l : ReplyLine) :
    ∃ t, ((g.requestScan q kind).spaceReport.replyLine l).commit = t ∧ t.console.queue = g.console.queue
      ∧ ((∃ x ∈ t.rail.scanReqs, x.pos = q ∧ x.kind = kind) ∨ ∃ acc b, (t.acc acc).scan = some (.station q kind b))
      ∧ t.acct = g.acct ∧ ∀ b a, lasting { t with console := b, acct := a } = lasting { g with console := b, acct := a } := by
  have hrequested := requestScan_eq (kind := kind) hnone
  obtain ⟨v, hv⟩ : ∃ v, v = g.requestScan q kind := ⟨_, rfl⟩
  have hvowed : nothingOwed v := by
    rw [hv, hrequested]
    exact nothingOwed_updPos (f := fun x => { x with scan := .requested kind }) howed (howed.2.2.2 q)
  have hmem : ({ pos := q, kind := kind } : ScanReq) ∈ v.rail.scanReqs := by
    rw [hv, hrequested]
    exact List.mem_append_right _ List.mem_cons_self
  have hlast : lasting v = lasting g := hv ▸ lasting_requestScan hnone
  obtain ⟨t, ht, hqueue, hacct, htaken, hwent⟩ := took hlast hcalm hvowed l
  refine ⟨t, hv ▸ ht, hqueue, ?_, hacct, hwent⟩
  rcases htaken _ hmem with hin | ⟨who, hwho⟩
  · exact .inl ⟨_, hin, rfl, rfl⟩
  · exact .inr ⟨who, false, hwho⟩

/-- A DONE answer by which a scan is asked for. -/
theorem scan_asked (h : Calmly s line n .done p) (hreqs : ∀ x ∈ s.rail.scanReqs, x.pos ≠ q)
    (hand : ∀ c, (counting s c p.subject).handAnswer p .done = ((counting s c p.subject).promptGone q).requestScan q kind) :
    ∃ c t, c.queue = s.console.queue.filter (fun q => q.num ≠ n) ∧ exec (.answerLine line) s = .next t ∧ t.console.queue = c.queue
      ∧ ((∃ x ∈ t.rail.scanReqs, x.pos = q ∧ x.kind = kind) ∨ ∃ acc b, (t.acc acc).scan = some (.station q kind b))
      ∧ t.acct = (counting s c p.subject).acct
      ∧ ∀ b a, lasting { t with console := b, acct := a }
          = lasting { (counting s c p.subject).promptGone q with console := b, acct := a } := by
  obtain ⟨c, hqueue, -, hexec⟩ := h.answers.runs
  have hcalm := counting_calm h.calm c p.subject
  have howed := counting_owed h.owed c p.subject
  have hcounted := counting_rest s c p.subject
  rw [hand c] at hexec
  obtain ⟨x, hx⟩ : ∃ x, x = counting s c p.subject := ⟨_, rfl⟩
  rw [← hx] at hcalm howed hcounted hexec
  have hnone : ∀ y ∈ (x.promptGone q).rail.scanReqs, y.pos ≠ q := by
    obtain ⟨recs, a, hc⟩ := hcounted
    rw [hc]
    exact hreqs
  have hconsole : (x.promptGone q).console = c := by
    obtain ⟨recs, a, hc⟩ := hcounted
    rw [hc]
    rfl
  obtain ⟨t, ht, hq, hscan, ha, hwent⟩ := took_scan (g := x.promptGone q) (kind := kind) hcalm
    (nothingOwed_updPos (s := x) howed PromptRef.noConfusion) hnone (.taken n)
  rw [ht] at hexec
  exact ⟨c, t, hqueue, hexec, hq.trans (congrArg Console.queue hconsole), hscan, by rw [ha, ← hx]; rfl, by rw [← hx]; exact hwent⟩

/-! ## SUPPLY (R139) -/

theorem reqs_replyLine (s : State) (l : ReplyLine) : (s.replyLine l).rail.scanReqs = s.rail.scanReqs := rfl

theorem reqs_enterPosting (s : State) (n : Nat) : (s.enterPosting n).rail.scanReqs = s.rail.scanReqs := by
  cases hr : s.rec? n with
  | none => simp only [State.enterPosting, hr]
  | some y =>
    rw [enterPosting_eq hr, built_eq]
    rfl

theorem reqs_ended (s : State) (n : Nat) (l : ReplyLine) :
    ((s.enterPosting n).spaceReport.replyLine l).rail.scanReqs = s.rail.scanReqs := by
  rw [reqs_replyLine, reqs_of_raised (Raised.spaceReport _), reqs_enterPosting]

theorem supply_declined (h : Calmly s line n .decline p) (hblock : p.block = .stationUnit) (hsubject : p.subject = .slot r.slot)
    (hr : s.rec? r.slot = some r) (hstate : s.station.pos[q].state = .expecting r.slot) (hat : At s q n)
    (hq : s.expecting r.slot = some q) (hclaims : noClaims s) :
    (s.link.available < 2 → ∃ t, exec (.answerLine line) s = .next t ∧ t.console.queue = s.console.queue.filter (fun q => q.num ≠ n)
      ∧ endsIn t { s.updPos q (fun _ => StationPos.initial) with console := t.console, acct := chargedFor s.acct r.account }
          (countedRec r) .operatorDeclined
      ∧ t.acct.accounts[r.account].prompts = min 65535 (s.acct.accounts[r.account].prompts + 1))
    ∧ ∀ t, exec (.answerLine line) s = .next t → ∀ x ∈ t.rail.scanReqs, x.pos ≠ q := by
  obtain ⟨c, hqueue, -, hexec⟩ := h.answers.runs
  obtain ⟨g, hg⟩ : ∃ g, g = (charging s c r.account).updRec r.slot (fun _ => countedRec r) := ⟨_, rfl⟩
  have hcount : counting s c p.subject = g := by rw [hsubject, hg]; exact counting_slot hr
  have hgr : g.rec? r.slot = some (countedRec r) := by
    rw [hg]
    exact rec?_updRec_const (s := charging s c r.account) (q := countedRec r) hr rfl
  have hexpecting : (g.promptGone q).expecting r.slot = some q :=
    (expecting_updPos (s := g) (p := q) (f := fun x => { x with prompt := .none }) rfl r.slot).trans (by rw [hg]; exact hq)
  obtain ⟨w, hw, hstation, hlast, hnone⟩ := supplyFails_eq (s := g.promptGone q) (q := q) (o := .operatorDeclined)
    (by rw [hg]; exact hclaims) hgr hexpecting (by rw [pos_promptGone])
  have hset : (g.promptGone q).updPos q (fun _ => StationPos.initial) = g.updPos q (fun _ => StationPos.initial) :=
    FirstInLine.updPos_twice g q _ _
  rw [hset] at hstation hlast
  have hmerge : (g.updPos q (fun _ => StationPos.initial)).updRec r.slot (fun _ => withOutcome (countedRec r) .operatorDeclined)
      = ((charging s c r.account).updPos q (fun _ => StationPos.initial)).updRec r.slot
          (fun _ => withOutcome (countedRec r) .operatorDeclined) := by
    rw [hg]
    exact updRec_twice (s := (charging s c r.account).updPos q (fun _ => StationPos.initial)) (q := countedRec r) hr rfl
  rw [hmerge] at hlast
  have hand : (counting s c p.subject).handAnswer p .decline = w.enterPosting r.slot := by
    rw [hand_station h.answers hblock hat, answerStation_supply (by rw [station_counting]; exact hstate), hcount, if_neg (by decide), hw]
  rw [hand] at hexec
  have hkept : (withOutcome (countedRec r) .operatorDeclined).waits = false := h.calm.1 r (List.mem_of_find?_eq_some hr)
  have howed : nothingOwed w := nothingOwed_of_lasting hlast (by rw [hstation, hg]; rfl) (nothingOwed_updRec
    (nothingOwed_updPos (s := charging s c r.account) (p := q) (f := fun _ => StationPos.initial) h.owed PromptRef.noConfusion)
    fun _ _ => h.owed.2.2.1 r (List.mem_of_find?_eq_some hr))
  have hwcalm : calm w := ⟨noneWaits_of_lasting hlast (noneWaits_updRec (s := (charging s c r.account).updPos q _) h.calm.1 hkept),
    (raised_of_lasting hlast).trans h.calm.2⟩
  constructor
  · intro hroom
    obtain ⟨t, ht, hgone, hends, hprompts⟩ := ended (w := w) (r := countedRec r) (o := .operatorDeclined)
      (u := { s.updPos q (fun _ => StationPos.initial) with console := c, acct := chargedFor s.acct r.account }) hwcalm howed
      (by rw [link_of_lasting hlast]; exact hroom) (Option.isSome_iff_exists.mpr ⟨r, hr⟩)
      ⟨withOutcome (countedRec r) .operatorDeclined, rfl, rfl, hlast⟩ (.taken n)
    have ht' : ((w.enterPosting r.slot).spaceReport.replyLine (.taken n)).commit = t := ht
    rw [ht'] at hexec
    have hwqueue : w.console.queue = c.queue := congrArg Console.queue (console_of_lasting hlast)
    refine ⟨t, hexec, hgone.trans (hwqueue.trans hqueue), hends, ?_⟩
    have hp : t.acct.accounts[r.account].prompts = (chargedFor s.acct r.account).accounts[r.account].prompts := hprompts
    exact hp.trans (by simp [chargedFor])
  · intro t ht x hx
    have hsame := Host.Outcome.next.inj (hexec.symm.trans ht)
    rw [← hsame] at hx
    have hmem := mem_reqs_commit hx
    rw [reqs_ended] at hmem
    exact hnone x hmem

/-! ## COLLECT (R144) -/

theorem collect_declined (h : Calmly s line n .decline p) (hblock : p.block = .stationUnit) (hstate : s.station.pos[q].state = .holding ser)
    (hflow : s.station.pos[q].flow = some .collect) (hat : At s q n)
    (hroom : (s.console.queue.filter (fun q => q.num ≠ n)).length < 16) :
    ∃ c t k x, exec (.answerLine line) s = .next t
      ∧ t.console.queue = s.console.queue.filter (fun q => q.num ≠ n)
          ++ [promptOf x (collectAsk (s.station.pos[q].owner.bind (counting s c p.subject).rec?) ser q) k]
      ∧ t.acct = (counting s c p.subject).acct
      ∧ ∀ b a, lasting { t with console := b, acct := a }
          = lasting { (counting s c p.subject).updPos q (fun x => { x with prompt := .up k }) with console := b, acct := a } := by
  obtain ⟨c, hqueue, -, hexec⟩ := h.answers.runs
  have hgone := pos_promptGone (counting s c p.subject) q
  rw [station_counting] at hgone
  have hask := stationAsk_collect (s := (counting s c p.subject).promptGone q) (p := q) (ser := ser) (by rw [hgone]; exact hstate)
    (by rw [hgone]; exact hflow)
  rw [hgone] at hask
  obtain ⟨d, k, hd, hraises⟩ := askStation_raises hask (by
    rw [show ((counting s c p.subject).promptGone q).console.queue = c.queue from rfl, hqueue]
    exact hroom)
  have hasked : ((counting s c p.subject).promptGone q).askStation q
      = ({ counting s c p.subject with console := d } : State).updPos q (fun x => { x with prompt := .up k }) := by
    rw [hd]
    exact FirstInLine.updPos_twice ({ counting s c p.subject with console := d } : State) q (fun x => { x with prompt := .none })
      (fun x => { x with prompt := .up k })
  obtain ⟨t, ht, hq, ha, -, hwent⟩ := took
    (v := ({ counting s c p.subject with console := d } : State).updPos q (fun x => { x with prompt := .up k })) rfl
    (counting_calm h.calm c p.subject)
    (nothingOwed_updPos (s := { counting s c p.subject with console := d }) (counting_owed h.owed c p.subject) PromptRef.noConfusion)
    (.taken n)
  rw [hand_station h.answers hblock hat, answerStation_collect (by rw [station_counting]; exact hstate)
    (by rw [station_counting]; exact hflow), if_neg (by decide), hasked, ht] at hexec
  have hdqueue := hraises.queue
  rw [show ((counting s c p.subject).promptGone q).console.queue = c.queue from rfl, hqueue] at hdqueue
  exact ⟨c, t, k, _, hexec, hq.trans hdqueue, ha, hwent⟩

/-! ## RING (R142) -/

/-- What the ring fitting of a record's reel comes to. -/
theorem hand_ring (h : Answers s line n word p) (hblock : p.block = .stationUnit) (hsubject : p.subject = .slot slot)
    (hr : s.rec? slot = some r) (hstate : s.station.pos[q].state = .holding ser) (hflow : s.station.pos[q].flow = some .ring)
    (howner : s.station.pos[q].owner = some slot) (hat : At s q n) (c : Console) :
    (counting s c p.subject).handAnswer p word
      = if word = .done then (((charging s c r.account).updRec slot (fun _ => countedRec r)).promptGone q).ringFitted slot q
        else (((charging s c r.account).updRec slot (fun _ => countedRec r)).promptGone q).ringFails slot q .operatorDeclined := by
  rw [hand_station h hblock hat, answerStation_ring (by rw [station_counting]; exact hstate) (by rw [station_counting]; exact hflow)
    (by rw [station_counting]; exact howner), hsubject, counting_slot hr]

theorem rec?_counted (hr : s.rec? slot = some r) :
    (((charging s c r.account).updRec slot (fun _ => countedRec r)).promptGone q).rec? slot = some (countedRec r) :=
  rec?_updRec_const (s := charging s c r.account) (q := countedRec r) hr (slot_of_rec? hr :)

theorem updRec_counted {f : StationPos → StationPos} (hr : s.rec? slot = some r) (z : Rec) :
    ((((charging s c r.account).updRec slot (fun _ => countedRec r)).promptGone q).updPos q f).updRec slot (fun _ => z)
      = ((charging s c r.account).updPos q (fun x => f { x with prompt := .none })).updRec slot (fun _ => z) := by
  have hpos : ((((charging s c r.account).updRec slot (fun _ => countedRec r)).promptGone q).updPos q f)
      = ((charging s c r.account).updRec slot (fun _ => countedRec r)).updPos q (fun x => f { x with prompt := .none }) :=
    FirstInLine.updPos_twice ((charging s c r.account).updRec slot (fun _ => countedRec r)) q _ _
  rw [hpos]
  exact updRec_twice (s := (charging s c r.account).updPos q (fun x => f { x with prompt := .none })) (q := countedRec r) hr
    (slot_of_rec? hr :)

/-- The ring is PRESENT in the directory (R63). -/
def fitted (dir : List Entry) (ser : Serial) : List Entry := dir.map (fun e => if e.serial = ser then { e with ring := .present } else e)

theorem ring_fitted (h : Calmly s line n .done p) (hblock : p.block = .stationUnit) (hsubject : p.subject = .slot r.slot)
    (hr : s.rec? r.slot = some r) (hser : r.serial = some ser) (hstate : s.station.pos[q].state = .holding ser)
    (hflow : s.station.pos[q].flow = some .ring) (howner : s.station.pos[q].owner = some r.slot) (hat : At s q n)
    (hfree : ∀ x : Fin 16, s.drives[x].state ≠ .free) :
    ∃ t, exec (.answerLine line) s = .next t ∧ t.console.queue = s.console.queue.filter (fun q => q.num ≠ n)
      ∧ t.acct = chargedFor s.acct r.account
      ∧ lasting { t with console := s.console, acct := s.acct }
        = lasting { (s.updPos q (fun x => { x with flow := some .pickup, prompt := .none })).updRec r.slot
              (fun _ => { countedRec r with state := .queued }) with dir := fitted s.dir ser } := by
  obtain ⟨s', hs'⟩ : ∃ x : State, x = { s with dir := fitted s.dir ser } := ⟨_, rfl⟩
  have hz : Moved r { countedRec r with state := .queued } :=
    ⟨rfl, waits_of_owed (h.calm.1 r (List.mem_of_find?_eq_some hr)) RecState.noConfusion rfl,
      h.owed.2.2.1 r (List.mem_of_find?_eq_some hr)⟩
  have hr' : s'.rec? r.slot = some r := by rw [hs']; exact hr
  have hfits : ∀ c, (((charging s c r.account).updRec r.slot (fun _ => countedRec r)).promptGone q).ringFitted r.slot q
      = ((charging s' c r.account).updPos q (fun x => { x with flow := some .pickup, prompt := .none })).updRec r.slot
          (fun _ => { countedRec r with state := .queued }) := fun c => by
    have hring : (((charging s c r.account).updRec r.slot (fun _ => countedRec r)).promptGone q).ringFitted r.slot q
        = ((((charging s' c r.account).updRec r.slot (fun _ => countedRec r)).promptGone q).updPos q
            (fun x => { x with flow := some .pickup })).enterQueued r.slot := by
      have hbind : ((((charging s c r.account).updRec r.slot (fun _ => countedRec r)).promptGone q).rec? r.slot).bind (·.serial) = some ser := by
        rw [rec?_counted hr]
        exact hser
      unfold State.ringFitted
      rw [hbind, hs']
      rfl
    rw [hring, enterQueued_eq (s := (((charging s' c r.account).updRec r.slot (fun _ => countedRec r)).promptGone q).updPos q _)
      (by rw [hs']; exact hfree) (rec?_counted (q := q) hr'), updRec_counted hr']
  obtain ⟨c, t, hc, hexec, hqueue, hacct, hwent⟩ := goes_on h (b := r.account)
    (f := fun c => ((charging s' c r.account).updPos q (fun x => { x with flow := some .pickup, prompt := .none })).updRec r.slot
      (fun _ => { countedRec r with state := .queued }))
    (fun c _ => ⟨_, by rw [hand_ring h.answers hblock hsubject hr hstate hflow howner hat, if_pos rfl, hfits], rfl,
      nothingOwed_updRec (nothingOwed_updPos (s := charging s' c r.account) (by rw [hs']; exact h.owed) PromptRef.noConfusion)
        fun _ _ => hz.approve,
      ⟨noneWaits_updRec (s := charging s' c r.account) (by rw [hs']; exact h.calm.1) hz.waits, by rw [hs']; exact h.calm.2⟩⟩)
    fun _ => by rw [hs']; rfl
  rw [hs'] at hwent
  exact ⟨t, hexec, hqueue.trans hc, hacct, hwent⟩

theorem ring_home (h : Calmly s line n .decline p) (hblock : p.block = .stationUnit) (hsubject : p.subject = .slot r.slot)
    (hr : s.rec? r.slot = some r) (hstate : s.station.pos[q].state = .holding ser)
    (hflow : s.station.pos[q].flow = some .ring) (howner : s.station.pos[q].owner = some r.slot) (hat : At s q n)
    (hcell : s.recHome r = some cell) :
    ∃ t, exec (.answerLine line) s = .next t ∧ t.console.queue = s.console.queue.filter (fun q => q.num ≠ n)
      ∧ t.acct = chargedFor s.acct r.account
      ∧ lasting { t with console := s.console, acct := s.acct }
        = lasting ((s.updPos q (fun x => { x with flow := some .pickup, prompt := .none })).updRec r.slot
              (fun _ => homeward (withOutcome (countedRec r) .operatorDeclined) q cell .returning)) := by
  have hwaits : (homeward (withOutcome (countedRec r) .operatorDeclined) q cell .returning).waits = false :=
    waits_of_owed (h.calm.1 r (List.mem_of_find?_eq_some hr)) RecState.noConfusion rfl
  have happrove := h.owed.2.2.1 r (List.mem_of_find?_eq_some hr)
  obtain ⟨c, t, hc, hexec, hqueue, hacct, hwent⟩ := goes_on h (b := r.account)
    (f := fun c => ((charging s c r.account).updPos q (fun x => { x with flow := some .pickup, prompt := .none })).updRec r.slot
      (fun _ => homeward (withOutcome (countedRec r) .operatorDeclined) q cell .returning))
    (fun c _ => by
      obtain ⟨hstation, hlast⟩ := ringFails_home (s := ((charging s c r.account).updRec r.slot (fun _ => countedRec r)).promptGone q)
        (p := q) (o := .operatorDeclined) (rec?_counted hr) hcell
      rw [updRec_counted hr] at hlast
      refine ⟨_, by rw [hand_ring h.answers hblock hsubject hr hstate hflow howner hat, if_neg (by decide)], hlast, ?_,
        ⟨noneWaits_updRec (s := charging s c r.account) h.calm.1 hwaits, h.calm.2⟩⟩
      refine nothingOwed_of_lasting hlast ?_ (nothingOwed_updRec (nothingOwed_updPos (s := charging s c r.account) h.owed
        PromptRef.noConfusion) fun _ _ => happrove)
      rw [hstation]
      have hpos := congrArg State.station (FirstInLine.updPos_twice ((charging s c r.account).updRec r.slot (fun _ => countedRec r)) q
        (fun x => { x with prompt := .none }) (fun x => { x with flow := some .pickup }))
      exact hpos)
    fun _ => rfl
  exact ⟨t, hexec, hqueue.trans hc, hacct, hwent⟩

theorem ring_collect (h : Calmly s line n .decline p) (hblock : p.block = .stationUnit) (hsubject : p.subject = .slot r.slot)
    (hr : s.rec? r.slot = some r) (hstate : s.station.pos[q].state = .holding ser)
    (hflow : s.station.pos[q].flow = some .ring) (howner : s.station.pos[q].owner = some r.slot) (hat : At s q n)
    (hcell : s.recHome r = none) (hroom : (s.console.queue.filter (fun q => q.num ≠ n)).length < 16) :
    ∃ t k x, exec (.answerLine line) s = .next t
      ∧ t.console.queue = s.console.queue.filter (fun q => q.num ≠ n) ++ [promptOf x (collectAsk (some r) ser q) k]
      ∧ t.acct = chargedFor s.acct r.account
      ∧ lasting { t with console := s.console, acct := s.acct }
        = lasting ((s.updPos q (fun x => { x with flow := some .collect, owner := some r.slot, prompt := .up k })).updRec r.slot
              (fun _ => toCollect (withOutcome (countedRec r) .operatorDeclined))) := by
  have hwaits : (toCollect (withOutcome (countedRec r) .operatorDeclined)).waits = false :=
    waits_of_owed (h.calm.1 r (List.mem_of_find?_eq_some hr)) RecState.noConfusion rfl
  have happrove := h.owed.2.2.1 r (List.mem_of_find?_eq_some hr)
  obtain ⟨c, hqueue, -, hexec⟩ := h.answers.runs
  have hgone := pos_promptGone ((charging s c r.account).updRec r.slot (fun _ => countedRec r)) q
  obtain ⟨d, k, hd, hraises⟩ := ringFails_collect (s := ((charging s c r.account).updRec r.slot (fun _ => countedRec r)).promptGone q)
    (p := q) (ser := ser) (o := .operatorDeclined) (rec?_counted hr) hcell (by rw [hgone]; exact hstate) (by
      rw [← hqueue] at hroom
      exact hroom)
  have hcollects : (((charging s c r.account).updRec r.slot (fun _ => countedRec r)).promptGone q).ringFails r.slot q .operatorDeclined
      = ((charging s d r.account).updPos q (fun x => { x with flow := some .collect, owner := some r.slot, prompt := .up k })).updRec r.slot
          (fun _ => toCollect (withOutcome (countedRec r) .operatorDeclined)) := by
    rw [hd]
    exact updRec_counted (s := s) (c := d) (f := fun x => { x with flow := some .collect, owner := some r.slot, prompt := .up k }) hr
      (toCollect (withOutcome (countedRec r) .operatorDeclined))
  obtain ⟨t, ht, hq, ha, -, hwent⟩ := took
    (v := ((charging s d r.account).updPos q (fun x => { x with flow := some .collect, owner := some r.slot, prompt := .up k })).updRec r.slot
          (fun _ => toCollect (withOutcome (countedRec r) .operatorDeclined))) rfl
    ⟨noneWaits_updRec (s := charging s d r.account) h.calm.1 hwaits, h.calm.2⟩
    (nothingOwed_updRec (nothingOwed_updPos (s := charging s d r.account) h.owed PromptRef.noConfusion) fun _ _ => happrove) (.taken n)
  rw [hand_ring h.answers hblock hsubject hr hstate hflow howner hat, if_neg (by decide), hcollects, ht] at hexec
  have hdqueue : d.queue = c.queue ++ _ := hraises.queue
  exact ⟨t, k, _, hexec, hq.trans (hdqueue.trans (congrArg (· ++ _) hqueue)), ha, hwent s.console s.acct⟩

/-! ## CLEAN_SUPPLY (R70, R87) -/

/-- The list with its exhausted entries restored (R70). -/
def restored (l : Vector (Option CleanReel) 4) : Vector (Option CleanReel) 4 :=
  l.map (fun x => x.map (fun y => if y.uses = 0 then { y with uses := 50 } else y))

theorem counting_account_zero (hslot : ∀ m, p.subject ≠ .slot m) (hposition : ∀ x, p.subject ≠ .position x) (c : Console) :
    counting s c p.subject = charging s c 0 := by
  cases hs : p.subject with
  | slot m => exact absurd hs (hslot m)
  | position x => exact absurd hs (hposition x)
  | _ => rfl

/-- The state in which the drives in cleaning wait make their attempts. -/
def cleanRestored (s : State) (c : Console) : State := { charging s c 0 with cleanPrompt := .none, cleanList := restored s.cleanList }

theorem hand_clean (hblock : p.block = .driveTable) (hslot : ∀ m, p.subject ≠ .slot m) (hposition : ∀ x, p.subject ≠ .position x)
    (c : Console) :
    (counting s c p.subject).handAnswer p word
      = if word = .done then (cleanRestored s c).cleaningAttempts else { charging s c 0 with cleanPrompt := .none } := by
  have hand : (counting s c p.subject).handAnswer p word = (counting s c p.subject).answerClean word := by
    unfold State.handAnswer
    simp only [hblock]
  rw [hand, counting_account_zero hslot hposition]
  rfl

theorem books_replyLine (s : State) (l : ReplyLine) : books (s.replyLine l) = books s := rfl

theorem clean_done (h : Answers s line n .done p) (hcalm : calm s) (hblock : p.block = .driveTable) (hslot : ∀ m, p.subject ≠ .slot m)
    (hposition : ∀ x, p.subject ≠ .position x) :
    ∃ c t, c.queue = s.console.queue.filter (fun q => q.num ≠ n)
      ∧ c = { s.console with queue := c.queue, shown := c.shown, lines := c.lines } ∧ exec (.answerLine line) s = .next t
      ∧ t.acct = chargedFor s.acct 0 ∧ t.dir = s.dir ∧ t.cleanList = restored s.cleanList
      ∧ (nothingOwed (cleanRestored s c).cleaningAttempts → t.console.queue = (cleanRestored s c).cleaningAttempts.console.queue
          ∧ ∀ b a, lasting { t with console := b, acct := a } = lasting { (cleanRestored s c).cleaningAttempts with console := b, acct := a }) := by
  obtain ⟨c, hqueue, ⟨-, hc⟩, hexec⟩ := h.runs
  rw [hand_clean hblock hslot hposition, if_pos rfl] at hexec
  refine ⟨c, _, hqueue, hc, hexec, ?_, ?_, ?_, fun howed => ?_⟩
  · rw [acct_of_books (books_commit _), acct_of_books (books_replyLine _ _), acct_of_books (books_spaceReport _),
      acct_of_books (books_cleaningAttempts _)]
    rfl
  · rw [dir_of_books (books_commit _), dir_of_books (books_replyLine _ _), dir_of_books (books_spaceReport _),
      dir_of_books (books_cleaningAttempts _)]
    rfl
  · rw [cleanList_of_books (books_commit _), cleanList_of_books (books_replyLine _ _), cleanList_of_books (books_spaceReport _),
      cleanList_of_books (books_cleaningAttempts _)]
    rfl
  · have hstill : Still (cleanRestored s c) (cleanRestored s c).cleaningAttempts := (Still.refl _).cleaningAttempts
    obtain ⟨t, ht, hq, -, -, hwent⟩ := took (v := (cleanRestored s c).cleaningAttempts) rfl (hstill.calm hcalm) howed (.taken n)
    rw [ht]
    exact ⟨hq, hwent⟩

theorem clean_declined (h : Answers s line n .decline p) (hcalm : calm s) (howed : nothingOwed { s with cleanPrompt := .none })
    (hblock : p.block = .driveTable) (hslot : ∀ m, p.subject ≠ .slot m) (hposition : ∀ x, p.subject ≠ .position x) :
    ∃ t, exec (.answerLine line) s = .next t ∧ t.console.queue = s.console.queue.filter (fun q => q.num ≠ n)
      ∧ t.acct = chargedFor s.acct 0
      ∧ lasting { t with console := s.console, acct := s.acct } = lasting { s with cleanPrompt := .none } := by
  obtain ⟨c, hqueue, -, hexec⟩ := h.runs
  obtain ⟨t, ht, hq, ha, -, hwent⟩ := took (v := { charging s c 0 with cleanPrompt := .none }) rfl hcalm howed (.taken n)
  rw [hand_clean hblock hslot hposition, if_neg (by decide), ht] at hexec
  exact ⟨t, hexec, hq.trans hqueue, ha, hwent s.console s.acct⟩

/-! ## FAULT (R114) -/

theorem updAcc_twice (s : State) (acc : Acc) (f e : AccRec → AccRec) : (s.updAcc acc f).updAcc acc e = s.updAcc acc (fun x => e (f x)) := by
  cases acc <;> rfl

/-- Only what the change makes of the accessor matters. -/
theorem updAcc_congr {acc : Acc} {f e : AccRec → AccRec} (h : f (s.acc acc) = e (s.acc acc)) : s.updAcc acc f = s.updAcc acc e :=
  congrArg (fun x => { s with rail := { s.rail with accs := s.rail.accs.set acc x } }) h

theorem fault_done {acc : Acc} (h : Answers s line n .done p) (howed : nothingOwed s) (hblock : p.block = .railScheduler)
    (hsubject : p.subject = .accessor acc) (hstate : (s.acc acc).state = .stalled) (horder : (s.acc acc).order = none) :
    ∃ u : State, exec (.answerLine line) s = .next u.commit ∧ u.console.queue = s.console.queue.filter (fun q => q.num ≠ n)
      ∧ u.rail = (s.updAcc acc (fun x => { x with prompt := .none, todo := some .recover })).rail ∧ u.acct = chargedFor s.acct 0
      ∧ u.recs = s.recs ∧ u.dir = s.dir ∧ u.drives = s.drives ∧ u.station = s.station ∧ u.link = s.link := by
  obtain ⟨c, hqueue, -, hexec⟩ := h.runs
  have hand : (counting s c p.subject).handAnswer p .done
      = (charging s c 0).updAcc acc (fun x => { x with prompt := .none, todo := some .recover }) := by
    have hanswer : (counting s c p.subject).handAnswer p .done = (charging s c 0).answerFault acc := by
      unfold State.handAnswer
      simp only [hblock, hsubject]
      rfl
    rw [hanswer]
    unfold State.answerFault State.sendRecover
    rw [updAcc_twice]
    exact updAcc_congr (if_pos ⟨hstate, horder⟩)
  have hvowed : nothingOwed ((charging s c 0).updAcc acc (fun x => { x with prompt := .none, todo := some .recover })) :=
    nothingOwed_updAcc (s := charging s c 0) howed fun _ => FaultPrompt.noConfusion
  rw [hand, spaceReport_of_nothingOwed hvowed] at hexec
  exact ⟨_, hexec, hqueue, rfl, rfl, rfl, rfl, rfl, rfl, rfl⟩

end AnswerUnits

end Sys2Proof
end

section
/-! PROOFS. ANSWER_LINE, put together (R155, R156). -/

namespace Sys2Proof

namespace AnswerLine

open Machine Safety Upkeep Settling Posting Events Reservation DriveTable Ending Raising Flows Expiry Lines Onward Answering AnswerKinds
open AnswerUnits
open FirstInLine (supplyAsk expectingAt)

variable {s t : State} {n slot : Nat} {p : Prompt} {q : Fin 8} {r : Rec} {ser : Serial} {line : List Byte}

theorem setAcct_same {a : Accounting} (b : Console) (h : t.acct = a) :
    ({ t with console := b, acct := a } : State) = { t with console := b } := by
  rw [← h]

/-- An update that makes of the record found what is said of it. -/
theorem updRec_to {f : Rec → Rec} {z : Rec} (hr : s.rec? slot = some r) (hz : f r = z) : s.updRec slot (fun _ => z) = s.updRec slot f := by
  subst hz
  exact (updRec_const hr).symm

/-- Settles O55: a line is read, a valid answer counted, and the prompt's block acts on it, kind by kind. -/
theorem answerLines : Obligations.AnswerLines := by
  intro line s told
  refine ⟨?_, exec_invalid, fun n w hparse => ⟨exec_unknown hparse, fun p hp => ⟨exec_invalid_word hparse hp,
    fun hvalid hroom => told_taken ⟨hparse, hp, hvalid⟩ hroom⟩, ?_⟩⟩
  · intro digits spaces word w hdigits hdigit hspaces hspace hword
    rw [parseAnswer_digits hdigits hdigit hspaces hspace (by rcases hword with ⟨rfl, -⟩ | ⟨rfl, -⟩ | ⟨rfl, -⟩ <;> decide)]
    rcases hword with ⟨rfl, rfl⟩ | ⟨rfl, rfl⟩ | ⟨rfl, rfl⟩ <;> rfl
  · intro p hp hcalm next gone charged counted fieldsAt ended went at'
    have hcalmly : ¬invalidWord p.kind w → nothingOwed s → Calmly s line n w p := fun hvalid howed => ⟨⟨hparse, hp, hvalid⟩, hcalm, howed⟩
    refine ⟨?_, ?_, ?_, ?_, ?_, ?_⟩
    · intro slot r y d hkind hblock hsub hr hheld hser howed hd freed reached
      obtain rfl := slot_of_rec? hr
      obtain rfl : d = heldWay r := hd
      refine ⟨?_, ?_, ?_⟩
      · rintro rfl hroom
        exact approve_declined (hcalmly (by rw [invalidWord, hkind]; decide) howed) hblock hsub hr hroom
      · rintro rfl hmoves hmanual released
        have h := hcalmly (by rw [invalidWord, hkind]; decide) howed
        have hneeds : (freedRec r (heldWay r)).needsReach = true := by
          rw [needsReach_iff]
          refine ⟨fun he => ?_, fun he => hmanual (Option.some.inj he)⟩
          have henter : r.kind = .enter := he
          rcases hmoves with hm | hm <;> rw [hm] at henter <;> nomatch henter
        have hfails := continuationFails_eq (s := s) hser
        refine ⟨fun he hroom => ?_, fun e he hloc hroom => ?_, fun e he hloc hroom => ?_, ?_, ?_⟩
        · exact approve_ended h hblock hsub hr hroom hneeds (by rw [hfails, he]; rfl)
        · exact approve_ended h hblock hsub hr hroom hneeds (by rw [hfails, he, Option.map_some, hloc])
        · exact approve_ended h hblock hsub hr hroom hneeds (by rw [hfails, he, Option.map_some, hloc])
        · rintro hmount ⟨e, he, hmissing, hout⟩ hfree
          obtain ⟨t, hexec, hqueue, hacct, hwent⟩ := approve_queued h hblock hsub hr hmount hmanual
            (continuationFails_reached hser he hmissing hout) hfree
          exact ⟨t, hexec, hqueue, hacct, hwent.trans (congrArg lasting (updRec_to hr rfl))⟩
        · rintro heject ⟨e, he, hmissing, hout⟩
          obtain ⟨t, hexec, hqueue, hacct, hwent⟩ := approve_staged h hblock hsub hr heject
            (continuationFails_reached hser he hmissing hout)
          exact ⟨t, hexec, hqueue, hacct, hwent.trans (congrArg lasting (updRec_to hr rfl))⟩
      · rintro rfl hmoves
        have h := hcalmly (by rw [invalidWord, hkind]; decide) howed
        refine ⟨fun q hempty hlow hroom => ?_, fun hfull => ?_⟩
        · obtain ⟨t, k, x, hexec, hqueue, hacct, hwent⟩ := approve_supply_at h hblock hsub hr hmoves hempty hlow hroom
          refine ⟨t, k, hexec, ⟨_, hqueue, rfl, rfl, rfl, rfl, ?_⟩, hacct,
            hwent.trans (congrArg lasting (updRec_to (s := s.updPos q (fun _ => expectingAt r.slot k)) hr rfl))⟩
          show ({ noFields with serial := r.serial, position := some q, account := some r.account } : DisplayFields) = _
          rw [hser]
          rfl
        · obtain ⟨t, hexec, hqueue, hacct, hwent⟩ := approve_supply_waits h hblock hsub hr hmoves hfull
          exact ⟨t, hexec, hqueue, hacct, hwent.trans (congrArg lasting (updRec_to
            (s := { s with station := { s.station with supplyWait := s.station.supplyWait ++ [r.slot] } }) hr rfl))⟩
    · intro q slot r hkind hblock hsub hr hstate ⟨hup, honly⟩ howed
      obtain rfl := slot_of_rec? hr
      refine ⟨?_, ?_⟩
      · rintro rfl hreqs
        have h := hcalmly (by rw [invalidWord, hkind]; decide) howed
        obtain ⟨c, t, hc, hexec, hqueue, hscan, hacct, hwent⟩ := scan_asked (kind := .supply) h hreqs fun c => by
          rw [hand_station h.answers hblock ⟨hup, honly⟩, answerStation_supply (by rw [station_counting]; exact hstate), if_pos rfl]
        have hlast := hwent s.console s.acct
        rw [hsub, counting_slot hr] at hacct hlast
        have hto := updRec_to (s := s.updPos q (fun x => { x with prompt := .none })) (f := countedRec) hr rfl
        have hto' := congrArg lasting hto
        exact ⟨t, hexec, hqueue.trans hc, hscan, hacct, hlast.trans hto'⟩
      · rintro rfl hq hclaims
        have h := hcalmly (by rw [invalidWord, hkind]; decide) howed
        exact supply_declined h hblock hsub hr hstate ⟨hup, honly⟩ hq hclaims
    · intro q ser hkind hblock hstate hflow ⟨hup, honly⟩ howed
      refine ⟨?_, ?_⟩
      · rintro rfl hreqs
        have h := hcalmly (by rw [invalidWord, hkind]; decide) howed
        obtain ⟨c, t, hc, hexec, hqueue, hscan, hacct, hwent⟩ := scan_asked (kind := .collect) h hreqs fun c => by
          rw [hand_station h.answers hblock ⟨hup, honly⟩, answerStation_collect (by rw [station_counting]; exact hstate)
            (by rw [station_counting]; exact hflow), if_pos rfl]
        refine ⟨t, hexec, hqueue.trans hc, hscan, fun slot r hsub hr => ?_, fun hsub => ?_⟩
        · have hlast := hwent s.console s.acct
          rw [hsub, counting_slot hr] at hacct hlast
          have hto := updRec_to (s := s.updPos q (fun x => { x with prompt := .none })) (f := countedRec) hr rfl
          have hto' := congrArg lasting hto
          exact ⟨hacct, hlast.trans hto'⟩
        · have hlast := hwent s.console t.acct
          rw [hsub] at hacct hlast
          have hsame : t.acct = s.acct := hacct
          refine ⟨hsame, hlast.trans ?_⟩
          rw [hsame]
          rfl
      · rintro rfl hroom
        have h := hcalmly (by rw [invalidWord, hkind]; decide) howed
        obtain ⟨c, t, k, x, hexec, hqueue, hacct, hwent⟩ := collect_declined h hblock hstate hflow ⟨hup, honly⟩ hroom
        refine ⟨fun slot r hsub howner hr => ⟨t, k, hexec, ?_, ?_⟩, fun hsub howner => ⟨t, k, hexec, ?_, ?_⟩⟩
        · rw [howner, hsub, counting_slot hr, Option.bind_some] at hqueue
          have hrec := rec?_updRec_const (s := charging s c r.account) (q := countedRec r) hr (slot_of_rec? hr :)
          rw [hrec] at hqueue
          rw [← slot_of_rec? hr]
          exact ⟨_, hqueue, rfl, rfl, rfl, rfl, rfl⟩
        · have hlast := hwent s.console s.acct
          rw [hsub, counting_slot hr] at hacct hlast
          have hto := updRec_to (s := s.updPos q (fun x => { x with prompt := .up k })) (f := countedRec) hr rfl
          have hto' := congrArg lasting hto
          exact ⟨hacct, hlast.trans hto'⟩
        · rw [howner, Option.bind_none] at hqueue
          exact ⟨_, hqueue, rfl, rfl, rfl, rfl, rfl⟩
        · have hlast := hwent s.console t.acct
          rw [hsub] at hacct hlast
          have hsame : t.acct = s.acct := hacct
          refine hlast.trans ?_
          rw [hsame]
          rfl
    · intro q slot r ser hkind hblock hsub hr hser hstate hflow howner ⟨hup, honly⟩ howed
      obtain rfl := slot_of_rec? hr
      refine ⟨?_, ?_, ?_⟩
      · rintro rfl hfree
        have h := hcalmly (by rw [invalidWord, hkind]; decide) howed
        obtain ⟨t, hexec, hqueue, hacct, hwent⟩ := ring_fitted h hblock hsub hr hser hstate hflow howner ⟨hup, honly⟩ hfree
        refine ⟨t, hexec, hqueue, hacct, hwent.trans ?_⟩
        exact congrArg (fun x : State => lasting { x with dir := fitted s.dir ser })
          (updRec_to (s := s.updPos q (fun x => { x with flow := some .pickup, prompt := .none })) hr rfl)
      · rintro c rfl hc
        have h := hcalmly (by rw [invalidWord, hkind]; decide) howed
        obtain ⟨t, hexec, hqueue, hacct, hwent⟩ := ring_home h hblock hsub hr hstate hflow howner ⟨hup, honly⟩ hc
        exact ⟨t, hexec, hqueue, hacct, hwent.trans (congrArg lasting
          (updRec_to (s := s.updPos q (fun x => { x with flow := some .pickup, prompt := .none })) hr rfl))⟩
      · rintro rfl hc hroom
        have h := hcalmly (by rw [invalidWord, hkind]; decide) howed
        obtain ⟨t, k, x, hexec, hqueue, hacct, hwent⟩ := ring_collect h hblock hsub hr hstate hflow howner ⟨hup, honly⟩ hc hroom
        have hpos : s.updPos q (fun x => { x with flow := some .collect, owner := some r.slot, prompt := .up k })
            = s.updPos q (fun x => { x with flow := some .collect, prompt := .up k }) := updPos_congr (by rw [← howner])
        rw [hpos] at hwent
        exact ⟨t, k, hexec, ⟨_, hqueue, rfl, rfl, rfl, rfl, rfl⟩, hacct, hwent.trans (congrArg lasting
          (updRec_to (s := s.updPos q (fun x => { x with flow := some .collect, prompt := .up k })) hr rfl))⟩
    · intro hkind hblock hslot hposition
      refine ⟨?_, ?_⟩
      · rintro rfl restored'
        obtain ⟨c, t, hqueue, hc, hexec, hacct, hdir, hlist, hlast⟩ := clean_done
          ⟨hparse, hp, by rw [invalidWord, hkind]; decide⟩ hcalm hblock hslot hposition
        have hconsole : c = { s.console with queue := gone, shown := c.shown, lines := c.lines } := hc.trans (by rw [hqueue])
        obtain ⟨made, hmade⟩ : ∃ x, x = (cleanRestored s c).cleaningAttempts := ⟨_, rfl⟩
        have hmadeAcct : made.acct = chargedFor s.acct 0 := by rw [hmade, acct_of_books (books_cleaningAttempts _)]; rfl
        rw [← hmade] at hlast
        refine ⟨t, cleanRestored s c, made, hexec, hacct, hdir, hlist, ?_, hmade ▸ attemptsMade_cleaningAttempts _,
          fun howed => ⟨(hlast howed).1, ?_⟩, fun hwait howed => ?_⟩
        · exact congrArg (fun k => { charging s k 0 with cleanPrompt := .none, cleanList := restored s.cleanList }) hconsole
        · have hwent := (hlast howed).2 s.console (chargedFor s.acct 0)
          rw [setAcct_same s.console hacct, setAcct_same s.console hmadeAcct] at hwent
          exact hwent
        · have hnothing : made = cleanRestored s c := hmade.trans (cleaningAttempts_nothing (s := cleanRestored s c) hwait)
          rw [hnothing] at hlast
          obtain ⟨hq, hwent⟩ := hlast howed
          exact ⟨hq.trans hqueue, hacct, congrArg (fun x : State => { x with cleanList := s.cleanList }) (hwent s.console s.acct)⟩
      · rintro rfl howed
        exact clean_declined ⟨hparse, hp, by rw [invalidWord, hkind]; decide⟩ hcalm howed hblock hslot hposition
    · intro acc hkind hblock hsub hstate horder hw howed
      subst hw
      exact fault_done ⟨hparse, hp, by rw [invalidWord, hkind]; decide⟩ howed hblock hsub hstate horder

end AnswerLine

end Sys2Proof
end

section
/-! PROOFS. The classification event (R10, R27, R28, R49). -/

namespace Sys2Proof

namespace Intake

open Machine Safety Upkeep Settling Posting Events Reservation DriveTable Ending Raising Flows Expiry Lines Onward AnswerLine Serving
open FirstInLine (supplyAsk expectingAt)

variable {s t u v : State} {c : Console} {k n : Nat} {rest : List Nat} {p : Fin 8} {r q : Rec} {y : Serial} {why : Refused}
  {d : Disposition} {foreign : Bool}

/-! ## The record leaves the intake -/

/-- The state in which the oldest record of the intake is classified. -/
def taken (s : State) (rest : List Nat) : State := { s.start with cls := { s.cls with intake := rest } }

theorem exec_classification (hintake : s.cls.intake = n :: rest) (hr : s.rec? n = some r) :
    exec .classification s = .next (((taken s rest).classifyRec r).commit) := by
  have hrec : (taken s rest).rec? n = some r := hr
  show execClassification s = _
  unfold execClassification
  simp only [hintake]
  rw [show ({ s.start with cls := { s.cls with intake := rest } } : State) = taken s rest from rfl]
  simp only [hrec]

theorem classify_taken (s : State) (rest : List Nat) (r : Rec) : (taken s rest).classify r = s.classify r := rfl

theorem answer_eq (hkept : s.link.keptUsed < 4) (hsent : s.sent = []) (e : Ending) : s.answer e = answered s (.ending e) := by
  have hfree : s.link.keptFree = true := decide_eq_true hkept
  unfold State.answer
  exact immediate_answered hfree hsent _

/-! ## A refusal (R10) -/

theorem close_eq (s : State) (n : Nat) : s.close n = (closedIn s n).recordFreed := by
  unfold State.close
  rw [LibraryStates.drained_eq]
  rfl

theorem refused (hintake : s.cls.intake = n :: rest) (hr : s.rec? n = some r) (hcalm : calm s) (hkept : s.link.keptUsed < 4)
    (hwhy : (s.classify r).verdict = .refuse why) :
    let closed := closedIn (answered s (plainEnding (refusedCode why) (kindByte r.kind) r.corr)) n
    ∃ t, exec .classification s = .next t ∧ recordFreedFrom closed t
      ∧ ((∀ d : Fin 16, s.drives[d].returnWait = false ∧ s.drives[d].cleanWait = false) → lasting t = lasting closed) := by
  intro closed
  have hclosed : (taken s rest).classifyRec r = closed.recordFreed := by
    have hrefuse : (taken s rest).classifyRec r = ((taken s rest).answer (endingOf (refusedCode why) (kindByte r.kind) r.corr)).close r.slot := by
      unfold State.classifyRec
      simp only [classify_taken, hwhy]
      rfl
    have hfiltered : rest.filter (fun m => m ≠ n) = s.cls.intake.filter (fun m => m ≠ n) := by rw [hintake]; simp
    rw [hrefuse, answer_eq (s := taken s rest) hkept rfl, close_eq, slot_of_rec? hr]
    exact congrArg (fun l => State.recordFreed { closed with cls := { s.cls with intake := l } }) hfiltered
  have hcalm' : calm closed := ⟨fun x hx => hcalm.1 x (List.mem_of_mem_filter hx), hcalm.2⟩
  obtain ⟨hfreed, hidle⟩ := commit_closed hcalm'
  rw [exec_classification hintake hr, hclosed]
  exact ⟨_, rfl, hfreed, hidle⟩

/-! ## An acceptance (R10, R28, R49) -/

/-- The state of an acceptance but for the record: it has left the intake, and a FOREIGN entry may be created. -/
def entered (s : State) (rest : List Nat) (dir : List Entry) : State := { s with cls := { s.cls with intake := rest }, dir := dir }

/-- The entries of the directory after an acceptance. -/
def entriesWith (s : State) (r : Rec) (foreign : Bool) : List Entry :=
  s.dir ++ (if foreign = true then r.serial.toList.map (fun y => foreignEntry y (s.classify r).pass1.account) else [])

/-- The state in which an accepted record takes its first state. -/
def accepted (s : State) (rest : List Nat) (r q : Rec) (foreign : Bool) (z : Rec) : State :=
  answered ((entered s rest (entriesWith s r foreign)).updRec r.slot (fun _ => z)) (.ending (acceptedEnding q))

theorem accepts (hkept : s.link.keptUsed < 4) (hgo : (s.classify r).verdict = .go d foreign) :
    (taken s rest).classifyRec r
      = (accepted s rest r (acceptFields (s.classify r) d r) foreign (acceptFields (s.classify r) d r)).firstState
          (acceptFields (s.classify r) d r) := by
  have hforeign : (if foreign then (taken s rest).createForeign r.serial (s.classify r).pass1.account else taken s rest)
      = { entered s rest (entriesWith s r foreign) with sent := [] } := by
    unfold State.createForeign entriesWith
    cases foreign with
    | false =>
      simp only [Bool.false_eq_true, if_false, List.append_nil]
      rfl
    | true =>
      cases hser : r.serial with
      | none => simp only [if_true, Option.toList_none, List.map_nil, List.append_nil]; rfl
      | some y => rfl
  have haccept : (taken s rest).classifyRec r = (((({ entered s rest (entriesWith s r foreign) with sent := [] } : State).updRec r.slot
      (fun _ => acceptFields (s.classify r) d r)).answer (acceptedEnding (acceptFields (s.classify r) d r))).firstState
        (acceptFields (s.classify r) d r)) := by
    unfold State.classifyRec
    simp only [classify_taken, hgo]
    unfold State.acceptRec
    rw [hforeign]
    rfl
  have hanswer := answer_eq (s := ({ entered s rest (entriesWith s r foreign) with sent := [] } : State).updRec r.slot
    (fun _ => acceptFields (s.classify r) d r)) hkept rfl (acceptedEnding (acceptFields (s.classify r) d r))
  rw [haccept, hanswer]
  rfl

theorem rec?_accepted {z : Rec} (hr : s.rec? r.slot = some r) (hz : z.slot = r.slot) : (accepted s rest r q foreign z).rec? r.slot = some z :=
  rec?_updRec_const (s := entered s rest (entriesWith s r foreign)) hr hz

theorem updRec_accepted {z x : Rec} (hr : s.rec? r.slot = some r) (hz : z.slot = r.slot) :
    (accepted s rest r q foreign z).updRec r.slot (fun _ => x) = accepted s rest r q foreign x :=
  congrArg (fun u => answered u (.ending (acceptedEnding q)))
    (updRec_twice (s := entered s rest (entriesWith s r foreign)) (q := z) (g := fun _ => x) hr hz)

theorem calm_accepted {z : Rec} (hcalm : calm s) (hz : z.waits = false) : calm (accepted s rest r q foreign z) :=
  ⟨noneWaits_updRec (s := entered s rest (entriesWith s r foreign)) hcalm.1 hz, hcalm.2⟩

/-- The end of an acceptance: what lasts of the state that the record's first state left. -/
theorem accepted_commit (hintake : s.cls.intake = r.slot :: rest) (hr : s.rec? r.slot = some r) (hkept : s.link.keptUsed < 4)
    (hgo : (s.classify r).verdict = .go d foreign)
    (hv : lasting ((accepted s rest r (acceptFields (s.classify r) d r) foreign (acceptFields (s.classify r) d r)).firstState
        (acceptFields (s.classify r) d r)) = lasting v) (hcalm : calm v) :
    ∃ t, exec .classification s = .next t ∧ lasting t = lasting v := by
  refine ⟨_, exec_classification hintake hr, ?_⟩
  rw [accepts hkept hgo]
  have hcalm' : calm ((accepted s rest r (acceptFields (s.classify r) d r) foreign (acceptFields (s.classify r) d r)).firstState
      (acceptFields (s.classify r) d r)) := ⟨noneWaits_of_lasting hv hcalm.1, (raised_of_lasting hv).trans hcalm.2⟩
  exact (lasting_commit hcalm').trans hv

theorem firstState_moves (h : q.disposition ≠ some .hold) : s.firstState q = s.moveOn q.slot := if_neg h

theorem waits_accepted {st : RecState} (hr : s.rec? r.slot = some r) (hcalm : calm s) (hst : st ≠ .posting) (c : Classified) :
    ({ acceptFields c d r with state := st } : Rec).waits = false :=
  waits_of_owed (hcalm.1 r (List.mem_of_find?_eq_some hr)) hst rfl

theorem accepted_queued (hintake : s.cls.intake = r.slot :: rest) (hr : s.rec? r.slot = some r) (hcalm : calm s) (hkept : s.link.keptUsed < 4)
    (hgo : (s.classify r).verdict = .go d foreign) (hkind : r.kind = .mount)
    (hdisp : (acceptFields (s.classify r) d r).disposition = some .robot ∨ (acceptFields (s.classify r) d r).disposition = some .stationFirst)
    (hfree : ∀ d : Fin 16, s.drives[d].state ≠ .free) :
    ∃ t, exec .classification s = .next t ∧ lasting t = lasting (accepted s rest r (acceptFields (s.classify r) d r) foreign
      { acceptFields (s.classify r) d r with state := .queued }) := by
  obtain ⟨q, hq⟩ : ∃ q, q = acceptFields (s.classify r) d r := ⟨_, rfl⟩
  have hslot : q.slot = r.slot := by rw [hq]; rfl
  have hqkind : q.kind = .mount := by rw [hq]; exact hkind
  have hhold : q.disposition ≠ some .hold := by rcases hdisp with h | h <;> rw [hq, h] <;> decide
  have hmanual : q.disposition ≠ some .manual := by rcases hdisp with h | h <;> rw [hq, h] <;> decide
  have hrec : (accepted s rest r q foreign q).rec? r.slot = some q := rec?_accepted hr hslot
  refine accepted_commit hintake hr hkept hgo (congrArg lasting ?_) (calm_accepted hcalm (waits_accepted hr hcalm RecState.noConfusion _))
  rw [← hq, firstState_moves hhold, hslot, moveOn_queued hrec hqkind hmanual,
    enterQueued_eq (s := accepted s rest r q foreign q) hfree hrec, updRec_accepted hr hslot]

theorem accepted_staged (hintake : s.cls.intake = r.slot :: rest) (hr : s.rec? r.slot = some r) (hcalm : calm s) (hkept : s.link.keptUsed < 4)
    (hgo : (s.classify r).verdict = .go d false) (hkind : r.kind = .eject)
    (hhold : (acceptFields (s.classify r) d r).disposition ≠ some .hold) :
    ∃ t, exec .classification s = .next t ∧ lasting t = lasting (accepted s rest r (acceptFields (s.classify r) d r) false
      { acceptFields (s.classify r) d r with
        state := .staged, leg := some (s.ejectLeg (acceptFields (s.classify r) d r)), nextLeg := none }) := by
  obtain ⟨q, hq⟩ : ∃ q, q = acceptFields (s.classify r) d r := ⟨_, rfl⟩
  rw [← hq] at hhold
  have hslot : q.slot = r.slot := by rw [hq]; rfl
  have hqkind : q.kind = .eject := by rw [hq]; exact hkind
  have hrec : (accepted s rest r q false q).rec? r.slot = some q := rec?_accepted hr hslot
  have hleg : (accepted s rest r q false q).ejectLeg q = s.ejectLeg q := by
    have hdir : entriesWith s r false = s.dir := by simp [entriesWith]
    unfold accepted
    rw [hdir]
    rfl
  have hwaits : ({ q with state := .staged, leg := some (s.ejectLeg q), nextLeg := none } : Rec).waits = false := by
    rw [hq]
    exact waits_of_owed (hcalm.1 r (List.mem_of_find?_eq_some hr)) RecState.noConfusion rfl
  rw [← hq]
  refine accepted_commit hintake hr hkept hgo ?_ (calm_accepted hcalm hwaits)
  obtain ⟨hlast, -⟩ := enterStaged_lasting hrec
  rw [updRec_accepted hr hslot, ejected, hleg] at hlast
  rw [← hq, firstState_moves hhold, hslot, moveOn_staged hrec hqkind]
  exact hlast

/-- An ENTER that is not held, or a MANUAL mount: an operator brings the reel. -/
def Brought (q : Rec) : Prop := (q.kind = .mount ∧ q.disposition = some .manual) ∨ (q.kind = .enter ∧ q.disposition ≠ some .hold)

theorem Brought.hold (h : Brought q) : q.disposition ≠ some .hold := by
  rcases h with ⟨-, hdisp⟩ | ⟨-, hdisp⟩
  · rw [hdisp]
    decide
  · exact hdisp

theorem Brought.moves (h : Brought q) (hq : s.rec? n = some q) : s.moveOn n = s.enterSupply n :=
  moveOn_supply hq (h.symm.imp (·.1) id)

theorem firstState_brought (h : Brought q) (hq : s.rec? n = some q) : s.firstState q = s.enterSupply n := by
  rw [firstState_moves h.hold, slot_of_rec? hq, h.moves hq]

theorem firstState_held (h : q.disposition = some .hold) (hq : s.rec? n = some q) :
    s.firstState q = (s.setRecState n .held).askApprove n := by
  rw [State.firstState, if_pos h, slot_of_rec? hq]

theorem accepted_supply_at (hintake : s.cls.intake = r.slot :: rest) (hr : s.rec? r.slot = some r) (hcalm : calm s)
    (hkept : s.link.keptUsed < 4) (hgo : (s.classify r).verdict = .go d foreign) (hbrought : Brought (acceptFields (s.classify r) d r))
    (hempty : s.station.pos[p].state = .empty) (hlow : ∀ x < p, s.station.pos[x].state ≠ .empty) (hroom : s.console.queue.length < 16) :
    ∃ t x k, exec .classification s = .next t
      ∧ t.console.queue = s.console.queue ++ [promptOf x (supplyAsk (acceptFields (s.classify r) d r) r.slot p) k]
      ∧ ∀ b, lasting { t with console := b } = lasting { (accepted s rest r (acceptFields (s.classify r) d r) foreign
          { acceptFields (s.classify r) d r with state := .supply }).updPos p (fun _ => expectingAt r.slot k) with console := b } := by
  obtain ⟨q, hq⟩ : ∃ q, q = acceptFields (s.classify r) d r := ⟨_, rfl⟩
  rw [← hq] at hbrought ⊢
  have hslot : q.slot = r.slot := by rw [hq]; rfl
  have hrec : (accepted s rest r q foreign q).rec? r.slot = some q := rec?_accepted hr hslot
  obtain ⟨c, k, hc, hqueue⟩ := enterSupply_at hrec hempty hlow hroom
  have hwaits : ({ q with state := .supply } : Rec).waits = false := hq ▸ waits_accepted hr hcalm RecState.noConfusion _
  have hmoved : (accepted s rest r q foreign q).firstState q
      = ({ accepted s rest r q foreign { q with state := .supply } with console := c } : State).updPos p (fun _ => expectingAt r.slot k) := by
    rw [firstState_brought hbrought hrec, hc]
    exact congrArg (fun u : State => ({ u with console := c } : State).updPos p (fun _ => expectingAt r.slot k))
      (updRec_accepted (s := s) (rest := rest) (q := q) (foreign := foreign) (x := { q with state := .supply }) hr hslot)
  obtain ⟨t, hexec, hlast⟩ := accepted_commit hintake hr hkept hgo (by rw [← hq, hmoved])
    (v := ({ accepted s rest r q foreign { q with state := .supply } with console := c } : State).updPos p (fun _ => expectingAt r.slot k))
    (calm_accepted (rest := rest) (q := q) (foreign := foreign) hcalm hwaits)
  have hconsole := console_of_lasting hlast
  refine ⟨t, s.console.templates[q.template], k, hexec, ?_, fun b => ?_⟩
  · rw [hconsole]
    exact hqueue
  · have hset := lasting_setConsole b hlast
    exact hset

theorem accepted_supply_waits (hintake : s.cls.intake = r.slot :: rest) (hr : s.rec? r.slot = some r) (hcalm : calm s)
    (hkept : s.link.keptUsed < 4) (hgo : (s.classify r).verdict = .go d foreign) (hbrought : Brought (acceptFields (s.classify r) d r))
    (hfull : ∀ x : Fin 8, s.station.pos[x].state ≠ .empty) :
    ∃ t, exec .classification s = .next t
      ∧ lasting t = lasting { accepted s rest r (acceptFields (s.classify r) d r) foreign
          { acceptFields (s.classify r) d r with state := .supply } with
            station := { s.station with supplyWait := s.station.supplyWait ++ [r.slot] } } := by
  obtain ⟨q, hq⟩ : ∃ q, q = acceptFields (s.classify r) d r := ⟨_, rfl⟩
  rw [← hq] at hbrought ⊢
  have hslot : q.slot = r.slot := by rw [hq]; rfl
  have hrec : (accepted s rest r q foreign q).rec? r.slot = some q := rec?_accepted hr hslot
  have hwaits : ({ q with state := .supply } : Rec).waits = false := hq ▸ waits_accepted hr hcalm RecState.noConfusion _
  refine accepted_commit hintake hr hkept hgo (congrArg lasting ?_) (calm_accepted (rest := rest) (q := q) (foreign := foreign) hcalm hwaits)
  rw [← hq, firstState_brought hbrought hrec, enterSupply_waits hrec hfull]
  exact congrArg (fun u : State => { u with station := { s.station with supplyWait := s.station.supplyWait ++ [r.slot] } })
    (updRec_accepted hr hslot)

theorem accepted_held (hintake : s.cls.intake = r.slot :: rest) (hr : s.rec? r.slot = some r) (hcalm : calm s)
    (hkept : s.link.keptUsed < 4) (hgo : (s.classify r).verdict = .go d foreign)
    (hhold : (acceptFields (s.classify r) d r).disposition = some .hold) (hroom : s.console.queue.length < 16) :
    ∃ t c k, exec .classification s = .next t ∧ Raises s.console (approveAsk r.slot (acceptFields (s.classify r) d r)) c k
      ∧ lasting t = lasting { accepted s rest r (acceptFields (s.classify r) d r) foreign
          { acceptFields (s.classify r) d r with state := .held, approve := .up k } with console := c } := by
  obtain ⟨q, hq⟩ : ∃ q, q = acceptFields (s.classify r) d r := ⟨_, rfl⟩
  rw [← hq] at hhold ⊢
  have hslot : q.slot = r.slot := by rw [hq]; rfl
  have hrec : (accepted s rest r q foreign q).rec? r.slot = some q := rec?_accepted hr hslot
  obtain ⟨c, k, hask, hraises⟩ := askApprove_raises (rec?_setRecState (st := .held) hrec) hroom
  have hwaits : ({ q with state := .held, approve := .up k } : Rec).waits = false := by
    rw [hq]
    exact waits_of_owed (hcalm.1 r (List.mem_of_find?_eq_some hr)) RecState.noConfusion rfl
  have hfirst : (accepted s rest r q foreign q).firstState q
      = { accepted s rest r q foreign { q with state := .held, approve := .up k } with console := c } := by
    rw [firstState_held hhold hrec, hask, setRecState_eq hrec, updRec_accepted hr hslot]
    have hheld : (accepted s rest r q foreign { q with state := .held }).rec? r.slot = some { q with state := .held } := rec?_accepted hr hslot
    have hup := updRec_const (f := fun x => { x with approve := .up k }) hheld
    rw [updRec_accepted (z := { q with state := .held }) hr hslot] at hup
    exact congrArg (fun u : State => { u with console := c }) hup
  obtain ⟨t, hexec, hlast⟩ := accepted_commit hintake hr hkept hgo (by rw [← hq, hfirst])
    (v := { accepted s rest r q foreign { q with state := .held, approve := .up k } with console := c })
    (calm_accepted (rest := rest) (q := q) (foreign := foreign) hcalm hwaits)
  exact ⟨t, c, k, hexec, hraises, hlast⟩

theorem entriesWith_serial (hser : r.serial = some y) :
    entriesWith s r foreign = s.dir ++ (if foreign = true then [foreignEntry y (s.classify r).pass1.account] else []) := by
  rw [entriesWith, hser]
  rfl

theorem acceptedEnding_accepted (c : Classified) :
    Frame.ending (acceptedEnding (acceptFields c d r)) = .ending { endingOf .accepted (kindByte r.kind) r.corr with
      slot := some r.slot, disposition := (acceptFields c d r).disposition, pool := some (acceptFields c d r).pool } := rfl

/-- What the obligation says of a held request. -/
theorem accepted_held_fields (hintake : s.cls.intake = r.slot :: rest) (hr : s.rec? r.slot = some r) (hcalm : calm s)
    (hkept : s.link.keptUsed < 4) (hgo : (s.classify r).verdict = .go d foreign)
    (hhold : (acceptFields (s.classify r) d r).disposition = some .hold) (hroom : s.console.queue.length < 16) :
    ∃ t q p, exec .classification s = .next t ∧ t.cls = { s.cls with intake := rest } ∧ t.rec? r.slot = some q
      ∧ q = { acceptFields (s.classify r) d r with state := .held, approve := .up p.num, leg := q.leg }
      ∧ t.console.queue = s.console.queue ++ [p] ∧ p.kind = .approve ∧ p.subject = .slot r.slot ∧ p.block = .requestTable
      ∧ p.template = (if q.budgetHeld then 15 else q.template)
      ∧ t.link = { s.link with outq := s.link.outq ++ [{ kept := true, frame := .ending (acceptedEnding (acceptFields (s.classify r) d r)) }] }
      ∧ t.dir = entriesWith s r foreign ∧ t.drives = s.drives ∧ t.acct = s.acct := by
  obtain ⟨t, c, k, hexec, hraises, hlast⟩ := accepted_held hintake hr hcalm hkept hgo hhold hroom
  obtain ⟨z, hz⟩ : ∃ z : Rec, z = { acceptFields (s.classify r) d r with state := .held, approve := .up k } := ⟨_, rfl⟩
  rw [← hz] at hlast
  have hzrec : (accepted s rest r (acceptFields (s.classify r) d r) foreign z).rec? r.slot = some z := rec?_accepted hr (by rw [hz]; rfl)
  obtain ⟨q, hq, hqz⟩ := Ending.rec?_of_lasting hlast hzrec
  have hfields : q = { z with leg := q.leg } := congrArg (fun x : Rec => { x with leg := q.leg }) hqz
  have hqueue := congrArg Console.queue (console_of_lasting hlast)
  refine ⟨t, q, promptOf s.console.templates[(approveAsk r.slot (acceptFields (s.classify r) d r)).template]
    (approveAsk r.slot (acceptFields (s.classify r) d r)) k, hexec, cls_of_lasting hlast, hq, ?_, hqueue.trans hraises.queue, rfl, rfl, rfl, ?_,
    link_of_lasting hlast, dir_of_lasting hlast, (drives_of_lasting hlast :), (acct_of_lasting hlast :)⟩
  · rw [hz] at hfields
    exact hfields
  · rw [hfields, hz]
    rfl

/-- Settles O32: the rest of the event by the verdict and the first state of an accepted record. -/
theorem classificationTakesTheOldest : Obligations.ClassificationTakesTheOldest := by
  intro n rest r s hintake hr hcalm hkept
  obtain rfl := slot_of_rec? hr
  refine ⟨fun why hwhy => refused hintake hr hcalm hkept hwhy,
    fun d foreign hgo hhold hroom => ?_, fun y a => rfl, fun d foreign y hgo hser => ?_⟩
  · obtain ⟨t, q, p, hexec, hcls, hq, hfields, hqueue, hkind, hsubject, hblock, htemplate, hlink, hdir, hdrives, hacct⟩ :=
      accepted_held_fields hintake hr hcalm hkept hgo hhold hroom
    rw [acceptedEnding_accepted, hhold] at hlink
    have hpool : q.pool = (acceptFields (s.classify r) d r).pool := by rw [hfields]
    rw [← hpool] at hlink
    exact ⟨t, q, p, hexec, hcls, hq, hfields, hqueue, hkind, hsubject, hblock, htemplate, hlink, hdir, hdrives, hacct⟩
  intro q frame u becomes
  have hu : entered s rest (entriesWith s r foreign) = u := by rw [entriesWith_serial hser]; rfl
  have hbecomes (t : State) (z : Rec) (h : lasting t = lasting (accepted s rest r q foreign z)) : becomes t u z := by
    rw [accepted, hu] at h
    exact h
  refine ⟨fun hkind hdisp hfree => ?_, fun hkind hhold hforeign => ?_, fun hbrought => ⟨fun p hempty hlow hroom => ?_, fun hfull => ?_⟩⟩
  · obtain ⟨t, hexec, hlast⟩ := accepted_queued hintake hr hcalm hkept hgo hkind hdisp hfree
    exact ⟨t, hexec, hbecomes t _ hlast⟩
  · subst hforeign
    obtain ⟨t, hexec, hlast⟩ := accepted_staged hintake hr hcalm hkept hgo hkind hhold
    exact ⟨t, hexec, hbecomes t _ hlast⟩
  · obtain ⟨t, x, k, hexec, hqueue, hlast⟩ := accepted_supply_at hintake hr hcalm hkept hgo hbrought hempty hlow hroom
    refine ⟨t, _, hexec, hqueue, rfl, rfl, rfl, rfl, hser, ?_⟩
    have hset := hlast s.console
    rw [accepted, hu] at hset
    exact hset
  · obtain ⟨t, hexec, hlast⟩ := accepted_supply_waits hintake hr hcalm hkept hgo hbrought hfull
    rw [accepted, hu] at hlast
    exact ⟨t, hexec, hlast⟩

end Intake

end Sys2Proof
end

section
/-! PROOFS. The rail scheduler's work at the end of an event, taken apart into single moves (`Move`), each under its own condition: what
every move keeps, the whole work keeps. -/

namespace Sys2Proof

namespace RailMoves

open Machine Safety Upkeep Settling

variable {s t u v : State} {acc who : Acc} {n m : Nat} {parking : Prop}

/-! ## The moves -/

/-- A free accessor has the oldest scan request to send. -/
def scanBegun (u : State) (acc : Acc) (q : ScanReq) (rest : List ScanReq) : State :=
  ((({ u with rail := { u.rail with scanReqs := rest } } : State).updPos q.pos (fun x => { x with scan := .inFlight q.kind })).updAcc acc
    (fun x => { x with scan := some (.station q.pos q.kind false), todo := some .scan }))

/-- A free accessor has the scan of its audit's cursor cell to send. -/
def cellBegun (u : State) (acc : Acc) (c : Cell) : State :=
  (u.updAudit acc (fun x => { x with inFlight := true })).updAcc acc (fun x => { x with scan := some (.cell c), todo := some .scan })

/-- A free accessor opens a trip, with no leg as yet. -/
def opened (u : State) (acc : Acc) : State := u.updAcc acc (fun x => { x with state := .gathering, trip := some (Trip.opened x.gather) })

/-- One step of the rail scheduler's work; whether an idle accessor may be sent a PARK is said at the start. -/
inductive Step (parking : Prop) : State → State → Prop where
  | prunes (u : State) (acc : Acc) : Step parking u (u.pruneZone acc)
  | ends (u : State) (acc : Acc) : Step parking u (u.endTrip acc)
  | grants (u : State) : Step parking u u.zoneGrant
  | brings (u : State) (acc : Acc) : Step parking u (u.bringStop acc)
  | sends (u : State) (acc : Acc) : Step parking u (u.sendNext acc)
  | resumes (u : State) (acc : Acc) : Step parking u (u.auditResume acc)
  | takes (u : State) (acc : Acc) (q : ScanReq) (rest : List ScanReq) (hcan : u.canTakeScan acc = true) (hreqs : u.rail.scanReqs = q :: rest) :
      Step parking u (scanBegun u acc q rest)
  | scans (u : State) (acc : Acc) (x : Audit) (c : Cell) (hfree : u.free acc = true) (hnone : u.anyEligible acc = false)
      (hx : u.audits.get acc = some x) (hscanning : x.state = .scanning) (hcursor : x.cursor = some c) : Step parking u (cellBegun u acc c)
  | opens (u : State) (acc : Acc) (hfree : u.free acc = true) (hany : u.anyEligible acc = true) : Step parking u (opened u acc)
  | fills (u : State) (acc : Acc) (hgather : (u.acc acc).state = .gathering) : Step parking u (u.tripFill acc)
  | starts (u : State) (acc : Acc) (hdue : u.startDue acc = true) : Step parking u (u.tripStart acc)
  | parks (u : State) (acc : Acc) (hidle : (u.acc acc).state = .idle) (hscan : (u.acc acc).scan = none) (horder : (u.acc acc).order = none)
      (htodo : (u.acc acc).todo = none) (hmiddle : inMiddle (u.acc acc).column = true) (hpark : parking) : Step parking u (u.idleOrPark acc)

/-- Any step of the work. -/
abbrev Move : State → State → Prop := Step True

/-- From `s` to `t` by steps. -/
abbrev Steps (parking : Prop) : State → State → Prop := Relation.ReflTransGen (Step parking)

/-- From `s` to `t` by moves. -/
abbrev Moves : State → State → Prop := Steps True

theorem Steps.keeps {P : State → Prop} (hP : ∀ u v, P u → Step parking u v → P v) (h : Steps parking s t) (hs : P s) : P t := by
  induction h with
  | refl => exact hs
  | tail _ hmove ih => exact hP _ _ ih hmove

theorem Moves.keeps {P : State → Prop} (hP : ∀ u v, P u → Move u v → P v) (h : Moves s t) (hs : P s) : P t := Steps.keeps hP h hs

/-! ## The work is made of them -/

theorem moves_orderSend (u : State) (acc : Acc) : Steps parking u (u.orderSend acc) :=
  (Relation.ReflTransGen.single (.brings u acc)).tail (.sends _ acc)

theorem moves_stationScanTaken (u : State) (acc : Acc) : Steps parking u (u.stationScanTaken acc) := by
  unfold State.stationScanTaken
  split
  next hcan =>
    split
    next => exact .refl
    next q rest hreqs => exact (Relation.ReflTransGen.single (.takes u acc q rest hcan hreqs)).trans (moves_orderSend _ _)
  next => exact .refl

theorem moves_auditScanSend (u : State) (acc : Acc) : Steps parking u (u.auditScanSend acc) := by
  unfold State.auditScanSend
  split
  next hdue =>
    simp only [Bool.and_eq_true, Bool.not_eq_true'] at hdue
    obtain ⟨⟨hfree, -⟩, hnone⟩ := hdue
    split
    next x hx =>
      split
      next c hscanning hcursor =>
        exact (Relation.ReflTransGen.single (.scans u acc x c hfree hnone hx hscanning hcursor)).trans (moves_orderSend _ _)
      next => exact .refl
    next => exact .refl
  next => exact .refl

theorem moves_tripOpen (u : State) (acc : Acc) : Steps parking u (u.tripOpen acc) := by
  unfold State.tripOpen
  split
  next hdue =>
    obtain ⟨hfree, hany⟩ := (Bool.and_eq_true _ _).mp hdue
    have hgather : ((opened u acc).acc acc).state = .gathering := by
      rw [opened, State.acc_updAcc_self]
    exact (Relation.ReflTransGen.single (.opens u acc hfree hany)).tail (.fills _ acc hgather)
  next => exact .refl

theorem moves_gather (u : State) (acc : Acc) : Steps parking u (u.gather acc) := by
  unfold State.gather
  split
  next hgather => exact .single (.fills u acc hgather)
  next => exact .refl

theorem moves_startIfDue (u : State) (acc : Acc) : Steps parking u (u.startIfDue acc) := by
  unfold State.startIfDue
  split
  next hdue => exact (Relation.ReflTransGen.single (.starts u acc hdue)).trans (moves_orderSend _ _)
  next => exact .refl

/-- What follows the audit that resumes when an accessor looks for work. -/
def lookOn (u : State) (acc : Acc) : State :=
  ((if u.canTakeScan acc then u.stationScanTaken acc
    else if u.free acc && u.anyEligible acc then u.tripOpen acc
    else u.auditScanSend acc).gather acc).startIfDue acc

theorem look_eq (u : State) (acc : Acc) : u.look acc = lookOn (u.auditResume acc) acc := rfl

theorem moves_lookOn (u : State) (acc : Acc) : Steps parking u (lookOn u acc) := by
  unfold lookOn
  refine Relation.ReflTransGen.trans ?_ ((moves_gather _ _).trans (moves_startIfDue _ _))
  split
  · exact moves_stationScanTaken u acc
  · split
    · exact moves_tripOpen u acc
    · exact moves_auditScanSend u acc

theorem moves_look (u : State) (acc : Acc) : Steps parking u (u.look acc) :=
  (Relation.ReflTransGen.single (.resumes u acc)).trans (moves_lookOn _ _)

theorem moves_idlePark (u : State) (acc : Acc) : Moves u (u.idlePark acc) := by
  unfold State.idlePark
  dsimp only
  split
  next hdue =>
    simp only [Bool.and_eq_true, decide_eq_true_eq, Option.isNone_iff_eq_none] at hdue
    obtain ⟨⟨⟨⟨hidle, hscan⟩, horder⟩, htodo⟩, hmiddle⟩ := hdue
    exact (Relation.ReflTransGen.single (.parks u acc hidle hscan horder htodo hmiddle trivial)).trans (moves_orderSend _ _)
  next => exact .refl

/-- The first of the work: the wait list of the lock is pruned. -/
def pruned (s : State) : State := (s.pruneZone .a).pruneZone .b

/-- The work up to the orders that stand to be sent. -/
def granted (s : State) : State := (((pruned s).endTrip .a).endTrip .b).zoneGrant

/-- The work up to the search. -/
def ordered (s : State) : State := ((granted s).orderSend .a).orderSend .b

theorem railSettle_eq (s : State) : s.railSettle = ((((ordered s).look .a).look .b).idlePark .a).idlePark .b := rfl

theorem moves_pruned (s : State) : Steps parking s (pruned s) := (Relation.ReflTransGen.single (.prunes s .a)).tail (.prunes _ .b)

theorem moves_pruned_granted (s : State) : Steps parking (pruned s) (granted s) :=
  ((Relation.ReflTransGen.single (.ends _ .a)).tail (.ends _ .b)).tail (.grants _)

theorem moves_granted (s : State) : Steps parking s (granted s) := (moves_pruned s).trans (moves_pruned_granted s)

theorem moves_granted_ordered (s : State) : Steps parking (granted s) (ordered s) := (moves_orderSend _ .a).trans (moves_orderSend _ .b)

theorem moves_ordered_settled (s : State) : Moves (ordered s) s.railSettle :=
  (((moves_look _ .a).trans (moves_look _ .b)).trans (moves_idlePark _ .a)).trans (moves_idlePark _ .b)

theorem moves_ordered (s : State) : Steps parking s (ordered s) := (moves_granted s).trans (moves_granted_ordered s)

theorem moves_railSettle (s : State) : Moves s s.railSettle := (moves_ordered s).trans (moves_ordered_settled s)

theorem moves_commit (h : calm u) : Moves u u.commit := by
  rw [commit_of_calm h]
  exact (moves_railSettle u).trans (moves_railSettle _)

/-! ## What every move leaves -/

theorem lasting_move (h : Step parking u v) : lasting v = lasting u := by
  cases h with
  | prunes acc => simp
  | ends acc => simp
  | grants => simp
  | brings acc => simp
  | sends acc => simp
  | resumes acc => simp
  | takes acc q rest hcan hreqs =>
    unfold scanBegun
    rw [lasting_updAcc, lasting_updPos _ _ _ (lastingPos_scan _ _)]
    · rfl
    · exact fun _ => rfl
  | scans acc x c hfree hnone hx hscanning hcursor =>
    unfold cellBegun
    rw [lasting_updAcc, lasting_updAudit]
    · exact fun _ => rfl
    · exact fun _ => rfl
  | opens acc hfree hany =>
    obtain ⟨hidle, -⟩ := RailWork.of_free hfree
    exact lasting_updAcc_at _ _ _ (lastingAcc_work _ _ (by rw [hidle]; rfl) rfl rfl)
  | fills acc hgather => simp
  | starts acc hdue =>
    have hgather : (u.acc acc).state = .gathering := by
      simp only [State.startDue, Bool.and_eq_true, decide_eq_true_eq] at hdue
      exact hdue.1.1
    exact lasting_tripStart _ _ hgather
  | parks acc hidle hscan horder htodo hmiddle hpark => exact lasting_idleOrPark _ _ (by rw [hidle]; rfl)

theorem sendNext_work (u : State) (acc : Acc) : RailWork u (u.sendNext acc) := by
  unfold State.sendNext
  split
  · exact .refl u
  next n hn => exact (RailWork.refl u).tryOrder (RailWork.maySend_of_nextOrder hn)

/-- No leg joins a queue. -/
theorem queue_move (h : Step parking u v) : ∀ m ∈ v.rail.queues.get who, m ∈ u.rail.queues.get who := by
  have hrefl : RailWork u u := .refl u
  cases h with
  | prunes acc => exact hrefl.pruneZone.queues who
  | ends acc => exact hrefl.endTrip.queues who
  | grants => exact hrefl.zoneGrant.queues who
  | brings acc => exact hrefl.bringStop.queues who
  | sends acc => exact (sendNext_work u acc).queues who
  | resumes acc => exact hrefl.auditResume.queues who
  | takes acc q rest hcan hreqs => exact fun _ hm => hm
  | scans acc x c hfree hnone hx hscanning hcursor => exact fun _ hm => hm
  | opens acc hfree hany => exact fun _ hm => hm
  | fills acc hgather => exact hrefl.tripFill.queues who
  | starts acc hdue => exact fun _ hm => hm
  | parks acc hidle hscan horder htodo hmiddle hpark => exact (hrefl.idleOrPark (by rw [hidle]; rfl)).queues who

/-! ## A leg that stands in no queue -/

/-- The state of a slot's leg. -/
def legState (s : State) (n : Nat) : Option LegState := (s.leg? n).map (·.state)

theorem legState_of_recs (h : v.recs = u.recs) (n : Nat) : legState v n = legState u n := by
  rw [legState, legState, OrderGates.leg?_of_recs h]

theorem legState_updLeg {f : Leg → Leg} (hf : ∀ l, (f l).state = l.state) (u : State) (n m : Nat) :
    legState (u.updLeg m f) n = legState u n := by
  unfold legState
  by_cases hnm : n = m
  · subst hnm
    rw [State.leg?_updLeg_self, Option.map_map]
    exact congrArg (fun g => Option.map g (u.leg? n)) (funext hf)
  · exact congrArg (fun r : Option Rec => (r.bind (·.leg)).map (·.state)) (State.rec?_updRec_other u m n (fun r => { r with leg := r.leg.map f }) (fun _ hr => hr) hnm)

theorem legState_setDst (u : State) (ref : LegRef) (dst : Place) (n : Nat) : legState (u.setDst ref dst) n = legState u n := by
  cases ref with
  | record slot => exact legState_updLeg (f := fun l => { l with dst := dst }) (fun _ => rfl) u n slot
  | putBack acc h => exact legState_of_recs rfl n

theorem legState_reserveFor {ref : LegRef} (h : u.reserveFor ref = some v) (n : Nat) : legState v n = legState u n := by
  rcases reserveFor_cases h with rfl | ⟨p, -, rfl⟩ | ⟨p, -, rfl⟩
  · rfl
  · rw [legState_setDst]
    exact legState_of_recs rfl n
  · rw [legState_setDst]
    exact legState_of_recs rfl n

theorem recs_joinWait (u : State) (acc : Acc) (x : Stop) : (u.joinWait acc x).recs = u.recs := by
  unfold State.joinWait
  split
  · rfl
  · split <;> rfl

theorem recs_awaitPosition (u : State) (acc : Acc) (x : Stop) : (u.awaitPosition acc x).recs = u.recs := by
  unfold State.awaitPosition
  dsimp only
  split
  · exact recs_joinWait u acc x
  · exact recs_joinWait u acc x

theorem legState_chooseStop (u : State) (acc : Acc) (behind stops : List Stop) (n : Nat) :
    legState (u.chooseStop acc behind stops) n = legState u n := by
  induction stops generalizing behind with
  | nil =>
    cases behind with
    | nil => rfl
    | cons x rest => exact legState_of_recs (recs_awaitPosition u acc x) n
  | cons x rest ih =>
    unfold State.chooseStop
    split
    · split
      next v hv => exact (legState_of_recs rfl n).trans (legState_reserveFor hv n)
      next => exact ih _
    · exact legState_of_recs rfl n

theorem recs_askZone (u : State) (acc : Acc) : (u.askZone acc).recs = u.recs := by
  unfold State.askZone
  split
  · rfl
  · split
    · rfl
    · dsimp only
      split <;> rfl

theorem legState_sendOrder (u : State) (acc : Acc) (x : NextOrder) (n : Nat) : legState (u.sendOrder acc x) n = legState u n := by
  unfold State.sendOrder
  dsimp only
  split
  next slot _ => exact legState_updLeg (f := fun l => { l with inHand := true }) (fun _ => rfl) u n slot
  next => rfl

theorem legState_passGates (u : State) (acc : Acc) (x : NextOrder) (n : Nat) : legState (u.passGates acc x) n = legState u n := by
  unfold State.passGates
  split
  · dsimp only
    split
    · exact legState_sendOrder _ acc x n
    · rfl
  · rfl

theorem legState_sendNext (u : State) (acc : Acc) (n : Nat) : legState (u.sendNext acc) n = legState u n := by
  unfold State.sendNext
  split
  · rfl
  · unfold State.tryOrder
    rw [legState_passGates]
    split
    · exact legState_of_recs (recs_askZone u acc) n
    · rfl

theorem recs_releaseZone (u : State) (acc : Acc) : (u.releaseZone acc).recs = u.recs := by
  unfold State.releaseZone
  split <;> rfl

theorem recs_idleOrPark (u : State) (acc : Acc) : (u.idleOrPark acc).recs = u.recs := by
  unfold State.idleOrPark
  split
  · rfl
  · exact recs_releaseZone _ _

theorem recs_endTrip (u : State) (acc : Acc) : (u.endTrip acc).recs = u.recs := by
  unfold State.endTrip
  dsimp only
  split
  · exact recs_idleOrPark _ _
  · rfl

theorem recs_pruneZone (u : State) (acc : Acc) : (u.pruneZone acc).recs = u.recs := by
  unfold State.pruneZone
  split <;> rfl

theorem recs_zoneGrant (u : State) : u.zoneGrant.recs = u.recs := by
  unfold State.zoneGrant
  split
  · rfl
  · split <;> rfl

theorem recs_auditResume (u : State) (acc : Acc) : (u.auditResume acc).recs = u.recs := by
  unfold State.auditResume
  split
  · split <;> rfl
  · rfl

/-- A leg changes its state only out of a queue. -/
theorem legState_move (hout : ∀ who, n ∉ u.rail.queues.get who) (h : Step parking u v) : legState v n = legState u n := by
  cases h with
  | prunes acc => exact legState_of_recs (recs_pruneZone u acc) n
  | ends acc => exact legState_of_recs (recs_endTrip u acc) n
  | grants => exact legState_of_recs (recs_zoneGrant u) n
  | brings acc =>
    unfold State.bringStop
    dsimp only
    split
    · exact legState_chooseStop u acc _ _ n
    · rfl
  | sends acc => exact legState_sendNext u acc n
  | resumes acc => exact legState_of_recs (recs_auditResume u acc) n
  | takes acc q rest hcan hreqs => rfl
  | scans acc x c hfree hnone hx hscanning hcursor => rfl
  | opens acc hfree hany => rfl
  | fills acc hgather =>
    obtain ⟨legs, hsub, -, hjoins⟩ := tripFill_joins u acc
    rw [legState, Trips.leg?_of_joins hjoins (fun hm => hout acc (hsub.subset hm))]
    rfl
  | starts acc hdue => rfl
  | parks acc hidle hscan horder htodo hmiddle hpark => exact legState_of_recs (recs_idleOrPark u acc) n

theorem legState_moves (hout : ∀ who, n ∉ s.rail.queues.get who) (h : Moves s t) : legState t n = legState s n := by
  obtain ⟨-, hsame⟩ := h.keeps (P := fun u => (∀ who, n ∉ u.rail.queues.get who) ∧ legState u n = legState s n)
    (fun u v ⟨hu, hsame⟩ hmove => ⟨fun who hm => hu who (queue_move hmove n hm), (legState_move hu hmove).trans hsame⟩) ⟨hout, rfl⟩
  exact hsame

theorem legState_commit (hcalm : calm u) (hout : ∀ who, n ∉ u.rail.queues.get who) : legState u.commit n = legState u n :=
  legState_moves hout (moves_commit hcalm)

end RailMoves

end Sys2Proof
end

section
/-! PROOFS. What a PICK finds (R56, R57, R79, R104, R105, R130), step by step: the directory and the skip lists, the place picked from, the
drive released, and the reel of a RETURN record. -/

namespace Sys2Proof

namespace Picking

open Machine Safety Upkeep Settling Posting Events Reservation DriveTable Ending Withdrawal Expiry RailMoves

variable {s t u v w : State} {acc : Acc} {h : Fin 3} {n : Nat} {l : Leg} {r q : Rec} {y z : Serial} {e : Entry} {c : Cell} {d : Fin 16}
  {o : FinalOutcome} {src : Place} {taken : Bool}

/-! ## The directory -/

theorem setMissing_eq (s : State) (y : Serial) : s.setMissing y = { s with dir := dirMissing s.dir (some y) } := by
  have hmap : (fun e : Entry => if e.serial = y then { e with loc := .missing } else e)
      = fun e => if some e.serial = some y then { e with loc := .missing } else e := by
    funext e
    simp only [Option.some.injEq]
  unfold State.setMissing State.updEntry dirMissing
  rw [hmap]

theorem dirMissing_none (dir : List Entry) : dirMissing dir none = dir := by
  unfold dirMissing
  simp

theorem expectedMissing_eq (s : State) (l : Leg) : s.expectedMissing l = { s with dir := dirMissing s.dir l.expected } := by
  unfold State.expectedMissing
  cases l.expected with
  | none => rw [dirMissing_none]; rfl
  | some x => exact setMissing_eq s x

theorem serial_of_entry? (h : s.entry? y = some e) : e.serial = y := of_decide_eq_true (List.find?_some h :)

/-- Where a location is given, in one pass over the directory. -/
theorem located_eq {loc : Location} {x : Verification} (h : s.entry? y = some e) :
    (s.setLocation y loc).setVerif y x = { s with dir := s.dir.map (fun f =>
      if f.serial = y then { f with loc := loc, verif := x }
      else if f.claims loc (e.cellAt loc) then { f with loc := .missing } else f) } := by
  have hloc : s.setLocation y loc = (s.displace y loc (e.cellAt loc)).updEntry y (fun e => { e with loc := loc }) := by
    unfold State.setLocation
    rw [h]
  rw [hloc]
  unfold State.setVerif State.updEntry State.displace
  simp only [List.map_map]
  refine congrArg (fun l => { s with dir := l }) (List.map_congr_left fun f _ => ?_)
  by_cases hf : f.serial = y
  · simp [hf]
  · simp only [Function.comp_apply, hf, if_false]
    split <;> simp_all

theorem dirMoved_eq {acc : Acc} (h : Fin 3) (he : s.entry? y = some e) :
    (s.setLocation y (.inTransit acc h)).setVerif y .verified
      = { s with dir := dirMoved s.dir y (.inTransit acc h) (fun f => { f with verif := .verified }) } := by
  rw [located_eq he]
  refine congrArg (fun l => { s with dir := l }) (List.map_congr_left fun f _ => ?_)
  simp [Entry.claims, Entry.cellAt, Location.mechanism]

theorem foundAt_eq (s : State) (y : Serial) (c : Cell) : s.foundAt y c = { s with dir := dirFound s.dir y c } := by
  unfold State.foundAt dirFound
  cases he : s.entry? y with
  | none =>
    rw [show s.dir.find? (fun e => decide (e.serial = y)) = none from he]
  | some e =>
    rw [show s.dir.find? (fun e => decide (e.serial = y)) = some e from he]
    by_cases hmech : e.loc.mechanism = true
    · simp only [Entry.atRest, hmech, Bool.not_true, Bool.false_eq_true, if_false, if_true]
    · simp only [Entry.atRest, hmech, Bool.not_false, Bool.false_eq_true, if_false, if_true]
      rw [located_eq he]
      refine congrArg (fun l => { s with dir := l }) (List.map_congr_left fun f _ => ?_)
      have hcell : e.cellAt (if e.home = some c then .home else .misplaced c) = some c := by
        split
        next hhome => exact hhome
        next => rfl
      have hplace : (if e.home = some c then Location.home else Location.misplaced c).mechanism = false := by
        split <;> rfl
      simp only [Entry.claims, hcell, hplace, Bool.false_and, Bool.false_or, Option.map_some, Option.getD_some]

/-! ## The skip lists (R130) -/

theorem addSkip_eq (e : Entry) (x : Audit) (hc : e.home = some c) (hpending : e.verif = .auditPending) :
    x.addSkip c e.serial = skipsPicked e x := by
  unfold Audit.addSkip skipsPicked Audit.unpassed Audit.active
  rw [hc]
  cases hk : x.cursor with
  | none => simp
  | some k => simp [hpending, and_assoc]

theorem skipsPicked_other (x : Audit) (h : e.home = none ∨ e.verif ≠ .auditPending) : skipsPicked e x = x := by
  unfold skipsPicked
  split
  next c k hc hk =>
    rcases h with h | h
    · rw [hc] at h
      cases h
    · rw [if_neg fun hall => h hall.1]
  next => rfl

/-- The skip lists after a PICK. -/
def skips (e : Entry) (x : PerAcc (Option Audit)) : PerAcc (Option Audit) := { a := x.a.map (skipsPicked e), b := x.b.map (skipsPicked e) }

theorem addSkips_eq (s : State) (e : Entry) : (if e.verif = .auditPending then s.addSkips e else s) = { s with audits := skips e s.audits } := by
  have hsame (h : e.home = none ∨ e.verif ≠ .auditPending) : skips e s.audits = s.audits := by
    have hid : skipsPicked e = id := funext fun x => skipsPicked_other x h
    unfold skips
    rw [hid, Option.map_id]
    rfl
  split
  next hpending =>
    unfold State.addSkips
    cases hc : e.home with
    | none => rw [hsame (.inl hc)]
    | some c =>
      have hf : (fun x : Audit => x.addSkip c e.serial) = skipsPicked e := funext fun x => addSkip_eq e x hc hpending
      simp only [hf]
      rfl
  next hpending => rw [hsame (.inr hpending)]

theorem pickedUp_eq (he : s.entry? y = some e) : s.pickedUp y acc h = { s with
    dir := dirMoved s.dir y (.inTransit acc h) (fun f => { f with verif := .verified }), audits := skips e s.audits } := by
  unfold State.pickedUp
  rw [he]
  dsimp only
  rw [addSkips_eq]
  exact dirMoved_eq (s := { s with audits := skips e s.audits }) h he

theorem pickedUp_nothing (he : s.entry? y = none) : s.pickedUp y acc h = s := by
  unfold State.pickedUp
  rw [he]

/-! ## The place picked from (R84, R104) -/

/-- A drive once its record has left it. -/
def freedDrive (x : Drive) (taken : Bool) : Drive :=
  { x with state := if x.state = .faulted then .faulted else .free, holding := none, reel := if taken then false else x.reel }

/-- The drives once a record has left the one it holds. -/
def freedDrives (x : Vector Drive 16) (held : Option (Fin 16)) (taken : Bool) : Vector Drive 16 :=
  match held with
  | none => x
  | some d => x.set d (freedDrive x[d] taken)

/-- The record's drive is released and takes nothing up. -/
def released (s : State) (q : Rec) (taken : Bool) : State :=
  { s.updRec q.slot (fun _ => { q with drive := none }) with drives := freedDrives s.drives q.drive taken }

theorem noneQueued_updRec (hs : noneQueued s) (hq : q.state ≠ .queued) : noneQueued (s.updRec n (fun _ => q)) := fun x hx =>
  (Edit.mem_updFirst_find hx).elim (hs x) fun ⟨_, _, hxq⟩ => hxq ▸ hq

theorem releaseDrive_eq (hr : s.rec? q.slot = some q) (hfinds : ∀ d, q.drive = some d → findsNothing s d) :
    s.releaseDrive q.slot taken = released s q taken := by
  unfold State.releaseDrive released
  rw [hr, Option.bind_some]
  cases hd : q.drive with
  | none =>
    have hsame : ({ q with drive := none } : Rec) = q := by rw [← hd]
    rw [hsame, updRec_self hr]
    rfl
  | some d =>
    dsimp only
    obtain ⟨w, hw⟩ : ∃ w, w = (s.updRec q.slot (fun r => { r with drive := none })).updDrive d (fun x =>
      { x with state := if x.state = .faulted then .faulted else .free, holding := none, reel := if taken then false else x.reel }) := ⟨_, rfl⟩
    rw [← hw]
    have hwd : w.drives[d] = freedDrive s.drives[d] taken := by
      rw [hw]
      exact Vector.getElem_set_self ..
    have hnothing : w.allocateForDrive d = w := by
      refine allocateForDrive_nothing ?_
      rw [hwd]
      rcases hfinds d hd with hfaulted | ⟨hdue, hnone⟩
      · refine .inl ?_
        unfold freedDrive
        rw [hfaulted]
        exact DriveState.noConfusion
      · refine .inr ⟨hdue, ?_⟩
        rw [hw, updRec_const hr]
        exact noneQueued_updRec (s := s) (q := { q with drive := none }) hnone (hnone q (List.mem_of_find?_eq_some hr))
    rw [hnothing, hw, updRec_const hr]
    rfl

/-- A shelf or station position picked from is EMPTY. -/
def atSource (src : Place) (u : State) : State :=
  match src with
  | .shelf (some p) => u.setShelf p .empty
  | .station (some p) => u.updPos p (fun _ => StationPos.initial)
  | _ => u

theorem placeEmptied_eq (hclaims : noClaims s) (hr : s.rec? q.slot = some q) (hfinds : ∀ d, q.drive = some d → findsNothing s d) (src : Place) :
    s.placeEmptied q.slot src = if src.isDrive then released s q true else atSource src s := by
  obtain ⟨hshelf, hres, hsupply⟩ := hclaims
  cases src with
  | cell c => rfl
  | drive d => exact releaseDrive_eq hr hfinds
  | shelf p =>
    cases p with
    | none => rfl
    | some p => exact freeShelf_nothing hshelf p
  | station p =>
    cases p with
    | none => rfl
    | some p => exact freeStation_nothing hres hsupply p

/-! ## What lasts of each step -/

theorem unnamed_twice (p : Place) : p.unnamed.unnamed = p.unnamed := by cases p <;> rfl

theorem lastingRec_twice (q : Rec) : lastingRec (lastingRec q) = lastingRec q := by
  have hleg (l : Leg) : lastingLeg (lastingLeg l) = lastingLeg l :=
    congrArg (fun p => { l with state := .ready, inHand := false, front := false, dst := p }) (unnamed_twice l.dst)
  have hmap : (q.leg.map lastingLeg).map lastingLeg = q.leg.map lastingLeg := by
    rw [Option.map_map]
    exact congrArg (fun f => q.leg.map f) (funext hleg)
  exact congrArg (fun x => { q with leg := x }) hmap

theorem lasting_updRec_to (s : State) (n : Nat) (q : Rec) : lasting (s.updRec n (fun _ => q)) = (lasting s).updRec n (fun _ => lastingRec q) := by
  rw [lasting_updRec_const (q' := lastingRec q) (lastingRec_twice q).symm,
    lasting_updRec (f := fun _ => lastingRec q) fun _ => lastingRec_twice q]

theorem lasting_toRec {q' : Rec} (hq : lastingRec q = lastingRec q') (h : lasting t = lasting s) :
    lasting (t.updRec n (fun _ => q)) = lasting (s.updRec n (fun _ => q')) := by
  rw [lasting_updRec_to, lasting_updRec_to, hq, h]

theorem lasting_setDir (x : List Entry) (h : lasting t = lasting s) : lasting { t with dir := x } = lasting { s with dir := x } :=
  congrArg (fun u : State => { u with dir := x }) h

theorem lasting_setDrives (x : Vector Drive 16) (h : lasting t = lasting s) : lasting { t with drives := x } = lasting { s with drives := x } :=
  congrArg (fun u : State => { u with drives := x }) h

theorem lasting_atSource (src : Place) (h : lasting t = lasting s) : lasting (atSource src t) = lasting (atSource src s) := by
  have hshelf (p : Fin 4) (u : State) : lasting (u.setShelf p .empty) = { lasting u with
      rail := { (lasting u).rail with shelf := (lasting u).rail.shelf.set p .empty } } :=
    congrArg (fun x => { lasting u with rail := { (lasting u).rail with shelf := x } }) (Vector.map_set ..)
  cases src with
  | cell c => exact h
  | drive d => exact h
  | shelf p =>
    cases p with
    | none => exact h
    | some p => exact (hshelf p t).trans ((congrArg (fun u : State => { u with rail := { u.rail with shelf := u.rail.shelf.set p .empty } }) h).trans (hshelf p s).symm)
  | station p =>
    cases p with
    | none => exact h
    | some p =>
      show lasting (t.updPos p _) = lasting (s.updPos p _)
      rw [Flows.lasting_updPos_set _ rfl, Flows.lasting_updPos_set _ rfl, h]

theorem lasting_toAcc {f : AccRec → AccRec} (hf : ∀ x, lastingAcc (f x) = f (lastingAcc x)) (h : lasting t = lasting s) :
    lasting (t.updAcc acc f) = lasting (s.updAcc acc f) := by
  have hcommutes (u : State) : lasting (u.updAcc acc f) = (lasting u).updAcc acc f := by
    have haccs : ({ a := lastingAcc (u.updAcc acc f).rail.accs.a, b := lastingAcc (u.updAcc acc f).rail.accs.b } : PerAcc AccRec)
        = ({ a := lastingAcc u.rail.accs.a, b := lastingAcc u.rail.accs.b } : PerAcc AccRec).set acc
            (f (({ a := lastingAcc u.rail.accs.a, b := lastingAcc u.rail.accs.b } : PerAcc AccRec).get acc)) := by
      cases acc with
      | a => exact congrArg (fun x => ({ a := x, b := lastingAcc u.rail.accs.b } : PerAcc AccRec)) (hf _)
      | b => exact congrArg (fun x => ({ a := lastingAcc u.rail.accs.a, b := x } : PerAcc AccRec)) (hf _)
    exact congrArg (fun x => { lasting u with rail := { (lasting u).rail with accs := x } }) haccs
  rw [hcommutes, hcommutes, h]

theorem skipsPicked_lasting (e : Entry) (x : Audit) : lastingAudit (skipsPicked e x) = skipsPicked e (lastingAudit x) := by
  have hdone : (lastingAudit x).state ≠ .done ↔ x.state ≠ .done := by
    unfold lastingAudit
    by_cases hx : x.state = .done <;> simp [hx]
  unfold skipsPicked
  cases hc : e.home with
  | none => rfl
  | some c =>
    cases hk : x.cursor with
    | none =>
      have hk' : (lastingAudit x).cursor = none := hk
      rw [hk']
    | some k =>
      have hk' : (lastingAudit x).cursor = some k := hk
      rw [hk']
      simp only [hdone]
      exact (apply_ite lastingAudit _ _ _)

theorem lasting_setSkips (e : Entry) (h : lasting t = lasting s) :
    lasting { t with audits := skips e t.audits } = lasting { s with audits := skips e s.audits } := by
  have hcommutes (u : State) : lasting { u with audits := skips e u.audits } = { lasting u with audits := skips e (lasting u).audits } := by
    have hmap (x : Option Audit) : (x.map (skipsPicked e)).map lastingAudit = (x.map lastingAudit).map (skipsPicked e) := by
      cases x with
      | none => rfl
      | some x => exact congrArg some (skipsPicked_lasting e x)
    exact congrArg (fun x => { lasting u with audits := x }) (congrArg₂ PerAcc.mk (hmap u.audits.a) (hmap u.audits.b))
  rw [hcommutes, hcommutes, h]

end Picking

end Sys2Proof
end

section
/-! PROOFS. What lasts of a PICK, by what it reads and where (R15, R79, R104, R105). -/

namespace Sys2Proof

namespace Picking

open Machine Safety Upkeep Settling Posting Events Reservation DriveTable Ending Withdrawal Expiry RailMoves

variable {s b t u v w : State} {acc : Acc} {h : Fin 3} {n : Nat} {l : Leg} {r q : Rec} {x y z : Serial} {e : Entry} {c : Cell} {d : Fin 16}
  {o : FinalOutcome} {src : Place} {taken : Bool} {col : Nat}

/-! ## The reel aboard -/

/-- A record whose reel is in a holder. -/
def inHolder (r : Rec) (l : Leg) (h : Fin 3) : Rec := { r with leg := some { l with state := .aboard, holder := some h } }

theorem takeAboard_eq (hr : s.rec? r.slot = some r) (hl : r.leg = some l) :
    s.takeAboard r.slot acc h y = (s.setHolder acc h (.reel y)).updRec r.slot (fun _ => inHolder r l h) := by
  have hset : (s.setHolder acc h (.reel y)).rec? r.slot = some r := hr
  unfold State.takeAboard State.updLeg
  rw [updRec_const hset, hl]
  rfl

/-- The leaving of a place: a drive is released at its PICK, and another place is EMPTY before the record's drive is released. -/
theorem leaves_eq (hclaims : noClaims s) (hr : s.rec? q.slot = some q) (hfinds : ∀ d, q.drive = some d → findsNothing s d) (src : Place) :
    (s.placeEmptied q.slot src).releaseDrive q.slot false
      = { (if src.isDrive then s else atSource src s).updRec q.slot (fun _ => { q with drive := none }) with
          drives := freedDrives s.drives q.drive src.isDrive } := by
  rw [placeEmptied_eq hclaims hr hfinds src]
  cases hsrc : src.isDrive with
  | true =>
    have hrec : (released s q true).rec? q.slot = some { q with drive := none } := rec?_updRec_const (q := { q with drive := none }) hr rfl
    have hnone : (released s q true).releaseDrive q.slot false = released s q true := by
      unfold State.releaseDrive
      rw [hrec]
      rfl
    exact hnone
  | false =>
    have hrecs : (atSource src s).recs = s.recs := by
      unfold atSource
      split <;> rfl
    have hdrives : (atSource src s).drives = s.drives := by
      unfold atSource
      split <;> rfl
    have hrec : (atSource src s).rec? q.slot = some q := by
      rw [State.rec?, hrecs]
      exact hr
    have hfound (d : Fin 16) (hd : q.drive = some d) : findsNothing (atSource src s) d := by
      rw [findsNothing, hdrives, noneQueued, hrecs]
      exact hfinds d hd
    simp only [Bool.false_eq_true, if_false]
    rw [releaseDrive_eq hrec hfound, released, hdrives]

/-- The facts that a PICK begins with: the column is the accessor's, and no claim or search is due. -/
structure Begins (s b : State) (acc : Acc) (col : Nat) (r : Rec) (l : Leg) : Prop where
  last : lasting b = lasting (s.updAcc acc (fun x => { x with column := col }))
  recs : b.recs = s.recs
  shelf : b.rail.shelf = s.rail.shelf
  claims : noClaims b
  found : b.rec? r.slot = some r
  leg : r.leg = some l
  finds : ∀ d, r.drive = some d → findsNothing b d

theorem Begins.dir (hb : Begins s b acc col r l) : b.dir = s.dir := (dir_of_lasting hb.last :)

theorem Begins.drives (hb : Begins s b acc col r l) : b.drives = s.drives := (drives_of_lasting hb.last :)

theorem lasting_holder (x : Holder) (hl : lasting t = lasting s) : lasting (t.setHolder acc h x) = lasting (s.setHolder acc h x) :=
  lasting_toAcc (f := fun r => { r with holders := r.holders.set h x }) (fun _ => rfl) hl

/-! ## The expected serial (R104) -/

/-- A place left by a reel taken aboard. -/
def leaving (s : State) (r : Rec) (src : Place) (u : State) : State :=
  if src.isDrive then { u with drives := freedDrives s.drives r.drive true } else atSource src u

/-- The entry of a reel aboard, and the skip lists. -/
def tracked (y : Serial) (e : Entry) (acc : Acc) (h : Fin 3) (u : State) : State :=
  { u with dir := dirMoved u.dir y (.inTransit acc h) (fun f => { f with verif := .verified }), audits := skips e u.audits }

theorem lasting_tracked (hl : lasting t = lasting s) : lasting (tracked y e acc h t) = lasting (tracked y e acc h s) := by
  have hdir : t.dir = s.dir := dir_of_lasting hl
  have hskips := lasting_setDir (dirMoved s.dir y (.inTransit acc h) (fun f => { f with verif := .verified })) (lasting_setSkips e hl)
  unfold tracked
  rw [hdir]
  exact hskips

theorem pickExpected_lasting (hb : Begins s b l.acc col r l) (he : s.entry? y = some e) :
    lasting (b.pickExpected r.slot l h y) = lasting (leaving s r l.src (tracked y e l.acc h
      (((s.updRec r.slot (fun _ => { r with
          drive := if l.src.isDrive then none else r.drive, leg := some { l with holder := some h } })).updAcc l.acc
            (fun x => { x with column := col })).setHolder l.acc h (.reel y)))) := by
  obtain ⟨w, hw⟩ : ∃ w, w = b.setHolder l.acc h (.reel y) := ⟨_, rfl⟩
  have hwlast : lasting w = lasting ((s.updAcc l.acc (fun x => { x with column := col })).setHolder l.acc h (.reel y)) :=
    hw ▸ lasting_holder (.reel y) hb.last
  have hwrec : w.rec? r.slot = some r := hw ▸ hb.found
  have hwclaims : noClaims w := hw ▸ hb.claims
  have hwdrives : w.drives = s.drives := by rw [hw]; exact hb.drives
  have hwfinds (d : Fin 16) (hd : r.drive = some d) : findsNothing w d := hw ▸ hb.finds d hd
  have hentry (q : Rec) : (w.updRec r.slot (fun _ => q)).entry? y = some e := by
    rw [hw]
    show b.dir.find? _ = _
    rw [hb.dir]
    exact he
  have hpicked : b.pickExpected r.slot l h y = (tracked y e l.acc h (w.updRec r.slot (fun _ => inHolder r l h))).placeEmptied r.slot l.src := by
    unfold State.pickExpected
    rw [takeAboard_eq hb.found hb.leg, ← hw, pickedUp_eq (hentry _)]
    rfl
  have hrec : (tracked y e l.acc h (w.updRec r.slot (fun _ => inHolder r l h))).rec? r.slot = some (inHolder r l h) :=
    rec?_updRec_const (q := inHolder r l h) hwrec rfl
  have hfinds (d : Fin 16) (hd : r.drive = some d) : findsNothing (tracked y e l.acc h (w.updRec r.slot (fun _ => inHolder r l h))) d :=
    (hwfinds d hd).imp id fun ⟨hdue, hnone⟩ =>
      ⟨hdue, noneQueued_updRec (s := w) (q := inHolder r l h) hnone (hnone r (List.mem_of_find?_eq_some hwrec))⟩
  have hmoved {q q' : Rec} (hq : lastingRec q = lastingRec q') : lasting (tracked y e l.acc h (w.updRec r.slot (fun _ => q)))
      = lasting (tracked y e l.acc h (((s.updRec r.slot (fun _ => q')).updAcc l.acc (fun x => { x with column := col })).setHolder l.acc h (.reel y))) :=
    lasting_tracked (lasting_toRec hq hwlast)
  have hempties := placeEmptied_eq (q := inHolder r l h) (s := tracked y e l.acc h (w.updRec r.slot (fun _ => inHolder r l h)))
    hwclaims hrec hfinds l.src
  have hplace : (inHolder r l h).slot = r.slot := rfl
  rw [hplace] at hempties
  rw [hpicked, hempties, leaving]
  cases hsrc : l.src.isDrive with
  | true =>
    have htwice : released (tracked y e l.acc h (w.updRec r.slot (fun _ => inHolder r l h))) (inHolder r l h) true
        = { tracked y e l.acc h (w.updRec r.slot (fun _ => { inHolder r l h with drive := none })) with
            drives := freedDrives w.drives r.drive true } :=
      congrArg (fun v : State => { tracked y e l.acc h v with drives := freedDrives w.drives r.drive true })
        (updRec_twice (s := w) (q := inHolder r l h) (g := fun _ => { inHolder r l h with drive := none }) hwrec rfl)
    simp only [if_true]
    rw [htwice, hwdrives]
    exact lasting_setDrives _ (hmoved rfl)
  | false =>
    simp only [Bool.false_eq_true, if_false]
    exact lasting_atSource l.src (hmoved rfl)

/-! ## The record ends (R15) -/

/-- A record that has given up its leg and its drive, its outcome fixed. -/
def givenUp (r : Rec) (o : FinalOutcome) : Rec := { r with outcome := some o, leg := none, nextLeg := none, drive := none }

/-- The place picked from and the drive of a record that ends. -/
def vacated (r : Rec) (src : Place) (u : State) : State :=
  { (if src.isDrive then u else atSource src u) with drives := freedDrives u.drives r.drive src.isDrive }

theorem rec?_of_lasting_legless (hl : lasting t = lasting s) (hr : s.rec? n = some q) (hleg : q.leg = none) : t.rec? n = some q := by
  obtain ⟨p, hp, hpq⟩ := Ending.rec?_of_lasting hl hr
  have hnone : p.leg = none := by
    have hmap : p.leg.map lastingLeg = q.leg.map lastingLeg := congrArg Rec.leg hpq
    rw [hleg] at hmap
    exact Option.map_eq_none_iff.mp hmap
  have hself (x : Rec) (hx : x.leg = none) : lastingRec x = x := by
    have hmap : x.leg.map lastingLeg = x.leg := by rw [hx]; rfl
    exact congrArg (fun z => { x with leg := z }) hmap
  rw [hself p hnone, hself q hleg] at hpq
  rw [hp, hpq]

theorem noneQueued_of_lasting (hl : lasting t = lasting s) (hs : noneQueued s) : noneQueued t := fun x hx => by
  obtain ⟨y, hy, hyx⟩ := List.mem_map.mp (recs_of_lasting hl ▸ List.mem_map_of_mem (f := lastingRec) hx)
  have hstate : x.state = y.state := (congrArg Rec.state hyx.symm :)
  rw [hstate]
  exact hs y hy

theorem findsNothing_of_lasting (hl : lasting t = lasting s) (hs : findsNothing s d) : findsNothing t d := by
  have hdrives : t.drives = s.drives := drives_of_lasting hl
  rw [findsNothing, hdrives]
  exact hs.imp id fun ⟨hdue, hnone⟩ => ⟨hdue, noneQueued_of_lasting hl hnone⟩

theorem lasting_vacated (hl : lasting t = lasting s) : lasting (vacated r src t) = lasting (vacated r src s) := by
  have hdrives : t.drives = s.drives := drives_of_lasting hl
  unfold vacated
  rw [hdrives]
  refine lasting_setDrives _ ?_
  split
  · exact hl
  · exact lasting_atSource src hl

theorem vacated_updRec (u : State) (f : Rec → Rec) : vacated r src (u.updRec n f) = (vacated r src u).updRec n f := by
  unfold vacated
  split
  · rfl
  · unfold atSource
    split <;> rfl

theorem accs_discardLegs (hclaims : noClaims s) (hr : s.rec? n = some r) (hl : r.leg = some l) :
    (s.discardLegs n).rail.accs = s.rail.accs.set l.acc (tripLeft n (s.acc l.acc)) := by
  have hleg : s.leg? n = some l := (leg?_of_rec? hr).trans hl
  unfold State.discardLegs
  rw [removeLeg_eq hleg, freeReservation_eq (noClaims_legTaken hclaims)]
  rfl

theorem recs_vacated (u : State) : (vacated r src u).recs = u.recs := by
  unfold vacated
  split
  · rfl
  · unfold atSource
    split <;> rfl

theorem noClaims_vacated (hu : noClaims u) : noClaims (vacated r src u) := by
  unfold vacated
  split
  · exact hu
  · unfold atSource
    split <;> exact hu

/-- A record whose PICK found nothing it wanted has left its place and its drive when it enters POSTING. -/
theorem pickEnds_eq (hclaims : noClaims s) (hr : s.rec? r.slot = some r) (hl : r.leg = some l) (hfinds : ∀ d, r.drive = some d → findsNothing s d)
    (src : Place) (o : FinalOutcome) :
    ∃ v, s.pickEnds r.slot src o = v.enterPosting r.slot
      ∧ lasting v = lasting ((vacated r src s).updRec r.slot (fun _ => givenUp r o))
      ∧ v.rail.accs = s.rail.accs.set l.acc (tripLeft r.slot (s.acc l.acc)) := by
  let q : Rec := { r with outcome := some o, leg := none, nextLeg := none }
  have hout : (s.setOutcome r.slot o).rec? r.slot = some { r with outcome := some o } := Flows.rec?_setOutcome hr
  obtain ⟨w, hw⟩ : ∃ w, w = (s.setOutcome r.slot o).discardLegs r.slot := ⟨_, rfl⟩
  have hwlast : lasting w = lasting (s.updRec r.slot (fun _ => q)) := by
    have hset : s.setOutcome r.slot o = s.updRec r.slot (fun _ => { r with outcome := some o }) := updRec_const hr
    have hdiscard := lasting_discardLegs (s := s.setOutcome r.slot o) hclaims hout
    rw [hw, hdiscard, hset, updRec_twice (q := { r with outcome := some o }) hr rfl]
  have hwrec : w.rec? r.slot = some q := rec?_of_lasting_legless hwlast (rec?_updRec_const (q := q) hr rfl) rfl
  have hwclaims : noClaims w := hw ▸ noClaims_removeLeg (s := s.setOutcome r.slot o) hclaims
  have hwfinds (d : Fin 16) (hd : r.drive = some d) : findsNothing w d :=
    findsNothing_of_lasting hwlast ((hfinds d hd).imp id fun ⟨hdue, hnone⟩ =>
      ⟨hdue, noneQueued_updRec (s := s) (q := q) hnone (hnone r (List.mem_of_find?_eq_some hr))⟩)
  have hleaves := leaves_eq (q := q) hwclaims hwrec hwfinds src
  refine ⟨_, rfl, ?_, ?_⟩
  · have hmoved : ((((s.setOutcome r.slot o).discardLegs r.slot).placeEmptied r.slot src).releaseDrive r.slot false)
        = (vacated r src w).updRec r.slot (fun _ => givenUp r o) := by
      rw [← hw]
      exact hleaves
    rw [hmoved, ← vacated_updRec]
    have htwice := lasting_toRec (n := r.slot) (q := givenUp r o) (q' := givenUp r o) rfl hwlast
    rw [updRec_twice (q := q) hr rfl] at htwice
    rw [lasting_vacated htwice, vacated_updRec]
  · have haccs : (((s.setOutcome r.slot o).discardLegs r.slot).placeEmptied r.slot src).releaseDrive r.slot false
        = { (if src.isDrive then w else atSource src w).updRec r.slot (fun _ => givenUp r o) with
            drives := freedDrives w.drives r.drive src.isDrive } := by
      rw [← hw]
      exact hleaves
    have hsource : (if src.isDrive then w else atSource src w).rail.accs = w.rail.accs := by
      split
      · rfl
      · unfold atSource
        split <;> rfl
    have hdiscard : w.rail.accs = s.rail.accs.set l.acc (tripLeft r.slot (s.acc l.acc)) :=
      hw ▸ accs_discardLegs (s := s.setOutcome r.slot o) (r := { r with outcome := some o }) hclaims hout hl
    rw [haccs]
    exact hsource.trans hdiscard

/-- A record that its PICK ends is charged in the same event. -/
theorem ended_commit (hcalm : calm u) (hroom : u.link.available < 2) (hr : s.rec? r.slot = some r) (hrecs : u.recs = s.recs)
    (hv : lasting v = lasting (u.updRec r.slot (fun _ => givenUp r o))) : endsIn (v.enterPosting r.slot).commit u r o := by
  have hfound : u.rec? r.slot = some r := by
    rw [State.rec?, hrecs]
    exact hr
  have hwaits : noneWaits (u.updRec r.slot (fun _ => givenUp r o)) := by
    have hrwaits := hcalm.1 r (List.mem_of_find?_eq_some hfound)
    exact noneWaits_updRec (q := givenUp r o) hcalm.1 hrwaits
  have hvcalm : calm v := ⟨noneWaits_of_lasting hv hwaits, (raised_of_lasting hv).trans hcalm.2⟩
  have hvroom : v.link.available < 2 := by
    rw [link_of_lasting hv]
    exact hroom
  exact endsIn_commit hvcalm hvroom (by rw [hfound]; rfl) ⟨givenUp r o, rfl, rfl, hv⟩

/-! ## A wrong reel at a drive, a shelf position or a station position (R105) -/

/-- A record whose leg takes another reel to the station. -/
def misled (r : Rec) (l : Leg) (h : Fin 3) : Rec :=
  { r with drive := none, nextLeg := none, outcome := some .wrongVolume,
           leg := some { l with holder := some h, dst := .station none, diverted := true } }

/-- The directory after a PICK of another reel: its entry is IN_TRANSIT unless another open record holds it. -/
theorem pickedOther_eq (s : State) (slot : Nat) (x y : Serial) (acc : Acc) (h : Fin 3) :
    s.pickedOther slot (some x) y acc h
      = if s.heldByOther slot y then { s with dir := dirMissing s.dir (some x) }
        else ({ s with dir := dirMissing s.dir (some x) } : State).pickedUp y acc h := by
  unfold State.pickedOther
  dsimp only
  rw [setMissing_eq]
  rfl

/-- Whether the directory takes note of the reel, the record is the same and so is what it leaves. -/
theorem wrongPlace_lasting (hclaims : noClaims w) (hr : w.rec? r.slot = some r) (hl : r.leg = some l)
    (hfinds : ∀ d, r.drive = some d → findsNothing w d) :
    lasting (((((w.takeAboard r.slot l.acc h y).setOutcome r.slot .wrongVolume).placeEmptied r.slot src).releaseDrive r.slot false).divert r.slot)
      = lasting (vacated r src ((w.setHolder l.acc h (.reel y)).updRec r.slot (fun _ => misled r l h))) := by
  let q : Rec := { inHolder r l h with outcome := some .wrongVolume }
  have hset : (w.takeAboard r.slot l.acc h y).setOutcome r.slot .wrongVolume = (w.setHolder l.acc h (.reel y)).updRec r.slot (fun _ => q) := by
    rw [takeAboard_eq hr hl, State.setOutcome]
    exact updRec_twice (s := w.setHolder l.acc h (.reel y)) (q := inHolder r l h) (r := r) hr rfl
  obtain ⟨x, hx⟩ : ∃ x, x = w.setHolder l.acc h (.reel y) := ⟨_, rfl⟩
  have hxr : x.rec? r.slot = some r := hx ▸ hr
  have hxclaims : noClaims x := hx ▸ hclaims
  have hxfinds (d : Fin 16) (hd : r.drive = some d) : findsNothing (x.updRec r.slot (fun _ => q)) d :=
    (show findsNothing x d from hx ▸ hfinds d hd).imp id fun ⟨hdue, hnone⟩ =>
      ⟨hdue, noneQueued_updRec (s := x) (q := q) hnone (hnone r (List.mem_of_find?_eq_some hxr))⟩
  have hrec : (x.updRec r.slot (fun _ => q)).rec? r.slot = some q := rec?_updRec_const (q := q) hxr rfl
  have hleaves := leaves_eq (s := x.updRec r.slot (fun _ => q)) (q := q) hxclaims hrec hxfinds src
  have hleft : { (if src.isDrive then x.updRec r.slot (fun _ => q) else atSource src (x.updRec r.slot (fun _ => q))).updRec q.slot
        (fun _ => { q with drive := none }) with drives := freedDrives (x.updRec r.slot (fun _ => q)).drives q.drive src.isDrive }
      = (vacated r src x).updRec r.slot (fun _ => { q with drive := none }) := by
    have htwice := congrArg (vacated r src) (updRec_twice (s := x) (q := q) (g := fun _ => { q with drive := none }) hxr rfl)
    rw [vacated_updRec, vacated_updRec (f := fun _ => { q with drive := none })] at htwice
    exact htwice
  obtain ⟨v, hv⟩ : ∃ v, v = vacated r src x := ⟨_, rfl⟩
  have hvr : v.rec? r.slot = some r := by
    rw [hv, State.rec?, recs_vacated]
    exact hxr
  have hvrec : (v.updRec r.slot (fun _ => { q with drive := none })).rec? r.slot = some { q with drive := none } :=
    rec?_updRec_const (q := { q with drive := none }) hvr rfl
  have hvclaims : noClaims v := hv ▸ noClaims_vacated hxclaims
  have hdiverted := lasting_divert (s := v.updRec r.slot (fun _ => { q with drive := none })) (l := { l with state := .aboard, holder := some h })
    hvclaims hvrec rfl
  rw [updRec_twice (s := v) (q := { q with drive := none }) hvr rfl] at hdiverted
  have hsame := lasting_updRec_const (s := v) (slot := r.slot)
    (q := divertedRec { q with drive := none } { l with state := .aboard, holder := some h }) (q' := misled r l h) rfl
  rw [hset, ← hx, vacated_updRec, ← hv, ← hsame, ← hdiverted, hv]
  exact congrArg (fun u : State => lasting (u.divert r.slot)) (hleaves.trans hleft)

/-! ## The reel of a RETURN record (R79) -/

/-- A RETURN record whose reel is aboard, on its way to a place. -/
def returning (r : Rec) (l : Leg) (h : Fin 3) (y : Serial) (dst : Place) (next : Option Leg) : Rec :=
  { r with serial := some y, leg := some { l with state := .aboard, holder := some h, dst := dst }, nextLeg := next }

/-- The release of a drive, known up to what the search for work tells apart. -/
theorem release_lasting (hw : lasting w = lasting (v.updRec r.slot (fun _ => q))) (hr : v.rec? r.slot = some r) (hq : q.slot = r.slot)
    (hstate : q.state = r.state) (hfinds : ∀ d, q.drive = some d → findsNothing v d) :
    lasting (w.releaseDrive r.slot taken)
      = lasting { v.updRec r.slot (fun _ => { q with drive := none }) with drives := freedDrives v.drives q.drive taken } := by
  have hvrec : (v.updRec r.slot (fun _ => q)).rec? r.slot = some q := rec?_updRec_const hr hq
  obtain ⟨p, hp, hpq⟩ := Ending.rec?_of_lasting hw hvrec
  have hslot : p.slot = r.slot := (congrArg Rec.slot hpq :).trans hq
  have hdrive : p.drive = q.drive := (congrArg Rec.drive hpq :)
  have hlast : lastingRec { p with drive := none } = lastingRec { q with drive := none } := congrArg (fun x : Rec => { x with drive := none }) hpq
  have hwdrives : w.drives = v.drives := (drives_of_lasting hw :)
  have hwfinds (d : Fin 16) (hd : p.drive = some d) : findsNothing w d :=
    findsNothing_of_lasting hw ((hfinds d (hdrive ▸ hd)).imp id fun ⟨hdue, hq'⟩ =>
      ⟨hdue, noneQueued_updRec (s := v) hq' (by rw [hstate]; exact hq' r (List.mem_of_find?_eq_some hr))⟩)
  have hfound : w.rec? p.slot = some p := hslot ▸ hp
  have hrelease := releaseDrive_eq (taken := taken) hfound hwfinds
  rw [hslot] at hrelease
  have hreleased : released w p taken = { w.updRec r.slot (fun _ => { p with drive := none }) with drives := freedDrives v.drives q.drive taken } := by
    rw [← hwdrives, ← hdrive]
    exact congrArg (fun n => { w.updRec n (fun _ => { p with drive := none }) with drives := freedDrives w.drives p.drive taken }) hslot
  rw [hrelease, hreleased]
  refine lasting_setDrives _ ?_
  have hto := lasting_toRec (n := r.slot) hlast hw
  rw [updRec_twice (s := v) (q := q) hr hq] at hto
  exact hto

theorem homeOf_tracked (he : s.entry? y = some e) : (tracked y e acc h s).homeOf y = e.home := by
  obtain ⟨g, hg⟩ : ∃ g : Entry → Entry, g = fun f => if f.serial = y then { f with verif := .verified, loc := .inTransit acc h }
    else if f.loc = .inTransit acc h then { f with loc := .missing } else f := ⟨_, rfl⟩
  have hserial (f : Entry) : (g f).serial = f.serial := by
    rw [hg]
    dsimp only
    split
    · rfl
    · split <;> rfl
  have hentry : (tracked y e acc h s).entry? y = some (g e) := by
    show (s.dir.map _).find? _ = _
    have hcomp : (fun f : Entry => decide (f.serial = y)) ∘ g = fun f => decide (f.serial = y) :=
      funext fun f => by rw [Function.comp_apply, hserial]
    rw [← hg, List.find?_map, hcomp]
    exact congrArg (Option.map g) he
  rw [State.homeOf, hentry, hg]
  simp [serial_of_entry? he]

theorem emptyShelf_freed (hclaims : noClaims s) {p : Fin 4} {ref : LegRef} (hp : s.emptyShelf = some p) :
    (s.freeReservation ref).rail.shelf[p] = .empty := by
  have hempty : s.rail.shelf[p] = .empty := by simpa using find_finRange_some hp
  rw [freeReservation_eq hclaims]
  show (shelfFreed s ref)[p] = _
  unfold shelfFreed
  cases hx : s.shelfReserved ref with
  | none => exact hempty
  | some x =>
    show (s.rail.shelf.set x .empty)[p] = _
    rw [Fin.getElem_fin, Vector.getElem_set]
    split
    · rfl
    · exact hempty

/-- A RETURN reel with a home cell near the drive goes there. -/
theorem settleReturn_near (hclaims : noClaims v) (hr : v.rec? r.slot = some r)
    (hhome : (v.updRec r.slot (fun _ => returning r l h y l.dst r.nextLeg)).homeOf y = some c) (hnear : nearDrive c d = true) :
    lasting ((v.updRec r.slot (fun _ => returning r l h y l.dst r.nextLeg)).settleReturn r.slot d y true)
      = lasting (v.updRec r.slot (fun _ => returning r l h y (.cell c) r.nextLeg)) := by
  obtain ⟨x, hx⟩ : ∃ x, x = v.updRec r.slot (fun _ => returning r l h y l.dst r.nextLeg) := ⟨_, rfl⟩
  rw [← hx] at hhome ⊢
  have hsettles : x.settleReturn r.slot d y true = (x.freeReservation (.record r.slot)).updLeg r.slot (fun l => { l with dst := .cell c }) := by
    unfold State.settleReturn
    simp only [if_true, hhome, hnear]
    rfl
  have hfree := lasting_freeReservation (s := x) (hx ▸ hclaims) (.record r.slot)
  rw [hsettles, lasting_updLeg_congr (f := fun l => { l with dst := .cell c }) (fun _ => rfl) hfree, hx, State.updLeg,
    updRec_twice (s := v) (q := returning r l h y l.dst r.nextLeg) hr rfl]
  rfl

/-- A RETURN reel on its way across waits on the shelf when a position is EMPTY. -/
theorem settleReturn_shelf (hclaims : noClaims v) (hr : v.rec? r.slot = some r)
    (hhome : (v.updRec r.slot (fun _ => returning r l h y l.dst r.nextLeg)).homeOf y = some c) (hnear : nearDrive c d = false) {p : Fin 4}
    (hp : v.emptyShelf = some p) :
    lasting ((v.updRec r.slot (fun _ => returning r l h y l.dst r.nextLeg)).settleReturn r.slot d y true)
      = lasting (v.updRec r.slot (fun _ => returning r l h y (.shelf none)
          (some { legOf r (accOfColumn c.col) (.shelf none) (.cell c) with expected := some y }))) := by
  obtain ⟨x, hx⟩ : ∃ x, x = v.updRec r.slot (fun _ => returning r l h y l.dst r.nextLeg) := ⟨_, rfl⟩
  have hshelf : x.emptyShelf = some p := hx ▸ hp
  have hxclaims : noClaims x := hx ▸ hclaims
  rw [← hx] at hhome ⊢
  obtain ⟨w, hw⟩ : ∃ w, w = (x.freeReservation (.record r.slot)).setShelf p (.reserved (.record r.slot)) := ⟨_, rfl⟩
  have hsettles : x.settleReturn r.slot d y true = (w.updLeg r.slot (fun l => { l with dst := .shelf (some p) })).updRec r.slot (fun r =>
      { r with nextLeg := some { legOf r (accOfColumn c.col) (.shelf none) (.cell c) with expected := some y } }) := by
    unfold State.settleReturn
    simp only [if_true, hhome, hnear, hshelf, Bool.false_eq_true, if_false]
    rw [hw]
    rfl
  have hwlast : lasting w = lasting x := by
    rw [hw, lasting_setShelf _ _ _ (emptyShelf_freed hxclaims hshelf), lasting_freeReservation hxclaims]
  have hwrec : w.rec? r.slot = some (returning r l h y l.dst r.nextLeg) := by
    rw [hw, freeReservation_eq hxclaims, hx]
    exact rec?_updRec_const (s := v) (q := returning r l h y l.dst r.nextLeg) hr rfl
  have hto := lasting_toRec (n := r.slot) (q := returning r l h y (.shelf (some p))
      (some { legOf r (accOfColumn c.col) (.shelf none) (.cell c) with expected := some y })) (q' := returning r l h y (.shelf none)
      (some { legOf r (accOfColumn c.col) (.shelf none) (.cell c) with expected := some y })) rfl hwlast
  rw [hx, updRec_twice (s := v) (q := returning r l h y l.dst r.nextLeg) hr rfl] at hto
  rw [hsettles, State.updLeg, updRec_const hwrec, updRec_twice (q := { returning r l h y l.dst r.nextLeg with
    leg := (returning r l h y l.dst r.nextLeg).leg.map (fun l => { l with dst := .shelf (some p) }) }) hwrec rfl]
  exact hto

/-- The reel of a RETURN record aboard, its drive released. -/
def carried (s : State) (r : Rec) (l : Leg) (h : Fin 3) (y : Serial) (col : Nat) (dst : Place) (next : Option Leg) : State :=
  { (((s.updRec r.slot (fun _ => { r with
        drive := none, serial := some y, leg := some { l with holder := some h, dst := dst }, nextLeg := next })).updAcc l.acc
      (fun x => { x with column := col })).setHolder l.acc h (.reel y)) with drives := freedDrives s.drives r.drive true }

section Return

variable (hb : Begins s b l.acc col r l)
include hb

theorem heldByOther_begins : b.heldByOther r.slot y = s.heldByOther r.slot y := by rw [State.heldByOther, hb.recs]; rfl

theorem entry?_begins : b.entry? y = s.entry? y := by rw [State.entry?, hb.dir]; rfl

theorem lasting_begins_holder :
    lasting (b.setHolder l.acc h (.reel y)) = lasting ((s.updAcc l.acc (fun x => { x with column := col })).setHolder l.acc h (.reel y)) :=
  lasting_holder (.reel y) hb.last

theorem pickReturn_left (hout : s.entry? y = none ∨ s.heldByOther r.slot y = true) :
    lasting (b.pickReturn r.slot l h d y) = lasting (carried s r l h y col l.dst r.nextLeg) := by
  obtain ⟨w, hw⟩ : ∃ w, w = b.setHolder l.acc h (.reel y) := ⟨_, rfl⟩
  have hwrec : w.rec? r.slot = some r := hw ▸ hb.found
  have hwdrives : w.drives = s.drives := by rw [hw]; exact hb.drives
  have htook : ((b.entry? y).isSome && !b.heldByOther r.slot y) = false := by
    rw [entry?_begins hb, heldByOther_begins hb]
    rcases hout with hout | hout <;> rw [hout] <;> simp
  have hserial : (b.takeAboard r.slot l.acc h y).updRec r.slot (fun r => { r with serial := some y })
      = w.updRec r.slot (fun _ => returning r l h y l.dst r.nextLeg) := by
    rw [takeAboard_eq hb.found hb.leg, ← hw, updRec_twice (s := w) (q := inHolder r l h) hwrec rfl]
    rfl
  have hpicked : b.pickReturn r.slot l h d y = (w.updRec r.slot (fun _ => returning r l h y l.dst r.nextLeg)).releaseDrive r.slot true := by
    unfold State.pickReturn
    simp only [htook, hserial, Bool.false_eq_true, if_false]
    rfl
  rw [hpicked, release_lasting (q := returning r l h y l.dst r.nextLeg) rfl hwrec rfl rfl (fun d hd => hw ▸ hb.finds d hd), hwdrives]
  have hto := lasting_toRec (n := r.slot) (q := { returning r l h y l.dst r.nextLeg with drive := none }) (q' := { r with
    drive := none, serial := some y, leg := some { l with holder := some h, dst := l.dst }, nextLeg := r.nextLeg }) rfl
    (lasting_begins_holder (y := y) (h := h) hb)
  rw [← hw] at hto
  exact lasting_setDrives (freedDrives s.drives r.drive true) hto

/-- The reel of a RETURN record that the directory takes note of, wherever it is settled to go. -/
theorem pickReturn_took {dst : Place} {next : Option Leg} (he : s.entry? y = some e) (hheld : s.heldByOther r.slot y = false)
    (hsettles : ∀ v : State, noClaims v → v.rec? r.slot = some r → v.emptyShelf = s.emptyShelf →
      (v.updRec r.slot (fun _ => returning r l h y l.dst r.nextLeg)).homeOf y = e.home →
      lasting ((v.updRec r.slot (fun _ => returning r l h y l.dst r.nextLeg)).settleReturn r.slot d y true)
        = lasting (v.updRec r.slot (fun _ => returning r l h y dst next))) :
    lasting (b.pickReturn r.slot l h d y) = lasting (tracked y e l.acc h (carried s r l h y col dst next)) := by
  obtain ⟨w, hw⟩ : ∃ w, w = b.setHolder l.acc h (.reel y) := ⟨_, rfl⟩
  have hwrec : w.rec? r.slot = some r := hw ▸ hb.found
  have hwdrives : w.drives = s.drives := by rw [hw]; exact hb.drives
  have hwentry : w.entry? y = some e := by
    rw [hw]
    exact (entry?_begins hb).trans he
  have htook : ((b.entry? y).isSome && !b.heldByOther r.slot y) = true := by
    rw [entry?_begins hb, heldByOther_begins hb, he, hheld]
    rfl
  have hserial : (b.takeAboard r.slot l.acc h y).updRec r.slot (fun r => { r with serial := some y })
      = w.updRec r.slot (fun _ => returning r l h y l.dst r.nextLeg) := by
    rw [takeAboard_eq hb.found hb.leg, ← hw, updRec_twice (s := w) (q := inHolder r l h) hwrec rfl]
    rfl
  have hup : (w.updRec r.slot (fun _ => returning r l h y l.dst r.nextLeg)).pickedUp y l.acc h
      = (tracked y e l.acc h w).updRec r.slot (fun _ => returning r l h y l.dst r.nextLeg) :=
    pickedUp_eq (s := w.updRec r.slot (fun _ => returning r l h y l.dst r.nextLeg)) hwentry
  obtain ⟨v, hv⟩ : ∃ v, v = tracked y e l.acc h w := ⟨_, rfl⟩
  have hvrec : v.rec? r.slot = some r := hv ▸ hwrec
  have hvdrives : v.drives = s.drives := by rw [hv]; exact hwdrives
  have hpicked : b.pickReturn r.slot l h d y
      = ((v.updRec r.slot (fun _ => returning r l h y l.dst r.nextLeg)).settleReturn r.slot d y true).releaseDrive r.slot true := by
    unfold State.pickReturn
    simp only [htook, hserial, if_true]
    rw [hup, ← hv]
  have hvclaims : noClaims v := by
    rw [hv, hw]
    exact hb.claims
  have hvshelf : v.emptyShelf = s.emptyShelf := by
    rw [hv, hw]
    show (List.finRange 4).find? _ = _
    rw [State.emptyShelf, ← hb.shelf]
    rfl
  have hvhome : (v.updRec r.slot (fun _ => returning r l h y l.dst r.nextLeg)).homeOf y = e.home := by
    rw [hv]
    exact homeOf_tracked (s := w) hwentry
  have hvfinds (d : Fin 16) (hd : r.drive = some d) : findsNothing v d := by
    rw [hv, hw]
    exact hb.finds d hd
  rw [hpicked, release_lasting (q := returning r l h y dst next) (hsettles v hvclaims hvrec hvshelf hvhome) hvrec rfl rfl hvfinds, hvdrives]
  have hvlast : lasting v = lasting (tracked y e l.acc h ((s.updAcc l.acc (fun x => { x with column := col })).setHolder l.acc h (.reel y))) := by
    rw [hv]
    exact lasting_tracked (hw ▸ lasting_begins_holder hb)
  have hto := lasting_toRec (n := r.slot) (q := { returning r l h y dst next with drive := none }) (q' := { r with
    drive := none, serial := some y, leg := some { l with holder := some h, dst := dst }, nextLeg := next }) rfl hvlast
  exact lasting_setDrives (freedDrives s.drives r.drive true) hto

end Return

end Picking

end Sys2Proof
end

section
/-! PROOFS. What a PICK leaves of its accessor's trip (R15, R96, R104, R105). -/

namespace Sys2Proof

namespace Picking

open Machine Safety Upkeep Settling Posting Events Reservation DriveTable Ending Withdrawal Expiry RailMoves Raising

variable {s b t u v w : State} {acc : Acc} {h : Fin 3} {n : Nat} {l : Leg} {r q : Rec} {x y z : Serial} {e : Entry} {c : Cell} {d : Fin 16}
  {o : FinalOutcome} {src : Place} {taken : Bool} {col : Nat} {slot : Nat}

/-! ## The other blocks leave the accessors to the rail scheduler -/

theorem accsKept_raised (h : Raised s t) : AccsKept s t := fun acc => by
  have hrest := congrArg (fun x : State => railPart (x.acc acc)) h.rest
  have hpart (u : State) : railPart ((promptless u).acc acc) = railPart (u.acc acc) := by
    cases acc <;> rfl
  rw [hpart, hpart] at hrest
  exact hrest

theorem accsKept_dropPrompt (h : AccsKept s u) (ref : PromptRef) (block : RaisingBlock) : AccsKept s (u.dropPrompt ref block) := by
  unfold State.dropPrompt
  split
  next n =>
    unfold State.withdraw
    split
    · split
      · obtain ⟨shown, lines, hremoved⟩ := requeued_removePrompt u n
        exact (h.same (by rw [hremoved])).trans (accsKept_raised (Raised.spaceReport _))
      · exact h
    · exact h
  next => exact h

theorem accsKept_askCleanSupply (h : AccsKept s u) : AccsKept s u.askCleanSupply := by
  cases hd : u.firstCleanWait with
  | none =>
    unfold State.askCleanSupply
    rw [hd]
    exact h.same rfl
  | some d =>
    rw [askCleanSupply_eq hd]
    exact h.ask.same rfl

theorem accsKept_cleaningAttempt (h : AccsKept s u) (d : Fin 16) : AccsKept s (u.cleaningAttempt d) := by
  have htidy {v : State} (hv : AccsKept s v) : AccsKept s v.tidyCleanSupply := by
    unfold State.tidyCleanSupply
    split
    · exact hv
    · have hnone : AccsKept s ({ v with cleanPrompt := .none } : State) := hv.same rfl
      exact accsKept_dropPrompt hnone v.cleanPrompt .driveTable
  unfold State.cleaningAttempt
  split
  · split
    · split
      next reel _ _ slot _ =>
        have hopened : AccsKept s (u.openRec (internalRec slot .clean (some reel.serial) d .queued)) := h.same rfl
        have hwaits : AccsKept s ((u.openRec (internalRec slot .clean (some reel.serial) d .queued)).setCleanWait d false) := hopened.updDrive
        exact (htidy hwaits).allocateForRecord
      next => exact h.updDrive
    · dsimp only
      split
      · exact accsKept_askCleanSupply (h.updDrive (u := u))
      · exact h.updDrive
  · exact h

theorem accsKept_allocateForDrive (h : AccsKept s u) (d : Fin 16) : AccsKept s (u.allocateForDrive d) := by
  unfold State.allocateForDrive
  split
  · split
    · exact h.reserve
    · exact accsKept_cleaningAttempt h d
  · exact h

theorem accsKept_releaseDrive (h : AccsKept s u) (slot : Nat) (taken : Bool) : AccsKept s (u.releaseDrive slot taken) := by
  unfold State.releaseDrive
  split
  · exact h
  · exact accsKept_allocateForDrive h.updRec.updDrive _

theorem accsKept_placeEmptied (h : AccsKept s u) (slot : Nat) (src : Place) : AccsKept s (u.placeEmptied slot src) := by
  unfold State.placeEmptied
  split
  · exact h.freeShelf
  · exact h.freeStation
  · exact accsKept_releaseDrive h slot true
  · exact h

theorem accsKept_pickedUp (h : AccsKept s u) (y : Serial) (acc : Acc) (k : Fin 3) : AccsKept s (u.pickedUp y acc k) := by
  cases he : u.entry? y with
  | none =>
    rw [pickedUp_nothing he]
    exact h
  | some e =>
    rw [pickedUp_eq he]
    exact h.same rfl

theorem accsKept_enterPosting (h : AccsKept s u) (slot : Nat) : AccsKept s (u.enterPosting slot) := by
  cases hr : u.rec? slot with
  | none => simpa only [State.enterPosting, hr] using h
  | some r =>
    rw [enterPosting_eq hr, built_eq]
    exact h.same rfl

theorem accsKept_settleReturn (h : AccsKept s u) (slot : Nat) (d : Fin 16) (y : Serial) (took : Bool) :
    AccsKept s (u.settleReturn slot d y took) := by
  unfold State.settleReturn
  split
  · exact h
  · split
    · exact h.freeReservation.setDst
    · split
      · exact h
      · exact h.freeReservation.setShelf.setDst.updRec

/-! ## The reel is aboard, and the leg stays in the trip -/

theorem accsKept_pickExpected (u : State) (slot : Nat) (l : Leg) (h : Fin 3) (y : Serial) :
    AccsKept (u.setHolder l.acc h (.reel y)) (u.pickExpected slot l h y) :=
  accsKept_placeEmptied (accsKept_pickedUp (AccsKept.refl _).updRec y l.acc h) slot l.src

theorem accsKept_pickReturn (u : State) (slot : Nat) (l : Leg) (h : Fin 3) (d : Fin 16) (y : Serial) :
    AccsKept (u.setHolder l.acc h (.reel y)) (u.pickReturn slot l h d y) := by
  unfold State.pickReturn
  dsimp only
  refine accsKept_releaseDrive (accsKept_settleReturn ?_ slot d y _) slot true
  have haboard : AccsKept (u.setHolder l.acc h (.reel y)) ((u.takeAboard slot l.acc h y).updRec slot (fun r => { r with serial := some y })) :=
    (AccsKept.refl (u.setHolder l.acc h (.reel y))).updRec.updRec
  split
  · exact accsKept_pickedUp haboard y l.acc h
  · exact haboard

theorem accsKept_setMissing (u : State) (y : Serial) : AccsKept u (u.setMissing y) := by
  rw [setMissing_eq]
  exact (AccsKept.refl u).same rfl

theorem accsKept_pickedOther (u : State) (slot : Nat) (x : Option Serial) (y : Serial) (acc : Acc) (h : Fin 3) :
    AccsKept u (u.pickedOther slot x y acc h) := by
  have hread {v : State} (hv : AccsKept u v) : AccsKept u (if v.heldByOther slot y then v else v.pickedUp y acc h) := by
    split
    · exact hv
    · exact accsKept_pickedUp hv y acc h
  cases x with
  | none => exact hread (.refl u)
  | some x => exact hread (accsKept_setMissing u x)

theorem setHolder_kept {k : Fin 3} {x : Holder} (h : AccsKept s t) : AccsKept (s.setHolder acc k x) (t.setHolder acc k x) := fun who => by
  have hkept := h who
  unfold State.setHolder
  rw [State.acc_updAcc, State.acc_updAcc]
  split
  next hwho =>
    subst hwho
    exact congrArg (fun a : AccRec => { a with holders := a.holders.set k x }) hkept
  next => exact hkept

theorem accsKept_pickWrongPlace (u : State) (slot : Nat) (l : Leg) (h : Fin 3) (y : Serial) :
    AccsKept (u.setHolder l.acc h (.reel y)) (u.pickWrongPlace slot l h y) := by
  unfold State.pickWrongPlace
  dsimp only
  refine AccsKept.divert (accsKept_releaseDrive (accsKept_placeEmptied ?_ slot l.src) slot false)
  exact (setHolder_kept (accsKept_pickedOther u slot l.expected y l.acc h)).updRec.updRec

/-! ## The leg leaves the trip -/

theorem accsKept_discardLegs (hl : s.leg? slot = some l) : AccsKept (s.updAcc l.acc (tripLeft slot)) (s.discardLegs slot) := by
  unfold State.discardLegs
  rw [removeLeg_eq hl]
  exact AccsKept.updRec (AccsKept.freeReservation ((AccsKept.refl (s.updAcc l.acc (tripLeft slot))).same rfl))

theorem accsKept_pickEnds (hl : s.leg? slot = some l) (src : Place) (o : FinalOutcome) :
    AccsKept (s.updAcc l.acc (tripLeft slot)) (s.pickEnds slot src o) := by
  have hleg : (s.setOutcome slot o).leg? slot = some l := by
    obtain ⟨r, hr, hrl⟩ := Option.bind_eq_some_iff.mp hl
    rw [State.leg?, Flows.rec?_setOutcome hr]
    exact hrl
  exact accsKept_enterPosting (accsKept_releaseDrive (accsKept_placeEmptied
    (((AccsKept.refl (s.updAcc l.acc (tripLeft slot))).same rfl).trans (accsKept_discardLegs (s := s.setOutcome slot o) hleg)) slot src) slot false) slot

end Picking

end Sys2Proof
end

section
/-! PROOFS. PICK_COMPLETION (R104, R105), put together. -/

namespace Sys2Proof

namespace PickCommand

open Machine Safety Upkeep Settling Posting Events Reservation DriveTable Ending Withdrawal Expiry RailMoves Picking

variable {s b t u v w : State} {acc : Acc} {h : Fin 3} {n : Nat} {l : Leg} {r q : Rec} {x y z : Serial} {e : Entry} {c : Cell} {d : Fin 16}
  {o : Order} {k : FinalOutcome} {label : Option Serial} {tr : Trip}

/-! ## The order has completed (R104) -/

/-- The accessor when the stop of its order is done. -/
def stopEnded (x : AccRec) (o : Order) (n : Nat) : AccRec :=
  { x with order := none, column := o.col, trip := x.trip.map (fun t => { t with stops := t.stops.filter (fun y => y ≠ ⟨.pick, .record n⟩) }) }

/-- The state in which a PICK's reading is acted on. -/
def begun (s : State) (acc : Acc) (o : Order) (n : Nat) : State := (s.start.orderEnds acc o.col).stopDone acc ⟨.pick, .record n⟩

theorem updAcc_updAcc (s : State) (acc : Acc) (f g : AccRec → AccRec) : (s.updAcc acc f).updAcc acc g = s.updAcc acc (fun x => g (f x)) := by
  cases acc <;> rfl

theorem begun_eq (s : State) (acc : Acc) (o : Order) (n : Nat) :
    ∃ zone, begun s acc o n = { s.updAcc acc (fun x => stopEnded x o n) with
      sent := [], rail := { (s.updAcc acc (fun x => stopEnded x o n)).rail with zone := zone } } := by
  have hstop (zone : Option Acc) (x : AccRec) : ∀ u : State,
      u = { s.updAcc acc (fun x => { x with order := none, column := o.col }) with
        sent := [], rail := { (s.updAcc acc (fun x => { x with order := none, column := o.col })).rail with zone := zone } } →
      u.stopDone acc ⟨.pick, .record n⟩ = { s.updAcc acc (fun x => stopEnded x o n) with
        sent := [], rail := { (s.updAcc acc (fun x => stopEnded x o n)).rail with zone := zone } } := fun u hu => by
    subst hu
    cases acc <;> rfl
  unfold begun State.orderEnds
  dsimp only
  split
  · exact ⟨s.rail.zone, hstop _ (s.acc acc) _ rfl⟩
  · unfold State.releaseZone
    split
    · exact ⟨none, hstop _ (s.acc acc) _ rfl⟩
    · exact ⟨s.rail.zone, hstop _ (s.acc acc) _ rfl⟩

theorem lasting_begun : lasting (begun s acc o n) = lasting (s.updAcc acc (fun x => { x with column := o.col })) := by
  obtain ⟨zone, hb⟩ := begun_eq s acc o n
  have hzone (u : State) : lasting ({ u with sent := [], rail := { u.rail with zone := zone } } : State) = lasting u := rfl
  have hends : lasting (s.updAcc acc (fun x => stopEnded x o n))
      = lasting ((s.updAcc acc (fun x => { x with column := o.col })).updAcc acc (fun x => stopEnded x o n)) := by
    rw [updAcc_updAcc]
    rfl
  rw [hb, hzone, hends]
  refine lasting_updAcc_at _ _ _ ?_
  rw [State.acc_updAcc_self]
  rfl

theorem acc_begun : (begun s acc o n).acc acc = stopEnded (s.acc acc) o n := by
  obtain ⟨zone, hb⟩ := begun_eq s acc o n
  rw [hb]
  exact State.acc_updAcc_self s acc (fun x => stopEnded x o n)

theorem recs_begun : (begun s acc o n).recs = s.recs := by
  obtain ⟨zone, hb⟩ := begun_eq s acc o n
  rw [hb]
  rfl

theorem queues_begun : (begun s acc o n).rail.queues = s.rail.queues := by
  obtain ⟨zone, hb⟩ := begun_eq s acc o n
  rw [hb]
  rfl

/-- A PICK of a record's leg is in flight. -/
structure Picks (s : State) (acc : Acc) (o : Order) (n : Nat) (h : Fin 3) (r : Rec) (l : Leg) : Prop where
  order : (s.acc acc).order = some o
  op : o.op = .pick n
  holder : o.holder = some h
  found : s.rec? n = some r
  leg : r.leg = some l
  acc : l.acc = acc

theorem Picks.slot (hp : Picks s acc o n h r l) : r.slot = n := slot_of_rec? hp.found

theorem Picks.leg? (hp : Picks s acc o n h r l) : s.leg? n = some l := (leg?_of_rec? hp.found).trans hp.leg

theorem Picks.leg?_begun (hp : Picks s acc o n h r l) : (begun s acc o n).leg? n = some l := by
  rw [OrderGates.leg?_of_recs recs_begun]
  exact hp.leg?

theorem Picks.exec (hp : Picks s acc o n h r l) (label : Option Serial) :
    exec (.pickCompletion acc label) s = .next (((begun s acc o n).picked n l h label).commit) := by
  have hleg := hp.leg?
  show execPickCompletion acc label s = _
  unfold execPickCompletion State.order?
  obtain ⟨op, col, place, holder, timer⟩ := o
  obtain rfl : op = .pick n := hp.op
  obtain rfl : holder = some h := hp.holder
  rw [hp.order]
  simp only [hleg]
  rfl

theorem Picks.begins (hp : Picks s acc o n h r l) (hclaims : noClaims s) (hfinds : ∀ d, r.drive = some d → findsNothing s d) :
    Begins s (begun s acc o n) l.acc o.col r l := by
  obtain ⟨zone, hb⟩ := begun_eq s acc o n
  have hlast := lasting_begun (s := s) (acc := acc) (o := o) (n := n)
  rw [hp.acc]
  refine ⟨hlast, recs_begun, ?_, ?_, ?_, hp.leg, fun d hd => ?_⟩
  · rw [hb]
    rfl
  · rw [hb]
    exact hclaims
  · rw [State.rec?, recs_begun, hp.slot]
    exact hp.found
  · exact findsNothing_of_lasting hlast (hfinds d hd)

theorem nothing (hno : ∀ o m, (s.acc acc).order = some o → o.op ≠ .pick m) (label : Option Serial) :
    exec (.pickCompletion acc label) s = .next { s with sent := [] } := by
  show execPickCompletion acc label s = _
  unfold execPickCompletion State.order?
  split
  next heq => exact absurd rfl (hno _ _ heq)
  next => rfl

/-! ## What is read -/

theorem picked_none (u : State) (n : Nat) (l : Leg) (h : Fin 3) : u.picked n l h none = u.pickEmpty n l := by
  unfold State.picked
  rfl

theorem picked_expected (hexp : l.expected = some y) : u.picked n l h (some y) = u.pickExpected n l h y := by
  unfold State.picked
  simp only [hexp, if_true]

theorem picked_wrongCell (hsrc : l.src = .cell c) (hexp : l.expected = some x) (hne : z ≠ x) :
    u.picked n l h (some z) = u.pickWrongCell n l h c z := by
  unfold State.picked
  simp only [hexp, hne, if_false, hsrc]

theorem picked_wrongPlace (hsrc : ∀ c, l.src ≠ .cell c) (hexp : l.expected = some x) (hne : z ≠ x) :
    u.picked n l h (some z) = u.pickWrongPlace n l h z := by
  unfold State.picked
  simp only [hexp, hne, if_false]

theorem picked_return (hsrc : l.src = .drive d) (hexp : l.expected = none) : u.picked n l h (some y) = u.pickReturn n l h d y := by
  unfold State.picked
  simp only [hexp, hsrc]

theorem picked_unread (hsrc : ∀ d, l.src ≠ .drive d) (hexp : l.expected = none) : u.picked n l h (some y) = u.pickExpected n l h y := by
  unfold State.picked
  simp only [hexp]

/-! ## The trip (R96, R105) -/

theorem leavesTrip_of {left : List Nat × List Stop} (hexec : Machine.exec i s = .next u.commit) (hacc : railPart (u.acc acc) = railPart a)
    (htrip : a.trip.map (fun t => (t.legs, t.stops)) = some left) (horder : a.order = none) (hstate : a.state = (s.acc acc).state)
    (htodo : a.todo = (s.acc acc).todo) : leavesTrip i s acc left := by
  have hview : ∀ x : AccRec, x.trip.map (fun t => (t.legs, t.stops)) = (railPart x).trip.map (fun t => (t.legs, t.stops)) := fun x => by
    unfold railPart
    cases x.trip <;> rfl
  refine ⟨u, hexec, ?_, ?_, ?_, ?_⟩
  · rw [Safety.tripOf, hview, hacc, ← hview]
    exact htrip
  · exact (congrArg AccRec.order hacc :).trans horder
  · exact (congrArg AccRec.state hacc :).trans hstate
  · exact (congrArg AccRec.todo hacc :).trans htodo

theorem trip_stopEnded (htr : (s.acc acc).trip = some tr) :
    (stopEnded (s.acc acc) o n).trip = some { tr with stops := tr.stops.filter (fun y => y ≠ ⟨.pick, .record n⟩) } := by
  unfold stopEnded
  rw [htr]
  rfl

/-- The stop is done, and the leg stays in the trip with the reel aboard. -/
theorem leavesTrip_aboard (hp : Picks s acc o n h r l) (htr : (s.acc acc).trip = some tr)
    (hkept : AccsKept ((begun s acc o n).setHolder l.acc h (.reel z)) ((begun s acc o n).picked n l h (some z))) :
    leavesTrip (.pickCompletion acc (some z)) s acc (tr.legs, tr.stops.filter (fun y => y ≠ ⟨.pick, .record n⟩)) := by
  have hacc := hkept acc
  rw [hp.acc, State.setHolder, State.acc_updAcc_self] at hacc
  refine leavesTrip_of (a := { stopEnded (s.acc acc) o n with holders := (stopEnded (s.acc acc) o n).holders.set h (.reel z) })
    (hp.exec (some z)) (by rw [hacc, acc_begun]) ?_ rfl rfl rfl
  rw [trip_stopEnded htr]
  rfl

theorem without_filter (stops : List Stop) (n : Nat) :
    (stops.filter (fun y => y ≠ ⟨.pick, .record n⟩)).filter (fun x => x.ref ≠ .record n) = stops.filter (fun x => x.ref ≠ .record n) := by
  rw [List.filter_filter]
  refine List.filter_congr fun x _ => ?_
  by_cases hx : x.ref = .record n
  · simp [hx]
  · have hne : x ≠ ⟨.pick, .record n⟩ := fun heq => hx (by rw [heq])
    simp [hx, hne]

theorem tripLeft_eq {a : AccRec} (h : a.state ≠ .gathering) : tripLeft n a = { a with trip := a.trip.map (Trip.without (.record n)) } :=
  if_neg fun hgather => h hgather.1

/-- A trip that a record's leg has left keeps its put-back reels. -/
theorem without_record (t : Trip) (n : Nat) : t.without (.record n) = { t with
    legs := t.legs.filter (fun m => LegRef.record m ≠ .record n), stops := t.stops.filter (fun x => x.ref ≠ .record n) } := by
  unfold Trip.without
  simp

theorem leavesTrip_ended (hp : Picks s acc o n h r l) (htr : (s.acc acc).trip = some tr) (hstate : (s.acc acc).state ≠ .gathering) :
    leavesTrip (.pickCompletion acc none) s acc (tripLess tr (.record n)) := by
  have hleg : ((begun s acc o n).expectedMissing l).leg? n = some l := by
    rw [expectedMissing_eq]
    exact hp.leg?_begun
  have hkept := accsKept_pickEnds hleg l.src .volumeMissing acc
  have hacc : (((begun s acc o n).expectedMissing l).updAcc l.acc (tripLeft n)).acc acc = tripLeft n (stopEnded (s.acc acc) o n) := by
    rw [expectedMissing_eq, hp.acc, State.acc_updAcc_self]
    exact congrArg (tripLeft n) acc_begun
  have hexec := hp.exec none
  rw [picked_none] at hexec
  rw [hacc, tripLeft_eq (show (stopEnded (s.acc acc) o n).state ≠ .gathering from hstate), trip_stopEnded htr] at hkept
  refine leavesTrip_of hexec hkept ?_ rfl rfl rfl
  rw [Option.map_some, Option.map_some, without_record, without_filter]
  rfl

/-- The accessor with a reel to put back. -/
def holdsWrong (a : AccRec) (acc : Acc) (h : Fin 3) (z : Serial) (c : Cell) : AccRec :=
  { a with
    holders := a.holders.set h (.reel z),
    trip := a.trip.map (fun t => { t with
      putBacks := t.putBacks ++ [{ holder := h, serial := z, dst := .cell c }], stops := ⟨.place, .putBack acc h⟩ :: t.stops }) }

/-- The state in which a record's wrong reel is to be put back. -/
def puttingBack (u : State) (l : Leg) (h : Fin 3) (c : Cell) (z : Serial) : State :=
  ((u.expectedMissing l).foundAt z c).addPutBack l.acc h z c

theorem puttingBack_eq (u : State) (l : Leg) (h : Fin 3) (c : Cell) (z : Serial) : puttingBack u l h c z
    = { u.updAcc l.acc (fun a => holdsWrong a l.acc h z c) with dir := dirFound (dirMissing u.dir l.expected) z c } := by
  unfold puttingBack State.addPutBack State.setHolder
  rw [updAcc_updAcc, expectedMissing_eq, foundAt_eq]
  rfl

theorem leg?_puttingBack (hp : Picks s acc o n h r l) (z : Serial) : (puttingBack (begun s acc o n) l h c z).leg? n = some l := by
  rw [puttingBack_eq]
  exact hp.leg?_begun

theorem acc_puttingBack (hp : Picks s acc o n h r l) (z : Serial) :
    (puttingBack (begun s acc o n) l h c z).acc acc = holdsWrong (stopEnded (s.acc acc) o n) acc h z c := by
  rw [puttingBack_eq, hp.acc]
  exact (State.acc_updAcc_self (begun s acc o n) acc (fun a => holdsWrong a acc h z c)).trans
    (congrArg (fun a => holdsWrong a acc h z c) acc_begun)

/-- The trip that goes on with the put-back reel first. -/
def goesOn (tr : Trip) (acc : Acc) (n : Nat) (h : Fin 3) (z : Serial) (c : Cell) : Trip :=
  { tr with
    legs := tr.legs.filter (fun m => LegRef.record m ≠ .record n), putBacks := tr.putBacks ++ [{ holder := h, serial := z, dst := .cell c }],
    stops := ⟨.place, .putBack acc h⟩ :: tr.stops.filter (fun x => x.ref ≠ .record n) }

theorem tripLeft_holdsWrong (htr : (s.acc acc).trip = some tr) (hstate : (s.acc acc).state ≠ .gathering) :
    tripLeft n (holdsWrong (stopEnded (s.acc acc) o n) acc h z c)
      = { stopEnded (s.acc acc) o n with
          holders := (stopEnded (s.acc acc) o n).holders.set h (.reel z), trip := some (goesOn tr acc n h z c) } := by
  have hne : (holdsWrong (stopEnded (s.acc acc) o n) acc h z c).state ≠ .gathering := hstate
  have htrip : (holdsWrong (stopEnded (s.acc acc) o n) acc h z c).trip.map (Trip.without (.record n)) = some (goesOn tr acc n h z c) := by
    unfold holdsWrong
    dsimp only
    rw [trip_stopEnded htr, Option.map_some, Option.map_some, without_record]
    have hfirst (stops : List Stop) : ((⟨.place, .putBack acc h⟩ : Stop) :: stops).filter (fun x => x.ref ≠ .record n)
        = ⟨.place, .putBack acc h⟩ :: stops.filter (fun x => x.ref ≠ .record n) := List.filter_cons_of_pos (by simp)
    rw [hfirst, without_filter]
    rfl
  rw [tripLeft_eq hne, htrip]
  rfl

theorem leavesTrip_wrongCell (hp : Picks s acc o n h r l) (htr : (s.acc acc).trip = some tr) (hstate : (s.acc acc).state ≠ .gathering)
    (hsrc : l.src = .cell c) (hexp : l.expected = some x) (hne : z ≠ x) :
    leavesTrip (.pickCompletion acc (some z)) s acc
      ((tripLess tr (.record n)).1, ⟨.place, .putBack acc h⟩ :: (tripLess tr (.record n)).2) := by
  have hkept := accsKept_pickEnds (leg?_puttingBack (c := c) hp z) l.src .wrongVolume acc
  have hacc : ((puttingBack (begun s acc o n) l h c z).updAcc l.acc (tripLeft n)).acc acc
      = tripLeft n (holdsWrong (stopEnded (s.acc acc) o n) acc h z c) := by
    rw [hp.acc, State.acc_updAcc_self]
    exact congrArg (tripLeft n) (acc_puttingBack hp z)
  have hexec := hp.exec (some z)
  rw [picked_wrongCell hsrc hexp hne] at hexec
  rw [hacc, tripLeft_holdsWrong htr hstate] at hkept
  exact leavesTrip_of hexec hkept rfl rfl rfl rfl

/-! ## A leg that stands in no queue stays ABOARD -/

/-- The leg of a slot is ABOARD, and stands in no queue. -/
def Aboard (u : State) (n : Nat) : Prop := (∀ who, n ∉ u.rail.queues.get who) ∧ legState u n = some .aboard

theorem aboard_of (hu : Aboard u n) (hqueues : v.rail.queues = u.rail.queues) (hstate : legState v n = legState u n) : Aboard v n := by
  rw [Aboard, hqueues, hstate]
  exact hu

theorem aboard_recs (hu : Aboard u n) (hqueues : v.rail.queues = u.rail.queues) (hrecs : v.recs = u.recs) : Aboard v n :=
  aboard_of hu hqueues (legState_of_recs hrecs n)

theorem legState_updRec {f : Rec → Rec} (hf : ∀ r, (f r).leg = r.leg ∧ (f r).slot = r.slot) (u : State) (n m : Nat) :
    legState (u.updRec m f) n = legState u n := by
  unfold legState State.leg?
  by_cases hnm : n = m
  · subst hnm
    rw [State.rec?_updRec_self u n f fun r hr => (hf r).2.trans hr]
    cases u.rec? n with
    | none => rfl
    | some r => exact congrArg (fun l => Option.map (·.state) l) (hf r).1
  · rw [State.rec?_updRec_other u m n f (fun r hr => (hf r).2.trans hr) hnm]

theorem aboard_updRec {f : Rec → Rec} (hf : ∀ r, (f r).leg = r.leg ∧ (f r).slot = r.slot) (hu : Aboard u n) (m : Nat) : Aboard (u.updRec m f) n :=
  aboard_of hu rfl (legState_updRec hf u n m)

theorem aboard_takeAboard (hout : ∀ who, n ∉ u.rail.queues.get who) (hl : u.leg? n = some l) (acc : Acc) (h : Fin 3) (y : Serial) :
    Aboard (u.takeAboard n acc h y) n := by
  refine ⟨hout, ?_⟩
  unfold State.takeAboard legState
  rw [State.leg?_updLeg_self, show (u.setHolder acc h (.reel y)).leg? n = u.leg? n from rfl, hl]
  rfl

theorem aboard_pickedUp (hu : Aboard u n) (y : Serial) (acc : Acc) (h : Fin 3) : Aboard (u.pickedUp y acc h) n := by
  cases he : u.entry? y with
  | none =>
    rw [pickedUp_nothing he]
    exact hu
  | some e =>
    rw [pickedUp_eq he]
    exact aboard_recs hu rfl rfl

theorem aboard_releaseDrive (hu : Aboard u n) (hfinds : ∀ q d, u.rec? n = some q → q.drive = some d → findsNothing u d) (taken : Bool) :
    Aboard (u.releaseDrive n taken) n := by
  cases hq : u.rec? n with
  | none =>
    unfold State.releaseDrive
    rw [hq]
    exact hu
  | some q =>
    obtain rfl := slot_of_rec? hq
    rw [releaseDrive_eq hq (hfinds q · hq)]
    refine aboard_of hu rfl ?_
    have hsame := legState_updRec (f := fun r => { r with drive := none }) (fun _ => ⟨rfl, rfl⟩) u q.slot q.slot
    rw [updRec_const hq] at hsame
    exact hsame

theorem aboard_placeEmptied (hu : Aboard u n) (hclaims : noClaims u) (hfinds : ∀ q d, u.rec? n = some q → q.drive = some d → findsNothing u d)
    (src : Place) : Aboard (u.placeEmptied n src) n := by
  obtain ⟨hshelf, hres, hsupply⟩ := hclaims
  unfold State.placeEmptied
  split
  next p =>
    rw [freeShelf_nothing hshelf]
    exact aboard_recs hu rfl rfl
  next p =>
    rw [freeStation_nothing hres hsupply]
    exact aboard_recs hu rfl rfl
  next => exact aboard_releaseDrive hu hfinds true
  next => exact hu

theorem aboard_setDst (hu : Aboard u n) (ref : LegRef) (dst : Place) : Aboard (u.setDst ref dst) n := by
  refine aboard_of hu ?_ (legState_setDst u ref dst n)
  cases ref <;> rfl

theorem aboard_freeReservation (hu : Aboard u n) (hclaims : noClaims u) (ref : LegRef) : Aboard (u.freeReservation ref) n := by
  rw [freeReservation_eq hclaims]
  exact aboard_recs hu rfl rfl

theorem aboard_sendToStation (hu : Aboard u n) (ref : LegRef) : Aboard (u.sendToStation ref) n := by
  have hset := aboard_setDst hu ref (.station none)
  unfold State.sendToStation State.reserveStation
  dsimp only
  cases (u.setDst ref (.station none)).emptyStation with
  | none => exact hset
  | some p =>
    have hpos : Aboard ((u.setDst ref (.station none)).updPos p (fun _ => { StationPos.initial with state := .reserved ref })) n :=
      aboard_recs hset rfl rfl
    exact aboard_setDst hpos ref (.station (some p))

theorem aboard_divert (hu : Aboard u n) (hclaims : noClaims u) : Aboard (u.divert n) n := by
  have hturned : Aboard ((u.updRec n (fun r => { r with nextLeg := none })).updLeg n (fun l => { l with diverted := true })) n := by
    have hnext := aboard_updRec (f := fun r => { r with nextLeg := none }) (fun _ => ⟨rfl, rfl⟩) hu n
    exact aboard_of hnext rfl (legState_updLeg (f := fun l => { l with diverted := true }) (fun _ => rfl) _ n n)
  unfold State.divert
  dsimp only
  split
  · exact hturned
  · exact aboard_sendToStation (aboard_freeReservation hturned hclaims _) _

theorem aboard_settleReturn (hu : Aboard u n) (hclaims : noClaims u) (d : Fin 16) (y : Serial) (took : Bool) :
    Aboard (u.settleReturn n d y took) n := by
  unfold State.settleReturn
  split
  · exact hu
  · split
    · exact aboard_setDst (aboard_freeReservation hu hclaims _) _ _
    · split
      · exact hu
      next p _ =>
        have hshelf : Aboard ((u.freeReservation (.record n)).setShelf p (.reserved (.record n))) n :=
          aboard_recs (aboard_freeReservation hu hclaims (.record n)) rfl rfl
        refine aboard_updRec ?_ (aboard_setDst hshelf _ _) n
        exact fun _ => ⟨rfl, rfl⟩

/-! ## No claim and no search is due -/

/-- No claim stands on a position, and the drive of the slot's record would find nothing to take up. -/
def Quiet (u : State) (n : Nat) : Prop := noClaims u ∧ ∀ q d, u.rec? n = some q → q.drive = some d → findsNothing u d

theorem quiet_same (hu : Quiet u n) (hrecs : v.recs = u.recs) (hdrives : v.drives = u.drives) (hclaims : noClaims v) : Quiet v n := by
  refine ⟨hclaims, fun q d hq hd => ?_⟩
  rw [State.rec?, hrecs] at hq
  rw [findsNothing, hdrives, noneQueued, hrecs]
  exact hu.2 q d hq hd

theorem quiet_updRec {f : Rec → Rec} (hf : ∀ r, (f r).drive = r.drive ∧ (f r).state = r.state ∧ (f r).slot = r.slot) (hu : Quiet u n) :
    Quiet (u.updRec n f) n := by
  refine ⟨hu.1, fun q d hq hd => ?_⟩
  rw [State.rec?_updRec_self u n f fun r hr => (hf r).2.2.trans hr] at hq
  obtain ⟨r, hr, rfl⟩ := Option.map_eq_some_iff.mp hq
  refine (hu.2 r d hr ((hf r).1.symm.trans hd)).imp id fun ⟨hdue, hnone⟩ => ⟨hdue, fun x hx => ?_⟩
  rcases mem_updFirst _ _ _ _ hx with hx | ⟨y, hy, -, rfl⟩
  · exact hnone x hx
  · rw [(hf y).2.1]
    exact hnone y hy

theorem quiet_takeAboard (hu : Quiet u n) (acc : Acc) (h : Fin 3) (y : Serial) : Quiet (u.takeAboard n acc h y) n := by
  have hset : Quiet (u.setHolder acc h (.reel y)) n := quiet_same hu rfl rfl hu.1
  exact quiet_updRec (f := fun r => { r with leg := r.leg.map (fun l => { l with state := .aboard, holder := some h }) })
    (fun _ => ⟨rfl, rfl, rfl⟩) hset

theorem quiet_pickedUp (hu : Quiet u n) (y : Serial) (acc : Acc) (h : Fin 3) : Quiet (u.pickedUp y acc h) n := by
  cases he : u.entry? y with
  | none =>
    rw [pickedUp_nothing he]
    exact hu
  | some e =>
    rw [pickedUp_eq he]
    exact quiet_same hu rfl rfl hu.1

theorem quiet_releaseDrive (hu : Quiet u n) (taken : Bool) : Quiet (u.releaseDrive n taken) n := by
  cases hq : u.rec? n with
  | none =>
    unfold State.releaseDrive
    rw [hq]
    exact hu
  | some q =>
    obtain rfl := slot_of_rec? hq
    rw [releaseDrive_eq hq (hu.2 q · hq)]
    refine ⟨hu.1, fun x d hx hd => ?_⟩
    have hfound : (released u q taken).rec? q.slot = some { q with drive := none } := rec?_updRec_const (q := { q with drive := none }) hq rfl
    rw [hfound] at hx
    cases hx
    cases hd

theorem quiet_placeEmptied (hu : Quiet u n) (src : Place) : Quiet (u.placeEmptied n src) n := by
  obtain ⟨⟨hshelf, hres, hsupply⟩, hfinds⟩ := hu
  unfold State.placeEmptied
  split
  next p =>
    rw [freeShelf_nothing hshelf]
    exact quiet_same ⟨⟨hshelf, hres, hsupply⟩, hfinds⟩ rfl rfl ⟨hshelf, hres, hsupply⟩
  next p =>
    rw [freeStation_nothing hres hsupply]
    exact quiet_same ⟨⟨hshelf, hres, hsupply⟩, hfinds⟩ rfl rfl ⟨hshelf, hres, hsupply⟩
  next => exact quiet_releaseDrive ⟨⟨hshelf, hres, hsupply⟩, hfinds⟩ true
  next => exact ⟨⟨hshelf, hres, hsupply⟩, hfinds⟩

theorem quiet_freeReservation (hu : Quiet u n) (ref : LegRef) : Quiet (u.freeReservation ref) n := by
  rw [freeReservation_eq hu.1]
  exact quiet_same hu rfl rfl hu.1

theorem quiet_setDst (hu : Quiet u n) (dst : Place) : Quiet (u.setDst (.record n) dst) n :=
  quiet_updRec (f := fun r => { r with leg := r.leg.map (fun l => { l with dst := dst }) }) (fun _ => ⟨rfl, rfl, rfl⟩) hu

theorem quiet_settleReturn (hu : Quiet u n) (d : Fin 16) (y : Serial) (took : Bool) : Quiet (u.settleReturn n d y took) n := by
  unfold State.settleReturn
  split
  · exact hu
  · split
    · exact quiet_setDst (quiet_freeReservation hu _) _
    · split
      · exact hu
      next p _ =>
        have hfreed := quiet_freeReservation hu (.record n)
        have hshelf : Quiet ((u.freeReservation (.record n)).setShelf p (.reserved (.record n))) n := quiet_same hfreed rfl rfl hfreed.1
        exact quiet_updRec (fun _ => ⟨rfl, rfl, rfl⟩) (quiet_setDst hshelf _)

theorem quiet_pickedOther (hu : Quiet u n) (x : Option Serial) (y : Serial) (acc : Acc) (h : Fin 3) : Quiet (u.pickedOther n x y acc h) n := by
  have hread {v : State} (hv : Quiet v n) : Quiet (if v.heldByOther n y then v else v.pickedUp y acc h) n := by
    split
    · exact hv
    · exact quiet_pickedUp hv y acc h
  cases x with
  | none => exact hread hu
  | some x =>
    have hmissing : Quiet (u.setMissing x) n := by
      rw [setMissing_eq]
      exact quiet_same hu rfl rfl hu.1
    exact hread hmissing

theorem Picks.quiet (hp : Picks s acc o n h r l) (hclaims : noClaims s) (hfinds : ∀ d, r.drive = some d → findsNothing s d) :
    Quiet (begun s acc o n) n := by
  have hb := hp.begins hclaims hfinds
  refine ⟨hb.claims, fun q d hq hd => ?_⟩
  have hfound := hb.found
  rw [hp.slot] at hfound
  cases hq.symm.trans hfound
  exact hb.finds d hd

/-! ## The leg is ABOARD at the end of the event -/

theorem aboard_commit (hcalm : calm u) (hu : Aboard u n) : (u.commit.leg? n).map (·.state) = some .aboard :=
  (legState_commit hcalm hu.1).trans hu.2

theorem pickedOther_rest (u : State) (n : Nat) (x : Option Serial) (y : Serial) (acc : Acc) (h : Fin 3) :
    (u.pickedOther n x y acc h).recs = u.recs ∧ (u.pickedOther n x y acc h).rail = u.rail := by
  have hup (v : State) : (v.pickedUp y acc h).recs = v.recs ∧ (v.pickedUp y acc h).rail = v.rail := by
    cases he : v.entry? y with
    | none => rw [pickedUp_nothing he]; exact ⟨rfl, rfl⟩
    | some e => rw [pickedUp_eq he]; exact ⟨rfl, rfl⟩
  have hread (v : State) : (if v.heldByOther n y then v else v.pickedUp y acc h).recs = v.recs
      ∧ (if v.heldByOther n y then v else v.pickedUp y acc h).rail = v.rail := by
    split
    · exact ⟨rfl, rfl⟩
    · exact hup v
  cases x with
  | none => exact hread u
  | some x => exact hread (u.setMissing x)

section Aboard

variable (hp : Picks s acc o n h r l) (hout : ∀ who, n ∉ s.rail.queues.get who)
include hp hout

theorem aboard_begun (y : Serial) : Aboard ((begun s acc o n).takeAboard n l.acc h y) n :=
  aboard_takeAboard (fun who => by rw [queues_begun]; exact hout who) hp.leg?_begun l.acc h y

variable (hquiet : Quiet (begun s acc o n) n)
include hquiet

theorem aboard_pickExpected (y : Serial) : Aboard ((begun s acc o n).pickExpected n l h y) n := by
  have hup := quiet_pickedUp (quiet_takeAboard hquiet l.acc h y) y l.acc h
  exact aboard_placeEmptied (aboard_pickedUp (aboard_begun hp hout y) y l.acc h) hup.1 hup.2 l.src

theorem aboard_pickReturn (d : Fin 16) (y : Serial) : Aboard ((begun s acc o n).pickReturn n l h d y) n := by
  have hboard := aboard_updRec (f := fun r => { r with serial := some y }) (fun _ => ⟨rfl, rfl⟩) (aboard_begun hp hout y) n
  have hq := quiet_updRec (f := fun r => { r with serial := some y }) (fun _ => ⟨rfl, rfl, rfl⟩) (quiet_takeAboard hquiet l.acc h y)
  unfold State.pickReturn
  dsimp only
  split
  · have hq' := quiet_pickedUp hq y l.acc h
    have hset := quiet_settleReturn hq' d y ((State.entry? (begun s acc o n) y).isSome && !(begun s acc o n).heldByOther n y)
    exact aboard_releaseDrive (aboard_settleReturn (aboard_pickedUp hboard y l.acc h) hq'.1 d y _) hset.2 true
  · have hset := quiet_settleReturn hq d y ((State.entry? (begun s acc o n) y).isSome && !(begun s acc o n).heldByOther n y)
    exact aboard_releaseDrive (aboard_settleReturn hboard hq.1 d y _) hset.2 true

theorem aboard_pickWrongPlace (y : Serial) : Aboard ((begun s acc o n).pickWrongPlace n l h y) n := by
  obtain ⟨w, hw⟩ : ∃ w, w = (begun s acc o n).pickedOther n l.expected y l.acc h := ⟨_, rfl⟩
  obtain ⟨hrecs, hrail⟩ := pickedOther_rest (begun s acc o n) n l.expected y l.acc h
  rw [← hw] at hrecs hrail
  have hwquiet : Quiet w n := hw ▸ quiet_pickedOther hquiet l.expected y l.acc h
  have hwleg : w.leg? n = some l := (OrderGates.leg?_of_recs hrecs n).trans hp.leg?_begun
  have hboard := aboard_takeAboard (u := w) (fun who => by rw [hrail, queues_begun]; exact hout who) hwleg l.acc h y
  have houtcome := aboard_updRec (f := fun r => { r with outcome := some .wrongVolume }) (fun _ => ⟨rfl, rfl⟩) hboard n
  have hq := quiet_updRec (f := fun r => { r with outcome := some .wrongVolume }) (fun _ => ⟨rfl, rfl, rfl⟩) (quiet_takeAboard hwquiet l.acc h y)
  have hplace := quiet_placeEmptied hq l.src
  have hreleased := quiet_releaseDrive hplace false
  have hall := aboard_divert (aboard_releaseDrive (aboard_placeEmptied houtcome hq.1 hq.2 l.src) hplace.2 false) hreleased.1
  rw [hw] at hall
  exact hall

end Aboard

end PickCommand

end Sys2Proof
end

section
/-! PROOFS. A trip under way with a reel to put back goes on with it while the rail scheduler works (R103, R105). -/

namespace Sys2Proof

namespace PutBacks

open Machine Safety Upkeep Settling Withdrawal RailMoves

variable {s u v : State} {acc who : Acc} {h k : Fin 3} {z : Serial} {c : Cell} {T : Trip → Prop} {ref : LegRef} {dst : Place}

/-- An accessor at its stops has a trip of a certain kind. -/
def Travels (u : State) (acc : Acc) (T : Trip → Prop) : Prop :=
  ((u.acc acc).state = .running ∨ (u.acc acc).state = .waitingZone) ∧ ∃ tr, (u.acc acc).trip = some tr ∧ T tr

theorem travels_same (hu : Travels u acc T) (hacc : v.acc acc = u.acc acc) : Travels v acc T := by
  rw [Travels, hacc]
  exact hu

/-- What another accessor is given does not matter, and of its own only the state and the trip. -/
theorem travels_updAcc {f : AccRec → AccRec} (hu : Travels u acc T) (hf : who = acc → ∀ x : AccRec,
    (x.state = .running ∨ x.state = .waitingZone) → ((f x).state = .running ∨ (f x).state = .waitingZone) ∧ (f x).trip = x.trip) :
    Travels (u.updAcc who f) acc T := by
  by_cases hwho : who = acc
  · obtain ⟨hstate, tr, htr, hT⟩ := hu
    obtain ⟨hstate', htrip⟩ := hf hwho _ hstate
    subst hwho
    rw [Travels, State.acc_updAcc_self]
    exact ⟨hstate', tr, htrip.trans htr, hT⟩
  · exact travels_same hu (State.acc_updAcc_other _ _ _ _ fun heq => hwho heq.symm)

theorem not_idle (hu : Travels u acc T) : (u.acc acc).state ≠ .idle := by
  rcases hu.1 with h | h <;> rw [h] <;> exact AccState.noConfusion

theorem not_gathering (hu : Travels u acc T) : (u.acc acc).state ≠ .gathering := by
  rcases hu.1 with h | h <;> rw [h] <;> exact AccState.noConfusion

theorem travels_unwait (hu : Travels u acc T) (who : Acc) : Travels (u.updAcc who AccRec.unwait) acc T := by
  refine travels_updAcc hu fun _ x hx => ?_
  unfold AccRec.unwait
  split
  · exact ⟨.inl rfl, rfl⟩
  · exact ⟨hx, rfl⟩

/-- Put-back reels with one of them given another place. -/
def directed (t : Trip) (k : Fin 3) (dst : Place) : Trip :=
  { t with putBacks := t.putBacks.map (fun b => if b.holder = k then { b with dst := dst } else b) }

theorem travels_setDst (hu : Travels u acc T) (hT : ∀ k t, ref = .putBack acc k → (u.acc acc).trip = some t → T t → T (directed t k dst)) :
    Travels (u.setDst ref dst) acc T := by
  cases ref with
  | record slot => exact travels_same hu rfl
  | putBack who k =>
    by_cases hwho : who = acc
    · subst hwho
      obtain ⟨hstate, tr, htr, hTtr⟩ := hu
      unfold State.setDst Travels
      rw [State.acc_updAcc_self]
      refine ⟨hstate, directed tr k dst, ?_, hT k tr rfl htr hTtr⟩
      exact congrArg (Option.map (fun t : Trip => directed t k dst)) htr
    · exact travels_same hu (State.acc_updAcc_other _ _ _ _ fun heq => hwho heq.symm)

/-- A put-back reel that has a place to go to needs no reservation. -/
theorem travels_reserveFor (hu : Travels u acc T) (hv : u.reserveFor ref = some v)
    (hT : ∀ k t p, ref = .putBack acc k → (u.acc acc).trip = some t → u.dstOf (.putBack acc k) = some (.shelf none)
      ∨ u.dstOf (.putBack acc k) = some (.station none) → T t → T (directed t k p)) : Travels v acc T := by
  unfold State.reserveFor State.reserveShelf State.reserveStation at hv
  split at hv
  next hdst =>
    obtain ⟨p, -, rfl⟩ := Option.map_eq_some_iff.mp hv
    exact travels_setDst (travels_same hu rfl) fun k t href htr hTt => hT k t _ href htr (.inl (href ▸ hdst)) hTt
  next hdst =>
    obtain ⟨p, -, rfl⟩ := Option.map_eq_some_iff.mp hv
    exact travels_setDst (travels_same hu rfl) fun k t href htr hTt => hT k t _ href htr (.inr (href ▸ hdst)) hTt
  next => exact Option.some.inj hv ▸ hu

theorem travels_awaitPosition (hu : Travels u acc T) (who : Acc) (x : Stop) : Travels (u.awaitPosition who x) acc T := by
  have hjoin : Travels (u.joinWait who x) acc T := travels_same hu (RailWork.acc_joinWait u who acc x)
  unfold State.awaitPosition
  dsimp only
  split
  · exact travels_updAcc hjoin fun _ x hx => ⟨hx, rfl⟩
  · exact hjoin

theorem travels_askZone (hu : Travels u acc T) (who : Acc) : Travels (u.askZone who) acc T := by
  unfold State.askZone
  split
  · exact hu
  · split
    · exact travels_same hu rfl
    · dsimp only
      refine travels_updAcc ?_ fun _ x hx => ?_
      · split
        · exact hu
        · exact travels_same hu rfl
      · split
        · exact ⟨.inr rfl, rfl⟩
        · exact ⟨hx, rfl⟩

theorem travels_given (hu : Travels u acc T) (who : Acc) (o : Order) :
    Travels ((u.updAcc who (fun x => { x with order := some o, todo := none })).send (.accessor who o)) acc T := by
  have hgiven : Travels (u.updAcc who (fun x => { x with order := some o, todo := none })) acc T := travels_updAcc hu fun _ x hx => ⟨hx, rfl⟩
  exact travels_same hgiven rfl

theorem travels_sendOrder (hu : Travels u acc T) (who : Acc) (n : NextOrder) : Travels (u.sendOrder who n) acc T := by
  unfold State.sendOrder
  dsimp only
  split
  · next slot _ =>
      have hleg : Travels (u.updLeg slot (fun l => { l with inHand := true })) acc T := travels_same hu rfl
      exact travels_given hleg who _
  · exact travels_given hu who _

theorem travels_sendNext (hu : Travels u acc T) (who : Acc) : Travels (u.sendNext who) acc T := by
  have hpass {v : State} (hv : Travels v acc T) (n : NextOrder) : Travels (v.passGates who n) acc T := by
    unfold State.passGates
    split
    · dsimp only
      split
      · exact travels_sendOrder (travels_unwait hv who) who n
      · exact travels_unwait hv who
    · exact hv
  unfold State.sendNext
  split
  · exact hu
  · unfold State.tryOrder
    split
    · exact hpass (travels_askZone hu who) _
    · exact hpass hu _

/-! ## Trips whose kind every move keeps -/

/-- What a kind of trip needs so that every move keeps it: a stop is left, a reservation of a put-back reel keeps it, and so does the
bringing of a stop to the head. -/
structure KeepsTrip (acc : Acc) (T : Trip → Prop) : Prop where
  stops : ∀ t, T t → t.stops ≠ []
  directed : ∀ u t k p, Travels u acc T → (u.acc acc).trip = some t → u.dstOf (.putBack acc k) = some (.shelf none)
    ∨ u.dstOf (.putBack acc k) = some (.station none) → T (directed t k p)
  brings : ∀ u, Travels u acc T → Travels (u.bringStop acc) acc T

theorem travels_chooseStop_other (hkept : KeepsTrip acc T) (hne : who ≠ acc) (behind stops : List Stop) (hu : Travels u acc T) :
    Travels (u.chooseStop who behind stops) acc T := by
  have hupd {v : State} (hv : Travels v acc T) (l : List Stop) : Travels (v.updStops who (fun _ => l)) acc T :=
    travels_updAcc hv fun heq => absurd heq hne
  induction stops generalizing behind with
  | nil =>
    cases behind with
    | nil => exact hu
    | cons x rest => exact travels_awaitPosition hu who x
  | cons x rest ih =>
    unfold State.chooseStop
    split
    · split
      next v hv =>
        exact hupd (travels_reserveFor hu hv fun k t p _ htr hdst _ => hkept.directed u t k p hu htr hdst) _
      next => exact ih _
    · exact hupd hu _

theorem travels_move (hkept : KeepsTrip acc T) (hu : Travels u acc T) (hmove : Move u v) : Travels v acc T := by
  have hother {w : State} (hw : w.acc acc = u.acc acc) : Travels w acc T := travels_same hu hw
  cases hmove with
  | prunes who =>
    unfold State.pruneZone
    split
    · exact travels_unwait (u := { u with rail := { u.rail with zoneWait := u.rail.zoneWait.filter (fun x => x ≠ who) } }) (hother rfl) who
    · exact hu
  | ends who =>
    by_cases hwho : who = acc
    · subst hwho
      obtain ⟨-, tr, htr, hTtr⟩ := hu
      have hno : u.endTrip who = u := by
        unfold State.endTrip
        dsimp only
        refine if_neg fun hend => hkept.stops tr hTtr ?_
        rw [htr] at hend
        simpa using ((Bool.and_eq_true _ _).mp hend).2
      rw [hno]
      exact hother rfl
    · have hidle (w : State) (f : AccRec → AccRec) (hw : Travels w acc T) : Travels ((w.updAcc who f).idleOrPark who) acc T := by
        have hf := travels_updAcc (f := f) hw fun heq => absurd heq hwho
        unfold State.idleOrPark
        split
        · exact travels_updAcc hf fun heq => absurd heq hwho
        · have hidled := travels_updAcc (f := fun x => { x with state := .idle, faults := 0 }) hf fun heq => absurd heq hwho
          unfold State.releaseZone
          split
          · exact travels_same hidled rfl
          · exact hidled
      unfold State.endTrip
      dsimp only
      split
      · exact hidle u _ hu
      · exact hu
  | grants =>
    unfold State.zoneGrant
    split
    · exact hu
    next first rest _ =>
      split
      · exact travels_unwait (u := { u with rail := { u.rail with zone := some first, zoneWait := rest } }) (hother rfl) first
      · exact hu
  | brings who =>
    by_cases hwho : who = acc
    · subst hwho
      exact hkept.brings u hu
    · unfold State.bringStop
      dsimp only
      split
      · exact travels_chooseStop_other hkept hwho _ _ hu
      · exact hu
  | sends who => exact travels_sendNext hu who
  | resumes who =>
    unfold State.auditResume
    split
    · split
      · exact hother rfl
      · exact hu
    · exact hu
  | takes who q rest hcan hreqs =>
    have hne : who ≠ acc := fun heq => not_idle hu (heq ▸ (RailWork.of_free (RailWork.canTakeScan_free hcan)).1)
    exact travels_updAcc (u := ({ u with rail := { u.rail with scanReqs := rest } } : State).updPos q.pos (fun x => { x with scan := .inFlight q.kind }))
      (hother rfl) fun heq => absurd heq hne
  | scans who x c hfree hnone hx hscanning hcursor =>
    have hne : who ≠ acc := fun heq => not_idle hu (heq ▸ (RailWork.of_free hfree).1)
    exact travels_updAcc (u := u.updAudit who (fun x => { x with inFlight := true })) (hother rfl) fun heq => absurd heq hne
  | opens who hfree hany =>
    have hne : who ≠ acc := fun heq => not_idle hu (heq ▸ (RailWork.of_free hfree).1)
    exact travels_updAcc hu fun heq => absurd heq hne
  | fills who hgather =>
    have hne : who ≠ acc := fun heq => not_gathering hu (heq ▸ hgather)
    obtain ⟨legs, -, -, hjoins⟩ := tripFill_joins u who
    have hacc : acc = otherAcc who := by cases who <;> cases acc <;> simp_all [otherAcc]
    exact hother (hacc ▸ hjoins.other)
  | starts who hdue =>
    have hgather : (u.acc who).state = .gathering := (Trips.startDue_iff.mp hdue).1
    have hne : who ≠ acc := fun heq => not_gathering hu (heq ▸ hgather)
    exact travels_updAcc hu fun heq => absurd heq hne
  | parks who hidle hscan horder htodo hmiddle hpark =>
    have hne : who ≠ acc := fun heq => not_idle hu (heq ▸ hidle)
    unfold State.idleOrPark
    rw [if_pos hmiddle]
    exact travels_updAcc hu fun heq => absurd heq hne

/-! ## The reel that was put back -/

/-- A stop is left, and the reel is in its holder to be put back. -/
def Holds (h : Fin 3) (z : Serial) (t : Trip) : Prop := t.stops ≠ [] ∧ ∃ b ∈ t.putBacks, b.holder = h ∧ b.serial = z

/-- It is the only one of its holder, it goes to its cell, and its stop is the next. -/
def First (acc : Acc) (h : Fin 3) (z : Serial) (c : Cell) (t : Trip) : Prop :=
  t.stops.head? = some ⟨.place, .putBack acc h⟩ ∧ (⟨h, z, .cell c⟩ : PutBack) ∈ t.putBacks ∧ ∀ b ∈ t.putBacks, b.holder = h → b.dst = .cell c

theorem holds_directed {t : Trip} (ht : Holds h z t) (k : Fin 3) (p : Place) : Holds h z (directed t k p) := by
  obtain ⟨hstops, b, hb, hholder, hserial⟩ := ht
  refine ⟨hstops, _, List.mem_map_of_mem hb, ?_, ?_⟩
  · split <;> exact hholder
  · split <;> exact hserial

theorem travels_updStops {x : Stop} {l : List Stop} (hu : Travels u acc (Holds h z)) : Travels (u.updStops acc (fun _ => x :: l)) acc (Holds h z) := by
  obtain ⟨hstate, tr, htr, -, hb⟩ := hu
  unfold State.updStops Travels
  rw [State.acc_updAcc_self]
  exact ⟨hstate, { tr with stops := x :: l }, congrArg (Option.map fun t : Trip => { t with stops := x :: l }) htr, List.cons_ne_nil x l, hb⟩

theorem kept_holds : KeepsTrip acc (Holds h z) where
  stops t ht := ht.1
  directed u t k p hu htr hdst := by
    obtain ⟨-, tr, htr', hT⟩ := hu
    cases htr.symm.trans htr'
    exact holds_directed hT k p
  brings u hu := by
    have hchoose (behind stops : List Stop) : Travels (u.chooseStop acc behind stops) acc (Holds h z) := by
      induction stops generalizing behind with
      | nil =>
        cases behind with
        | nil => exact hu
        | cons x rest => exact travels_awaitPosition hu acc x
      | cons x rest ih =>
        unfold State.chooseStop
        split
        · split
          next v hv => exact travels_updStops (travels_reserveFor hu hv fun k t p _ _ _ ht => holds_directed ht k p)
          next => exact ih _
        · exact travels_updStops hu
    unfold State.bringStop
    dsimp only
    split
    · exact hchoose _ _
    · exact hu

theorem dstOf_first {tr : Trip} (htr : (u.acc acc).trip = some tr) (hfirst : First acc h z c tr) : u.dstOf (.putBack acc h) = some (.cell c) := by
  obtain ⟨-, hmem, hall⟩ := hfirst
  unfold State.dstOf
  dsimp only
  rw [htr, Option.bind_some]
  cases hfind : tr.putBacks.find? (fun b => decide (b.holder = h)) with
  | none =>
    have hno := List.find?_eq_none.mp hfind _ hmem
    simp at hno
  | some b => rw [Option.map_some, hall b (List.mem_of_find?_eq_some hfind) (of_decide_eq_true (List.find?_some hfind :))]

theorem kept_first : KeepsTrip acc (First acc h z c) where
  stops t ht hnil := by
    rw [First, hnil] at ht
    cases ht.1
  directed u t k p hu htr hdst := by
    obtain ⟨-, tr, htr', hfirst⟩ := hu
    cases htr.symm.trans htr'
    have hk : k ≠ h := fun heq => by
      rw [heq, dstOf_first htr hfirst] at hdst
      rcases hdst with hdst | hdst <;> cases hdst
    obtain ⟨hhead, hmem, hall⟩ := hfirst
    refine ⟨hhead, List.mem_map.mpr ⟨_, hmem, if_neg fun heq => hk heq.symm⟩, fun b hb hholder => ?_⟩
    obtain ⟨b', hb', rfl⟩ := List.mem_map.mp hb
    by_cases hb'k : b'.holder = k
    · rw [if_pos hb'k] at hholder
      exact absurd (hb'k.symm.trans hholder) hk
    · rw [if_neg hb'k] at hholder ⊢
      exact hall b' hb' hholder
  brings u hu := by
    have hu' := hu
    obtain ⟨hstate, tr, htr, hfirst⟩ := hu
    unfold State.bringStop
    dsimp only
    split
    · have hstops : u.stops acc = tr.stops := by
        unfold State.stops
        rw [htr]
        rfl
      obtain ⟨rest, hrest⟩ : ∃ rest, tr.stops = ⟨.place, .putBack acc h⟩ :: rest := by
        cases hs : tr.stops with
        | nil => rw [First, hs] at hfirst; cases hfirst.1
        | cons x rest =>
          have hhead := hfirst.1
          rw [hs, List.head?_cons, Option.some.injEq] at hhead
          exact ⟨rest, by rw [hhead]⟩
      have hreserved : u.unreserved ⟨.place, .putBack acc h⟩ = false := by
        unfold State.unreserved
        dsimp only
        rw [dstOf_first htr hfirst]
      have hbrought : u.chooseStop acc [] (u.stops acc) = u.updStops acc (fun _ => tr.stops) := by
        rw [hstops, hrest]
        unfold State.chooseStop
        rw [if_neg (by rw [hreserved]; exact Bool.false_ne_true), List.append_nil]
      rw [hbrought]
      unfold State.updStops Travels
      rw [State.acc_updAcc_self]
      exact ⟨hstate, tr, congrArg (Option.map fun t : Trip => { t with stops := tr.stops }) htr, hfirst⟩
    · exact hu'

end PutBacks

end Sys2Proof
end

section
/-! PROOFS. What lasts of PICK_COMPLETION, by what it reads and where (R15, R79, R104, R105). -/

namespace Sys2Proof

namespace PickCommand

open Machine Safety Upkeep Settling Posting Events Reservation DriveTable Ending Withdrawal Expiry RailMoves Picking PutBacks

variable {s b t u v w : State} {acc : Acc} {h : Fin 3} {n : Nat} {l : Leg} {r q : Rec} {x y z : Serial} {e : Entry} {c : Cell} {d : Fin 16}
  {o : Order} {k : FinalOutcome} {tr : Trip} {T : Trip → Prop} {dst : Place} {next : Option Leg}

/-! ## The end of the event -/

theorem calm_of_lasting (hl : lasting t = lasting u) (hu : calm u) : calm t :=
  ⟨noneWaits_of_lasting hl hu.1, (raised_of_lasting hl).trans hu.2⟩

theorem commit_of_lasting (hl : lasting t = lasting u) (hu : calm u) : lasting t.commit = lasting u :=
  (Machine.lasting_commit (calm_of_lasting hl hu)).trans hl

/-- A record written as one that does not wait leaves the link unit calm. -/
theorem calm_updRec (hs : calm s) (hq : q.waits = false) (hrecs : u.recs = (s.updRec n (fun _ => q)).recs) (hraised : u.raised = s.raised) : calm u := by
  refine ⟨fun x hx => ?_, hraised.trans hs.2⟩
  rw [hrecs] at hx
  exact noneWaits_updRec hs.1 hq x hx

/-- A record that ends waits for its frames: with no room for them the rail scheduler alone works on. -/
theorem moves_ended (hcalm : calm v) (hr : v.rec? n = some r) (hroom : v.link.available < 2) : Moves (v.enterPosting n) (v.enterPosting n).commit := by
  have hlast := lasting_railSettle (v.enterPosting n)
  have hshort : (v.enterPosting n).railSettle.serveOldest = (v.enterPosting n).railSettle := by
    refine Serving.serveOldest_short fun q hq => ?_
    have hmap := oldestWaiting_of_lasting hlast
    rw [hq, Option.map_some, oldestWaiting_enterPosting hcalm.1 hr, Option.map_some, Option.some.injEq] at hmap
    have hneeds : q.needs = (posted v r).needs := (congrArg Rec.needs hmap :)
    rw [link_of_lasting hlast, available_enterPosting, hneeds, needs_posted (hcalm.1 r (List.mem_of_find?_eq_some hr))]
    exact hroom
  have hraised : nothingRaised (v.enterPosting n).railSettle := by
    have hnone : nothingRaised (v.enterPosting n) := by
      rw [enterPosting_eq hr, built_eq]
      exact hcalm.2
    exact (raised_of_lasting hlast).trans hnone
  unfold State.commit
  rw [State.serveWaiting, serveUpTo_of_fixed hshort, offerNotices_of_nothingRaised hraised]
  exact (moves_railSettle _).trans (moves_railSettle _)

/-! ## The place left -/

theorem leaving_recs (u : State) (src : Place) : (leaving s r src u).recs = u.recs ∧ (leaving s r src u).raised = u.raised := by
  unfold leaving
  split
  · exact ⟨rfl, rfl⟩
  · unfold atSource
    split <;> exact ⟨rfl, rfl⟩

theorem vacated_recs (u : State) (src : Place) : (vacated r src u).recs = u.recs ∧ (vacated r src u).raised = u.raised := by
  unfold vacated
  split
  · exact ⟨rfl, rfl⟩
  · unfold atSource
    split <;> exact ⟨rfl, rfl⟩

/-- What is left before the directory takes note of the reel is left after it. -/
theorem vacated_tracked (u : State) (src : Place) : vacated r src (tracked z e acc h u) = tracked z e acc h (vacated r src u) := by
  unfold vacated
  split
  · rfl
  · unfold atSource
    split <;> rfl

theorem entry?_dirMissing (hne : z ≠ x) : ({ s with dir := dirMissing s.dir (some x) } : State).entry? z = s.entry? z := by
  have hserial (f : Entry) : (if some f.serial = some x then { f with loc := Location.missing } else f).serial = f.serial := by
    split <;> rfl
  have hcomp : (fun f : Entry => decide (f.serial = z)) ∘ (fun f : Entry => if some f.serial = some x then { f with loc := .missing } else f)
      = fun f => decide (f.serial = z) := funext fun f => by rw [Function.comp_apply, hserial]
  show (dirMissing s.dir (some x)).find? _ = _
  unfold dirMissing
  rw [List.find?_map, hcomp]
  cases he : s.dir.find? (fun f => decide (f.serial = z)) with
  | none => rw [State.entry?, he]; rfl
  | some e =>
    have hz : e.serial = z := of_decide_eq_true (List.find?_some he :)
    have hex : ¬some e.serial = some x := fun heq => hne (hz ▸ Option.some.inj heq)
    rw [State.entry?, he, Option.map_some, if_neg hex]

section Command

variable (hp : Picks s acc o n h r l) (hcalm : calm s) (hclaims : noClaims s) (hfinds : ∀ d, r.drive = some d → findsNothing s d)
include hp hcalm

theorem notWaiting : r.waits = false := hcalm.1 r (List.mem_of_find?_eq_some hp.found)

include hclaims hfinds

/-- The expected serial (R104). -/
theorem expected (hexp : l.expected = some y) (he : s.entry? y = some e) :
    ∃ t, exec (.pickCompletion acc (some y)) s = .next t ∧ ((∀ who, n ∉ s.rail.queues.get who) → (t.leg? n).map (·.state) = some .aboard)
      ∧ lasting t = lasting (leaving s r l.src (tracked y e acc h
          (((s.updRec n (fun _ => { r with drive := if l.src.isDrive then none else r.drive, leg := some { l with holder := some h } })).updAcc acc
            (fun x => { x with column := o.col })).setHolder acc h (.reel y)))) := by
  obtain rfl := hp.acc
  obtain rfl := hp.slot
  have hwaits := notWaiting hp hcalm
  have hexec := hp.exec (some y)
  rw [picked_expected hexp] at hexec
  have hlast := pickExpected_lasting (h := h) (hp.begins hclaims hfinds) he
  have hrest := leaving_recs (s := s) (r := r) (tracked y e l.acc h (((s.updRec r.slot (fun _ => { r with
    drive := if l.src.isDrive then none else r.drive, leg := some { l with holder := some h } })).updAcc l.acc
      (fun x => { x with column := o.col })).setHolder l.acc h (.reel y))) l.src
  have hcalm' := calm_updRec (q := { r with drive := if l.src.isDrive then none else r.drive, leg := some { l with holder := some h } })
    hcalm hwaits hrest.1 hrest.2
  exact ⟨_, hexec, fun hout => aboard_commit (calm_of_lasting hlast hcalm') (aboard_pickExpected hp hout (hp.quiet hclaims hfinds) y),
    commit_of_lasting hlast hcalm'⟩

/-- Nothing is read (R104). -/
theorem empty (hroom : s.link.available < 2) : ∃ t, exec (.pickCompletion acc none) s = .next t
    ∧ endsIn t (vacated r l.src { s.updAcc acc (fun x => { x with column := o.col }) with dir := dirMissing s.dir l.expected }) r .volumeMissing := by
  obtain rfl := hp.acc
  obtain rfl := hp.slot
  have hb := hp.begins hclaims hfinds
  have hexec := hp.exec none
  rw [picked_none] at hexec
  obtain ⟨w, hw⟩ : ∃ w, w = (begun s l.acc o r.slot).expectedMissing l := ⟨_, rfl⟩
  have hweq := hw.trans (expectedMissing_eq (begun s l.acc o r.slot) l)
  have hwlast : lasting w = lasting { s.updAcc l.acc (fun x => { x with column := o.col }) with dir := dirMissing s.dir l.expected } := by
    rw [hweq, hb.dir]
    exact lasting_setDir _ hb.last
  have hwclaims : noClaims w := hweq ▸ hb.claims
  have hwrec : w.rec? r.slot = some r := hweq ▸ hb.found
  have hwfinds (d : Fin 16) (hd : r.drive = some d) : findsNothing w d := hweq ▸ hb.finds d hd
  obtain ⟨v, hv, hvlast, -⟩ := pickEnds_eq hwclaims hwrec hp.leg hwfinds l.src .volumeMissing
  have hends : (begun s l.acc o r.slot).pickEmpty r.slot l = v.enterPosting r.slot := by
    rw [← hv, hw]
    rfl
  rw [hends] at hexec
  obtain ⟨u, hu⟩ : ∃ u, u = vacated r l.src { s.updAcc l.acc (fun x => { x with column := o.col }) with dir := dirMissing s.dir l.expected } := ⟨_, rfl⟩
  have hurest := vacated_recs (r := r) { s.updAcc l.acc (fun x => { x with column := o.col }) with dir := dirMissing s.dir l.expected } l.src
  rw [← hu] at hurest
  have hvu : lasting v = lasting (u.updRec r.slot (fun _ => givenUp r .volumeMissing)) := by
    rw [hvlast, hu, ← vacated_updRec, ← vacated_updRec]
    exact lasting_vacated (lasting_toRec rfl hwlast)
  have hulink : u.link = s.link := by
    rw [hu]
    unfold vacated
    split
    · rfl
    · unfold atSource
      split <;> rfl
  refine ⟨_, hexec, ?_⟩
  rw [← hu]
  refine ended_commit ⟨fun x hx => hcalm.1 x (hurest.1 ▸ hx), hurest.2.trans hcalm.2⟩ (by rw [hulink]; exact hroom) hp.found hurest.1 hvu

/-- Another reel is read in a cell: the record ends, and the reel goes back first (R105). -/
theorem wrongCell (hsrc : l.src = .cell c) (hexp : l.expected = some x) (hne : z ≠ x) (hroom : s.link.available < 2)
    (hrunning : (s.acc acc).state = .running) (htr : (s.acc acc).trip = some tr) :
    ∃ t tr', exec (.pickCompletion acc (some z)) s = .next t
      ∧ endsIn t { (s.updAcc acc (fun x => { x with column := o.col })).setHolder acc h (.reel z) with
          dir := dirFound (dirMissing s.dir (some x)) z c, drives := freedDrives s.drives r.drive false } r .wrongVolume
      ∧ (t.acc acc).trip = some tr' ∧ (∃ b ∈ tr'.putBacks, b.holder = h ∧ b.serial = z)
      ∧ ((∀ b ∈ tr.putBacks, b.holder ≠ h) → tr'.stops.head? = some ⟨.place, .putBack acc h⟩ ∧ (⟨h, z, .cell c⟩ : PutBack) ∈ tr'.putBacks) := by
  obtain rfl := hp.acc
  obtain rfl := hp.slot
  have hb := hp.begins hclaims hfinds
  have hgather : (s.acc l.acc).state ≠ .gathering := by rw [hrunning]; exact AccState.noConfusion
  have hexec := hp.exec (some z)
  rw [picked_wrongCell hsrc hexp hne] at hexec
  obtain ⟨w, hw⟩ : ∃ w, w = puttingBack (begun s l.acc o r.slot) l h c z := ⟨_, rfl⟩
  have hweq := hw.trans (puttingBack_eq (begun s l.acc o r.slot) l h c z)
  obtain ⟨u, hu⟩ : ∃ u, u = ({ (s.updAcc l.acc (fun x => { x with column := o.col })).setHolder l.acc h (.reel z) with
    dir := dirFound (dirMissing s.dir (some x)) z c, drives := freedDrives s.drives r.drive false } : State) := ⟨_, rfl⟩
  have hholds : lasting ((begun s l.acc o r.slot).updAcc l.acc (fun a => holdsWrong a l.acc h z c))
      = lasting ((s.updAcc l.acc (fun x => { x with column := o.col })).setHolder l.acc h (.reel z)) := by
    have hboth := updAcc_updAcc (begun s l.acc o r.slot) l.acc (fun a => { a with holders := a.holders.set h (.reel z) }) (fun a => { a with
      trip := a.trip.map (fun t => { t with
        putBacks := t.putBacks ++ [{ holder := h, serial := z, dst := .cell c }], stops := ⟨.place, .putBack l.acc h⟩ :: t.stops }) })
    rw [← lasting_holder (.reel z) hb.last]
    exact (congrArg lasting hboth.symm).trans (lasting_updAcc _ _ _ fun _ => rfl)
  have hwlast : lasting w = lasting { (s.updAcc l.acc (fun x => { x with column := o.col })).setHolder l.acc h (.reel z) with
      dir := dirFound (dirMissing s.dir (some x)) z c } := by
    rw [hweq, hb.dir, hexp]
    exact lasting_setDir _ hholds
  have hwclaims : noClaims w := hweq ▸ hb.claims
  have hwrec : w.rec? r.slot = some r := hweq ▸ hb.found
  have hwfinds (d : Fin 16) (hd : r.drive = some d) : findsNothing w d := hweq ▸ hb.finds d hd
  obtain ⟨v, hv, hvlast, hvaccs⟩ := pickEnds_eq hwclaims hwrec hp.leg hwfinds l.src .wrongVolume
  have hends : (begun s l.acc o r.slot).pickWrongCell r.slot l h c z = v.enterPosting r.slot := by
    rw [← hv, hw]
    rfl
  rw [hends] at hexec
  have hvu : lasting v = lasting (u.updRec r.slot (fun _ => givenUp r .wrongVolume)) := by
    have hvacated : vacated r (.cell c) ({ (s.updAcc l.acc (fun x => { x with column := o.col })).setHolder l.acc h (.reel z) with
        dir := dirFound (dirMissing s.dir (some x)) z c } : State) = u := hu.symm
    rw [hvlast, hsrc, ← hvacated, ← vacated_updRec, ← vacated_updRec]
    exact lasting_vacated (lasting_toRec rfl hwlast)
  have hurecs : u.recs = s.recs := by rw [hu]; rfl
  have hucalm : calm u := ⟨fun x hx => hcalm.1 x (hurecs ▸ hx), by rw [hu]; exact hcalm.2⟩
  have huroom : u.link.available < 2 := by rw [hu]; exact hroom
  have hurec : u.rec? r.slot = some r := by
    rw [State.rec?, hurecs]
    exact hp.found
  have hwaits := notWaiting hp hcalm
  have hgone : (givenUp r .wrongVolume).waits = false := hwaits
  have hvcalm : calm v := calm_of_lasting hvu (calm_updRec (q := givenUp r .wrongVolume) hucalm hgone rfl rfl)
  obtain ⟨p, hvrec, -⟩ := Ending.rec?_of_lasting hvu (rec?_updRec_const (q := givenUp r .wrongVolume) hurec rfl)
  have hvroom : v.link.available < 2 := by
    rw [link_of_lasting hvu]
    exact huroom
  have hmoves := moves_ended hvcalm hvrec hvroom
  have haccs : (v.enterPosting r.slot).acc l.acc = { stopEnded (s.acc l.acc) o r.slot with
      holders := (stopEnded (s.acc l.acc) o r.slot).holders.set h (.reel z), trip := some (goesOn tr l.acc r.slot h z c) } := by
    have hkeeps : (v.enterPosting r.slot).rail = v.rail := by
      rw [enterPosting_eq hvrec, built_eq]
      rfl
    have hself : v.acc l.acc = tripLeft r.slot (w.acc l.acc) := by
      rw [State.acc, hvaccs, PerAcc.get_set_self]
    rw [State.acc, hkeeps]
    exact hself.trans ((congrArg (tripLeft r.slot) ((congrArg (fun u => u.acc l.acc) hw).trans (acc_puttingBack hp z))).trans
      (tripLeft_holdsWrong htr hgather))
  have hstate : ((v.enterPosting r.slot).acc l.acc).state = .running := (congrArg AccRec.state haccs :).trans hrunning
  have htrip : ((v.enterPosting r.slot).acc l.acc).trip = some (goesOn tr l.acc r.slot h z c) := congrArg AccRec.trip haccs
  have hmem : (⟨h, z, .cell c⟩ : PutBack) ∈ (goesOn tr l.acc r.slot h z c).putBacks := List.mem_append_right _ (List.mem_singleton.mpr rfl)
  have hholdsTrip : Travels (v.enterPosting r.slot) l.acc (Holds h z) := ⟨.inl hstate, _, htrip, List.cons_ne_nil _ _, _, hmem, rfl, rfl⟩
  obtain ⟨-, tr', htr', -, hmem'⟩ := hmoves.keeps (fun _ _ hw hmove => travels_move kept_holds hw hmove) hholdsTrip
  refine ⟨_, tr', hexec, ?_, htr', hmem', fun hfirst => ?_⟩
  · rw [← hu]
    exact ended_commit hucalm huroom hp.found hurecs hvu
  · have hfirstTrip : Travels (v.enterPosting r.slot) l.acc (First l.acc h z c) := by
      refine ⟨.inl hstate, _, htrip, rfl, hmem, fun b hbmem hholder => ?_⟩
      rcases List.mem_append.mp hbmem with hbmem | hbmem
      · exact absurd hholder (hfirst b hbmem)
      · rw [List.mem_singleton.mp hbmem]
    obtain ⟨-, tr'', htr'', hhead, hmem'', -⟩ := hmoves.keeps (fun _ _ hw hmove => travels_move kept_first hw hmove) hfirstTrip
    cases htr'.symm.trans htr''
    exact ⟨hhead, hmem''⟩

/-- Another reel is read elsewhere: the leg takes it to the station (R105). -/
theorem wrongPlace (hsrc : ∀ c, l.src ≠ .cell c) (hexp : l.expected = some x) (hne : z ≠ x) (took : State)
    (htook : took = vacated r l.src (((({ s with dir := dirMissing s.dir (some x) } : State).updAcc acc
      (fun x => { x with column := o.col })).setHolder acc h (.reel z)).updRec n (fun _ => misled r l h))) :
    ∃ t, exec (.pickCompletion acc (some z)) s = .next t ∧ ((∀ who, n ∉ s.rail.queues.get who) → (t.leg? n).map (·.state) = some .aboard)
      ∧ (s.entry? z = none ∨ s.heldByOther n z = true → lasting t = lasting took)
      ∧ (∀ e, s.entry? z = some e → s.heldByOther n z = false → lasting t = lasting (tracked z e acc h took)) := by
  obtain rfl := hp.acc
  obtain rfl := hp.slot
  have hb := hp.begins hclaims hfinds
  have hexec := hp.exec (some z)
  rw [picked_wrongPlace hsrc hexp hne] at hexec
  have hwaits := notWaiting hp hcalm
  obtain ⟨w, hw⟩ : ∃ w, w = (begun s l.acc o r.slot).pickedOther r.slot l.expected z l.acc h := ⟨_, rfl⟩
  obtain ⟨m, hm⟩ : ∃ m, m = ({ begun s l.acc o r.slot with dir := dirMissing s.dir (some x) } : State) := ⟨_, rfl⟩
  have hwm : w = if s.heldByOther r.slot z then m else m.pickedUp z l.acc h := by
    rw [hw, hexp, pickedOther_eq, hb.dir, ← hm, heldByOther_begins hb]
  have hmfound : m.rec? r.slot = some r := hm ▸ hb.found
  have hmclaims : noClaims m := hm ▸ hb.claims
  have hmfinds (d : Fin 16) (hd : r.drive = some d) : findsNothing m d := hm ▸ hb.finds d hd
  have hmentry : m.entry? z = s.entry? z := by rw [hm]; exact entry?_dirMissing hne
  have hmlast : lasting m = lasting (({ s with dir := dirMissing s.dir (some x) } : State).updAcc l.acc (fun x => { x with column := o.col })) := by
    rw [hm]
    exact lasting_setDir _ hb.last
  have hpicked : (begun s l.acc o r.slot).pickWrongPlace r.slot l h z
      = ((((w.takeAboard r.slot l.acc h z).setOutcome r.slot .wrongVolume).placeEmptied r.slot l.src).releaseDrive r.slot false).divert r.slot := by
    rw [hw]
    rfl
  have htaken {v : State} (hv : lasting v = lasting m) :
      lasting (vacated r l.src ((v.setHolder l.acc h (.reel z)).updRec r.slot (fun _ => misled r l h))) = lasting took := by
    rw [htook]
    exact lasting_vacated (lasting_toRec rfl (lasting_holder (.reel z) (hv.trans hmlast)))
  have hrest := vacated_recs (r := r) (((({ s with dir := dirMissing s.dir (some x) } : State).updAcc l.acc
    (fun x => { x with column := o.col })).setHolder l.acc h (.reel z)).updRec r.slot (fun _ => misled r l h)) l.src
  rw [← htook] at hrest
  have htookCalm : calm took := calm_updRec (q := misled r l h) hcalm hwaits hrest.1 hrest.2
  have hout (hnot : s.entry? z = none ∨ s.heldByOther r.slot z = true) :
      lasting ((begun s l.acc o r.slot).pickWrongPlace r.slot l h z) = lasting took := by
    have hsame : w = m := by
      rw [hwm]
      split
      · rfl
      next hheld => exact pickedUp_nothing (hmentry.trans (hnot.resolve_right hheld))
    rw [hpicked, hsame, wrongPlace_lasting hmclaims hmfound hp.leg hmfinds]
    exact htaken rfl
  have hin (e : Entry) (he : s.entry? z = some e) (hheld : s.heldByOther r.slot z = false) :
      lasting ((begun s l.acc o r.slot).pickWrongPlace r.slot l h z) = lasting (tracked z e l.acc h took) := by
    have htracked : w = tracked z e l.acc h m := by
      rw [hwm, hheld]
      exact pickedUp_eq (hmentry.trans he)
    rw [hpicked, htracked, wrongPlace_lasting (w := tracked z e l.acc h m) hmclaims hmfound hp.leg hmfinds]
    have hsplit : vacated r l.src (((tracked z e l.acc h m).setHolder l.acc h (.reel z)).updRec r.slot (fun _ => misled r l h))
        = tracked z e l.acc h (vacated r l.src ((m.setHolder l.acc h (.reel z)).updRec r.slot (fun _ => misled r l h))) :=
      vacated_tracked ((m.setHolder l.acc h (.reel z)).updRec r.slot (fun _ => misled r l h)) l.src
    rw [hsplit]
    exact lasting_tracked (htaken rfl)
  have hcalm' : calm ((begun s l.acc o r.slot).pickWrongPlace r.slot l h z) := by
    cases he : s.entry? z with
    | none => exact calm_of_lasting (hout (.inl he)) htookCalm
    | some e =>
      cases hheld : s.heldByOther r.slot z with
      | true => exact calm_of_lasting (hout (.inr hheld)) htookCalm
      | false => exact calm_of_lasting (u := tracked z e l.acc h took) (hin e he hheld) htookCalm
  refine ⟨_, hexec, fun hqueues => aboard_commit hcalm' (aboard_pickWrongPlace hp hqueues (hp.quiet hclaims hfinds) z), fun hnot => ?_, fun e he hheld => ?_⟩
  · exact (Machine.lasting_commit hcalm').trans (hout hnot)
  · exact (Machine.lasting_commit hcalm').trans (hin e he hheld)

/-- The reel of a RETURN record (R79), which the directory does not take note of. -/
theorem returnLeft (hsrc : l.src = .drive d) (hexp : l.expected = none) (hout : s.entry? y = none ∨ s.heldByOther n y = true) :
    ∃ t, exec (.pickCompletion acc (some y)) s = .next t ∧ ((∀ who, n ∉ s.rail.queues.get who) → (t.leg? n).map (·.state) = some .aboard)
      ∧ lasting t = lasting (carried s r l h y o.col l.dst r.nextLeg) := by
  obtain rfl := hp.acc
  obtain rfl := hp.slot
  have hexec := hp.exec (some y)
  rw [picked_return hsrc hexp] at hexec
  have hlast := pickReturn_left (h := h) (d := d) (hp.begins hclaims hfinds) hout
  have hwaits := notWaiting hp hcalm
  have hcalm' := calm_updRec (u := carried s r l h y o.col l.dst r.nextLeg) (q := { r with
    drive := none, serial := some y, leg := some { l with holder := some h, dst := l.dst }, nextLeg := r.nextLeg }) hcalm hwaits rfl rfl
  exact ⟨_, hexec, fun hqueues => aboard_commit (calm_of_lasting hlast hcalm') (aboard_pickReturn hp hqueues (hp.quiet hclaims hfinds) d y),
    commit_of_lasting hlast hcalm'⟩

omit hp hcalm hclaims hfinds in
/-- Where the directory's note of a RETURN reel has it settled to go (R79). -/
theorem settled (s : State) (r : Rec) (l : Leg) (h : Fin 3) (d : Fin 16) (y : Serial) (e : Entry) : ∃ (dst : Place) (next : Option Leg),
    (∀ v : State, noClaims v → v.rec? r.slot = some r → v.emptyShelf = s.emptyShelf →
      (v.updRec r.slot (fun _ => returning r l h y l.dst r.nextLeg)).homeOf y = e.home →
      lasting ((v.updRec r.slot (fun _ => returning r l h y l.dst r.nextLeg)).settleReturn r.slot d y true)
        = lasting (v.updRec r.slot (fun _ => returning r l h y dst next)))
    ∧ (e.home = none → dst = l.dst ∧ next = r.nextLeg)
    ∧ (∀ c, e.home = some c → nearDrive c d = true → dst = .cell c ∧ next = r.nextLeg)
    ∧ (∀ c, e.home = some c → nearDrive c d = false → s.emptyShelf.isSome = true →
        dst = .shelf none ∧ next = some { legOf r (accOfColumn c.col) (.shelf none) (.cell c) with expected := some y })
    ∧ (∀ c, e.home = some c → nearDrive c d = false → s.emptyShelf = none → dst = l.dst ∧ next = r.nextLeg) := by
  have hnowhere {v : State} (hno : v.settleReturn r.slot d y true = v) : lasting (v.settleReturn r.slot d y true) = lasting v := congrArg lasting hno
  cases hhome : e.home with
  | none =>
    refine ⟨l.dst, r.nextLeg, fun v hvclaims hvrec hvshelf hvhome => hnowhere ?_, fun _ => ⟨rfl, rfl⟩, fun c hc => ?_, fun c hc => ?_, fun c hc => ?_⟩
    · unfold State.settleReturn
      simp only [if_true, hvhome]
    all_goals cases hc
  | some c =>
    cases hnear : nearDrive c d with
    | true =>
      refine ⟨.cell c, r.nextLeg, fun v hvclaims hvrec hvshelf hvhome => settleReturn_near hvclaims hvrec hvhome hnear, fun hc => ?_,
        fun c' hc _ => ?_, fun c' hc hfar => ?_, fun c' hc hfar => ?_⟩
      · cases hc
      · cases hc
        exact ⟨rfl, rfl⟩
      all_goals cases hc; rw [hnear] at hfar; cases hfar
    | false =>
      cases hshelf : s.emptyShelf with
      | none =>
        refine ⟨l.dst, r.nextLeg, fun v hvclaims hvrec hvshelf hvhome => hnowhere ?_, fun hc => ?_, fun c' hc hn => ?_, fun c' hc _ hp => ?_,
          fun _ _ _ _ => ⟨rfl, rfl⟩⟩
        · have hnone := hvshelf
          have hnone' : (v.updRec r.slot (fun _ => returning r l h y l.dst r.nextLeg)).emptyShelf = none := hnone
          unfold State.settleReturn
          simp only [if_true, hvhome, hnear, hnone', Bool.false_eq_true, if_false]
        · cases hc
        · cases hc
          rw [hnear] at hn
          cases hn
        · cases hp
      | some p =>
        refine ⟨.shelf none, some { legOf r (accOfColumn c.col) (.shelf none) (.cell c) with expected := some y },
          fun v hvclaims hvrec hvshelf hvhome => settleReturn_shelf hvclaims hvrec hvhome hnear hvshelf, fun hc => ?_, fun c' hc hn => ?_,
          fun c' hc _ _ => ?_, fun c' hc _ hp => ?_⟩
        · cases hc
        · cases hc
          rw [hnear] at hn
          cases hn
        · cases hc
          exact ⟨rfl, rfl⟩
        · cases hp

/-- The reel of a RETURN record, wherever it is settled to go. -/
theorem returnTook (hsrc : l.src = .drive d) (hexp : l.expected = none) (he : s.entry? y = some e) (hheld : s.heldByOther n y = false)
    (hsettles : ∀ v : State, noClaims v → v.rec? r.slot = some r → v.emptyShelf = s.emptyShelf →
      (v.updRec r.slot (fun _ => returning r l h y l.dst r.nextLeg)).homeOf y = e.home →
      lasting ((v.updRec r.slot (fun _ => returning r l h y l.dst r.nextLeg)).settleReturn r.slot d y true)
        = lasting (v.updRec r.slot (fun _ => returning r l h y dst next))) :
    ∃ t, exec (.pickCompletion acc (some y)) s = .next t ∧ ((∀ who, n ∉ s.rail.queues.get who) → (t.leg? n).map (·.state) = some .aboard)
      ∧ lasting t = lasting (tracked y e acc h (carried s r l h y o.col dst next)) := by
  obtain rfl := hp.acc
  obtain rfl := hp.slot
  have hexec := hp.exec (some y)
  rw [picked_return hsrc hexp] at hexec
  have hlast := pickReturn_took (h := h) (d := d) (hp.begins hclaims hfinds) he hheld hsettles
  have hwaits := notWaiting hp hcalm
  have hcalm' := calm_updRec (u := tracked y e l.acc h (carried s r l h y o.col dst next)) (q := { r with
    drive := none, serial := some y, leg := some { l with holder := some h, dst := dst }, nextLeg := next }) hcalm hwaits rfl rfl
  exact ⟨_, hexec, fun hqueues => aboard_commit (calm_of_lasting hlast hcalm') (aboard_pickReturn hp hqueues (hp.quiet hclaims hfinds) d y),
    commit_of_lasting hlast hcalm'⟩

end Command

end PickCommand

end Sys2Proof
end

section
/-! PROOFS. PICK_COMPLETION (R104, R105): the obligation. -/

namespace Sys2Proof

namespace PickCommand

open Machine Safety Upkeep Settling Requests Posting Reservation DriveTable Withdrawal Raising Ending Expiry Picking

variable {s : State} {n : Nat} {z : Serial} {c : Cell} {d : Fin 16}

theorem heldByOther_iff : s.heldByOther n z = true ↔ ∃ q ∈ s.recs, q.serial = some z ∧ q.slot ≠ n := by
  simp [State.heldByOther]

theorem heldByOther_false (hno : ¬∃ q ∈ s.recs, q.serial = some z ∧ q.slot ≠ n) : s.heldByOther n z = false :=
  Bool.eq_false_iff.mpr fun hheld => hno (heldByOther_iff.mp hheld)

theorem nearDrive_iff : nearDrive c d = true ↔ (80 ≤ c.col ∧ c.col ≤ 119) ∨ (c.col < 80 ∧ d.val < 8) ∨ (120 ≤ c.col ∧ 8 ≤ d.val) := by
  unfold nearDrive inMiddle segmentOf driveSide
  by_cases hwest : c.col < 80
  · simp [hwest]
    omega
  · by_cases hmiddle : c.col < 120
    · simp [hwest, hmiddle]
      omega
    · simp [hwest, hmiddle]
      omega

theorem endsIn_of_eq {t u v : State} {r : Rec} {k : FinalOutcome} (huv : u = v) (h : endsIn t v r k) : endsIn t u r k := huv ▸ h

theorem atSource_drives (u : State) (x : Vector Drive 16) (src : Place) :
    atSource src { u with drives := x } = { atSource src u with drives := x } := by
  unfold atSource
  split <;> rfl

/-- What a PICK that takes a reel aboard leaves of the accessors. -/
theorem accsKept_picked {l : Leg} (hz : ∀ c x, l.src = .cell c → l.expected = some x → z = x) {u : State} {h : Fin 3} :
    AccsKept (u.setHolder l.acc h (.reel z)) (u.picked n l h (some z)) := by
  cases hexp : l.expected with
  | none =>
    by_cases hdrive : ∃ d, l.src = .drive d
    · obtain ⟨d, hsrc⟩ := hdrive
      rw [picked_return hsrc hexp]
      exact accsKept_pickReturn u n l h d z
    · rw [picked_unread (fun d hsrc => hdrive ⟨d, hsrc⟩) hexp]
      exact accsKept_pickExpected u n l h z
  | some x =>
    by_cases hzx : z = x
    · rw [picked_expected (hexp.trans (congrArg some hzx.symm))]
      exact accsKept_pickExpected u n l h z
    · rw [picked_wrongPlace (fun c hsrc => hzx (hz c x hsrc hexp)) hexp hzx]
      exact accsKept_pickWrongPlace u n l h z

/-- Settles O49. -/
theorem pickCompletion : Obligations.PickCompletion := by
  intro acc o n l r h y s hcalm col holds moved fromDrive released left heldElsewhere quiet aboard done
  have hfrom : fromDrive = l.src.isDrive := by
    show (match l.src with | .drive _ => true | _ => false) = _
    cases l.src <;> rfl
  have hreleased (u : State) (hu : u.drives = s.drives) : released u = { u with drives := freedDrives s.drives r.drive l.src.isDrive } := by
    rw [← hfrom]
    show (match r.drive with | some d => _ | none => u) = _
    cases r.drive with
    | none => exact congrArg (fun x => { u with drives := x }) hu
    | some d => rfl
  have hagain (u : State) : released (released u) = released u := by
    simp only [released]
    cases r.drive <;> rfl
  have hdriveLeft (hdrive : l.src.isDrive = true) (u : State) : left u = released u := by
    show (match l.src with | .shelf (some p) => _ | .station (some p) => _ | .drive _ => _ | _ => u) = _
    cases hsrc : l.src with
    | drive d => rfl
    | cell c => rw [hsrc] at hdrive; cases hdrive
    | shelf p => rw [hsrc] at hdrive; cases hdrive
    | station p => rw [hsrc] at hdrive; cases hdrive
  have hotherLeft (hother : l.src.isDrive = false) (u : State) : left u = atSource l.src u := by
    show (match l.src with | .shelf (some p) => _ | .station (some p) => _ | .drive _ => _ | _ => u) = _
    cases hsrc : l.src with
    | drive d => rw [hsrc] at hother; cases hother
    | cell c => rfl
    | shelf p => cases p <;> rfl
    | station p => cases p <;> rfl
  have hleft (u : State) (hu : u.drives = s.drives) : left u = leaving s r l.src u := by
    unfold leaving
    cases hsrc : l.src.isDrive with
    | true => rw [hdriveLeft hsrc, hreleased u hu, hsrc]; rfl
    | false => exact hotherLeft hsrc u
  have hvacated (u : State) (hu : u.drives = s.drives) : left (released u) = vacated r l.src u := by
    have hset := hreleased u hu
    unfold vacated
    rw [hu]
    cases hsrc : l.src.isDrive with
    | true =>
      rw [hsrc] at hset
      rw [hdriveLeft hsrc, hagain, hset]
      rfl
    | false =>
      rw [hsrc] at hset
      rw [hotherLeft hsrc, hset, if_neg Bool.false_ne_true]
      exact atSource_drives u _ l.src
  refine ⟨fun hno => nothing hno, fun tr horder hop hholder hrec hleg hacc htr hgather => ?_, fun horder hop hholder hrec hleg hacc hquiet => ?_⟩
  · have hp : Picks s acc o n h r l := ⟨horder, hop, hholder, hrec, hleg, hacc⟩
    refine ⟨fun z hz => leavesTrip_aboard hp htr ?_, leavesTrip_ended hp htr hgather, fun c x z hsrc hexp hne =>
      leavesTrip_wrongCell hp htr hgather hsrc hexp hne⟩
    exact accsKept_picked hz
  · have hp : Picks s acc o n h r l := ⟨horder, hop, hholder, hrec, hleg, hacc⟩
    obtain ⟨hclaims, hfinds⟩ := hquiet
    refine ⟨fun e hexp he => ?_, fun hroom => ?_, fun c x z tr hsrc hexp hne hroom hrunning htr => ?_, fun x z hsrc hexp hne => ?_,
      fun d hsrc hdrive hexp => ?_⟩
    · obtain ⟨t, hexec, haboard, hlast⟩ := expected hp hcalm hclaims hfinds hexp he
      refine ⟨t, hexec, haboard, hlast.trans (congrArg lasting ?_)⟩
      have hwritten := updRec_const (f := fun r => { r with
        drive := if l.src.isDrive then none else r.drive, leg := some { l with holder := some h } }) hrec
      rw [hfrom, ← hwritten]
      exact (hleft (moved y e (holds y (col (s.updRec n (fun r => { r with
        drive := if l.src.isDrive then none else r.drive, leg := some { l with holder := some h } }))))) rfl).symm
    · obtain ⟨t, hexec, hends⟩ := empty hp hcalm hclaims hfinds hroom
      exact ⟨t, hexec, endsIn_of_eq (hvacated _ (by rfl)) hends⟩
    · obtain ⟨t, tr', hexec, hends, hrest⟩ := wrongCell hp hcalm hclaims hfinds hsrc hexp hne hroom hrunning htr
      refine ⟨t, tr', hexec, endsIn_of_eq ((hreleased _ (by rfl)).trans ?_) hends, hrest⟩
      rw [hsrc]
      rfl
    · intro u
      have htook : u = vacated r l.src (((({ s with dir := dirMissing s.dir (some x) } : State).updAcc acc
          (fun x => { x with column := o.col })).setHolder acc h (.reel z)).updRec n (fun _ => misled r l h)) := by
        refine (hvacated _ (by rfl)).trans ?_
        rw [updRec_const hrec]
        rfl
      obtain ⟨t, hexec, haboard, hout, hin⟩ := wrongPlace hp hcalm hclaims hfinds hsrc hexp hne u htook
      exact ⟨t, hexec, haboard, fun hnot => hout (hnot.imp id heldByOther_iff.mpr), fun e he hheld => hin e he (heldByOther_false hheld)⟩
    · obtain rfl := slot_of_rec? hrec
      obtain rfl := hacc
      intro took near
      have hisDrive : l.src.isDrive = true := by
        rw [hsrc]
        rfl
      have htook (dst : Place) (next : Option Leg) : took dst next = carried s r l h y o.col dst next := by
        refine (hreleased _ (by rfl)).trans ?_
        rw [updRec_const hrec, hisDrive]
        rfl
      by_cases hnot : s.entry? y = none ∨ heldElsewhere y
      · obtain ⟨t, hexec, haboard, hlast⟩ := returnLeft hp hcalm hclaims hfinds hsrc hexp (hnot.imp id heldByOther_iff.mpr)
        refine ⟨t, hexec, haboard, fun _ => by rw [htook]; exact hlast, fun e he hheld => absurd hnot ?_⟩
        rw [he]
        exact fun hor => hor.elim (fun hno => nomatch hno) hheld
      · obtain ⟨hentry, hheld⟩ := not_or.mp hnot
        obtain ⟨e, he⟩ := Option.ne_none_iff_exists'.mp hentry
        obtain ⟨dst, next, hsettles, hnohome, hnear, hshelf, hfull⟩ := settled s r l h d y e
        obtain ⟨t, hexec, haboard, hlast⟩ := returnTook hp hcalm hclaims hfinds hsrc hexp he (heldByOther_false hheld) hsettles
        have hgoes {dst' : Place} {next' : Option Leg} (heq : dst = dst' ∧ next = next') : lasting t = lasting (moved y e (took dst' next')) := by
          rw [htook, ← heq.1, ← heq.2]
          exact hlast
        have hfar {c : Cell} (hno : ¬near c) : nearDrive c d = false := Bool.eq_false_iff.mpr fun hn => hno (nearDrive_iff.mp hn)
        refine ⟨t, hexec, haboard, fun hnot' => absurd hnot' hnot, fun e' he' _ => ?_⟩
        cases he.symm.trans he'
        refine ⟨fun hno => hgoes (hnohome hno), fun c hc hn => hgoes (hnear c hc (nearDrive_iff.mpr hn)), fun c hc hn hp => ?_, fun c hc hn hp => ?_⟩
        · exact hgoes (hshelf c hc (hfar hn) ((emptyShelf_isSome s).mpr hp))
        · refine hgoes (hfull c hc (hfar hn) (Option.not_isSome_iff_eq_none.mp fun hsome => ?_))
          obtain ⟨p, hpe⟩ := (emptyShelf_isSome s).mp hsome
          exact hp p hpe

end PickCommand

end Sys2Proof
end

section
/-! PROOFS. What the rail scheduler's steps leave alone: the queues, the scan requests and the audits, and of an accessor all but its state,
its trip and its orders. -/

namespace Sys2Proof

namespace RailMoves

open Machine Safety Upkeep Settling

variable {s t u v : State} {acc who : Acc} {n m : Nat} {parking : Prop} {ref : LegRef}

/-! ## Queues, scan requests and audits -/

/-- The queues, the scan requests and the audits. -/
def workPart (u : State) : PerAcc (List Nat) × List ScanReq × PerAcc (Option Audit) := (u.rail.queues, u.rail.scanReqs, u.audits)

theorem workPart_setDst (u : State) (ref : LegRef) (dst : Place) : workPart (u.setDst ref dst) = workPart u := by
  cases ref <;> rfl

theorem workPart_reserveFor (h : u.reserveFor ref = some v) : workPart v = workPart u := by
  rcases reserveFor_cases h with rfl | ⟨p, -, rfl⟩ | ⟨p, -, rfl⟩
  · rfl
  · exact workPart_setDst _ _ _
  · exact workPart_setDst _ _ _

theorem workPart_awaitPosition (u : State) (acc : Acc) (x : Stop) : workPart (u.awaitPosition acc x) = workPart u := by
  have hjoin : workPart (u.joinWait acc x) = workPart u := by
    unfold State.joinWait
    split
    · rfl
    · split <;> rfl
  unfold State.awaitPosition
  dsimp only
  split
  · exact hjoin
  · exact hjoin

theorem workPart_bringStop (u : State) (acc : Acc) : workPart (u.bringStop acc) = workPart u := by
  have hchoose (behind stops : List Stop) : workPart (u.chooseStop acc behind stops) = workPart u := by
    induction stops generalizing behind with
    | nil =>
      cases behind with
      | nil => rfl
      | cons x rest => exact workPart_awaitPosition u acc x
    | cons x rest ih =>
      unfold State.chooseStop
      split
      · split
        next v hv => exact workPart_reserveFor (v := v) hv
        next => exact ih _
      · rfl
  unfold State.bringStop
  dsimp only
  split
  · exact hchoose _ _
  · rfl

theorem workPart_sendNext (u : State) (acc : Acc) : workPart (u.sendNext acc) = workPart u := by
  have hask : workPart (u.askZone acc) = workPart u := by
    unfold State.askZone
    split
    · rfl
    · split
      · rfl
      · dsimp only
        split <;> rfl
  have hpass (v : State) (x : NextOrder) : workPart (v.passGates acc x) = workPart v := by
    unfold State.passGates
    split
    · dsimp only
      split
      · unfold State.sendOrder
        dsimp only
        split <;> rfl
      · rfl
    · rfl
  unfold State.sendNext
  split
  · rfl
  · unfold State.tryOrder
    rw [hpass]
    split
    · exact hask
    · rfl

theorem workPart_releaseZone (u : State) (acc : Acc) : workPart (u.releaseZone acc) = workPart u := by
  unfold State.releaseZone
  split <;> rfl

theorem workPart_idleOrPark (u : State) (acc : Acc) : workPart (u.idleOrPark acc) = workPart u := by
  unfold State.idleOrPark
  split
  · rfl
  · exact workPart_releaseZone _ _

theorem workPart_endTrip (u : State) (acc : Acc) : workPart (u.endTrip acc) = workPart u := by
  unfold State.endTrip
  dsimp only
  split
  · exact workPart_idleOrPark _ _
  · rfl

theorem workPart_pruneZone (u : State) (acc : Acc) : workPart (u.pruneZone acc) = workPart u := by
  unfold State.pruneZone
  split <;> rfl

theorem workPart_zoneGrant (u : State) : workPart u.zoneGrant = workPart u := by
  unfold State.zoneGrant
  split
  · rfl
  · split <;> rfl

/-! ## The rest of an accessor -/

/-- An accessor without its state, its trip and its orders. -/
def restOf (x : AccRec) : AccRec := { x with state := .idle, faults := 0, trip := none, order := none, todo := none }

theorem restOf_updAcc {f : AccRec → AccRec} (hf : ∀ x, restOf (f x) = restOf x) (u : State) (who acc : Acc) :
    restOf ((u.updAcc who f).acc acc) = restOf (u.acc acc) := by
  rw [State.acc_updAcc]
  split
  next heq =>
    subst heq
    exact hf _
  next => rfl

theorem restOf_unwait (x : AccRec) : restOf x.unwait = restOf x := by
  unfold AccRec.unwait
  split <;> rfl

theorem restOf_setDst (u : State) (ref : LegRef) (dst : Place) (acc : Acc) : restOf ((u.setDst ref dst).acc acc) = restOf (u.acc acc) := by
  cases ref with
  | record slot => rfl
  | putBack who k => exact restOf_updAcc (fun _ => by rfl) u who acc

theorem restOf_reserveFor (h : u.reserveFor ref = some v) (acc : Acc) : restOf (v.acc acc) = restOf (u.acc acc) := by
  rcases reserveFor_cases h with rfl | ⟨p, -, rfl⟩ | ⟨p, -, rfl⟩
  · rfl
  · exact restOf_setDst _ _ _ acc
  · exact restOf_setDst _ _ _ acc

theorem restOf_awaitPosition (u : State) (who acc : Acc) (x : Stop) : restOf ((u.awaitPosition who x).acc acc) = restOf (u.acc acc) := by
  have hjoin : restOf ((u.joinWait who x).acc acc) = restOf (u.acc acc) := by rw [RailWork.acc_joinWait]
  unfold State.awaitPosition
  dsimp only
  split
  · exact (restOf_updAcc (f := fun r => { r with todo := some .park }) (fun _ => rfl) _ who acc).trans hjoin
  · exact hjoin

theorem restOf_bringStop (u : State) (who acc : Acc) : restOf ((u.bringStop who).acc acc) = restOf (u.acc acc) := by
  have hstops (v : State) (l : List Stop) : restOf ((v.updStops who (fun _ => l)).acc acc) = restOf (v.acc acc) :=
    restOf_updAcc (fun _ => by rfl) v who acc
  have hchoose (behind stops : List Stop) : restOf ((u.chooseStop who behind stops).acc acc) = restOf (u.acc acc) := by
    induction stops generalizing behind with
    | nil =>
      cases behind with
      | nil => rfl
      | cons x rest => exact restOf_awaitPosition u who acc x
    | cons x rest ih =>
      unfold State.chooseStop
      split
      · split
        next v hv => exact (hstops v _).trans (restOf_reserveFor hv acc)
        next => exact ih _
      · exact hstops u _
  unfold State.bringStop
  dsimp only
  split
  · exact hchoose _ _
  · rfl

theorem restOf_askZone (u : State) (who acc : Acc) : restOf ((u.askZone who).acc acc) = restOf (u.acc acc) := by
  unfold State.askZone
  split
  · rfl
  · split
    · rfl
    · dsimp only
      rw [restOf_updAcc]
      · split <;> rfl
      · intro x
        split <;> rfl

theorem restOf_sendNext (u : State) (who acc : Acc) : restOf ((u.sendNext who).acc acc) = restOf (u.acc acc) := by
  have hpass (v : State) (x : NextOrder) : restOf ((v.passGates who x).acc acc) = restOf (v.acc acc) := by
    have hunwait := restOf_updAcc (f := AccRec.unwait) restOf_unwait v who acc
    unfold State.passGates
    split
    · dsimp only
      split
      · refine Eq.trans ?_ hunwait
        have hgiven (w : State) (o : Order) : restOf (((w.updAcc who (fun x => { x with order := some o, todo := none })).send (.accessor who o)).acc acc)
            = restOf (w.acc acc) := restOf_updAcc (f := fun x => { x with order := some o, todo := none }) (fun _ => rfl) w who acc
        unfold State.sendOrder
        dsimp only
        split
        next slot _ => exact (hgiven ((v.updAcc who AccRec.unwait).updLeg slot _) _).trans (by rfl)
        next => exact hgiven (v.updAcc who AccRec.unwait) _
      · exact hunwait
    · rfl
  unfold State.sendNext
  split
  · rfl
  · unfold State.tryOrder
    rw [hpass]
    split
    · exact restOf_askZone u who acc
    · rfl

theorem restOf_idleOrPark (u : State) (who acc : Acc) : restOf ((u.idleOrPark who).acc acc) = restOf (u.acc acc) := by
  unfold State.idleOrPark
  split
  · exact restOf_updAcc (fun _ => by rfl) u who acc
  · have hidle := restOf_updAcc (f := fun x => { x with state := .idle, faults := 0 }) (fun _ => rfl) u who acc
    unfold State.releaseZone
    split
    · exact hidle
    · exact hidle

theorem restOf_endTrip (u : State) (who acc : Acc) : restOf ((u.endTrip who).acc acc) = restOf (u.acc acc) := by
  unfold State.endTrip
  dsimp only
  split
  · rw [restOf_idleOrPark]
    exact restOf_updAcc (fun _ => by rfl) u who acc
  · rfl

theorem restOf_pruneZone (u : State) (who acc : Acc) : restOf ((u.pruneZone who).acc acc) = restOf (u.acc acc) := by
  unfold State.pruneZone
  split
  · exact restOf_updAcc restOf_unwait _ who acc
  · rfl

theorem restOf_zoneGrant (u : State) (acc : Acc) : restOf (u.zoneGrant.acc acc) = restOf (u.acc acc) := by
  unfold State.zoneGrant
  split
  · rfl
  · split
    · exact restOf_updAcc restOf_unwait _ _ acc
    · rfl

theorem restOf_tripFill (u : State) (who acc : Acc) : restOf ((u.tripFill who).acc acc) = restOf (u.acc acc) := by
  have hjoin (v : State) (slot : Nat) : restOf ((v.tripJoin who slot).acc acc) = restOf (v.acc acc) := by
    obtain ⟨w, hw⟩ : ∃ w, w = (v.setQueue who ((v.rail.queues.get who).filter (fun x => x ≠ slot))).updLeg slot
      (fun l => { l with state := .assigned, front := false }) := ⟨_, rfl⟩
    have hwacc : restOf (w.acc acc) = restOf (v.acc acc) := by rw [hw]; rfl
    have hlegs := restOf_updAcc (f := fun x => { x with trip := x.trip.map (fun t => { t with legs := t.legs ++ [slot] }) }) (fun _ => rfl) w who acc
    unfold State.tripJoin
    dsimp only
    rw [← hw]
    cases hreserve : State.reserveFor (w.updAcc who (fun x => { x with trip := x.trip.map (fun t => { t with legs := t.legs ++ [slot] }) })) (.record slot) with
    | none => exact hlegs.trans hwacc
    | some t => exact (restOf_reserveFor hreserve acc).trans (hlegs.trans hwacc)
  unfold State.tripFill
  refine List.foldlRecOn (motive := fun v : State => restOf (v.acc acc) = restOf (u.acc acc)) _ _ rfl ?_
  intro v hv slot _
  split
  · exact (hjoin v slot).trans hv
  · exact hv

/-! ## How far an accessor is -/

theorem accPhase_sendNext (u : State) (who acc : Acc) : accPhase (u.sendNext who) acc = accPhase u acc := by
  have hpass (v : State) (x : NextOrder) : accPhase (v.passGates who x) acc = accPhase v acc := by
    have hunwait := accPhase_updAcc v who acc AccRec.unwait fun _ => accPhase_unwait _
    unfold State.passGates
    split
    · dsimp only
      split
      · exact (accPhase_sendOrder _ who acc x).trans hunwait
      · exact hunwait
    · rfl
  unfold State.sendNext
  split
  · rfl
  · unfold State.tryOrder
    rw [hpass]
    split
    · exact accPhase_askZone u who acc
    · rfl

end RailMoves

end Sys2Proof
end

section
/-! PROOFS. Audits while the rail scheduler works (R125, R127, R129): a SUSPENDED one waits while a yielding leg is queued or on its trip, and
a SCANNING one is sent the scan of its cursor cell by an accessor with nothing before it. -/

namespace Sys2Proof

namespace AuditWork

open Machine Safety Upkeep Settling RailMoves

variable {s t u v : State} {acc who : Acc} {n m : Nat} {parking : Prop} {x : Audit} {c : Cell} {l : Leg}

theorem queues_of_workPart (h : workPart v = workPart u) (acc : Acc) : v.rail.queues.get acc = u.rail.queues.get acc :=
  congrArg (fun q : PerAcc (List Nat) × List ScanReq × PerAcc (Option Audit) => q.1.get acc) h

theorem audits_of_workPart (h : workPart v = workPart u) (acc : Acc) : v.audits.get acc = u.audits.get acc :=
  congrArg (fun q : PerAcc (List Nat) × List ScanReq × PerAcc (Option Audit) => q.2.2.get acc) h

/-! ## A leg that goes on its trip -/

/-- A leg stands in its accessor's queue, or the accessor is on a trip that the leg is one of. -/
def Carries (u : State) (acc : Acc) (m : Nat) : Prop :=
  m ∈ u.rail.queues.get acc
    ∨ ((u.acc acc).state = .gathering ∧ ∀ tr, (u.acc acc).trip = some tr → m ∈ tr.legs)
    ∨ (((u.acc acc).state = .running ∨ (u.acc acc).state = .waitingZone) ∧ (u.stops acc).isEmpty = false)

theorem onTrip_of_carries (hu : Carries u acc m) (hout : m ∉ u.rail.queues.get acc) : onTrip u acc :=
  (hu.resolve_left hout).imp And.left id

theorem legs_of_accPhase (h : accPhase v acc = accPhase u acc) : (v.acc acc).trip.map (·.legs) = (u.acc acc).trip.map (·.legs) := by
  have hmap (y : AccRec) : y.trip.map (·.legs) = y.phase.2.map (·.1) := by
    unfold AccRec.phase
    cases y.trip <;> rfl
  rw [hmap, hmap]
  exact congrArg (fun p => p.2.map (·.1)) h

theorem carries_of_accPhase (h : accPhase v acc = accPhase u acc) (hqueue : v.rail.queues.get acc = u.rail.queues.get acc) (hu : Carries u acc m) :
    Carries v acc m := by
  rcases hu with hu | ⟨hgather, hlegs⟩ | ⟨hstate, hstops⟩
  · exact .inl (hqueue ▸ hu)
  · refine .inr (.inl ⟨gathering_of_accPhase h hgather, fun tr htr => ?_⟩)
    have hmap := legs_of_accPhase h
    rw [htr, Option.map_some] at hmap
    obtain ⟨tr', htr', heq⟩ := Option.map_eq_some_iff.mp hmap.symm
    rw [← heq]
    exact hlegs tr' htr'
  · have htrip := onTrip_of_accPhase h (.inr ⟨hstate, hstops⟩)
    rcases htrip with hgather | htrip
    · have hback := gathering_of_accPhase h.symm hgather
      rcases hstate with hstate | hstate <;> rw [hstate] at hback <;> cases hback
    · exact .inr (.inr htrip)

theorem carries_same (hqueue : v.rail.queues.get acc = u.rail.queues.get acc) (hphase : m ∉ u.rail.queues.get acc → accPhase v acc = accPhase u acc)
    (hu : Carries u acc m) : Carries v acc m := by
  by_cases hout : m ∈ u.rail.queues.get acc
  · exact .inl (hqueue ▸ hout)
  · exact carries_of_accPhase (hphase hout) hqueue hu

theorem carries_tripJoin (hgather : (u.acc acc).state = .gathering) (hu : Carries u acc m) (n : Nat) :
    ((u.tripJoin acc n).acc acc).state = .gathering ∧ Carries (u.tripJoin acc n) acc m := by
  obtain ⟨w, hw⟩ : ∃ w, w = ((u.setQueue acc ((u.rail.queues.get acc).filter (fun y => y ≠ n))).updLeg n
    (fun l => { l with state := .assigned, front := false })).updAcc acc
      (fun y => { y with trip := y.trip.map (fun t => { t with legs := t.legs ++ [n] }) }) := ⟨_, rfl⟩
  have hwacc : w.acc acc = { u.acc acc with trip := (u.acc acc).trip.map (fun t => { t with legs := t.legs ++ [n] }) } := by
    rw [hw, State.acc_updAcc_self]
    rfl
  have hwqueue : w.rail.queues.get acc = (u.rail.queues.get acc).filter (fun y => y ≠ n) := by
    rw [hw]
    exact PerAcc.get_set_self _ _ _
  have hwcarries : Carries w acc m := by
    by_cases hmn : m = n
    · refine .inr (.inl ⟨by rw [hwacc]; exact hgather, fun tr htr => ?_⟩)
      rw [hwacc] at htr
      obtain ⟨tr', -, rfl⟩ := Option.map_eq_some_iff.mp htr
      exact List.mem_append_right _ (List.mem_singleton.mpr hmn)
    · rcases hu with hu | ⟨-, hlegs⟩ | ⟨hstate, -⟩
      · refine .inl ?_
        rw [hwqueue]
        exact List.mem_filter.mpr ⟨hu, by simpa using hmn⟩
      · refine .inr (.inl ⟨by rw [hwacc]; exact hgather, fun tr htr => ?_⟩)
        rw [hwacc] at htr
        obtain ⟨tr', htr', rfl⟩ := Option.map_eq_some_iff.mp htr
        exact List.mem_append_left _ (hlegs tr' htr')
      · rcases hstate with hstate | hstate <;> rw [hstate] at hgather <;> cases hgather
  have hwgather : (w.acc acc).state = .gathering := by
    rw [hwacc]
    exact hgather
  unfold State.tripJoin
  dsimp only
  rw [← hw]
  cases hreserve : State.reserveFor w (.record n) with
  | none => exact ⟨hwgather, hwcarries⟩
  | some t =>
    have hphase := accPhase_reserveFor hreserve acc
    exact ⟨gathering_of_accPhase hphase hwgather, carries_of_accPhase hphase (queues_of_workPart (workPart_reserveFor hreserve) acc) hwcarries⟩

theorem carries_tripFill (hgather : (u.acc acc).state = .gathering) (hu : Carries u acc m) : Carries (u.tripFill acc) acc m := by
  have hall : ((u.tripFill acc).acc acc).state = .gathering ∧ Carries (u.tripFill acc) acc m := by
    unfold State.tripFill
    refine List.foldlRecOn (motive := fun v : State => (v.acc acc).state = .gathering ∧ Carries v acc m) _ _ ⟨hgather, hu⟩ ?_
    intro v hv slot _
    split
    · exact carries_tripJoin hv.1 hv.2 slot
    · exact hv
  exact hall.2

theorem queue_tripFill_other (h : who ≠ acc) : (u.tripFill who).rail.queues.get acc = u.rail.queues.get acc := by
  obtain ⟨legs, -, -, hjoins⟩ := tripFill_joins u who
  have hacc : acc = otherAcc who := by cases who <;> cases acc <;> simp_all [otherAcc]
  exact hacc ▸ hjoins.queue

/-- A leg that goes on its trip goes on. -/
theorem carries_move (hleg : (u.leg? m).isSome = true) (hu : Carries u acc m) (h : Step parking u v) : Carries v acc m := by
  have hqueued (who : Acc) (hfree : (u.acc who).state = .idle) (hwho : who = acc) : m ∈ u.rail.queues.get acc := by
    subst hwho
    by_contra hout
    exact onTrip_not_idle (onTrip_of_carries hu hout) hfree
  cases h with
  | prunes who => exact carries_same (queues_of_workPart (workPart_pruneZone u who) acc) (fun _ => accPhase_pruneZone u who acc) hu
  | ends who =>
    exact carries_same (queues_of_workPart (workPart_endTrip u who) acc) (fun hout => accPhase_endTrip u who acc (onTrip_of_carries hu hout)) hu
  | grants => exact carries_same (queues_of_workPart (workPart_zoneGrant u) acc) (fun _ => accPhase_zoneGrant u acc) hu
  | brings who => exact carries_same (queues_of_workPart (workPart_bringStop u who) acc) (fun _ => accPhase_bringStop u who acc) hu
  | sends who => exact carries_same (queues_of_workPart (workPart_sendNext u who) acc) (fun _ => accPhase_sendNext u who acc) hu
  | resumes who =>
    have hqueue : (u.auditResume who).rail.queues = u.rail.queues := by
      unfold State.auditResume
      split
      · split <;> rfl
      · rfl
    exact carries_same (by rw [hqueue]) (fun _ => accPhase_auditResume u who acc) hu
  | takes who q rest hcan hreqs =>
    have hphase : accPhase (scanBegun u who q rest) acc = accPhase u acc := accPhase_updAcc _ who acc
      (fun x => { x with scan := some (.station q.pos q.kind false), todo := some .scan }) fun _ => rfl
    exact carries_same (u := u) rfl (fun _ => hphase) hu
  | scans who x c hfree hnone hx hscanning hcursor =>
    have hphase : accPhase (cellBegun u who c) acc = accPhase u acc := accPhase_updAcc _ who acc
      (fun x => { x with scan := some (.cell c), todo := some .scan }) fun _ => rfl
    exact carries_same (u := u) rfl (fun _ => hphase) hu
  | opens who hfree hany =>
    refine carries_same (u := u) rfl (fun hout => accPhase_updAcc u who acc _ fun hwho => ?_) hu
    exact absurd (hqueued who (RailWork.of_free hfree).1 hwho) hout
  | fills who hgather =>
    by_cases hwho : who = acc
    · subst hwho
      exact carries_tripFill hgather hu
    · exact carries_same (queue_tripFill_other hwho) (fun _ => accPhase_tripFill u who acc hwho) hu
  | starts who hdue =>
    by_cases hwho : who = acc
    · subst hwho
      obtain ⟨hgather, -, -⟩ := Trips.startDue_iff.mp hdue
      obtain ⟨tr, htr⟩ : ∃ tr, (u.acc who).trip = some tr := by
        cases htr : (u.acc who).trip with
        | none => simp [State.startDue, htr] at hdue
        | some tr => exact ⟨tr, rfl⟩
      rcases hu with hu | ⟨-, hlegs⟩ | ⟨hstate, -⟩
      · exact .inl hu
      · have hstops : (u.tripStart who).stops who = u.stopsOf (u.acc who).column tr.legs := by
          unfold State.tripStart State.stops
          rw [State.acc_updAcc_self, htr]
          rfl
        refine .inr (.inr ⟨.inl ?_, ?_⟩)
        · unfold State.tripStart
          rw [State.acc_updAcc_self]
        · rw [hstops, Bool.eq_false_iff, Ne, List.isEmpty_iff]
          exact stopsOf_ne_nil u _ tr.legs m (hlegs tr htr) hleg
      · rcases hstate with hstate | hstate <;> rw [hstate] at hgather <;> cases hgather
    · exact carries_same (u := u) rfl (fun _ => accPhase_updAcc u who acc _ fun heq => absurd heq hwho) hu
  | parks who hidle hscan horder htodo hmiddle hpark =>
    by_cases hwho : who = acc
    · exact .inl ((queues_of_workPart (workPart_idleOrPark u who) acc) ▸ hqueued who hidle hwho)
    · exact carries_same (queues_of_workPart (workPart_idleOrPark u who) acc) (fun _ => accPhase_idleOrPark u who acc hwho) hu

end AuditWork

end Sys2Proof
end

section
/-! PROOFS. Audits while the rail scheduler works (R125, R127, R129), continued: what becomes of an audit's state and of its scan. -/

namespace Sys2Proof

namespace AuditWork

open Machine Safety Upkeep Settling RailMoves

variable {s t u v : State} {acc who : Acc} {n m : Nat} {parking : Prop} {x : Audit} {c : Cell} {l : Leg} {cls : Nat} {tgt : ScanTarget}

theorem hasYielding_iff : s.hasYielding acc cls = true ↔ ∃ m ∈ s.rail.queues.get acc, ∃ l, s.leg? m = some l ∧ cls ≤ l.prio.val := by
  unfold State.hasYielding
  rw [List.any_eq_true]
  refine exists_congr fun m => and_congr_right fun _ => ?_
  cases s.leg? m with
  | none => simp
  | some l => simp

theorem prio_of_lasting (h : lasting v = lasting u) (hl : u.leg? m = some l) : ∃ k, v.leg? m = some k ∧ k.prio = l.prio := by
  obtain ⟨r, hr, hleg⟩ := Option.bind_eq_some_iff.mp hl
  obtain ⟨q, hq, hqr⟩ := Ending.rec?_of_lasting h hr
  have hmap : q.leg.map lastingLeg = r.leg.map lastingLeg := congrArg Rec.leg hqr
  rw [hleg, Option.map_some] at hmap
  obtain ⟨k, hk, hkl⟩ := Option.map_eq_some_iff.mp hmap
  exact ⟨k, Option.bind_eq_some_iff.mpr ⟨q, hq, hk⟩, (congrArg Leg.prio hkl :)⟩

theorem hasYielding_back (h : lasting v = lasting u) (hqueue : ∀ m ∈ v.rail.queues.get acc, m ∈ u.rail.queues.get acc)
    (hnone : u.hasYielding acc cls = false) : v.hasYielding acc cls = false := by
  refine Bool.eq_false_iff.mpr fun hyields => Bool.eq_false_iff.mp hnone ?_
  obtain ⟨m, hm, l, hl, hcls⟩ := hasYielding_iff.mp hyields
  obtain ⟨k, hk, hkl⟩ := prio_of_lasting h.symm hl
  exact hasYielding_iff.mpr ⟨m, hqueue m hm, k, hk, hkl ▸ hcls⟩

theorem audits_updAudit_other (u : State) (f : Audit → Audit) (h : acc ≠ who) : (u.updAudit who f).audits.get acc = u.audits.get acc :=
  PerAcc.get_set_other _ _ _ _ h

theorem audits_updAudit_self (u : State) (f : Audit → Audit) : (u.updAudit acc f).audits.get acc = (u.audits.get acc).map f :=
  PerAcc.get_set_self _ _ _

/-- An audit is left alone, but for one that resumes and one whose scan is to be sent. -/
theorem audits_step (h : Step parking u v) : v.audits.get acc = u.audits.get acc
    ∨ (∃ x, u.audits.get acc = some x ∧ x.state = .suspended ∧ u.free acc = true ∧ u.hasYielding acc x.yieldClass = false
      ∧ v.audits.get acc = some { x with state := .scanning })
    ∨ ∃ x c, u.audits.get acc = some x ∧ x.state = .scanning ∧ x.cursor = some c ∧ u.free acc = true
      ∧ v.audits.get acc = some { x with inFlight := true } ∧ (v.acc acc).scan = some (.cell c) := by
  cases h with
  | prunes who => exact .inl (audits_of_workPart (workPart_pruneZone u who) acc)
  | ends who => exact .inl (audits_of_workPart (workPart_endTrip u who) acc)
  | grants => exact .inl (audits_of_workPart (workPart_zoneGrant u) acc)
  | brings who => exact .inl (audits_of_workPart (workPart_bringStop u who) acc)
  | sends who => exact .inl (audits_of_workPart (workPart_sendNext u who) acc)
  | resumes who =>
    cases hx : u.audits.get who with
    | none =>
      have hsame : u.auditResume who = u := by
        unfold State.auditResume
        rw [hx]
      exact .inl (by rw [hsame])
    | some x =>
      by_cases hdue : (decide (x.state = .suspended) && u.free who && !u.hasYielding who x.yieldClass) = true
      · have hresumed : u.auditResume who = u.updAudit who (fun x => { x with state := .scanning }) := by
          unfold State.auditResume
          rw [hx]
          exact if_pos hdue
        rw [hresumed]
        by_cases hwho : acc = who
        · subst hwho
          simp only [Bool.and_eq_true, decide_eq_true_eq, Bool.not_eq_true'] at hdue
          obtain ⟨⟨hsuspended, hfree⟩, hnone⟩ := hdue
          refine .inr (.inl ⟨x, hx, hsuspended, hfree, hnone, ?_⟩)
          rw [audits_updAudit_self, hx]
          rfl
        · exact .inl (audits_updAudit_other u _ hwho)
      · have hsame : u.auditResume who = u := by
          unfold State.auditResume
          rw [hx]
          exact if_neg hdue
        exact .inl (by rw [hsame])
  | takes who q rest hcan hreqs => exact .inl rfl
  | scans who x c hfree hnone hx hscanning hcursor =>
    by_cases hwho : acc = who
    · subst hwho
      refine .inr (.inr ⟨x, c, hx, hscanning, hcursor, hfree, ?_, ?_⟩)
      · have hself := audits_updAudit_self (acc := acc) u (fun x => { x with inFlight := true })
        rw [hx] at hself
        exact hself
      · unfold cellBegun
        rw [State.acc_updAcc_self]
    · exact .inl (audits_updAudit_other u _ hwho)
  | opens who hfree hany => exact .inl rfl
  | fills who hgather =>
    obtain ⟨legs, -, -, hjoins⟩ := tripFill_joins u who
    exact .inl (by rw [hjoins.audits])
  | starts who hdue => exact .inl rfl
  | parks who hidle hscan horder htodo hmiddle hpark => exact .inl (audits_of_workPart (workPart_idleOrPark u who) acc)

theorem scan_of_restOf {a b : AccRec} (h : restOf b = restOf a) : b.scan = a.scan := (congrArg AccRec.scan h :)

/-- A scan in flight stands, and one is begun by a free accessor alone: a station scan that is requested, or the one of its audit's cursor
cell. -/
theorem scan_step (h : Step parking u v) : (v.acc acc).scan = (u.acc acc).scan ∨ u.canTakeScan acc = true
    ∨ ∃ x c, u.free acc = true ∧ u.audits.get acc = some x ∧ x.state = .scanning ∧ x.cursor = some c
      ∧ v.audits.get acc = some { x with inFlight := true } ∧ (v.acc acc).scan = some (.cell c) := by
  cases h with
  | prunes who => exact .inl (scan_of_restOf (restOf_pruneZone u who acc))
  | ends who => exact .inl (scan_of_restOf (restOf_endTrip u who acc))
  | grants => exact .inl (scan_of_restOf (restOf_zoneGrant u acc))
  | brings who => exact .inl (scan_of_restOf (restOf_bringStop u who acc))
  | sends who => exact .inl (scan_of_restOf (restOf_sendNext u who acc))
  | resumes who =>
    have hacc : (u.auditResume who).acc acc = u.acc acc := by
      unfold State.auditResume
      split
      · split <;> rfl
      · rfl
    exact .inl (by rw [hacc])
  | takes who q rest hcan hreqs =>
    by_cases hwho : acc = who
    · exact .inr (.inl (hwho ▸ hcan))
    · have hother : (scanBegun u who q rest).acc acc = u.acc acc := State.acc_updAcc_other _ _ _ _ hwho
      exact .inl (by rw [hother])
  | scans who x c hfree hnone hx hscanning hcursor =>
    by_cases hwho : acc = who
    · subst hwho
      refine .inr (.inr ⟨x, c, hfree, hx, hscanning, hcursor, ?_, ?_⟩)
      · have hself := audits_updAudit_self (acc := acc) u (fun x => { x with inFlight := true })
        rw [hx] at hself
        exact hself
      · unfold cellBegun
        rw [State.acc_updAcc_self]
    · have hother : (cellBegun u who c).acc acc = u.acc acc := State.acc_updAcc_other _ _ _ _ hwho
      exact .inl (by rw [hother])
  | opens who hfree hany => exact .inl (scan_of_restOf (restOf_updAcc (fun _ => by rfl) u who acc))
  | fills who hgather => exact .inl (scan_of_restOf (restOf_tripFill u who acc))
  | starts who hdue => exact .inl (scan_of_restOf (restOf_updAcc (fun _ => by rfl) u who acc))
  | parks who hidle hscan horder htodo hmiddle hpark => exact .inl (scan_of_restOf (restOf_idleOrPark u who acc))

theorem scan_stands (h : Step parking u v) (hscan : (u.acc acc).scan = some tgt) : (v.acc acc).scan = some tgt := by
  have hbusy : u.free acc ≠ true := fun hfree => by
    rw [(RailWork.of_free hfree).2] at hscan
    cases hscan
  rcases scan_step (acc := acc) h with hsame | hcan | ⟨x, c, hfree, -⟩
  · exact hsame.trans hscan
  · exact absurd (RailWork.canTakeScan_free hcan) hbusy
  · exact absurd hfree hbusy

/-! ## A SUSPENDED audit -/

/-- An audit is SUSPENDED while a yielding leg is queued or on its trip. -/
structure Waits (u : State) (acc : Acc) (x : Audit) (m : Nat) : Prop where
  audit : u.audits.get acc = some x
  suspended : x.state = .suspended
  yields : ∃ l, u.leg? m = some l ∧ x.yieldClass ≤ l.prio.val
  carries : Carries u acc m

theorem waits_step (hu : Waits u acc x m) (h : Step parking u v) : Waits v acc x m := by
  obtain ⟨hx, hsuspended, ⟨l, hl, hcls⟩, hcarries⟩ := hu
  have hleg : (u.leg? m).isSome = true := by
    rw [hl]
    rfl
  obtain ⟨k, hk, hkl⟩ := prio_of_lasting (lasting_move h) hl
  refine ⟨?_, hsuspended, ⟨k, hk, hkl ▸ hcls⟩, carries_move hleg hcarries h⟩
  rcases audits_step (acc := acc) h with hsame | ⟨y, hy, -, hfree, hnone, -⟩ | ⟨y, c, hy, hscanning, -⟩
  · exact hsame.trans hx
  · cases hx.symm.trans hy
    by_cases hout : m ∈ u.rail.queues.get acc
    · rw [hasYielding_iff.mpr ⟨m, hout, l, hl, hcls⟩] at hnone
      cases hnone
    · exact absurd (RailWork.of_free hfree).1 (onTrip_not_idle (onTrip_of_carries hcarries hout))
  · cases hx.symm.trans hy
    rw [hsuspended] at hscanning
    cases hscanning

theorem waits_moves (hu : Waits s acc x m) (h : Steps parking s t) : Waits t acc x m := h.keeps (fun _ _ => waits_step) hu

/-! ## A SCANNING audit -/

/-- A SCANNING audit, with the scan of its cursor cell in flight or not. -/
def Scans (u : State) (acc : Acc) (x : Audit) (c : Cell) (sent : Bool) : Prop :=
  u.audits.get acc = some { x with inFlight := sent } ∧ (sent = true → (u.acc acc).scan = some (.cell c))

section Scanning

variable (hscanning : x.state = .scanning) (hcursor : x.cursor = some c)
include hscanning hcursor

theorem scans_step {sent : Bool} (hu : Scans u acc x c sent) (h : Step parking u v) : Scans v acc x c sent ∨ Scans v acc x c true := by
  obtain ⟨hx, hscan⟩ := hu
  rcases audits_step (acc := acc) h with hsame | ⟨y, hy, hsuspended, -⟩ | ⟨y, k, hy, -, hk, -, hv, hvscan⟩
  · exact .inl ⟨hsame.trans hx, fun hsent => scan_stands h (hscan hsent)⟩
  · cases hx.symm.trans hy
    exact nomatch hscanning.symm.trans hsuspended
  · cases hx.symm.trans hy
    cases hcursor.symm.trans hk
    exact .inr ⟨hv, fun _ => hvscan⟩

theorem scans_moves {sent : Bool} (hs : Scans s acc x c sent) (h : Steps parking s t) : Scans t acc x c sent ∨ Scans t acc x c true := by
  refine h.keeps (P := fun u => Scans u acc x c sent ∨ Scans u acc x c true) (fun u v hu hmove => ?_) (.inl hs)
  rcases hu with hu | hu
  · exact scans_step hscanning hcursor hu hmove
  · exact .inr ((scans_step hscanning hcursor hu hmove).elim id id)

theorem sent_moves (hs : Scans s acc x c true) (h : Steps parking s t) : Scans t acc x c true :=
  (scans_moves hscanning hcursor hs h).elim id id

end Scanning

/-! ## An accessor with nothing before its audit -/

/-- A free accessor has a SCANNING audit and neither a station scan nor a leg that the audit lets go before it. -/
structure Clear (u : State) (acc : Acc) (x : Audit) : Prop where
  idle : (u.acc acc).state = .idle
  scan : (u.acc acc).scan = none
  quiesce : u.rail.quiesce = false
  audit : u.audits.get acc = some x
  unyielding : u.hasYielding acc x.yieldClass = false
  requests : u.station.latchOpen = true ∨ u.rail.scanReqs = []

theorem Clear.free (hu : Clear u acc x) : u.free acc = true := by simp [State.free, hu.idle, hu.scan, hu.quiesce]

theorem Clear.noScan (hu : Clear u acc x) : u.canTakeScan acc = false := by
  unfold State.canTakeScan
  rcases hu.requests with hlatch | hreqs
  · simp [hlatch]
  · simp [hreqs]

/-- An audit holds back the legs below its yield class. -/
theorem notEligible (hx : u.audits.get acc = some x) (hactive : x.state ≠ .done) (hnone : u.hasYielding acc x.yieldClass = false) :
    u.anyEligible acc = false := by
  unfold State.anyEligible
  refine List.any_eq_false.mpr fun m hm heligible => Bool.eq_false_iff.mp hnone ?_
  unfold State.eligible at heligible
  cases hl : u.leg? m with
  | none => simp [hl] at heligible
  | some l =>
    rw [hl, Option.map_some, Option.getD_some] at heligible
    simp only [Bool.and_eq_true, Bool.not_eq_true'] at heligible
    have hclass := Trips.heldBack_iff.mp heligible.1.1 x hx hactive
    exact hasYielding_iff.mpr ⟨m, hm, l, hl, hclass⟩

theorem Clear.notEligible (hu : Clear u acc x) (hscanning : x.state = .scanning) : u.anyEligible acc = false :=
  AuditWork.notEligible hu.audit (by rw [hscanning]; exact AuditState.noConfusion) hu.unyielding

theorem idle_of_accPhase (h : accPhase v acc = accPhase u acc) (hidle : (u.acc acc).state = .idle) : (v.acc acc).state = .idle := by
  have hstate := congrArg Prod.fst h
  unfold accPhase AccRec.phase at hstate
  rw [hidle] at hstate
  by_cases hwait : (v.acc acc).state = .waitingZone
  · rw [hwait] at hstate
    cases hstate
  · rw [if_neg hwait] at hstate
    exact hstate

/-- An idle accessor stays so, but for a trip that it opens and a PARK that it is sent. -/
theorem idle_step (h : Step False u v) (hany : u.anyEligible acc = false) (hidle : (u.acc acc).state = .idle) : (v.acc acc).state = .idle := by
  have hworks {who : Acc} (hstate : (u.acc who).state ≠ .idle) : who ≠ acc := fun heq => hstate (heq ▸ hidle)
  cases h with
  | prunes who => exact idle_of_accPhase (accPhase_pruneZone u who acc) hidle
  | ends who =>
    refine idle_of_accPhase ?_ hidle
    unfold State.endTrip
    dsimp only
    split
    next hend =>
      have hne := hworks (who := who) fun heq => by simp [heq] at hend
      exact (accPhase_idleOrPark _ who acc hne).trans (accPhase_updAcc u who acc _ fun heq => absurd heq hne)
    next => rfl
  | grants => exact idle_of_accPhase (accPhase_zoneGrant u acc) hidle
  | brings who => exact idle_of_accPhase (accPhase_bringStop u who acc) hidle
  | sends who => exact idle_of_accPhase (accPhase_sendNext u who acc) hidle
  | resumes who => exact idle_of_accPhase (accPhase_auditResume u who acc) hidle
  | takes who q rest hcan hreqs =>
    have hphase : accPhase (scanBegun u who q rest) acc = accPhase u acc := accPhase_updAcc _ who acc
      (fun x => { x with scan := some (.station q.pos q.kind false), todo := some .scan }) fun _ => rfl
    exact idle_of_accPhase hphase hidle
  | scans who x c hfree hnone hx hscanning hcursor =>
    have hphase : accPhase (cellBegun u who c) acc = accPhase u acc := accPhase_updAcc _ who acc
      (fun x => { x with scan := some (.cell c), todo := some .scan }) fun _ => rfl
    exact idle_of_accPhase hphase hidle
  | opens who hfree hsome =>
    have hne : who ≠ acc := fun heq => by
      rw [heq, hany] at hsome
      cases hsome
    exact idle_of_accPhase (accPhase_updAcc u who acc _ fun heq => absurd heq hne) hidle
  | fills who hgather =>
    exact idle_of_accPhase (accPhase_tripFill u who acc (hworks fun heq => nomatch heq.symm.trans hgather)) hidle
  | starts who hdue =>
    have hne : who ≠ acc := hworks fun heq => nomatch heq.symm.trans (Trips.startDue_iff.mp hdue).1
    exact idle_of_accPhase (accPhase_updAcc u who acc _ fun heq => absurd heq hne) hidle
  | parks who hidle hscan horder htodo hmiddle hpark => exact hpark.elim

/-- No scan is requested by the rail scheduler itself. -/
theorem scanReqs_step (h : Step parking u v) (hnone : u.rail.scanReqs = []) : v.rail.scanReqs = [] := by
  have hpart {w : State} (hw : workPart w = workPart u) : w.rail.scanReqs = [] :=
    (congrArg (fun q : PerAcc (List Nat) × List ScanReq × PerAcc (Option Audit) => q.2.1) hw).trans hnone
  cases h with
  | prunes who => exact hpart (workPart_pruneZone u who)
  | ends who => exact hpart (workPart_endTrip u who)
  | grants => exact hpart (workPart_zoneGrant u)
  | brings who => exact hpart (workPart_bringStop u who)
  | sends who => exact hpart (workPart_sendNext u who)
  | resumes who =>
    unfold State.auditResume
    split
    · split <;> exact hnone
    · exact hnone
  | takes who q rest hcan hreqs => exact nomatch hnone.symm.trans hreqs
  | scans who x c hfree hany hx hscanning hcursor => exact hnone
  | opens who hfree hany => exact hnone
  | fills who hgather =>
    obtain ⟨legs, -, -, hjoins⟩ := tripFill_joins u who
    rw [hjoins.scanReqs]
    exact hnone
  | starts who hdue => exact hnone
  | parks who hidle hscan horder htodo hmiddle hpark => exact hpart (workPart_idleOrPark u who)

theorem clear_step (hscanning : x.state = .scanning) (hcursor : x.cursor = some c) (hu : Clear u acc x) (h : Step False u v) :
    Clear v acc x ∨ Scans v acc x c true := by
  have hlast := lasting_move h
  have hbegun {y : Audit} {k : Cell} (hy : u.audits.get acc = some y) (hk : y.cursor = some k)
      (hv : v.audits.get acc = some { y with inFlight := true }) (hvscan : (v.acc acc).scan = some (.cell k)) : Scans v acc x c true := by
    cases hu.audit.symm.trans hy
    cases hcursor.symm.trans hk
    exact ⟨hv, fun _ => hvscan⟩
  rcases scan_step (acc := acc) h with hscan | hcan | ⟨y, k, -, hy, -, hk, hv, hvscan⟩
  · rcases audits_step (acc := acc) h with hsame | ⟨y, hy, hsuspended, -⟩ | ⟨y, k, hy, -, hk, -, hv, hvscan⟩
    · refine .inl ⟨idle_step h (hu.notEligible hscanning) hu.idle, hscan.trans hu.scan, (quiesce_of_lasting hlast).trans hu.quiesce,
        hsame.trans hu.audit, hasYielding_back hlast (queue_move h) hu.unyielding, hu.requests.imp (fun hlatch => ?_) (scanReqs_step h)⟩
      have hkeeps : v.station.latchOpen = u.station.latchOpen := (congrArg (fun w : State => w.station.latchOpen) hlast :)
      exact hkeeps.trans hlatch
    · cases hu.audit.symm.trans hy
      exact nomatch hscanning.symm.trans hsuspended
    · exact .inr (hbegun hy hk hv hvscan)
  · rw [hu.noScan] at hcan
    cases hcan
  · exact .inr (hbegun hy hk hv hvscan)

section Clear

variable (hscanning : x.state = .scanning) (hcursor : x.cursor = some c)
include hscanning hcursor

theorem clear_steps (hs : Clear s acc x) (h : Steps False s t) : Clear t acc x ∨ Scans t acc x c true := by
  refine h.keeps (P := fun u => Clear u acc x ∨ Scans u acc x c true) (fun u v hu hmove => ?_) (.inl hs)
  rcases hu with hu | hu
  · exact clear_step hscanning hcursor hu hmove
  · exact .inr ((scans_step hscanning hcursor hu hmove).elim id id)

/-- The accessor's own search sends the scan. -/
theorem clear_look (hu : Clear u acc x) : Scans (u.look acc) acc x c true := by
  have hresume : u.auditResume acc = u := by
    unfold State.auditResume
    rw [hu.audit]
    simp [hscanning]
  have hsends : u.auditScanSend acc = (cellBegun u acc c).orderSend acc := by
    unfold State.auditScanSend
    rw [if_pos (by simp [hu.free, hu.noScan, hu.notEligible hscanning]), hu.audit]
    simp only [hscanning, hcursor]
    rfl
  have hlook : u.look acc = ((((cellBegun u acc c).orderSend acc).gather acc).startIfDue acc) := by
    rw [look_eq, hresume, lookOn, if_neg (by rw [hu.noScan]; exact Bool.false_ne_true),
      if_neg (by rw [hu.notEligible hscanning, Bool.and_false]; exact Bool.false_ne_true), hsends]
  have hbegun : Scans (cellBegun u acc c) acc x c true := by
    refine ⟨?_, fun _ => ?_⟩
    · have hself := audits_updAudit_self (acc := acc) u (fun x => { x with inFlight := true })
      rw [hu.audit] at hself
      exact hself
    · unfold cellBegun
      rw [State.acc_updAcc_self]
  rw [hlook]
  exact sent_moves hscanning hcursor hbegun
    ((moves_orderSend (parking := True) _ acc).trans ((moves_gather _ acc).trans (moves_startIfDue _ acc)))

theorem clear_railSettle (hs : Clear s acc x) : Scans s.railSettle acc x c true := by
  have hlook {u : State} (hu : Clear u acc x ∨ Scans u acc x c true) : Scans (u.look acc) acc x c true :=
    hu.elim (clear_look hscanning hcursor) fun hsent => sent_moves hscanning hcursor hsent (moves_look (parking := True) u acc)
  have hrest {u : State} (hu : Scans u acc x c true) : Scans ((u.idlePark .a).idlePark .b) acc x c true :=
    sent_moves hscanning hcursor hu ((moves_idlePark u .a).trans (moves_idlePark _ .b))
  have hordered := clear_steps hscanning hcursor hs (moves_ordered s)
  rw [railSettle_eq]
  cases acc with
  | a => exact hrest (sent_moves hscanning hcursor (hlook hordered) (moves_look (parking := True) _ .b))
  | b =>
    refine hrest (hlook ?_)
    rcases hordered with hclear | hsent
    · exact clear_steps hscanning hcursor hclear (moves_look _ .a)
    · exact .inr (sent_moves hscanning hcursor hsent (moves_look (parking := True) _ .a))

/-- At the end of the event the scan is sent, or waits for the lock or a gate. -/
theorem clear_commit (hcalm : calm s) (hs : Clear s acc x) : Scans s.commit acc x c true := by
  rw [commit_of_calm hcalm]
  exact sent_moves hscanning hcursor (clear_railSettle hscanning hcursor hs) (moves_railSettle _)

end Clear

end AuditWork

end Sys2Proof
end

section
/-! PROOFS. AUDIT_START, AUDIT_ABORT, the resuming of an audit and the sending of its scans (R121 to R125, R129, R132). -/

namespace Sys2Proof

namespace AuditCommands

open Machine Safety Upkeep Settling Events RailMoves AuditWork OrderGates Requests Classifying RuleTable

variable {s t u v : State} {acc : Acc} {n : Nat} {x y : Audit} {c first last : Cell} {tag : Tag} {e : Entry} {cls : Nat}

/-! ## The checks -/

theorem rangeOk_iff : rangeOk first last cls = true ↔ cellOk first = true ∧ cellOk last = true ∧ cellLe first last = true ∧ cls ≤ 3 := by
  unfold rangeOk
  simp only [Bool.and_eq_true, decide_eq_true_eq, and_assoc]

theorem activeAudit_some : s.activeAudit acc = some x ↔ s.audits.get acc = some x ∧ x.state ≠ .done := by
  unfold State.activeAudit Audit.active
  rw [Option.filter_eq_some_iff]
  simp

theorem activeAudit_none : s.activeAudit acc = none ↔ ¬∃ x, s.audits.get acc = some x ∧ x.state ≠ .done := by
  rw [Option.eq_none_iff_forall_ne_some]
  simp [activeAudit_some]

theorem homeIn_eq (e : Entry) (first last : Cell) : e.homeIn first last = decide (∃ c, e.home = some c ∧ inRange first last c = true) := by
  unfold Entry.homeIn
  cases e.home <;> simp

section Refused

variable (hacc : accOfCode n = some acc) (hready : ready s)
include hready

theorem refused (hno : accOfCode n = none) :
    exec (.auditStart tag n first last cls) s = .next (answered s (replyFrame 0x50 tag .badArgument .nothing))
      ∧ exec (.auditAbort tag n) s = .next (answered s (replyFrame 0x51 tag .badArgument .nothing)) := by
  constructor
  · show execAuditStart tag n first last cls s = _
    unfold execAuditStart
    rw [arrive_of_ready hready, hno]
    exact congrArg Host.Outcome.next (reply_start hready _ _ _ _)
  · show execAuditAbort tag n s = _
    unfold execAuditAbort
    rw [arrive_of_ready hready, hno]
    exact congrArg Host.Outcome.next (reply_start hready _ _ _ _)

include hacc

theorem start_badRange (hno : ¬(cellOk first = true ∧ cellOk last = true ∧ cellLe first last = true ∧ cls ≤ 3)) :
    exec (.auditStart tag n first last cls) s = .next (answered s (replyFrame 0x50 tag .badArgument .nothing)) := by
  have hrange : rangeOk first last cls = false := Bool.eq_false_iff.mpr fun h => hno (rangeOk_iff.mp h)
  show execAuditStart tag n first last cls s = _
  unfold execAuditStart
  rw [arrive_of_ready hready]
  simp only [hacc, hrange, if_true]
  exact congrArg Host.Outcome.next (reply_start hready _ _ _ _)

variable (hok : cellOk first = true ∧ cellOk last = true ∧ cellLe first last = true ∧ cls ≤ 3)
include hok

theorem start_busy (hrunning : ∃ x, s.audits.get acc = some x ∧ x.state ≠ .done) :
    exec (.auditStart tag n first last cls) s = .next (answered s (replyFrame 0x50 tag .busy .nothing)) := by
  obtain ⟨x, hx⟩ := hrunning
  have hactive : s.start.activeAudit acc = some x := activeAudit_some (s := s).mpr hx
  show execAuditStart tag n first last cls s = _
  unfold execAuditStart
  rw [arrive_of_ready hready]
  simp only [hacc, rangeOk_iff.mpr hok, hactive, Option.isSome_some, if_true, Bool.true_eq_false, if_false]
  exact congrArg Host.Outcome.next (reply_start hready _ _ _ _)

theorem start_outOfReach (hidle : ¬∃ x, s.audits.get acc = some x ∧ x.state ≠ .done)
    (hno : (s.acc acc).state = .offline ∨ ¬(inReach acc first.col = true ∧ inReach acc last.col = true)) :
    exec (.auditStart tag n first last cls) s = .next (answered s (replyFrame 0x50 tag .badArgument .nothing)) := by
  have hactive : s.start.activeAudit acc = none := activeAudit_none (s := s).mpr hidle
  have hbad : (decide ((s.start.acc acc).state = .offline) || !(reaches acc first && reaches acc last)) = true := by
    have hacc' : s.start.acc acc = s.acc acc := rfl
    unfold reaches
    rw [hacc']
    rcases hno with hoffline | hreach
    · simp [hoffline]
    · simp only [Bool.or_eq_true, Bool.not_eq_true', Bool.and_eq_false_iff]
      refine .inr ?_
      by_contra hboth
      exact hreach (by simpa using hboth)
  show execAuditStart tag n first last cls s = _
  unfold execAuditStart
  rw [arrive_of_ready hready]
  simp only [hacc, rangeOk_iff.mpr hok, hactive, Option.isSome_none, hbad, if_true, Bool.true_eq_false, Bool.false_eq_true, if_false]
  exact congrArg Host.Outcome.next (reply_start hready _ _ _ _)

end Refused

/-! ## An audit that starts (R123) -/

/-- The audit as AUDIT_START sets it. -/
def startedIn (x : Audit) (yields : Bool) : Audit := { x with state := if yields then .suspended else .scanning }

/-- The state in which AUDIT_START has been answered. -/
def started (s : State) (acc : Acc) (tag : Tag) (first last : Cell) (x : Audit) : State :=
  answered { s with
    audits := s.audits.set acc (some x),
    dir := s.dir.map (fun e => if e.homeIn first last then { e with verif := .auditPending } else e) }
    (replyFrame 0x50 tag .done (.auditStarted (rangeSize first last) (s.dir.filter (fun e => e.homeIn first last)).length))

theorem exec_start (hacc : accOfCode n = some acc) (hready : ready s)
    (hok : cellOk first = true ∧ cellOk last = true ∧ cellLe first last = true ∧ cls ≤ 3)
    (hidle : ¬∃ x, s.audits.get acc = some x ∧ x.state ≠ .done) (honline : (s.acc acc).state ≠ .offline)
    (hreach : inReach acc first.col = true ∧ inReach acc last.col = true) :
    exec (.auditStart tag n first last cls) s
      = .next (started s acc tag first last (startedIn (Audit.fresh first last cls) (s.hasYielding acc cls))).commit := by
  have hactive : s.start.activeAudit acc = none := activeAudit_none (s := s).mpr hidle
  have hgood : (decide ((s.start.acc acc).state = .offline) || !(reaches acc first && reaches acc last)) = false := by
    have hacc' : s.start.acc acc = s.acc acc := rfl
    unfold reaches
    rw [hacc']
    simp [honline, hreach.1, hreach.2]
  have hdone (result : Result) : (s.start.startAudit acc first last cls).done 0x50 tag result
      = answered (s.start.startAudit acc first last cls) (replyFrame 0x50 tag .done result) :=
    reply_answered (s := s.start.startAudit acc first last cls) (keptFree_of_ready hready) rfl _ _ _ _
  show execAuditStart tag n first last cls s = _
  unfold execAuditStart
  rw [arrive_of_ready hready]
  simp only [hacc, rangeOk_iff.mpr hok, hactive, Option.isSome_none, hgood, Bool.true_eq_false, Bool.false_eq_true, if_false]
  rw [hdone]
  rfl

theorem calm_started (hcalm : calm s) (x : Audit) : calm (started s acc tag first last x) := hcalm

theorem lasting_setAudit (hxy : lastingAudit x = lastingAudit y) (u : State) :
    lasting { u with audits := u.audits.set acc (some x) } = lasting { u with audits := u.audits.set acc (some y) } := by
  have haudits : ({ a := ((u.audits.set acc (some x)).a).map lastingAudit, b := ((u.audits.set acc (some x)).b).map lastingAudit } : PerAcc (Option Audit))
      = { a := ((u.audits.set acc (some y)).a).map lastingAudit, b := ((u.audits.set acc (some y)).b).map lastingAudit } := by
    cases acc with
    | a => exact congrArg (fun z => ({ a := some z, b := u.audits.b.map lastingAudit } : PerAcc (Option Audit))) hxy
    | b => exact congrArg (fun z => ({ a := u.audits.a.map lastingAudit, b := some z } : PerAcc (Option Audit))) hxy
  exact congrArg (fun z => { lasting u with audits := z }) haudits

theorem lasting_started (hxy : lastingAudit x = lastingAudit y) :
    lasting (started s acc tag first last x) = lasting (started s acc tag first last y) := by
  exact lasting_setAudit (acc := acc) hxy (answered { s with
    dir := s.dir.map (fun e => if e.homeIn first last then { e with verif := .auditPending } else e) }
    (replyFrame 0x50 tag .done (.auditStarted (rangeSize first last) (s.dir.filter (fun e => e.homeIn first last)).length)))

theorem audits_started (x : Audit) : (started s acc tag first last x).audits.get acc = some x := PerAcc.get_set_self _ _ _

end AuditCommands

end Sys2Proof
end

section
/-! PROOFS. The obligation of the audit's operations (R121 to R125, R129, R132). -/

namespace Sys2Proof

namespace AuditCommands

open Machine Safety Upkeep Settling Events RailMoves AuditWork OrderGates Requests Classifying RuleTable

variable {s t u v : State} {acc : Acc} {n : Nat} {x y : Audit} {c first last : Cell} {tag : Tag} {e : Entry} {cls : Nat}

/-! ## AUDIT_START is taken -/

theorem start_waits (hcalm : calm s) (hyields : s.hasYielding acc cls = true) (hx : x.state = .suspended) (hcls : x.yieldClass = cls) :
    (started s acc tag first last x).commit.audits.get acc = some x := by
  obtain ⟨m, hm, l, hl, hprio⟩ := hasYielding_iff.mp hyields
  have hwaits : Waits (started s acc tag first last x) acc x m := ⟨audits_started x, hx, ⟨l, hl, hcls ▸ hprio⟩, .inl hm⟩
  exact (waits_moves hwaits (moves_commit (calm_started hcalm x))).audit

theorem start_scans (hcalm : calm s) (hyields : s.hasYielding acc x.yieldClass = false) (hx : x.state = .scanning) (hcursor : x.cursor = some c)
    (hflight : x.inFlight = false) : ∃ sent, Scans (started s acc tag first last x).commit acc x c sent
      ∧ (s.free acc = true → s.station.latchOpen = true ∨ s.rail.scanReqs = [] → sent = true) := by
  have hfresh : Scans (started s acc tag first last x) acc x c false := by
    refine ⟨(audits_started x).trans (congrArg some ?_), fun hsent => nomatch hsent⟩
    rw [← hflight]
  by_cases hclear : s.free acc = true ∧ (s.station.latchOpen = true ∨ s.rail.scanReqs = [])
  · obtain ⟨hidle, hscan⟩ := RailWork.of_free hclear.1
    have hquiesce : s.rail.quiesce = false := by
      have hfree := hclear.1
      simp only [State.free, Bool.and_eq_true, Bool.not_eq_true'] at hfree
      exact hfree.2
    have hstart : Clear (started s acc tag first last x) acc x := ⟨hidle, hscan, hquiesce, audits_started x, hyields, hclear.2⟩
    exact ⟨true, clear_commit hx hcursor (calm_started hcalm x) hstart, fun _ _ => rfl⟩
  · rcases scans_moves hx hcursor hfresh (moves_commit (calm_started hcalm x)) with hnot | hsent
    · exact ⟨false, hnot, fun hfree hreqs => absurd ⟨hfree, hreqs⟩ hclear⟩
    · exact ⟨true, hsent, fun _ _ => rfl⟩

/-! ## AUDIT_ABORT (R132) -/

theorem abort_nothing (hacc : accOfCode n = some acc) (hready : ready s) (hidle : ¬∃ x, s.audits.get acc = some x ∧ x.state ≠ .done) :
    exec (.auditAbort tag n) s = .next (answered s (replyFrame 0x51 tag .done .noAudit)) := by
  have hactive : s.start.activeAudit acc = none := activeAudit_none (s := s).mpr hidle
  show execAuditAbort tag n s = _
  unfold execAuditAbort
  rw [arrive_of_ready hready]
  simp only [hacc, hactive]
  exact congrArg Host.Outcome.next (reply_start hready _ _ _ _)

theorem abort_pending (hacc : accOfCode n = some acc) (hready : ready s) (hx : s.audits.get acc = some x) (hrunning : x.state ≠ .done)
    (hflight : x.inFlight = true) : exec (.auditAbort tag n) s
      = .next (answered { s with audits := s.audits.set acc (some { x with abortPending := true }) } (replyFrame 0x51 tag .done (.passed x.scanned))) := by
  have hactive : s.start.activeAudit acc = some x := activeAudit_some (s := s).mpr ⟨hx, hrunning⟩
  obtain ⟨w, hw⟩ : ∃ w, w = ({ s.start with audits := s.audits.set acc (some { x with abortPending := true }) } : State) := ⟨_, rfl⟩
  have hset : s.start.updAudit acc (fun x => { x with abortPending := true }) = w := by
    have hget : s.start.audits.get acc = some x := hx
    unfold State.updAudit
    rw [hget, hw]
    rfl
  have hfree : w.link.keptFree = true := by
    rw [hw]
    exact keptFree_of_ready hready
  have hdone : w.done 0x51 tag (.passed x.scanned) = answered w (replyFrame 0x51 tag .done (.passed x.scanned)) :=
    reply_answered hfree (by rw [hw]; rfl) _ _ _ _
  refine Eq.trans (b := Host.Outcome.next (answered w (replyFrame 0x51 tag .done (.passed x.scanned)))) ?_ (by rw [hw]; rfl)
  show execAuditAbort tag n s = _
  unfold execAuditAbort
  rw [arrive_of_ready hready]
  simp only [hacc, hactive, hflight, if_true]
  rw [hset, hdone]

/-- An audit that an abort has ended. -/
def abortedAudit (x : Audit) : Audit := { x with state := .done, endedBy := some .abort, cursor := none, skip := [], abortPending := false }

/-- The directory after the abort update of R61. -/
def unmarked (dir : List Entry) (x : Audit) : List Entry :=
  dir.map (fun e => if e.verif = .auditPending ∧ ∃ c, e.home = some c ∧ inRange x.first x.last c = true then { e with verif := .unverified } else e)

theorem auditAborted_eq (s : State) (x : Audit) : s.auditAborted x.first x.last = { s with dir := unmarked s.dir x } := by
  refine congrArg (fun l => { s with dir := l }) (List.map_congr_left fun e _ => ?_)
  unfold unmark
  cases e.home <;> simp

theorem abortAudit_eq (hx : s.audits.get acc = some x) : s.abortAudit acc
    = ({ s with audits := s.audits.set acc (some { abortedAudit x with inFlight := false }), dir := unmarked s.dir x } : State).raise .auditDone
        (.accessor acc) := by
  unfold State.abortAudit State.endAudit
  rw [hx]
  dsimp only
  rw [auditAborted_eq]
  unfold State.updAudit
  have hget : ({ s with dir := unmarked s.dir x } : State).audits.get acc = some x := hx
  rw [hget]
  rfl

theorem keptFree_noticed (u : State) (k : Notice) : (noticed u k).link.keptFree = u.link.keptFree := by
  have hused : (noticed u k).link.keptUsed = u.link.keptUsed := by
    unfold noticed Link.keptUsed offered
    dsimp only
    split <;> simp [List.filter_append]
  unfold Link.keptFree
  rw [hused]

theorem abort_ends (hacc : accOfCode n = some acc) (hready : ready s) (hx : s.audits.get acc = some x) (hrunning : x.state ≠ .done)
    (hflight : x.inFlight = false) (hcalm : calm s) : ∃ t, exec (.auditAbort tag n) s = .next t
      ∧ lasting t = lasting (answered (noticed { s with audits := s.audits.set acc (some (abortedAudit x)), dir := unmarked s.dir x }
          { kind := .auditDone, subject := .accessor acc }) (replyFrame 0x51 tag .done (.passed x.scanned))) := by
  have hactive : s.start.activeAudit acc = some x := activeAudit_some (s := s).mpr ⟨hx, hrunning⟩
  obtain ⟨w, hw⟩ : ∃ w, w = ({ s with audits := s.audits.set acc (some (abortedAudit x)), dir := unmarked s.dir x } : State) := ⟨_, rfl⟩
  have hended : lasting (s.start.abortAudit acc) = lasting (w.raise .auditDone (.accessor acc)) := by
    have hsame : ({ abortedAudit x with inFlight := false } : Audit) = abortedAudit x := by
      rw [← hflight]
      rfl
    rw [abortAudit_eq (s := s.start) hx, hsame, hw]
    rfl
  have hwaits : noneWaits (s.start.abortAudit acc) := by
    rw [abortAudit_eq (s := s.start) hx]
    exact hcalm.1
  have hraised : nothingRaised w := by
    rw [hw]
    exact hcalm.2
  have hlast := lasting_commit_raised hraised hwaits hended
  obtain ⟨v, hv⟩ : ∃ v, v = (s.start.abortAudit acc).commit := ⟨_, rfl⟩
  rw [← hv] at hlast
  have hfree : v.link.keptFree = true := by
    rw [link_of_lasting hlast, keptFree_noticed, hw]
    exact keptFree_of_ready hready
  refine ⟨v.done 0x51 tag (.passed x.scanned), ?_, ?_⟩
  · show execAuditAbort tag n s = _
    unfold execAuditAbort
    rw [arrive_of_ready hready]
    simp only [hacc, hactive, hflight, Bool.false_eq_true, if_false]
    rw [hv]
  · rw [← hw, LibraryStates.done_enqueue hfree]
    exact congrArg (fun u : State => u.enqueue true (replyFrame 0x51 tag .done (.passed x.scanned))) hlast

/-! ## The resuming of an audit and the sending of its scan (R125, R129) -/

theorem resume_takes (hx : s.audits.get acc = some x) (hsuspended : x.state = .suspended) (hfree : s.free acc = true)
    (hyields : s.hasYielding acc x.yieldClass = false) :
    exec (.auditResume acc) s = .next { s with sent := [], audits := s.audits.set acc (some { x with state := .scanning }) } := by
  have hresume : s.start.auditResume acc = s.start.updAudit acc (fun x => { x with state := .scanning }) := by
    have hget : s.start.audits.get acc = some x := hx
    have hdue : (decide (x.state = .suspended) && s.start.free acc && !s.start.hasYielding acc x.yieldClass) = true := by
      have hfree' : s.start.free acc = true := hfree
      have hyields' : s.start.hasYielding acc x.yieldClass = false := hyields
      simp [hsuspended, hfree', hyields']
    unfold State.auditResume
    rw [hget]
    exact if_pos hdue
  have hset : s.start.updAudit acc (fun x => { x with state := .scanning })
      = { s with sent := [], audits := s.audits.set acc (some { x with state := .scanning }) } := by
    have hget : s.start.audits.get acc = some x := hx
    unfold State.updAudit
    rw [hget]
    rfl
  exact congrArg Host.Outcome.next (hresume.trans hset)

theorem resume_nothing (hno : s.free acc = false ∨ ∀ x, s.audits.get acc = some x → x.state = .suspended → s.hasYielding acc x.yieldClass = true) :
    exec (.auditResume acc) s = .next { s with sent := [] } := by
  have hresume : s.start.auditResume acc = s.start := by
    cases hx : s.audits.get acc with
    | none =>
      have hget : s.start.audits.get acc = none := hx
      unfold State.auditResume
      rw [hget]
    | some x =>
      have hget : s.start.audits.get acc = some x := hx
      unfold State.auditResume
      rw [hget]
      refine if_neg fun hdue => ?_
      simp only [Bool.and_eq_true, decide_eq_true_eq, Bool.not_eq_true'] at hdue
      obtain ⟨⟨hsuspended, hfree⟩, hnone⟩ := hdue
      rcases hno with hbusy | hyields
      · exact nomatch hbusy.symm.trans hfree
      · exact nomatch (hyields x hx hsuspended).symm.trans hnone
  exact congrArg Host.Outcome.next hresume

theorem scanSend_nothing (hno : s.free acc = false ∨ ∀ x, s.audits.get acc = some x → x.state ≠ .scanning) :
    exec (.auditScanSend acc) s = .next { s with sent := [] } := by
  have hsend : s.start.auditScanSend acc = s.start := by
    unfold State.auditScanSend
    split
    next hdue =>
      simp only [Bool.and_eq_true] at hdue
      split
      next x hx =>
        split
        next hscanning _ =>
          rcases hno with hbusy | hnone
          · exact nomatch hbusy.symm.trans hdue.1.1
          · exact absurd hscanning (hnone x hx)
        next => rfl
      next => rfl
    next => rfl
  exact congrArg Host.Outcome.next hsend

/-- The SCAN of a cell, as it is tested. -/
def cellTested (c : Cell) : NextOrder := { op := .scan, col := c.col, place := some (.cell c), needsLock := inMiddle c.col }

theorem inMiddle_iff (col : Nat) : inMiddle col = true ↔ 80 ≤ col ∧ col ≤ 119 := by
  unfold inMiddle segmentOf
  split
  · simp
    omega
  · split
    · simp
      omega
    · simp
      omega

theorem scanSend_sent (hx : s.audits.get acc = some x) (hscanning : x.state = .scanning) (hcursor : x.cursor = some c) (hfree : s.free acc = true)
    (hreqs : s.station.latchOpen = true ∨ s.rail.scanReqs = []) (hnone : ∀ m ∈ s.rail.queues.get acc, s.eligible acc m = false)
    (horder : (s.acc acc).order = none) (hcell : cellOk c = true) (hguard : s.guardOpen c.col = false)
    (hzone : (c.col < 80 ∨ 120 ≤ c.col) ∨ s.rail.zone = none ∨ s.rail.zone = some acc) :
    ∃ t, exec (.auditScanSend acc) s = .next t ∧ (t.acc acc).scan = some (.cell c) ∧ t.audits.get acc = some { x with inFlight := true }
      ∧ t.rail.zone = (if c.col < 80 ∨ 120 ≤ c.col then s.rail.zone else some acc)
      ∧ t.sent = [.accessor acc { op := .scan, col := c.col, place := some (.cell c), holder := none, timer := (s.acc acc).limScan }]
      ∧ lasting t = lasting s := by
  obtain ⟨w, hw⟩ : ∃ w, w = cellBegun s.start acc c := ⟨_, rfl⟩
  have hwacc : w.acc acc = { s.acc acc with scan := some (.cell c), todo := some .scan } := by
    rw [hw]
    exact State.acc_updAcc_self _ _ _
  have hcan : s.start.canTakeScan acc = false := Bool.eq_false_iff.mpr fun hcan => by
    obtain ⟨-, hlatch, hsome⟩ := FirstInLine.canTakeScan_iff.mp hcan
    exact hreqs.elim (fun hopen => nomatch hopen.symm.trans hlatch) hsome
  have hany : s.start.anyEligible acc = false := List.any_eq_false.mpr fun m hm => by
    have hno := hnone m hm
    exact Bool.eq_false_iff.mp hno
  have hsends : s.start.auditScanSend acc = w.orderSend acc := by
    have hget : s.start.audits.get acc = some x := hx
    have hfree' : s.start.free acc = true := hfree
    unfold State.auditScanSend
    rw [if_pos (by simp [hfree', hcan, hany]), hget]
    simp only [hscanning, hcursor]
    rw [hw]
    rfl
  have htested : (w.acc acc).todoOrder acc .scan = some (cellTested c) := by
    unfold AccRec.todoOrder
    rw [hwacc]
    rfl
  have htries := orderSend_of_todo (s := w) (acc := acc) (by rw [hwacc]; exact horder) (by rw [hwacc]) htested
  have hmiddle (hneeds : inMiddle c.col = true) : ¬(c.col < 80 ∨ 120 ≤ c.col) := by
    obtain ⟨hlow, hhigh⟩ := (inMiddle_iff c.col).mp hneeds
    omega
  have hgates : w.gatesOk (cellTested c) = true := by
    rw [hw]
    refine gatesOk_iff.mpr ⟨hguard, fun hcol => ?_⟩
    have hc : c.col = 100 := hcol
    simp [cellOk, hc] at hcell
  have hlock (hneeds : (cellTested c).needsLock = true) : lockTaken w acc := by
    rw [hw]
    rcases (hzone.resolve_left (hmiddle hneeds)) with hfreeZone | hheld
    · refine .inr ⟨hfreeZone, ?_⟩
      have hsegment : segmentOf c.col = .middle := of_decide_eq_true hneeds
      unfold State.guardOpen at hguard
      rw [hsegment] at hguard
      exact hguard
    · exact .inl hheld
  obtain ⟨hsent, hat, -, hlocked⟩ := tryOrder_sends (s := w) (acc := acc) hgates hlock
  have haudits := audits_of_workPart ((workPart_sendNext (w.bringStop acc) acc).trans (workPart_bringStop w acc)) acc
  refine ⟨w.orderSend acc, congrArg Host.Outcome.next hsends, ?_, ?_, ?_, ?_, ?_⟩
  · have hunwait : ∀ x : AccRec, x.unwait.scan = x.scan := fun x => by
      unfold AccRec.unwait
      split <;> rfl
    rw [htries, hat]
    exact (hunwait _).trans (by rw [hwacc])
  · refine haudits.trans ?_
    have hself := audits_updAudit_self (acc := acc) s.start (fun x => { x with inFlight := true })
    rw [show s.start.audits.get acc = some x from hx] at hself
    rw [hw]
    exact hself
  · rw [htries, hlocked, hw]
    by_cases hneeds : inMiddle c.col = true
    · rw [if_neg (hmiddle hneeds)]
      exact if_pos hneeds
    · have hout : c.col < 80 ∨ 120 ≤ c.col := by
        by_contra hin
        exact hneeds ((inMiddle_iff c.col).mpr (by omega))
      rw [if_pos hout]
      exact if_neg hneeds
  · rw [htries, hsent]
    unfold sentOrder
    rw [hwacc, hw]
    rfl
  · rw [lasting_orderSend, hw]
    unfold cellBegun
    have hflight : lasting (s.start.updAudit acc (fun x => { x with inFlight := true })) = lasting s := lasting_updAudit s.start acc _ fun _ => rfl
    rw [← hflight]
    exact lasting_updAcc _ acc (fun x => { x with scan := some (.cell c), todo := some .scan }) fun _ => rfl

/-! ## The obligation -/

/-- Settles O53. -/
theorem auditOperations : Obligations.AuditOperations := by
  intro tag n acc first last cls s hacc ok running reach marked yields
  have hyields (k : Nat) : s.hasYielding acc k = true ↔ yields k := hasYielding_iff
  have hmarked : marked = fun e => e.homeIn first last := funext fun e => (homeIn_eq e first last).symm
  have hunyielding {k : Nat} (hno : ¬yields k) : s.hasYielding acc k = false := Bool.eq_false_iff.mpr fun h => hno ((hyields k).mp h)
  refine ⟨hyields, fun hready hno => start_badRange hacc hready hno, fun hready hok hrunning => start_busy hacc hready hok hrunning,
    fun hready hok hidle hno => start_outOfReach hacc hready hok hidle hno, fun hready hok hidle honline hreach hcalm => ?_,
    fun hready hidle => abort_nothing hacc hready hidle, fun x hready hx hrunning hflight => abort_pending hacc hready hx hrunning hflight,
    fun x hready hx hrunning hflight hcalm => abort_ends hacc hready hx hrunning hflight hcalm,
    fun x hx hsuspended hfree hno => resume_takes hx hsuspended hfree (hunyielding hno), fun hno => resume_nothing ?_,
    scanSend_nothing, fun x c hx hscanning hcursor hfree hreqs hnone horder hcell hguard hzone =>
      scanSend_sent hx hscanning hcursor hfree hreqs hnone horder hcell hguard hzone, fun m hm hready => refused hready (Reporting.accOfCode_of_le hm)⟩
  · intro x
    have hexec := exec_start (tag := tag) (cls := cls) hacc hready hok hidle honline hreach
    have hlast (y : Audit) (hy : lastingAudit y = lastingAudit x) : lasting (started s acc tag first last y).commit
        = lasting (started s acc tag first last x) :=
      (Machine.lasting_commit (calm_started hcalm y)).trans (lasting_started hy)
    rw [hmarked]
    cases hany : s.hasYielding acc cls with
    | true =>
      rw [hany] at hexec
      refine ⟨_, false, hexec, fun _ => ⟨rfl, start_waits hcalm hany rfl rfl⟩, fun hno => absurd ((hyields cls).mp hany) hno, hlast _ rfl⟩
    | false =>
      rw [hany] at hexec
      obtain ⟨sent, ⟨haudit, hscan⟩, hall⟩ := start_scans (tag := tag) (first := first) (last := last) (x := x) (c := first) hcalm hany rfl rfl rfl
      exact ⟨_, sent, hexec, fun hyes => (nomatch ((hyields cls).mpr hyes).symm.trans hany), fun _ => ⟨haudit, hscan, hall⟩, hlast x rfl⟩
  · exact hno.imp id fun hall x hx hsuspended => (hyields _).mpr (hall x hx hsuspended)

end AuditCommands

end Sys2Proof
end

section
/-! PROOFS. A PARK to the own side while the rail scheduler works (R108, R110, R111, R112): it is sent under the lock when the guard is CLOSED,
and held back with the accessor waiting for the lock otherwise. -/

namespace Sys2Proof

namespace ParkAside

open Machine Safety Upkeep Settling RailMoves OrderGates

variable {s t u v : State} {acc who : Acc} {lim : Nat} {ref : LegRef} {parking : Prop}

/-- The PARK order of an accessor. -/
def parkOrder (acc : Acc) (lim : Nat) : Order :=
  { op := .park, col := if acc = .a then 79 else 120, place := none, holder := none, timer := lim }

/-- What a PARK turns on in an accessor. -/
def core (x : AccRec) : AccState × Option Order × Option OrderOp := (x.state, x.order, x.todo)

/-- An accessor in the Middle segment has a PARK to its own side as its next order or, under the lock, in flight. -/
structure Parks (u : State) (acc : Acc) (lim : Nat) : Prop where
  state : (u.acc acc).state = .offline ∨ (u.acc acc).state = .running ∨ (u.acc acc).state = .waitingZone
  middle : inMiddle (u.acc acc).column = true
  limit : (u.acc acc).limPlace = lim
  next : ((u.acc acc).order = none ∧ (u.acc acc).todo = some .park)
    ∨ ((u.acc acc).order = some (parkOrder acc lim) ∧ (u.acc acc).todo = none ∧ .accessor acc (parkOrder acc lim) ∈ u.sent ∧ u.rail.zone = some acc)

/-- The lock is the accessor's, or it waits for it. -/
def Locked (u : State) (acc : Acc) : Prop := u.rail.zone = some acc ∨ acc ∈ u.rail.zoneWait

/-- What a step keeps of a PARK. -/
structure Keeps (u v : State) (acc : Acc) : Prop where
  locked : Locked u acc → Locked v acc
  zone : u.rail.zone = some acc → v.rail.zone = some acc
  order : ∀ o, (u.acc acc).order = some o → (v.acc acc).order = some o
  running : u.rail.zone = some acc → (u.acc acc).state = .running → (v.acc acc).state = .running

theorem Keeps.refl (u : State) (acc : Acc) : Keeps u u acc := ⟨id, id, fun _ => id, fun _ => id⟩

theorem Keeps.trans {w : State} (h : Keeps u v acc) (g : Keeps v w acc) : Keeps u w acc :=
  ⟨fun hu => g.locked (h.locked hu), fun hu => g.zone (h.zone hu), fun o hu => g.order o (h.order o hu),
    fun hz hr => g.running (h.zone hz) (h.running hz hr)⟩

/-- A step that leaves the accessor's own part alone, and neither takes the lock nor its place in the wait list from it. -/
structure Aside (u v : State) (acc : Acc) : Prop where
  core : core (v.acc acc) = core (u.acc acc)
  rest : restOf (v.acc acc) = restOf (u.acc acc)
  zone : u.rail.zone = some acc → v.rail.zone = some acc
  wait : acc ∈ u.rail.zoneWait → Locked v acc
  sent : ∀ o ∈ u.sent, o ∈ v.sent

theorem Aside.keeps (h : Aside u v acc) : Keeps u v acc where
  locked hu := hu.elim (fun hz => .inl (h.zone hz)) h.wait
  zone := h.zone
  order _ ho := (congrArg (fun p => p.2.1) h.core :).trans ho
  running _ hr := (congrArg (fun p => p.1) h.core :).trans hr

theorem Aside.parks (h : Aside u v acc) (hu : Parks u acc lim) : Parks v acc lim where
  state := by
    have hstate : (v.acc acc).state = (u.acc acc).state := (congrArg (fun p => p.1) h.core :)
    rw [hstate]
    exact hu.state
  middle := (congrArg (fun x : AccRec => inMiddle x.column) h.rest :).trans hu.middle
  limit := (congrArg AccRec.limPlace h.rest :).trans hu.limit
  next := by
    have horder : (v.acc acc).order = (u.acc acc).order := (congrArg (fun p => p.2.1) h.core :)
    have htodo : (v.acc acc).todo = (u.acc acc).todo := (congrArg (fun p => p.2.2) h.core :)
    rw [horder, htodo]
    exact hu.next.imp id fun ⟨hsome, hnone, hsent, hzone⟩ => ⟨hsome, hnone, h.sent _ hsent, h.zone hzone⟩

/-! ## What each step does -/

theorem aside_same (hacc : v.acc acc = u.acc acc) (hzone : v.rail.zone = u.rail.zone) (hwait : v.rail.zoneWait = u.rail.zoneWait)
    (hsent : v.sent = u.sent) : Aside u v acc :=
  ⟨by rw [hacc], by rw [hacc], fun h => hzone.trans h, fun h => .inr (hwait ▸ h), fun _ h => hsent ▸ h⟩

/-- The zone lock, its wait list and the orders sent. -/
def zonePart (u : State) : Option Acc × List Acc × List MechOrder := (u.rail.zone, u.rail.zoneWait, u.sent)

theorem aside_zonePart (hcore : core (v.acc acc) = core (u.acc acc)) (hrest : restOf (v.acc acc) = restOf (u.acc acc)) (hpart : zonePart v = zonePart u) :
    Aside u v acc :=
  ⟨hcore, hrest, fun h => (congrArg (fun p => p.1) hpart :).trans h,
    fun h => .inr ((congrArg (fun p : Option Acc × List Acc × List MechOrder => acc ∈ p.2.1) hpart).mpr h),
    fun o h => (congrArg (fun p : Option Acc × List Acc × List MechOrder => o ∈ p.2.2) hpart).mpr h⟩

theorem zonePart_setDst (u : State) (ref : LegRef) (dst : Place) : zonePart (u.setDst ref dst) = zonePart u := by
  cases ref <;> rfl

theorem core_setDst (u : State) (ref : LegRef) (dst : Place) (acc : Acc) : core ((u.setDst ref dst).acc acc) = core (u.acc acc) := by
  cases ref with
  | record slot => rfl
  | putBack who k =>
    unfold State.setDst
    rw [State.acc_updAcc]
    split
    next heq =>
      subst heq
      rfl
    next => rfl

theorem zonePart_reserveFor (h : u.reserveFor ref = some v) : zonePart v = zonePart u := by
  rcases reserveFor_cases h with rfl | ⟨p, -, rfl⟩ | ⟨p, -, rfl⟩
  · rfl
  · exact zonePart_setDst _ _ _
  · exact zonePart_setDst _ _ _

theorem core_reserveFor (h : u.reserveFor ref = some v) (acc : Acc) : core (v.acc acc) = core (u.acc acc) := by
  rcases reserveFor_cases h with rfl | ⟨p, -, rfl⟩ | ⟨p, -, rfl⟩
  · rfl
  · exact core_setDst _ _ _ acc
  · exact core_setDst _ _ _ acc

theorem zonePart_joinWait (u : State) (who : Acc) (x : Stop) : zonePart (u.joinWait who x) = zonePart u := by
  unfold State.joinWait
  split
  · rfl
  · split <;> rfl

theorem zonePart_bringStop (u : State) (who : Acc) : zonePart (u.bringStop who) = zonePart u := by
  have hchoose (behind stops : List Stop) : zonePart (u.chooseStop who behind stops) = zonePart u := by
    induction stops generalizing behind with
    | nil =>
      cases behind with
      | nil => rfl
      | cons x rest =>
        show zonePart (u.awaitPosition who x) = _
        unfold State.awaitPosition
        dsimp only
        split
        · exact zonePart_joinWait u who x
        · exact zonePart_joinWait u who x
    | cons x rest ih =>
      unfold State.chooseStop
      split
      · split
        next v hv => exact zonePart_reserveFor (v := v) hv
        next => exact ih _
      · rfl
  unfold State.bringStop
  dsimp only
  split
  · exact hchoose _ _
  · rfl

theorem core_bringStop_other (u : State) (hne : acc ≠ who) : core ((u.bringStop who).acc acc) = core (u.acc acc) := by
  have hother (v : State) (f : AccRec → AccRec) : (v.updAcc who f).acc acc = v.acc acc := State.acc_updAcc_other _ _ _ _ hne
  have hchoose (behind stops : List Stop) : core ((u.chooseStop who behind stops).acc acc) = core (u.acc acc) := by
    induction stops generalizing behind with
    | nil =>
      cases behind with
      | nil => rfl
      | cons x rest =>
        show core ((u.awaitPosition who x).acc acc) = _
        unfold State.awaitPosition
        dsimp only
        split
        · rw [hother, RailWork.acc_joinWait]
        · rw [RailWork.acc_joinWait]
    | cons x rest ih =>
      unfold State.chooseStop
      split
      · split
        next v hv =>
          rw [State.updStops, hother]
          exact core_reserveFor hv acc
        next => exact ih _
      · rw [State.updStops, hother]
  unfold State.bringStop
  dsimp only
  split
  · exact hchoose _ _
  · rfl

theorem aside_bringStop_other (u : State) (hne : acc ≠ who) : Aside u (u.bringStop who) acc :=
  aside_zonePart (core_bringStop_other u hne) (restOf_bringStop u who acc) (zonePart_bringStop u who)

theorem aside_updAcc_other (u : State) (hne : acc ≠ who) (f : AccRec → AccRec) : Aside u (u.updAcc who f) acc :=
  aside_same (State.acc_updAcc_other _ _ _ _ hne) rfl rfl rfl

theorem Aside.trans {w : State} (h : Aside u v acc) (g : Aside v w acc) : Aside u w acc :=
  ⟨g.core.trans h.core, g.rest.trans h.rest, fun hz => g.zone (h.zone hz),
    fun hw => (h.wait hw).elim (fun hz => .inl (g.zone hz)) g.wait, fun o ho => g.sent o (h.sent o ho)⟩

theorem aside_askZone_other (u : State) (hne : acc ≠ who) : Aside u (u.askZone who) acc := by
  unfold State.askZone
  split
  · exact aside_same rfl rfl rfl rfl
  · split
    next hfree =>
      exact ⟨rfl, rfl, (fun hz => nomatch hz.symm.trans hfree.1), (fun hw => .inr (List.mem_filter.mpr ⟨hw, by simpa using hne⟩)), fun _ h => h⟩
    next =>
      dsimp only
      refine Aside.trans ?_ (aside_updAcc_other _ hne _)
      split
      · exact aside_same rfl rfl rfl rfl
      · exact ⟨rfl, rfl, id, fun hw => .inr (List.mem_append_left _ hw), fun _ h => h⟩

theorem aside_sendOrder_other (u : State) (hne : acc ≠ who) (n : NextOrder) : Aside u (u.sendOrder who n) acc := by
  rw [sendOrder_eq]
  have hhand : Aside u (takesInHand u n.op) acc :=
    aside_same (congrArg (fun r : Rail => r.accs.get acc) (takesInHand_rail u n.op)) (congrArg Rail.zone (takesInHand_rail u n.op))
      (congrArg Rail.zoneWait (takesInHand_rail u n.op)) (takesInHand_sent u n.op)
  have hgiven := hhand.trans (aside_updAcc_other (takesInHand u n.op) hne (fun x => { x with order := some (sentOrder u who n), todo := none }))
  exact hgiven.trans ⟨rfl, rfl, id, .inr, fun _ h => List.mem_append_left _ h⟩

theorem aside_sendNext_other (u : State) (hne : acc ≠ who) : Aside u (u.sendNext who) acc := by
  have hpass (v : State) (n : NextOrder) : Aside v (v.passGates who n) acc := by
    unfold State.passGates
    split
    · dsimp only
      split
      · exact (aside_updAcc_other v hne AccRec.unwait).trans (aside_sendOrder_other _ hne n)
      · exact aside_updAcc_other v hne AccRec.unwait
    · exact aside_same rfl rfl rfl rfl
  unfold State.sendNext
  split
  · exact aside_same rfl rfl rfl rfl
  · unfold State.tryOrder
    split
    · exact (aside_askZone_other u hne).trans (hpass _ _)
    · exact hpass u _

theorem aside_releaseZone_other (u : State) (hne : acc ≠ who) : Aside u (u.releaseZone who) acc := by
  unfold State.releaseZone
  split
  next hzone =>
    exact ⟨rfl, rfl, (fun hz => absurd (Option.some.inj (hz.symm.trans hzone)) hne), .inr, fun _ h => h⟩
  next => exact aside_same rfl rfl rfl rfl

theorem aside_idleOrPark_other (u : State) (hne : acc ≠ who) : Aside u (u.idleOrPark who) acc := by
  unfold State.idleOrPark
  split
  · exact aside_updAcc_other u hne _
  · exact (aside_updAcc_other u hne (fun x => { x with state := .idle, faults := 0 })).trans (aside_releaseZone_other _ hne)

/-! ## The accessor itself -/

/-- The PARK, as it is tested. -/
def parkTested (acc : Acc) : NextOrder := { op := .park, col := parkColumn acc, place := none, needsLock := true }

theorem nextOrder_parks (hu : Parks u acc lim) (horder : (u.acc acc).order = none) (htodo : (u.acc acc).todo = some .park) :
    u.nextOrder acc = some (parkTested acc) := by
  unfold State.nextOrder AccRec.todoOrder parkTested
  simp only [horder, htodo, Option.isSome_none, Bool.false_eq_true, if_false, hu.middle]

theorem nextOrder_sent (horder : (u.acc acc).order = some (parkOrder acc lim)) : u.nextOrder acc = none := by
  unfold State.nextOrder
  simp only [horder, Option.isSome_some, if_true]

theorem sentOrder_parks (hu : Parks u acc lim) : sentOrder u acc (parkTested acc) = parkOrder acc lim := by
  unfold sentOrder parkTested parkOrder
  have hlimit : (u.acc acc).limitOf .park = lim := hu.limit
  rw [hlimit]
  cases acc <;> rfl

/-- What comes of the test of the PARK (R103, R110): it is sent, it waits for its guard under the lock, or it waits for the lock. -/
theorem park_tested (hu : Parks u acc lim) (horder : (u.acc acc).order = none) (htodo : (u.acc acc).todo = some .park) :
    (u.guardOpen (parkColumn acc) = false ∧ lockTaken u acc
        ∧ (u.sendNext acc).acc acc = { (u.acc acc).unwait with order := some (parkOrder acc lim), todo := none }
        ∧ (u.sendNext acc).rail.zone = some acc ∧ .accessor acc (parkOrder acc lim) ∈ (u.sendNext acc).sent)
      ∨ (u.guardOpen (parkColumn acc) = true ∧ lockTaken u acc
        ∧ (u.sendNext acc).acc acc = (u.acc acc).unwait ∧ (u.sendNext acc).rail.zone = some acc)
      ∨ (lockRefused u acc ∧ (u.sendNext acc).acc acc = waitForLock (u.acc acc) ∧ acc ∈ (u.sendNext acc).rail.zoneWait) := by
  have hnext : u.sendNext acc = u.tryOrder acc (parkTested acc) := sendNext_of_nextOrder (nextOrder_parks hu horder htodo)
  have hcolumn : (parkTested acc).col = stationColumn → u.station.latchOpen = false := by cases acc <;> intro h <;> cases h
  by_cases hlock : lockTaken u acc
  · cases hguard : u.guardOpen (parkColumn acc) with
    | false =>
      obtain ⟨hsent, hat, -, hzone⟩ := tryOrder_sends (n := parkTested acc) (gatesOk_iff.mpr ⟨hguard, hcolumn⟩) fun _ => hlock
      rw [sentOrder_parks hu] at hsent hat
      rw [← hnext] at hsent hat hzone
      exact .inl ⟨rfl, hlock, hat, hzone, by rw [hsent]; exact List.mem_append_right _ (List.mem_singleton.mpr rfl)⟩
    | true =>
      obtain ⟨wait, hask⟩ := askZone_taken hlock
      have hheld : u.sendNext acc = ({ u with rail := { u.rail with zone := some acc, zoneWait := wait } } : State).updAcc acc AccRec.unwait := by
        have hgates : State.gatesOk (({ u with rail := { u.rail with zone := some acc, zoneWait := wait } } : State).updAcc acc AccRec.unwait)
            (parkTested acc) = false := gatesOk_of_open (.inl hguard)
        have hok : State.zoneOk { u with rail := { u.rail with zone := some acc, zoneWait := wait } } acc (parkTested acc) = true := by
          unfold State.zoneOk
          simp
        have hneeds : (if (parkTested acc).needsLock then u.askZone acc else u) = u.askZone acc := if_pos rfl
        rw [hnext, State.tryOrder, hneeds, hask, State.passGates, if_pos hok]
        exact if_neg (by rw [hgates]; exact Bool.false_ne_true)
      refine .inr (.inl ⟨rfl, hlock, ?_, ?_⟩)
      · rw [hheld, State.acc_updAcc_self]
        rfl
      · rw [hheld]
        rfl
  · have hrefused : lockRefused u acc := by
      obtain ⟨hother, hfree⟩ := not_or.mp hlock
      cases hzone : u.rail.zone with
      | none => exact .inr ⟨hzone, by simpa [hzone] using hfree⟩
      | some who =>
        refine .inl ?_
        have hne : who ≠ acc := fun heq => hother (heq ▸ hzone)
        rw [hzone]
        cases acc <;> cases who <;> first | exact absurd rfl hne | rfl
    have hwaits := tryOrder_waits (n := parkTested acc) rfl hrefused
    rw [← hnext] at hwaits
    refine .inr (.inr ⟨hrefused, ?_, ?_⟩)
    · rw [hwaits, State.acc_updAcc_self]
      rfl
    · rw [hwaits]
      show acc ∈ listedForLock u acc
      unfold listedForLock
      split
      next hin => exact hin
      next => exact List.mem_append_right _ (List.mem_singleton.mpr rfl)

/-- What the accessor's own step does with its PARK. -/
structure Tested (u v : State) (acc : Acc) (lim : Nat) : Prop where
  parks : Parks v acc lim
  keeps : Keeps u v acc
  locked : Locked v acc
  sent : u.rail.zone = some acc → u.guardOpen (parkColumn acc) = false → (v.acc acc).order ≠ none
  held : u.guardOpen (parkColumn acc) = true → (u.acc acc).order = none → (v.acc acc).order = none

theorem unwait_core (x : AccRec) : x.unwait.order = x.order ∧ x.unwait.todo = x.todo ∧ x.unwait.column = x.column ∧ x.unwait.limPlace = x.limPlace
    ∧ (x.state = .running → x.unwait.state = .running) ∧ ((x.state = .offline ∨ x.state = .running ∨ x.state = .waitingZone) →
        x.unwait.state = .offline ∨ x.unwait.state = .running ∨ x.unwait.state = .waitingZone) := by
  unfold AccRec.unwait
  split
  next hstate => exact ⟨rfl, rfl, rfl, rfl, fun _ => rfl, fun _ => .inr (.inl rfl)⟩
  next => exact ⟨rfl, rfl, rfl, rfl, id, id⟩

theorem wait_core (x : AccRec) : (waitForLock x).order = x.order ∧ (waitForLock x).todo = x.todo ∧ (waitForLock x).column = x.column
    ∧ (waitForLock x).limPlace = x.limPlace ∧ ((x.state = .offline ∨ x.state = .running ∨ x.state = .waitingZone) →
        (waitForLock x).state = .offline ∨ (waitForLock x).state = .running ∨ (waitForLock x).state = .waitingZone) := by
  unfold waitForLock
  split
  next => exact ⟨rfl, rfl, rfl, rfl, fun _ => .inr (.inr rfl)⟩
  next => exact ⟨rfl, rfl, rfl, rfl, id⟩

theorem tested_sendNext (hu : Parks u acc lim) : Tested u (u.sendNext acc) acc lim := by
  obtain ⟨horder, htodo, hcolumn, hlimit, hrunning, hstate⟩ := unwait_core (u.acc acc)
  rcases hu.next with ⟨hnone, hpark⟩ | ⟨hsome, hnext, hsent, hzone⟩
  · rcases park_tested hu hnone hpark with ⟨hguard, -, hacc, hzone, hsent⟩ | ⟨hguard, -, hacc, hzone⟩ | ⟨hrefused, hacc, hwait⟩
    · refine ⟨⟨?_, ?_, ?_, .inr ⟨?_, ?_, hsent, hzone⟩⟩, ⟨fun _ => .inl hzone, fun _ => hzone, ?_, fun _ hrun => ?_⟩, .inl hzone, fun _ _ => ?_, ?_⟩
      · rw [hacc]; exact hstate hu.state
      · rw [hacc]; exact (congrArg inMiddle hcolumn).trans hu.middle
      · rw [hacc]; exact hlimit.trans hu.limit
      · rw [hacc]
      · rw [hacc]
      · intro o ho
        exact nomatch hnone.symm.trans ho
      · rw [hacc]; exact hrunning hrun
      · rw [hacc]; exact Option.some_ne_none _
      · intro hopen
        exact nomatch hguard.symm.trans hopen
    · refine ⟨⟨?_, ?_, ?_, .inl ⟨?_, ?_⟩⟩, ⟨fun _ => .inl hzone, fun _ => hzone, ?_, fun _ hrun => ?_⟩, .inl hzone, ?_, fun _ _ => ?_⟩
      · rw [hacc]; exact hstate hu.state
      · rw [hacc]; exact (congrArg inMiddle hcolumn).trans hu.middle
      · rw [hacc]; exact hlimit.trans hu.limit
      · rw [hacc]; exact horder.trans hnone
      · rw [hacc]; exact htodo.trans hpark
      · intro o ho
        exact nomatch hnone.symm.trans ho
      · rw [hacc]; exact hrunning hrun
      · intro _ hclosed
        exact nomatch hguard.symm.trans hclosed
      · rw [hacc]; exact horder.trans hnone
    · obtain ⟨worder, wtodo, wcolumn, wlimit, wstate⟩ := wait_core (u.acc acc)
      have hother : u.rail.zone ≠ some acc := by
        rcases hrefused with h | h
        · rw [h]
          exact fun hsame => OrderGates.otherAcc_ne acc (Option.some.inj hsame)
        · rw [h.1]
          exact (Option.some_ne_none acc).symm
      refine ⟨⟨?_, ?_, ?_, .inl ⟨?_, ?_⟩⟩, ⟨fun _ => .inr hwait, fun hz => absurd hz hother, ?_, fun hz => absurd hz hother⟩, .inr hwait,
        fun hz => absurd hz hother, fun _ _ => ?_⟩
      · rw [hacc]; exact wstate hu.state
      · rw [hacc]; exact (congrArg inMiddle wcolumn).trans hu.middle
      · rw [hacc]; exact wlimit.trans hu.limit
      · rw [hacc]; exact worder.trans hnone
      · rw [hacc]; exact wtodo.trans hpark
      · intro o ho
        exact nomatch hnone.symm.trans ho
      · rw [hacc]; exact worder.trans hnone
  · have hstays : u.sendNext acc = u := by
      unfold State.sendNext
      rw [nextOrder_sent hsome]
    rw [hstays]
    exact ⟨hu, .refl u acc, .inl hzone, fun _ _ hnone => (nomatch hsome.symm.trans hnone), fun _ => id⟩

/-! ## Every step of the work -/

theorem ne_of_state (hu : Parks u acc lim) {st : AccState} (hst : st = .idle ∨ st = .gathering) (hwho : (u.acc who).state = st) : acc ≠ who := by
  rintro rfl
  rcases hu.state with h | h | h <;> rw [h] at hwho <;> subst hwho <;> rcases hst with h' | h' <;> cases h'

theorem kept_step (hu : Parks u acc lim) (h : Step parking u v) : Parks v acc lim ∧ Keeps u v acc
    ∧ (u.guardOpen (parkColumn acc) = true → (u.acc acc).order = none → (v.acc acc).order = none) := by
  have haside {v : State} (ha : Aside u v acc) : Parks v acc lim ∧ Keeps u v acc
      ∧ (u.guardOpen (parkColumn acc) = true → (u.acc acc).order = none → (v.acc acc).order = none) :=
    ⟨ha.parks hu, ha.keeps, fun _ hnone => (congrArg (fun p => p.2.1) ha.core :).trans hnone⟩
  have hbusy : ((u.acc acc).order.isNone && (u.acc acc).todo.isNone) = false := by
    rcases hu.next with ⟨-, hpark⟩ | ⟨hsome, -⟩
    · simp [hpark]
    · simp [hsome]
  have hunwaits {v : State} (hacc : v.acc acc = (u.acc acc).unwait) (hzone : u.rail.zone = some acc → v.rail.zone = some acc)
      (hlocked : Locked v acc) (hsent : v.sent = u.sent) : Parks v acc lim ∧ Keeps u v acc
        ∧ (u.guardOpen (parkColumn acc) = true → (u.acc acc).order = none → (v.acc acc).order = none) := by
    obtain ⟨horder, htodo, hcolumn, hlimit, hrunning, hstate⟩ := unwait_core (u.acc acc)
    rw [← hacc] at horder htodo hcolumn hlimit hrunning hstate
    refine ⟨⟨hstate hu.state, (congrArg inMiddle hcolumn).trans hu.middle, hlimit.trans hu.limit, ?_⟩,
      ⟨fun _ => hlocked, hzone, fun o ho => horder.trans ho, fun _ hrun => hrunning hrun⟩, fun _ hnone => horder.trans hnone⟩
    rw [horder, htodo, hsent]
    exact hu.next.imp id fun ⟨hsome, hnone, hmem, hz⟩ => ⟨hsome, hnone, hmem, hzone hz⟩
  cases h with
  | prunes who =>
    by_cases hwho : acc = who
    · subst hwho
      rcases hu.next with ⟨hnone, hpark⟩ | ⟨hsome, -, -, hz⟩
      · have hstays : u.pruneZone acc = u := by
          unfold State.pruneZone
          rw [nextOrder_parks hu hnone hpark]
          exact if_neg (by simp [parkTested])
        rw [hstays]
        exact haside (aside_same rfl rfl rfl rfl)
      · unfold State.pruneZone
        split
        · exact hunwaits (State.acc_updAcc_self _ _ _) id (.inl hz) rfl
        · exact haside (aside_same rfl rfl rfl rfl)
    · refine haside ?_
      unfold State.pruneZone
      split
      · have hfilter : Aside u { u with rail := { u.rail with zoneWait := u.rail.zoneWait.filter (fun x => x ≠ who) } } acc :=
          ⟨rfl, rfl, id, fun hw => .inr (List.mem_filter.mpr ⟨hw, by simpa using hwho⟩), fun _ h => h⟩
        exact hfilter.trans (aside_updAcc_other _ hwho _)
      · exact aside_same rfl rfl rfl rfl
  | ends who =>
    by_cases hwho : acc = who
    · subst hwho
      have hstays : u.endTrip acc = u := by
        unfold State.endTrip
        dsimp only
        refine if_neg fun hend => ?_
        simp only [Bool.and_eq_true] at hend
        rw [hend.1.1.2, hend.1.2] at hbusy
        cases hbusy
      rw [hstays]
      exact haside (aside_same rfl rfl rfl rfl)
    · refine haside ?_
      unfold State.endTrip
      dsimp only
      split
      · exact (aside_updAcc_other u hwho _).trans (aside_idleOrPark_other _ hwho)
      · exact aside_same rfl rfl rfl rfl
  | grants =>
    unfold State.zoneGrant
    split
    next => exact haside (aside_same rfl rfl rfl rfl)
    next first rest hwait =>
      split
      next hfree =>
        by_cases hwho : acc = first
        · subst hwho
          exact hunwaits (State.acc_updAcc_self _ _ _) (fun _ => rfl) (.inl rfl) rfl
        · have hgrant : Aside u { u with rail := { u.rail with zone := some first, zoneWait := rest } } acc := by
            refine ⟨rfl, rfl, (fun hz => nomatch hz.symm.trans hfree.1), fun hw => .inr ?_, fun _ h => h⟩
            rw [hwait] at hw
            exact (List.mem_cons.mp hw).resolve_left hwho
          exact haside (hgrant.trans (aside_updAcc_other _ hwho _))
      next => exact haside (aside_same rfl rfl rfl rfl)
  | brings who =>
    by_cases hwho : acc = who
    · subst hwho
      have hstays : u.bringStop acc = u := by
        unfold State.bringStop
        dsimp only
        refine if_neg fun hbring => ?_
        rw [hbusy, Bool.false_and] at hbring
        cases hbring
      rw [hstays]
      exact haside (aside_same rfl rfl rfl rfl)
    · exact haside (aside_bringStop_other u hwho)
  | sends who =>
    by_cases hwho : acc = who
    · subst hwho
      have ht := tested_sendNext hu
      exact ⟨ht.parks, ht.keeps, ht.held⟩
    · exact haside (aside_sendNext_other u hwho)
  | resumes who =>
    refine haside ?_
    unfold State.auditResume
    split
    · split <;> exact aside_same rfl rfl rfl rfl
    · exact aside_same rfl rfl rfl rfl
  | takes who q rest hcan hreqs =>
    have hne := ne_of_state hu (.inl rfl) (RailWork.of_free (RailWork.canTakeScan_free hcan)).1
    exact haside (aside_same (State.acc_updAcc_other _ _ _ _ hne) rfl rfl rfl)
  | scans who x c hfree hnone hx hscanning hcursor =>
    have hne := ne_of_state hu (.inl rfl) (RailWork.of_free hfree).1
    exact haside (aside_same (State.acc_updAcc_other _ _ _ _ hne) rfl rfl rfl)
  | opens who hfree hany => exact haside (aside_updAcc_other u (ne_of_state hu (.inl rfl) (RailWork.of_free hfree).1) _)
  | fills who hgather =>
    have hne := ne_of_state hu (.inr rfl) hgather
    obtain ⟨legs, -, -, hjoins⟩ := tripFill_joins u who
    have hacc : acc = otherAcc who := by cases who <;> cases acc <;> first | exact absurd rfl hne | rfl
    exact haside (aside_same (hacc ▸ hjoins.other) hjoins.zone hjoins.zoneWait hjoins.sent)
  | starts who hdue => exact haside (aside_updAcc_other u (ne_of_state hu (.inr rfl) (Trips.startDue_iff.mp hdue).1) _)
  | parks who hidle hscan horder htodo hmiddle hpark => exact haside (aside_idleOrPark_other u (ne_of_state hu (.inl rfl) hidle))

/-! ## The end of the event -/

theorem guard_of_lasting (h : lasting v = lasting u) (col : Nat) : v.guardOpen col = u.guardOpen col :=
  (congrArg (fun w : State => w.guardOpen col) h :)

theorem kept_moves (hs : Parks s acc lim) (h : Moves s t) : Parks t acc lim ∧ Keeps s t acc ∧ t.guardOpen (parkColumn acc) = s.guardOpen (parkColumn acc)
    ∧ (s.guardOpen (parkColumn acc) = true → (s.acc acc).order = none → (t.acc acc).order = none) := by
  refine h.keeps (P := fun u => Parks u acc lim ∧ Keeps s u acc ∧ u.guardOpen (parkColumn acc) = s.guardOpen (parkColumn acc)
    ∧ (s.guardOpen (parkColumn acc) = true → (s.acc acc).order = none → (u.acc acc).order = none)) ?_ ⟨hs, .refl s acc, rfl, fun _ => id⟩
  intro u v ⟨hparks, hkeeps, hguard, hheld⟩ hmove
  obtain ⟨hparks', hkeeps', hheld'⟩ := kept_step hparks hmove
  exact ⟨hparks', hkeeps.trans hkeeps', (guard_of_lasting (lasting_move hmove) _).trans hguard,
    fun hopen hnone => hheld' (hguard.trans hopen) (hheld hopen hnone)⟩

/-- In the work the accessor's next order is tested once at least. -/
theorem tests_commit (hcalm : calm s) (acc : Acc) : ∃ a, Moves s a ∧ Moves (a.sendNext acc) s.commit := by
  have hrest : Moves (ordered s) s.commit := by
    rw [commit_of_calm hcalm]
    exact (moves_ordered_settled s).trans (moves_railSettle _)
  cases acc with
  | a => exact ⟨(granted s).bringStop .a, (moves_granted s).tail (.brings _ .a), (moves_orderSend _ .b).trans hrest⟩
  | b => exact ⟨((granted s).orderSend .a).bringStop .b, ((moves_granted s).trans (moves_orderSend _ .a)).tail (.brings _ .b), hrest⟩

/-- The PARK at the end of the event. -/
theorem parks_commit (hcalm : calm u) (hu : Parks u acc lim) (hnone : (u.acc acc).order = none) : Parks u.commit acc lim ∧ Locked u.commit acc
    ∧ (u.rail.zone = some acc → u.commit.rail.zone = some acc
      ∧ (u.guardOpen (parkColumn acc) = false → (u.commit.acc acc).order ≠ none)
      ∧ (u.guardOpen (parkColumn acc) = true → (u.commit.acc acc).order = none)
      ∧ ((u.acc acc).state = .running → (u.commit.acc acc).state = .running)) := by
  obtain ⟨a, hbefore, hafter⟩ := tests_commit hcalm acc
  obtain ⟨haparks, hakeeps, haguard, haheld⟩ := kept_moves hu hbefore
  have htested := tested_sendNext haparks
  obtain ⟨hparks, hkeeps, hguard, hheld⟩ := kept_moves htested.parks hafter
  refine ⟨hparks, hkeeps.locked htested.locked, fun hzone => ⟨hkeeps.zone (htested.keeps.zone (hakeeps.zone hzone)), fun hclosed => ?_,
    fun hopen => ?_, fun hrun => hkeeps.running (htested.keeps.zone (hakeeps.zone hzone)) (htested.keeps.running (hakeeps.zone hzone)
      (hakeeps.running hzone hrun))⟩⟩
  · obtain ⟨o, ho⟩ := Option.ne_none_iff_exists'.mp (htested.sent (hakeeps.zone hzone) (haguard.trans hclosed))
    rw [hkeeps.order o ho]
    exact Option.some_ne_none o
  · have hsame : (a.sendNext acc).guardOpen (parkColumn acc) = a.guardOpen (parkColumn acc) :=
      guard_of_lasting (lasting_move (.sends (parking := True) a acc)) _
    exact hheld (hsame.trans (haguard.trans hopen)) (htested.held (haguard.trans hopen) (haheld hopen hnone))

/-- The obligations' wording of it. -/
theorem parksAside_commit (hcalm : calm u) (hu : Parks u acc (s.acc acc).limPlace) (hnone : (u.acc acc).order = none)
    (hzone : s.rail.zone = some acc → u.rail.zone = some acc) (hguard : ∀ col, u.guardOpen col = s.guardOpen col) :
    parksAside s u.commit acc := by
  obtain ⟨hparks, hlocked, hhad⟩ := parks_commit hcalm hu hnone
  have hside : parkColumn acc = if acc = .a then 79 else 120 := by cases acc <;> rfl
  have hsent (hsome : (u.commit.acc acc).order ≠ none) : (u.commit.acc acc).order = some (parkOrder acc (s.acc acc).limPlace)
      ∧ (u.commit.acc acc).todo = none ∧ .accessor acc (parkOrder acc (s.acc acc).limPlace) ∈ u.commit.sent := by
    rcases hparks.next with ⟨hno, -⟩ | ⟨horder, htodo, hmem, -⟩
    · exact absurd hno hsome
    · exact ⟨horder, htodo, hmem⟩
  have hheld (hno : (u.commit.acc acc).order = none) : (u.commit.acc acc).order = none ∧ (u.commit.acc acc).todo = some .park := by
    rcases hparks.next with hpark | ⟨horder, -⟩
    · exact hpark
    · exact nomatch hno.symm.trans horder
  refine ⟨?_, hlocked, fun hz => ?_⟩
  · by_cases hno : (u.commit.acc acc).order = none
    · exact .inr (hheld hno)
    · exact .inl (hsent hno)
  · obtain ⟨hkept, hclosed, hopen, -⟩ := hhad (hzone hz)
    refine ⟨hkept, fun hguard' => hsent (hclosed ?_), fun hguard' => hheld (hopen ?_)⟩
    · rw [hguard, hside]
      exact hguard'
    · rw [hguard, hside]
      exact hguard'

end ParkAside

end Sys2Proof
end

section
/-! PROOFS. The online poll: the STATUS answers and time limits of drives and accessors (R92, R119, R189). -/

namespace Sys2Proof

namespace PollAnswers

open Machine Safety Upkeep Settling Requests RailMoves OrderGates PickCommand Raising

variable {s t u v : State} {acc : Acc} {col : Nat} {d : Fin 16}

/-! ## A device is settled (R189) -/

theorem lasting_settle_congr (dev : Device) (h : lasting t = lasting u) : lasting (t.settle dev) = lasting (u.settle dev) :=
  (congrArg (fun w : State => w.settle dev) h :)

theorem updDrive_updDrive (s : State) (d : Fin 16) (f g : Drive → Drive) :
    (s.updDrive d f).updDrive d g = s.updDrive d (fun x => g (f x)) := by
  have hself : (s.updDrive d f).drives[d] = f s.drives[d] := State.updDrive_self s d f
  have hset : ((s.updDrive d f).drives).set d (g (s.updDrive d f).drives[d]) = s.drives.set d (g (f s.drives[d])) := by
    rw [hself]
    exact Vector.set_set ..
  exact congrArg (fun l => ({ s with drives := l } : State)) hset

/-! ## A drive answers (R92) -/

theorem awaitsStatus_iff : s.awaitsStatus d = true ↔ s.drives[d].state = .unpolled ∧ s.drives[d].status.isSome = true := by
  unfold State.awaitsStatus
  rw [Bool.and_eq_true, decide_eq_true_eq]

theorem exec_driveAnswer (h : s.awaitsStatus d = true) (present : Bool) :
    exec (.driveStatusAnswer d present) s
      = .next (if present then s.start.answeredPresent d else s.start.answeredEmpty d).commit :=
  congrArg Host.Outcome.next (if_pos h)

/-- An UNPOLLED drive that shows a reel, settled. -/
def shown (s : State) (d : Fin 16) (x : Drive) : State := { s.settle (.drive d) with drives := s.drives.set d x }

/-- "Reel present" with a slot free. -/
theorem answeredPresent_opens {k : Nat} (hstate : s.drives[d].state = .unpolled) (hslot : s.freeSlot = some k) :
    ∃ r : Rec, r.slot = k ∧ r.origin = .internal ∧ r.kind = .ret ∧ r.state = .unloading ∧ r.drive = some d ∧ r.serial = none
      ∧ r.waits = false
      ∧ s.answeredPresent d = ({ shown s d { s.drives[d] with
          state := .unloading, holding := some k, reel := true, returnWait := false, status := none } with
          recs := s.recs ++ [r] } : State).send (.unload d) := by
  have hself : (s.updDrive d (fun x => { x with reel := true, status := none })).drives[d] = { s.drives[d] with reel := true, status := none } :=
    State.updDrive_self s d _
  have hnot : ¬(s.updDrive d (fun x => { x with reel := true, status := none })).drives[d].state = .faulted := by
    rw [hself, hstate]
    exact fun h => nomatch h
  have hfree : (s.updDrive d (fun x => { x with reel := true, status := none })).freeSlot = some k := hslot
  refine ⟨{ internalRec k .ret none d .unloading with drive := some d, outcome := none }, rfl, rfl, rfl, rfl, rfl, rfl, rfl, ?_⟩
  unfold State.answeredPresent State.returnOpen
  simp only [hfree, decide_eq_false hnot, Bool.false_eq_true, if_false]
  have htwice := updDrive_updDrive s d (fun x => { x with reel := true, status := none })
    (fun x => { x with state := .unloading, holding := some k, returnWait := false })
  exact congrArg (fun w : State => (((w.openRec { internalRec k .ret none d .unloading with drive := some d, outcome := none }).send
    (.unload d)).settle (.drive d))) htwice

/-- "Reel present" with every slot taken. -/
theorem answeredPresent_waits (hslot : s.freeSlot = none) :
    s.answeredPresent d = shown s d { s.drives[d] with reel := true, returnWait := true, status := none } := by
  have hfree : (s.updDrive d (fun x => { x with reel := true, status := none })).freeSlot = none := hslot
  unfold State.answeredPresent State.returnOpen
  simp only [hfree]
  exact congrArg (fun w : State => w.settle (.drive d)) (updDrive_updDrive s d (fun x => { x with reel := true, status := none })
    (fun x => { x with returnWait := true }))

/-- "Empty" while no record waits for a drive. -/
theorem answeredEmpty_free (hdue : s.drives[d].due = false) (hnone : noneQueued s) :
    s.answeredEmpty d = shown s d { s.drives[d] with state := .free, reel := false, returnWait := false, status := none } := by
  have hself := State.updDrive_self s d (fun x => { x with state := .free, reel := false, returnWait := false, status := none })
  exact DriveTable.allocateForDrive_nothing (.inr ⟨(congrArg Drive.due hself).trans hdue, hnone⟩)

theorem exec_driveSilent (hstate : s.drives[d].state = .unpolled) (hstatus : s.drives[d].status = some 0) :
    exec (.driveStatusTimeout d) s = .next ((shown s.start d
      { s.drives[d] with state := .faulted, reel := false, returnWait := false, status := none }).raise .driveFault (.drive d)).commit :=
  congrArg Host.Outcome.next (if_pos ⟨hstate, hstatus⟩)

theorem calm_append {r : Rec} (h : calm u) (hr : r.waits = false) : calm { u with recs := u.recs ++ [r] } :=
  ⟨fun q hq => (List.mem_append.mp hq).elim (h.1 q) fun hq => by rw [List.mem_singleton.mp hq, hr], h.2⟩

/-! ## An accessor answers (R119) -/

theorem lasting_updAcc_congr {f g : AccRec → AccRec} (h : lasting t = lasting u) (hacc : lastingAcc (f (t.acc acc)) = lastingAcc (g (u.acc acc))) :
    lasting (t.updAcc acc f) = lasting (u.updAcc acc g) := by
  cases acc with
  | a =>
    have hset (w : State) (f : AccRec → AccRec) : lasting (w.updAcc .a f) = { lasting w with rail := { (lasting w).rail with
      accs := { (lasting w).rail.accs with a := lastingAcc (f (w.acc .a)) } } } := rfl
    rw [hset, hset, h, hacc]
  | b =>
    have hset (w : State) (f : AccRec → AccRec) : lasting (w.updAcc .b f) = { lasting w with rail := { (lasting w).rail with
      accs := { (lasting w).rail.accs with b := lastingAcc (f (w.acc .b)) } } } := rfl
    rw [hset, hset, h, hacc]

/-- An accessor with its order over. -/
def ended (col : Nat) (x : AccRec) : AccRec := { x with order := none, column := col }

theorem lasting_orderEnds (s : State) (acc : Acc) (col : Nat) : lasting (s.orderEnds acc col) = lasting (s.updAcc acc (ended col)) := by
  unfold State.orderEnds
  dsimp only
  split
  · rfl
  · exact lasting_releaseZone _ _

theorem acc_orderEnds (s : State) (acc : Acc) (col : Nat) : (s.orderEnds acc col).acc acc = ended col (s.acc acc) := by
  unfold State.orderEnds
  dsimp only
  split
  · exact State.acc_updAcc_self ..
  · rw [acc_releaseZone]
    exact State.acc_updAcc_self ..

theorem exec_accAnswer {o : Order} (horder : (s.acc acc).order = some o) (hop : o.op = .status) (occ : Vector Bool 3) :
    exec (.accessorStatusAnswer acc col occ) s = .next (((s.start.orderEnds acc col).statusAnswered acc occ).settle (.accessor acc)).commit := by
  obtain ⟨op, ocol, oplace, oholder, otimer⟩ := o
  obtain rfl : op = .status := hop
  have h : s.order? acc = some _ := horder
  show execAccessorStatusAnswer acc col occ s = _
  unfold execAccessorStatusAnswer
  simp only [h]

theorem exec_accSilent {o : Order} (horder : (s.acc acc).order = some o) (hop : o.op = .status) (htimer : o.timer = 0) :
    exec (.accessorStatusTimeout acc) s
      = .next ((s.start.updAcc acc (fun x => { x with order := none })).settle (.accessor acc)).commit := by
  obtain ⟨op, ocol, oplace, oholder, otimer⟩ := o
  obtain rfl : op = .status := hop
  obtain rfl : otimer = 0 := htimer
  have h : s.order? acc = some _ := horder
  show execAccessorStatusTimeout acc s = _
  unfold execAccessorStatusTimeout
  simp only [h]

/-- A FAULT prompt is asked for: it is up while the queue has room, and owed otherwise. -/
theorem askFault_holds (u : State) (acc : Acc) : ∃ c p, u.askFault acc none = ({ u with console := c } : State).updAcc acc (fun x => { x with prompt := p })
    ∧ (u.console.queue.length < 16 → ∃ k, p = .up k ∧ Raises u.console (faultAsk acc none) c k) := by
  rcases ask_cases (faultAsk acc none) u with ⟨c, k, hask, hc⟩ | ⟨hask, hfull⟩
  · exact ⟨c, .up k, by rw [askFault_eq, hask]; rfl, fun _ => ⟨k, rfl, hc⟩⟩
  · exact ⟨u.console, .owed none, by rw [askFault_eq, hask]; rfl, fun hroom => by omega⟩

/-- An accessor whose answer shows a reel: STALLED after two faults. -/
def occupied (col : Nat) (occ : Vector Bool 3) (x : AccRec) : AccRec :=
  { ended col x with holders := holdersOf occ, state := .stalled, faults := 2 }

theorem answered_occupied {occ : Vector Bool 3} (hocc : occ.toList.any id = true) :
    ∃ c p, lasting ((s.orderEnds acc col).statusAnswered acc occ)
        = lasting ((({ s with console := c } : State).updAcc acc (fun x => { occupied col occ x with prompt := p })).raise .accessorStalled (.accessor acc))
      ∧ (s.console.queue.length < 16 → ∃ k, p = .up k ∧ Raises s.console (faultAsk acc none) c k) := by
  obtain ⟨a, ha⟩ : ∃ a, a = s.orderEnds acc col := ⟨_, rfl⟩
  have hends : lasting a = lasting (s.updAcc acc (ended col)) := ha ▸ lasting_orderEnds s acc col
  obtain ⟨w, hw⟩ : ∃ w, w = a.updAcc acc (fun x => { x with holders := holdersOf occ, state := .stalled, faults := 2 }) := ⟨_, rfl⟩
  obtain ⟨c, p, hask, hraises⟩ := askFault_holds w acc
  have hconsole : w.console = s.console := by
    rw [hw]
    exact (console_of_lasting hends :)
  refine ⟨c, p, ?_, fun hroom => ?_⟩
  · have hstall : a.statusAnswered acc occ = (w.askFault acc none).raise .accessorStalled (.accessor acc) := by
      unfold State.statusAnswered
      dsimp only
      rw [if_pos hocc, updAcc_updAcc, hw]
    have hheld : ({ w with console := c } : State).updAcc acc (fun x => { x with prompt := p })
        = ({ a with console := c } : State).updAcc acc
          (fun x => { x with holders := holdersOf occ, state := .stalled, faults := 2, prompt := p }) := by
      rw [hw]
      exact updAcc_updAcc ({ a with console := c } : State) acc (fun x => { x with holders := holdersOf occ, state := .stalled, faults := 2 })
        (fun x => { x with prompt := p })
    have hback : lasting { a with console := c } = lasting (({ s with console := c } : State).updAcc acc (ended col)) :=
      (congrArg (fun v : State => { v with console := c }) hends :)
    have hacc : a.acc acc = (s.updAcc acc (ended col)).acc acc := by
      rw [ha, acc_orderEnds, State.acc_updAcc_self]
    have hlast := lasting_updAcc_congr (acc := acc) (f := fun x => { x with holders := holdersOf occ, state := .stalled, faults := 2, prompt := p })
      (g := fun x => { x with holders := holdersOf occ, state := .stalled, faults := 2, prompt := p }) hback
      (congrArg (fun x : AccRec => lastingAcc { x with holders := holdersOf occ, state := .stalled, faults := 2, prompt := p }) hacc :)
    rw [← ha, hstall, hask, hheld]
    rw [updAcc_updAcc] at hlast
    exact (congrArg (fun v : State => v.raise .accessorStalled (.accessor acc)) hlast :)
  · rw [← hconsole]
    exact hraises (hconsole ▸ hroom)

theorem holdersOf_empty : holdersOf (Vector.replicate 3 false) = Vector.replicate 3 .empty := by simp [holdersOf]

theorem lasting_endedWith {f g : AccRec → AccRec} (h : lastingAcc (f (ended col (s.acc acc))) = lastingAcc (g (s.acc acc))) :
    lasting ((s.orderEnds acc col).updAcc acc f) = lasting (s.updAcc acc g) := by
  have hacc : (s.orderEnds acc col).acc acc = (s.updAcc acc (ended col)).acc acc := by
    rw [acc_orderEnds, State.acc_updAcc_self]
  rw [lasting_updAcc_congr (f := f) (g := f) (lasting_orderEnds s acc col) (by rw [hacc]), updAcc_updAcc]
  exact lasting_updAcc_congr rfl h

/-- Empty holders outside the Middle segment (R119). -/
theorem answered_outside (hcol : inMiddle col = false) :
    lasting ((s.orderEnds acc col).statusAnswered acc (Vector.replicate 3 false)) = lasting (s.updAcc acc (fun x =>
      { x with state := .idle, column := col, holders := Vector.replicate 3 .empty, faults := 0 })) := by
  have hmiddle : inMiddle (((s.orderEnds acc col).updAcc acc (fun x => { x with holders := holdersOf (Vector.replicate 3 false) })).acc acc).column = false := by
    rw [State.acc_updAcc_self, acc_orderEnds]
    exact hcol
  unfold State.statusAnswered
  dsimp only
  rw [if_neg (by decide), if_neg (by rw [hmiddle]; exact Bool.false_ne_true), updAcc_updAcc, holdersOf_empty]
  exact lasting_endedWith (by rfl)

/-- An accessor whose answer shows no reel, in the Middle segment: a PARK is its next order. -/
def aside (col : Nat) (x : AccRec) : AccRec :=
  { x with order := none, column := col, holders := Vector.replicate 3 .empty, todo := some .park }

/-- Empty holders in the Middle segment (R119). -/
theorem answered_middle (hcol : inMiddle col = true) :
    (s.orderEnds acc col).statusAnswered acc (Vector.replicate 3 false) = s.updAcc acc (aside col) := by
  have hends : s.orderEnds acc col = s.updAcc acc (ended col) := if_pos hcol
  have hmiddle : inMiddle (((s.updAcc acc (ended col)).updAcc acc (fun x => { x with holders := holdersOf (Vector.replicate 3 false) })).acc acc).column = true := by
    rw [State.acc_updAcc_self, State.acc_updAcc_self]
    exact hcol
  unfold State.statusAnswered
  dsimp only
  rw [hends, if_neg (by decide), if_pos hmiddle, updAcc_updAcc, updAcc_updAcc, holdersOf_empty]
  rfl

/-- What an accessor that is OFFLINE or STALLED keeps. -/
theorem outOfWork_of_lastingAcc {x y : AccRec} (h : lastingAcc x = lastingAcc y) (hy : outOfWork y.state = true) :
    x.state = y.state ∧ x.faults = y.faults := by
  have hstate := congrArg AccRec.state h
  have hfaults := congrArg AccRec.faults h
  simp only [lastingAcc, hy, if_true] at hstate hfaults
  split at hstate
  next hx => exact ⟨hstate, by rw [if_pos hx] at hfaults; exact hfaults⟩
  next hx =>
    rw [← hstate] at hy
    cases hy

/-- The end of the event of an answer that shows a reel. -/
theorem occupied_commit {occ : Vector Bool 3} (hcalm : calm s) (hocc : occ.toList.any id = true) :
    ∃ c p, lasting (((s.orderEnds acc col).statusAnswered acc occ).settle (.accessor acc)).commit
        = lasting (noticed (({ s.settle (.accessor acc) with console := c } : State).updAcc acc (fun x => { occupied col occ x with prompt := p }))
          { kind := .accessorStalled, subject := .accessor acc })
      ∧ (s.console.queue.length < 16 → ∃ k, p = .up k ∧ Raises s.console (faultAsk acc none) c k) := by
  obtain ⟨c, p, hlast, hraises⟩ := answered_occupied (s := s) (acc := acc) (col := col) hocc
  have hsettled := lasting_settle_congr (.accessor acc) hlast
  exact ⟨c, p, Events.lasting_commit_raised hcalm.2 (noneWaits_of_lasting hsettled hcalm.1) hsettled, hraises⟩

theorem getElem_holdersOf (occ : Vector Bool 3) (h : Fin 3) : (holdersOf occ)[h] = if occ[h] then Holder.unknown else .empty := by
  simp [holdersOf]

theorem any_of_getElem {occ : Vector Bool 3} {h : Fin 3} (hocc : occ[h] = true) : occ.toList.any id = true :=
  List.any_eq_true.mpr ⟨occ[h], Vector.mem_toList_iff.mpr (Vector.getElem_mem h.isLt), hocc⟩

/-- Settles O42. -/
theorem statusSettlesThePoll : Obligations.StatusSettlesThePoll := by
  intro s hcalm settled
  refine ⟨fun d hstate hstatus => ?_, fun acc o col horder hop hoffline => ?_⟩
  · have hawaits := awaitsStatus_iff.mpr ⟨hstate, hstatus⟩
    refine ⟨fun k hk hfree hlow => ?_, fun htaken => ?_, fun hdue hnone => ?_, fun hzero => ?_⟩
    · obtain ⟨r, hslot, horigin, hkind, hrec, hdrive, hserial, hwaits, heq⟩ :=
        answeredPresent_opens (s := s.start) hstate (freeSlot_of_lowest hk hfree hlow)
      have hu : calm (s.start.answeredPresent d) := by
        rw [heq]
        exact calm_append hcalm hwaits
      obtain ⟨more, hmore⟩ := ((Still.refl (s.start.answeredPresent d)).commit hu).sent
      refine ⟨_, r, exec_driveAnswer hawaits true, hslot, horigin, hkind, hrec, hdrive, hserial, ⟨more, ?_⟩, ?_⟩
      · rw [if_pos rfl, ← hmore, heq]
        rfl
      · rw [if_pos rfl, Machine.lasting_commit hu, heq]
        rfl
    · have heq := answeredPresent_waits (s := s.start) (d := d) (freeSlot_eq_none_iff.mpr htaken)
      refine ⟨_, exec_driveAnswer hawaits true, ?_⟩
      rw [if_pos rfl, heq]
      exact commit_of_lasting (by rfl) hcalm
    · have heq := answeredEmpty_free (s := s.start) (d := d) hdue hnone
      refine ⟨_, exec_driveAnswer hawaits false, ?_⟩
      rw [if_neg Bool.false_ne_true, heq]
      exact commit_of_lasting (by rfl) hcalm
    · exact ⟨_, exec_driveSilent hstate hzero, Events.lasting_commit_raised hcalm.2 hcalm.1 (by rfl)⟩
  · refine ⟨fun occ hocc => ?_, fun hcol => ?_, fun hlow hhigh => ?_, fun htimer => ⟨_, exec_accSilent horder hop htimer, ?_⟩⟩
    · obtain ⟨h, hh⟩ := hocc
      obtain ⟨c, p, hlast, hraises⟩ := occupied_commit (s := s.start) (acc := acc) (col := col) hcalm (any_of_getElem hh)
      refine ⟨_, exec_accAnswer horder hop _, ?_⟩
      obtain ⟨t, ht⟩ : ∃ t, t = (((s.start.orderEnds acc col).statusAnswered acc occ).settle (.accessor acc)).commit := ⟨_, rfl⟩
      rw [← ht] at hlast ⊢
      have hacc : lastingAcc (t.acc acc) = lastingAcc { occupied col occ (s.acc acc) with prompt := p } :=
        (acc_of_lasting hlast acc).trans (congrArg lastingAcc (State.acc_updAcc_self ({ s.start.settle (.accessor acc) with console := c } : State) acc
          (fun x => { occupied col occ x with prompt := p })))
      obtain ⟨hstate, hfaults⟩ := outOfWork_of_lastingAcc hacc rfl
      have hholders : (t.acc acc).holders = holdersOf occ := (congrArg AccRec.holders hacc :)
      refine ⟨hstate, hfaults, (congrArg AccRec.column hacc :), fun h => ?_, (congrArg State.link hlast :), fun hroom => ?_⟩
      · rw [hholders]
        exact getElem_holdersOf occ h
      · obtain ⟨k, rfl, hc⟩ := hraises hroom
        exact ⟨_, (congrArg Console.queue (console_of_lasting hlast)).trans hc.queue, rfl, rfl, rfl, (congrArg AccRec.prompt hacc :)⟩
    · refine ⟨_, exec_accAnswer horder hop _, commit_of_lasting ?_ hcalm⟩
      exact lasting_settle_congr _ (answered_outside (s := s.start) (Bool.eq_false_iff.mpr fun h => by
        have := (AuditCommands.inMiddle_iff col).mp h
        omega))
    · have hmiddle : inMiddle col = true := (AuditCommands.inMiddle_iff col).mpr ⟨hlow, hhigh⟩
      refine ⟨_, exec_accAnswer horder hop _, ?_⟩
      rw [answered_middle hmiddle]
      obtain ⟨u, hu⟩ : ∃ u, u = (s.start.updAcc acc (aside col)).settle (.accessor acc) := ⟨_, rfl⟩
      have hacc : u.acc acc = aside col (s.acc acc) := by
        rw [hu]
        exact State.acc_updAcc_self s.start acc (aside col)
      have hlast : lasting u = lasting ((s.settle (.accessor acc)).updAcc acc
          (fun x => { x with column := col, holders := Vector.replicate 3 .empty })) := by
        rw [hu]
        exact lasting_settle_congr (.accessor acc) (lasting_updAcc_congr (t := s.start) (u := s) (f := aside col)
          (g := fun x => { x with column := col, holders := Vector.replicate 3 .empty }) (by rfl) (by rfl))
      have hucalm : calm u := hu ▸ hcalm
      have hcommit := Machine.lasting_commit hucalm
      have hparks : ParkAside.Parks u acc (s.acc acc).limPlace :=
        ⟨.inl (by rw [hacc]; exact hoffline), by rw [hacc]; exact hmiddle, by rw [hacc]; rfl, .inl (by rw [hacc]; exact ⟨rfl, rfl⟩)⟩
      rw [← hu]
      refine ⟨?_, ParkAside.parksAside_commit hucalm hparks (by rw [hacc]; rfl) (fun hz => by rw [hu]; exact hz) (fun c => by rw [hu]; rfl),
        hcommit.trans hlast⟩
      have hstate : (u.acc acc).state = .offline := by rw [hacc]; exact hoffline
      exact (outOfWork_of_lastingAcc (acc_of_lasting hcommit acc) (by rw [hstate]; rfl)).1.trans hstate
    · exact commit_of_lasting (lasting_settle_congr _ (lasting_updAcc s.start acc (fun x => { x with order := none }) fun _ => rfl)) hcalm

end PollAnswers

end Sys2Proof
end

section
/-! PROOFS. A SCAN completion of a station position: a supply, a late supply and a collect (R60, R98, R140, R141, R145). -/

namespace Sys2Proof

namespace ScanResults

open Machine Safety Upkeep Settling Requests RailMoves PickCommand Raising PollAnswers Posting Picking Flows Onward Events Ending

variable {s t u v : State} {acc : Acc} {col : Nat} {p : Fin 8} {n slot : Nat} {r : Rec} {ser : Serial} {res : ScanResult} {target : ScanTarget}

/-! ## The scan is over (R98, R111) -/

/-- A state with the station, the records, the directory, the audits and the console of another. -/
def put (w v : State) : State :=
  { w with recs := v.recs, station := v.station, dir := v.dir, audits := v.audits, console := v.console }

theorem lasting_put (h : lasting t = lasting u) (v : State) : lasting (put t v) = lasting (put u v) :=
  (congrArg (fun w : State => { w with
    recs := (lasting v).recs, station := (lasting v).station, dir := v.dir, audits := (lasting v).audits, console := v.console }) h :)

/-- The state once a scan is over, before its result is handed to its owner. -/
def scanDone (s : State) (acc : Acc) (col : Nat) : State :=
  (s.start.orderEnds acc col).updAcc acc (fun x => { x with scan := none, faults := 0 })

/-- The state once a scan is over, as far as the search for work keeps it. -/
def scanBase (s : State) (acc : Acc) (col : Nat) : State := s.updAcc acc (fun x => { x with column := col, faults := 0 })

theorem scanDone_frame (s : State) (acc : Acc) (col : Nat) :
    ∃ accs z, scanDone s acc col = { s with sent := [], rail := { s.rail with accs := accs, zone := z } } := by
  unfold scanDone State.orderEnds
  dsimp only
  split
  · exact ⟨_, _, rfl⟩
  · unfold State.releaseZone
    split <;> exact ⟨_, _, rfl⟩

@[simp] theorem scanDone_station (s : State) (acc : Acc) (col : Nat) : (scanDone s acc col).station = s.station := by
  obtain ⟨_, _, h⟩ := scanDone_frame s acc col
  rw [h]

@[simp] theorem scanDone_recs (s : State) (acc : Acc) (col : Nat) : (scanDone s acc col).recs = s.recs := by
  obtain ⟨_, _, h⟩ := scanDone_frame s acc col
  rw [h]

@[simp] theorem scanDone_dir (s : State) (acc : Acc) (col : Nat) : (scanDone s acc col).dir = s.dir := by
  obtain ⟨_, _, h⟩ := scanDone_frame s acc col
  rw [h]

@[simp] theorem scanDone_drives (s : State) (acc : Acc) (col : Nat) : (scanDone s acc col).drives = s.drives := by
  obtain ⟨_, _, h⟩ := scanDone_frame s acc col
  rw [h]

@[simp] theorem scanDone_console (s : State) (acc : Acc) (col : Nat) : (scanDone s acc col).console = s.console := by
  obtain ⟨_, _, h⟩ := scanDone_frame s acc col
  rw [h]

@[simp] theorem scanDone_raised (s : State) (acc : Acc) (col : Nat) : (scanDone s acc col).raised = s.raised := by
  obtain ⟨_, _, h⟩ := scanDone_frame s acc col
  rw [h]

@[simp] theorem scanDone_audits (s : State) (acc : Acc) (col : Nat) : (scanDone s acc col).audits = s.audits := by
  obtain ⟨_, _, h⟩ := scanDone_frame s acc col
  rw [h]

theorem scanDone_noClaims (h : noClaims s) : noClaims (scanDone s acc col) := by
  obtain ⟨_, _, heq⟩ := scanDone_frame s acc col
  rw [heq]
  exact h

@[simp] theorem scanDone_rec? (s : State) (acc : Acc) (col : Nat) (n : Nat) : (scanDone s acc col).rec? n = s.rec? n := by
  rw [State.rec?, scanDone_recs]
  rfl

@[simp] theorem scanDone_entry? (s : State) (acc : Acc) (col : Nat) (ser : Serial) : (scanDone s acc col).entry? ser = s.entry? ser := by
  rw [State.entry?, scanDone_dir]
  rfl

theorem scanDone_calm (h : calm s) : calm (scanDone s acc col) := by
  refine ⟨?_, ?_⟩
  · rw [noneWaits, scanDone_recs]
    exact h.1
  · rw [nothingRaised, scanDone_raised]
    exact h.2

theorem lasting_scanDone (s : State) (acc : Acc) (col : Nat) : lasting (scanDone s acc col) = lasting (scanBase s acc col) :=
  (lasting_endedWith (s := s.start) (f := fun x => { x with scan := none, faults := 0 }) (g := fun x => { x with column := col, faults := 0 }) (by rfl))

/-- A result that changes the station, the records, the directory, the audits and the console alone. -/
theorem lasting_scan {F : State → State} (hF : ∀ l m, F { s with sent := l, rail := m } = put { s with sent := l, rail := m } (F s)) :
    lasting (F (scanDone s acc col)) = lasting (F (scanBase s acc col)) := by
  have hbase : F (scanBase s acc col) = put (scanBase s acc col) (F s) := hF s.sent (scanBase s acc col).rail
  have hdone : F (scanDone s acc col) = put (scanDone s acc col) (F s) := by
    obtain ⟨accs, z, heq⟩ := scanDone_frame s acc col
    rw [heq]
    exact hF [] { s.rail with accs := accs, zone := z }
  rw [hbase, hdone]
  exact lasting_put (lasting_scanDone s acc col) (F s)

theorem exec_scan {o : Order} (horder : (s.acc acc).order = some o) (hop : o.op = .scan) (hscan : (s.acc acc).scan = some target) (res : ScanResult) :
    exec (.scanCompletion acc res) s = .next ((scanDone s acc o.col).scanned acc target res).commit := by
  obtain ⟨op, ocol, oplace, oholder, otimer⟩ := o
  obtain rfl : op = .scan := hop
  have h : s.order? acc = some _ := horder
  show execScanCompletion acc res s = _
  unfold execScanCompletion
  simp only [h, hscan]
  rfl

/-! ## A supply that reads its record's serial (R140) -/

theorem suppliedAt_eq {e : Entry} (he : s.entry? ser = some e) :
    s.suppliedAt ser p = { s with dir := dirMoved s.dir ser (.atStation p) (fun f => { f with verif := .verified }) } := by
  unfold State.suppliedAt
  rw [located_eq he]
  refine congrArg (fun l => { s with dir := l }) (List.map_congr_left fun f _ => ?_)
  simp [Entry.claims, Entry.cellAt, Location.mechanism]

/-- A position that holds the reel of its record. -/
def supplyHeld (ser : Serial) (n : Nat) (x : StationPos) : StationPos :=
  { StationPos.initial with state := .holding ser, owner := some n, flow := some .pickup, prompt := x.prompt }

/-- The reel of a record has been supplied. -/
def reelSupplied (ser : Serial) (n : Nat) (p : Fin 8) (w : State) : State :=
  { w.updPos p (supplyHeld ser n) with dir := dirMoved w.dir ser (.atStation p) (fun f => { f with verif := .verified }) }

theorem supplied_eq {e : Entry} (hr : s.rec? n = some r) (he : s.entry? ser = some e) :
    s.supplied n p ser =
      match some r.kind with
      | some .enter => (reelSupplied ser n p s).stationHome n p .stowing
      | _ => (reelSupplied ser n p s).enterQueued n := by
  have hheld : (s.updPos p (supplyHeld ser n)).suppliedAt ser p = reelSupplied ser n p s := suppliedAt_eq (s := s.updPos p (supplyHeld ser n)) he
  have hrec : (reelSupplied ser n p s).rec? n = some r := hr
  unfold State.supplied
  dsimp only
  rw [show (s.updPos p fun x => { StationPos.initial with state := .holding ser, owner := some n, flow := some .pickup, prompt := x.prompt })
    = s.updPos p (supplyHeld ser n) from rfl, hheld, hrec, Option.map_some] <;> rfl

theorem supplyScanned_label (hr : s.rec? n = some r) (hser : r.serial = some ser) :
    s.supplyScanned n p (.label ser) = (s.updPos p (fun x => { x with scan := .none })).supplied n p ser := by
  have hbind : ((s.updPos p (fun x => { x with scan := .none })).rec? n).bind (·.serial) = some ser := by
    show (s.rec? n).bind (·.serial) = _
    rw [hr]
    exact hser
  exact if_pos hbind

theorem reelSupplied_unscanned (s : State) : reelSupplied ser n p (s.updPos p (fun x => { x with scan := .none })) = reelSupplied ser n p s :=
  congrArg (fun w : State => { w with dir := dirMoved s.dir ser (.atStation p) (fun f => { f with verif := .verified }) })
    (FirstInLine.updPos_twice s p (fun x => { x with scan := .none }) (supplyHeld ser n))

theorem stationScanned_supply (h : s.station.pos[p].state = .expecting n) (res : ScanResult) :
    s.stationScanned p .supply false res = s.supplyScanned n p res := by
  unfold State.stationScanned
  simp only [h, Bool.false_eq_true, if_false]

theorem scanned_supply (hexpects : s.station.pos[p].state = .expecting n) (hr : s.rec? n = some r) (hser : r.serial = some ser) {e : Entry}
    (he : s.entry? ser = some e) (acc : Acc) :
    s.scanned acc (.station p .supply false) (.label ser) = match some r.kind with
      | some .enter => (reelSupplied ser n p s).stationHome n p .stowing
      | _ => (reelSupplied ser n p s).enterQueued n := by
  have hscanned : s.scanned acc (.station p .supply false) (.label ser) = s.supplyScanned n p (.label ser) := stationScanned_supply hexpects _
  have hsupplied := supplied_eq (s := s.updPos p (fun x => { x with scan := .none })) (p := p) hr he
  rw [reelSupplied_unscanned] at hsupplied
  rw [hscanned, supplyScanned_label hr hser, hsupplied]

/-- The reel of a record has been supplied, and its record is as given. -/
def suppliedTo (ser : Serial) (n : Nat) (p : Fin 8) (q : Rec) (w : State) : State := (reelSupplied ser n p w).updRec n (fun _ => q)

theorem calm_suppliedTo {q : Rec} (h : calm s) (hq : q.waits = false) : calm (suppliedTo ser n p q s) :=
  ⟨noneWaits_updRec (s := reelSupplied ser n p s) h.1 hq, h.2⟩

theorem waits_of_calm {q : Rec} (h : calm s) (hr : s.rec? n = some r) (hst : q.state ≠ .posting) (howed : q.mountedOwed = r.mountedOwed) :
    q.waits = false := by
  have hwaits := (Bool.or_eq_false_iff.mp (h.1 r (List.mem_of_find?_eq_some hr))).2
  exact Bool.or_eq_false_iff.mpr ⟨decide_eq_false hst, howed.trans hwaits⟩

/-- A MOUNT whose reel has been supplied is QUEUED. -/
theorem supply_queued {e : Entry} (hcalm : calm s) (hexpects : s.station.pos[p].state = .expecting n) (hr : s.rec? n = some r)
    (hser : r.serial = some ser) (he : s.entry? ser = some e) (hkind : r.kind = .mount) (hfree : ∀ d : Fin 16, s.drives[d].state ≠ .free) :
    lasting ((scanDone s acc col).scanned acc (.station p .supply false) (.label ser)).commit
      = lasting (suppliedTo ser n p { r with state := .queued } (scanBase s acc col)) := by
  have hscanned := scanned_supply (s := scanDone s acc col) (p := p) (by rw [scanDone_station]; exact hexpects)
    ((scanDone_rec? ..).trans hr) hser ((scanDone_entry? ..).trans he) acc
  rw [hkind] at hscanned
  have hqueued := enterQueued_eq (s := reelSupplied ser n p (scanDone s acc col)) (slot := n) (r := r)
    (fun d => by rw [show (reelSupplied ser n p (scanDone s acc col)).drives = s.drives from scanDone_drives ..]; exact hfree d)
    ((scanDone_rec? s acc col n).trans hr)
  rw [hscanned]
  dsimp only
  rw [hqueued]
  exact commit_of_lasting (lasting_scan (F := suppliedTo ser n p { r with state := .queued }) fun _ _ => rfl)
    (calm_suppliedTo (s := scanBase s acc col) hcalm (waits_of_calm hcalm hr (by simp) rfl))

theorem homeOf_reelSupplied (s : State) : (reelSupplied ser n p s).homeOf ser = s.homeOf ser := by
  have hserial (f : Entry) : (if f.serial = ser then { f with verif := .verified, loc := .atStation p }
      else if f.loc = .atStation p then { f with loc := .missing } else f).serial = f.serial := by
    split
    · rfl
    · split <;> rfl
  have hhome (f : Entry) : (if f.serial = ser then { f with verif := .verified, loc := .atStation p }
      else if f.loc = .atStation p then { f with loc := .missing } else f).home = f.home := by
    split
    · rfl
    · split <;> rfl
  show ((dirMoved s.dir ser (.atStation p) (fun f => { f with verif := .verified })).find? _).bind (·.home) = (s.dir.find? _).bind (·.home)
  unfold dirMoved
  rw [List.find?_map, Option.bind_map]
  simp only [Function.comp_def, hserial, hhome]

/-- The reel of an ENTER goes home once it has been supplied. -/
theorem supply_stows {e : Entry} {c : Cell} (hcalm : calm s) (hexpects : s.station.pos[p].state = .expecting n) (hr : s.rec? n = some r)
    (hser : r.serial = some ser) (he : s.entry? ser = some e) (hkind : r.kind = .enter) (hc : e.home = some c) :
    lasting ((scanDone s acc col).scanned acc (.station p .supply false) (.label ser)).commit
      = lasting (suppliedTo ser n p (homeward r p c .stowing) (scanBase s acc col)) := by
  have hscanned := scanned_supply (s := scanDone s acc col) (p := p) (by rw [scanDone_station]; exact hexpects)
    ((scanDone_rec? ..).trans hr) hser ((scanDone_entry? ..).trans he) acc
  rw [hkind] at hscanned
  obtain ⟨b, hb⟩ : ∃ b, b = reelSupplied ser n p (scanDone s acc col) := ⟨_, rfl⟩
  have hbrec : b.rec? n = some r := by rw [hb]; exact (scanDone_rec? s acc col n).trans hr
  have hhome : b.recHome r = some c := by
    have hentry : b.homeOf ser = some c := by
      rw [hb, homeOf_reelSupplied, State.homeOf, scanDone_entry?, he]
      exact hc
    unfold State.recHome
    rw [hser]
    exact hentry
  obtain ⟨-, hlast⟩ := stationHome_home (p := p) (st := .stowing) hbrec hhome
  have hflow : b.updPos p (fun x => { x with flow := some .pickup }) = b := by
    rw [hb]
    exact congrArg (fun w : State => { w with dir := dirMoved (scanDone s acc col).dir ser (.atStation p) (fun f => { f with verif := .verified }) })
      (FirstInLine.updPos_twice (scanDone s acc col) p (supplyHeld ser n) (fun x => { x with flow := some .pickup }))
  rw [hflow] at hlast
  have hscan : lasting (suppliedTo ser n p (homeward r p c .stowing) (scanDone s acc col)) = lasting (suppliedTo ser n p (homeward r p c .stowing) (scanBase s acc col)) :=
    lasting_scan (F := suppliedTo ser n p (homeward r p c .stowing)) fun _ _ => rfl
  rw [hscanned]
  dsimp only
  rw [← hb]
  rw [hb] at hlast
  exact commit_of_lasting (by rw [hb]; exact hlast.trans hscan)
    (calm_suppliedTo (s := scanBase s acc col) hcalm (waits_of_calm hcalm hr (by simp [homeward]) rfl))

/-! ## A miss of a supply (R140) -/

theorem supplyScanned_miss (hr : s.rec? n = some r) (hmiss : ∀ ser, res = .label ser → r.serial ≠ some ser) :
    s.supplyScanned n p res = (s.updPos p (fun x => { x with scan := .none })).supplyMiss n p true := by
  cases res with
  | label ser =>
    have hbind : ((s.updPos p (fun x => { x with scan := .none })).rec? n).bind (·.serial) ≠ some ser := by
      show (s.rec? n).bind (·.serial) ≠ _
      rw [hr]
      exact hmiss ser rfl
    exact if_neg hbind
  | empty => rfl
  | unreadable => rfl

/-- A position whose supply has missed once, with a new prompt. -/
def missed (k : Nat) (x : StationPos) : StationPos := { x with misses := 1, scan := .none, prompt := .up k }

/-- The first miss asks for a new SUPPLY prompt. -/
def missedOnce (c : Console) (k : Nat) (p : Fin 8) (w : State) : State := { w.updPos p (missed k) with console := c }

theorem supplyMiss_first (hexpects : s.station.pos[p].state = .expecting n) (hr : s.rec? n = some r) (hmisses : s.station.pos[p].misses = 0)
    (hroom : s.console.queue.length < 16) :
    ∃ c k, (s.updPos p (fun x => { x with scan := .none })).supplyMiss n p true = missedOnce c k p s
      ∧ Raises s.console (FirstInLine.supplyAsk r n p) c k := by
  have hpos : (s.updPos p (fun x => { x with scan := .none })).station.pos[p].misses = 0 := by
    rw [State.updPos_self]
    exact hmisses
  have htwice := FirstInLine.updPos_twice s p (fun x => { x with scan := .none }) (fun x => { x with misses := 1 })
  have hask : (s.updPos p (fun x => { x with scan := .none, misses := 1 })).stationAsk p = some (FirstInLine.supplyAsk r n p) := by
    have hstate : (s.updPos p (fun x => { x with scan := .none, misses := 1 })).station.pos[p].state = .expecting n := by
      rw [State.updPos_self]
      exact hexpects
    rw [stationAsk_expecting hstate]
    show (s.rec? n).map _ = _
    rw [hr]
    rfl
  obtain ⟨c, k, hraised, hraises⟩ := askStation_raises hask hroom
  refine ⟨c, k, ?_, hraises⟩
  unfold State.supplyMiss
  rw [if_pos hpos, if_pos rfl, htwice, hraised]
  exact FirstInLine.updPos_twice ({ s with console := c } : State) p (fun x => { x with scan := .none, misses := 1 }) (fun x => { x with prompt := .up k })

theorem supply_misses_once (hcalm : calm s) (hexpects : s.station.pos[p].state = .expecting n) (hr : s.rec? n = some r)
    (hmiss : ∀ ser, res = .label ser → r.serial ≠ some ser) (hmisses : s.station.pos[p].misses = 0) (hroom : s.console.queue.length < 16) :
    ∃ c k, lasting ((scanDone s acc col).scanned acc (.station p .supply false) res).commit = lasting (missedOnce c k p (scanBase s acc col))
      ∧ Raises s.console (FirstInLine.supplyAsk r n p) c k := by
  obtain ⟨c, k, heq, hraises⟩ := supplyMiss_first (s := scanDone s acc col) (p := p) (by rw [scanDone_station]; exact hexpects)
    ((scanDone_rec? ..).trans hr) (by rw [scanDone_station]; exact hmisses) (by rw [scanDone_console]; exact hroom)
  rw [scanDone_console] at hraises
  refine ⟨c, k, ?_, hraises⟩
  have hscanned : (scanDone s acc col).scanned acc (.station p .supply false) res = missedOnce c k p (scanDone s acc col) := by
    rw [← heq, ← supplyScanned_miss ((scanDone_rec? ..).trans hr) hmiss]
    exact stationScanned_supply (by rw [scanDone_station]; exact hexpects) res
  rw [hscanned]
  exact commit_of_lasting (lasting_scan (F := missedOnce c k p) fun _ _ => rfl) hcalm

/-- The position of a supply that has ended, and its record's outcome. -/
def supplyOver (p : Fin 8) (q : Rec) (w : State) : State := (w.updPos p (fun _ => StationPos.initial)).updRec q.slot (fun _ => q)

theorem supply_misses_again (hcalm : calm s) (hexpects : s.station.pos[p].state = .expecting n) (hr : s.rec? n = some r)
    (hmiss : ∀ ser, res = .label ser → r.serial ≠ some ser) (hmisses : s.station.pos[p].misses ≠ 0) (hprompt : s.station.pos[p].prompt = .none)
    (hexpecting : s.expecting n = some p) (hclaims : noClaims s) (hroom : s.link.available < 2) :
    endsIn ((scanDone s acc col).scanned acc (.station p .supply false) res).commit
      ((scanBase s acc col).updPos p (fun _ => StationPos.initial)) r .notSupplied := by
  obtain rfl := slot_of_rec? hr
  obtain ⟨b, hb⟩ : ∃ b, b = (scanDone s acc col).updPos p (fun x => { x with scan := .none }) := ⟨_, rfl⟩
  have hpos : b.station.pos[p] = { s.station.pos[p] with scan := .none } := by
    rw [hb, State.updPos_self, scanDone_station]
  have hbexpecting : b.expecting r.slot = some p := by
    rw [hb, expecting_updPos rfl]
    unfold State.expecting
    rw [scanDone_station]
    exact hexpecting
  obtain ⟨w, hw, -, hlast, -⟩ := supplyFails_eq (s := b) (slot := r.slot) (r := r) (q := p) (o := .notSupplied)
    (by rw [hb]; exact scanDone_noClaims hclaims) (by rw [hb]; exact (scanDone_rec? s acc col r.slot).trans hr) hbexpecting (by rw [hpos]; exact hprompt)
  have hscanned : (scanDone s acc col).scanned acc (.station p .supply false) res = w.enterPosting r.slot := by
    have hfails : b.supplyMiss r.slot p true = b.supplyFails r.slot .notSupplied := if_neg (by rw [hpos]; exact hmisses)
    rw [← hw, ← hfails, hb, ← supplyScanned_miss ((scanDone_rec? ..).trans hr) hmiss]
    exact stationScanned_supply (by rw [scanDone_station]; exact hexpects) res
  have hover : lasting w = lasting (supplyOver p (withOutcome r .notSupplied) (scanBase s acc col)) := by
    have hscan : lasting (supplyOver p (withOutcome r .notSupplied) (scanDone s acc col)) = lasting (supplyOver p (withOutcome r .notSupplied) (scanBase s acc col)) :=
      lasting_scan (F := supplyOver p (withOutcome r .notSupplied)) fun _ _ => rfl
    rw [← hscan, hlast, hb, FirstInLine.updPos_twice]
    rfl
  have hkept : (withOutcome r .notSupplied).waits = false := hcalm.1 r (List.mem_of_find?_eq_some hr)
  have hwcalm : calm w := calm_of_lasting hover
    ⟨noneWaits_updRec (s := (scanBase s acc col).updPos p (fun _ => StationPos.initial)) hcalm.1 hkept, hcalm.2⟩
  rw [hscanned]
  exact endsIn_commit hwcalm (by rw [link_of_lasting hover]; exact hroom) (Option.isSome_iff_exists.mpr ⟨r, hr⟩)
    ⟨withOutcome r .notSupplied, rfl, rfl, hover⟩

end ScanResults

end Sys2Proof
end

section
/-! PROOFS. A reservation taken back: while the rail scheduler works, a leg or put-back reel that goes to no named position is never given
one that holds a reel (R97, R136, R141). -/

namespace Sys2Proof

namespace TakenBack

open Machine Safety Upkeep Settling RailMoves Flows

variable {s t u v : State} {acc who : Acc} {p q : Fin 8} {ref other : LegRef} {dst : Place} {parking : Prop}

/-- A position holds a reel, and a leg or put-back reel does not go there. -/
structure Away (p : Fin 8) (ref : LegRef) (u : State) : Prop where
  holds : ∃ z, u.station.pos[p].state = .holding z
  elsewhere : u.dstOf ref ≠ some (.station (some p))

theorem away_same (hu : Away p ref u) (hpos : v.station.pos[p].state = u.station.pos[p].state) (hdst : v.dstOf ref = u.dstOf ref) : Away p ref v :=
  ⟨by rw [hpos]; exact hu.holds, by rw [hdst]; exact hu.elsewhere⟩

/-- The reels an accessor has to put back. -/
def backs (x : AccRec) : Option (List PutBack) := x.trip.map (·.putBacks)

theorem dstOf_putBack (u : State) (acc : Acc) (h : Fin 3) :
    u.dstOf (.putBack acc h) = ((backs (u.acc acc)).bind (fun l => l.find? (fun b => b.holder = h))).map (·.dst) := by
  unfold State.dstOf backs
  rw [Option.bind_map]
  rfl

/-- An accessor keeps the reels it has to put back, or has none. -/
theorem away_updAcc {f : AccRec → AccRec} (hu : Away p ref u)
    (hf : backs (f (u.acc who)) = backs (u.acc who) ∨ backs (f (u.acc who)) = none ∨ backs (f (u.acc who)) = some []) : Away p ref (u.updAcc who f) := by
  cases ref with
  | record n => exact away_same hu rfl rfl
  | putBack acc h =>
    by_cases hacc : acc = who
    · subst hacc
      refine ⟨hu.holds, ?_⟩
      rw [dstOf_putBack, State.acc_updAcc_self]
      rcases hf with hsame | hnone | hempty
      · rw [hsame, ← dstOf_putBack]
        exact hu.elsewhere
      · rw [hnone]
        exact (Option.some_ne_none _).symm
      · rw [hempty]
        exact (Option.some_ne_none _).symm
    · refine away_same hu rfl ?_
      rw [dstOf_putBack, dstOf_putBack, State.acc_updAcc_other _ _ _ _ hacc]

theorem away_updAcc_same {f : AccRec → AccRec} (hu : Away p ref u) (hf : (f (u.acc who)).trip = (u.acc who).trip) : Away p ref (u.updAcc who f) :=
  away_updAcc hu (.inl (congrArg (Option.map Trip.putBacks) hf :))

theorem leg?_updLeg_other {n m : Nat} (f : Leg → Leg) (hm : m ≠ n) : (u.updLeg n f).leg? m = u.leg? m :=
  congrArg (fun o : Option Rec => o.bind (·.leg)) (State.rec?_updRec_other _ _ _ _ (fun _ h => h) hm)

/-- A leg that keeps its to-place. -/
theorem dstOf_updLeg {n : Nat} {f : Leg → Leg} (hf : ∀ l, (f l).dst = l.dst) (ref : LegRef) : (u.updLeg n f).dstOf ref = u.dstOf ref := by
  cases ref with
  | putBack acc h => rfl
  | record m =>
    by_cases hm : m = n
    · subst hm
      unfold State.dstOf
      simp only [State.leg?_updLeg_self, Option.map_map, Function.comp_def, hf]
    · exact congrArg (Option.map Leg.dst) (leg?_updLeg_other f hm)

theorem dstOf_setDst_cases (u : State) (other : LegRef) (dst : Place) (ref : LegRef) :
    (u.setDst other dst).dstOf ref = u.dstOf ref ∨ (u.setDst other dst).dstOf ref = some dst := by
  cases other with
  | record n =>
    cases ref with
    | putBack acc h => exact .inl rfl
    | record m =>
      by_cases hm : m = n
      · subst hm
        have hself : (u.setDst (.record m) dst).leg? m = (u.leg? m).map (fun l => { l with dst := dst }) := State.leg?_updLeg_self _ _ _
        unfold State.dstOf
        simp only [hself]
        cases u.leg? m with
        | none => exact .inl rfl
        | some l => exact .inr rfl
      · exact .inl (congrArg (Option.map Leg.dst) (leg?_updLeg_other _ hm))
  | putBack who k =>
    cases ref with
    | record n => exact .inl rfl
    | putBack acc h =>
      by_cases hacc : acc = who
      · subst hacc
        have hsame : ((fun b : PutBack => decide (b.holder = h)) ∘ fun b => if b.holder = k then { b with dst := dst } else b)
            = fun b => decide (b.holder = h) := by
          funext y
          by_cases hy : y.holder = k <;> simp [hy]
        have hbacks : backs ((u.setDst (.putBack acc k) dst).acc acc)
            = (backs (u.acc acc)).map (fun l => l.map (fun b => if b.holder = k then { b with dst := dst } else b)) := by
          unfold State.setDst backs
          rw [State.acc_updAcc_self, Option.map_map, Option.map_map]
          rfl
        rw [dstOf_putBack, dstOf_putBack, hbacks]
        cases backs (u.acc acc) with
        | none => exact .inl rfl
        | some l =>
          rw [Option.map_some, Option.bind_some, Option.bind_some, List.find?_map, hsame]
          cases l.find? (fun b => decide (b.holder = h)) with
          | none => exact .inl rfl
          | some b =>
            by_cases hb : b.holder = k
            · exact .inr (by simp [hb])
            · exact .inl (by simp [hb])
      · exact .inl (by rw [dstOf_putBack, dstOf_putBack]; exact congrArg (fun x => ((backs x).bind (fun l => l.find? (fun b => b.holder = h))).map (·.dst)) (State.acc_updAcc_other _ _ _ _ hacc))

theorem away_setDst (hu : Away p ref u) (hdst : dst ≠ .station (some p)) : Away p ref (u.setDst other dst) := by
  refine ⟨?_, ?_⟩
  · have hstation : (u.setDst other dst).station = u.station := by cases other <;> rfl
    rw [hstation]
    exact hu.holds
  · rcases dstOf_setDst_cases u other dst ref with h | h
    · rw [h]
      exact hu.elsewhere
    · rw [h]
      exact fun heq => hdst (Option.some.inj heq)

theorem away_updPos_other {f : StationPos → StationPos} (hu : Away p ref u) (hq : q ≠ p) : Away p ref (u.updPos q f) :=
  away_same hu (by rw [State.updPos_other _ _ _ _ hq.symm]) (by cases ref <;> rfl)

theorem away_reserveFor (hu : Away p ref u) (h : u.reserveFor other = some v) : Away p ref v := by
  rcases reserveFor_cases h with rfl | ⟨q, -, rfl⟩ | ⟨q, hq, rfl⟩
  · exact hu
  · exact away_setDst (u := u.setShelf q (.reserved other)) (away_same hu rfl (by cases ref <;> rfl)) (by simp)
  · have hne : q ≠ p := by
      rintro rfl
      obtain ⟨z, hz⟩ := hu.holds
      exact nomatch hq.symm.trans hz
    exact away_setDst (away_updPos_other hu hne) fun heq => hne (by simpa using heq)

/-! ## Every step of the work -/

theorem away_joinWait (hu : Away p ref u) (who : Acc) (x : Stop) : Away p ref (u.joinWait who x) := by
  unfold State.joinWait
  split
  · exact hu
  · split <;> exact away_same hu rfl (by cases ref <;> rfl)

theorem away_chooseStop (hu : Away p ref u) (who : Acc) (behind stops : List Stop) : Away p ref (u.chooseStop who behind stops) := by
  have hstops {w : State} (hw : Away p ref w) (f : List Stop → List Stop) : Away p ref (w.updStops who f) :=
    away_updAcc hw (.inl (by unfold backs; rw [Option.map_map]; rfl))
  induction stops generalizing behind with
  | nil =>
    cases behind with
    | nil => exact hu
    | cons x rest =>
      show Away p ref (u.awaitPosition who x)
      unfold State.awaitPosition
      dsimp only
      split
      · exact away_updAcc_same (away_joinWait hu who x) rfl
      · exact away_joinWait hu who x
  | cons x rest ih =>
    unfold State.chooseStop
    split
    · split
      next v hv => exact hstops (away_reserveFor hu hv) _
      next => exact ih _
    · exact hstops hu _

theorem trip_ifRunning (x : AccRec) : (if x.state = .running then { x with state := .waitingZone } else x).trip = x.trip := by
  split <;> rfl

theorem away_askZone (hu : Away p ref u) (who : Acc) : Away p ref (u.askZone who) := by
  unfold State.askZone
  split
  · exact hu
  · split
    · exact away_same hu rfl (by cases ref <;> rfl)
    · dsimp only
      have hlisted : Away p ref (if u.rail.zoneWait.contains who then u else { u with rail := { u.rail with zoneWait := u.rail.zoneWait ++ [who] } }) := by
        split
        · exact hu
        · exact away_same hu rfl (by cases ref <;> rfl)
      exact away_updAcc_same hlisted (trip_ifRunning _)

theorem dstOf_given (u : State) (who : Acc) (o : Order) (ref : LegRef) :
    (u.send (.accessor who o)).dstOf ref = u.dstOf ref := by
  cases ref <;> rfl

theorem away_sendOrder (hu : Away p ref u) (who : Acc) (n : NextOrder) : Away p ref (u.sendOrder who n) := by
  have hgiven {w : State} (hw : Away p ref w) (o : Order) :
      Away p ref ((w.updAcc who (fun x => { x with order := some o, todo := none })).send (.accessor who o)) :=
    away_same (away_updAcc_same (f := fun x => { x with order := some o, todo := none }) hw rfl) rfl (dstOf_given _ who o ref)
  unfold State.sendOrder
  dsimp only
  split
  next slot _ =>
    exact hgiven (away_same (v := u.updLeg slot (fun l => { l with inHand := true })) hu rfl
      (dstOf_updLeg (f := fun l => { l with inHand := true }) (fun _ => rfl) ref)) _
  next => exact hgiven hu _

theorem away_sendNext (hu : Away p ref u) (who : Acc) : Away p ref (u.sendNext who) := by
  have hunwait {w : State} (hw : Away p ref w) : Away p ref (w.updAcc who AccRec.unwait) :=
    away_updAcc_same hw (by unfold AccRec.unwait; split <;> rfl)
  have hpass {w : State} (hw : Away p ref w) (n : NextOrder) : Away p ref (w.passGates who n) := by
    unfold State.passGates
    split
    · dsimp only
      split
      · exact away_sendOrder (hunwait hw) who n
      · exact hunwait hw
    · exact hw
  unfold State.sendNext
  split
  · exact hu
  · unfold State.tryOrder
    split
    · exact hpass (away_askZone hu who) _
    · exact hpass hu _

theorem away_idleOrPark (hu : Away p ref u) (who : Acc) : Away p ref (u.idleOrPark who) := by
  unfold State.idleOrPark
  split
  · exact away_updAcc_same hu rfl
  · have hidle : Away p ref (u.updAcc who (fun x => { x with state := .idle, faults := 0 })) := away_updAcc_same hu rfl
    unfold State.releaseZone
    split
    · exact away_same hidle rfl (by cases ref <;> rfl)
    · exact hidle

theorem away_tripJoin (hu : Away p ref u) (who : Acc) (slot : Nat) : Away p ref (u.tripJoin who slot) := by
  have hout : Away p ref ((u.setQueue who ((u.rail.queues.get who).filter (fun x => x ≠ slot))).updLeg slot
      (fun l => { l with state := .assigned, front := false })) :=
    away_same hu rfl ((dstOf_updLeg (f := fun l => { l with state := .assigned, front := false }) (fun _ => rfl) ref).trans (by cases ref <;> rfl))
  have hin := away_updAcc (who := who) (f := fun x => { x with trip := x.trip.map (fun t => { t with legs := t.legs ++ [slot] }) }) hout
    (.inl (by unfold backs; rw [Option.map_map]; rfl))
  unfold State.tripJoin
  dsimp only
  cases hreserve : State.reserveFor _ (LegRef.record slot) with
  | none => exact hin
  | some v => exact away_reserveFor hin hreserve

theorem away_tripFill (hu : Away p ref u) (who : Acc) : Away p ref (u.tripFill who) := by
  unfold State.tripFill
  generalize u.rail.queues.get who = l
  induction l generalizing u with
  | nil => exact hu
  | cons slot rest ih =>
    refine ih ?_
    dsimp only
    split
    · exact away_tripJoin hu who slot
    · exact hu

theorem away_step (hu : Away p ref u) (h : Step parking u v) : Away p ref v := by
  have hunwait {w : State} (hw : Away p ref w) (who : Acc) : Away p ref (w.updAcc who AccRec.unwait) :=
    away_updAcc_same hw (by unfold AccRec.unwait; split <;> rfl)
  cases h with
  | prunes who =>
    unfold State.pruneZone
    split
    · exact hunwait (w := { u with rail := { u.rail with zoneWait := u.rail.zoneWait.filter (fun x => x ≠ who) } }) (away_same hu rfl (by cases ref <;> rfl)) who
    · exact hu
  | ends who =>
    unfold State.endTrip
    dsimp only
    split
    · exact away_idleOrPark (away_updAcc hu (.inr (.inl rfl))) who
    · exact hu
  | grants =>
    unfold State.zoneGrant
    split
    · exact hu
    next first rest _ =>
      split
      · exact hunwait (w := { u with rail := { u.rail with zone := some first, zoneWait := rest } }) (away_same hu rfl (by cases ref <;> rfl)) first
      · exact hu
  | brings who =>
    unfold State.bringStop
    dsimp only
    split
    · exact away_chooseStop hu who _ _
    · exact hu
  | sends who => exact away_sendNext hu who
  | resumes who =>
    unfold State.auditResume
    split
    · split
      · exact away_same hu rfl (by cases ref <;> rfl)
      · exact hu
    · exact hu
  | takes who q rest hcan hreqs =>
    refine away_updAcc_same (u := ({ u with rail := { u.rail with scanReqs := rest } } : State).updPos q.pos (fun x => { x with scan := .inFlight q.kind }))
      (away_same hu ?_ (by cases ref <;> rfl)) rfl
    exact state_updPos (s := u) (p := q.pos) (f := fun x => { x with scan := .inFlight q.kind }) rfl p
  | scans who x c hfree hnone hx hscanning hcursor =>
    exact away_updAcc_same (u := u.updAudit who (fun x => { x with inFlight := true })) (away_same hu rfl (by cases ref <;> rfl)) rfl
  | opens who hfree hany => exact away_updAcc hu (.inr (.inr rfl))
  | fills who hgather => exact away_tripFill hu who
  | starts who hdue => exact away_updAcc hu (.inl (by unfold backs; rw [Option.map_map]; rfl))
  | parks who hidle hscan horder htodo hmiddle hpark => exact away_idleOrPark hu who

theorem away_commit (hcalm : calm u) (hu : Away p ref u) : Away p ref u.commit :=
  (moves_commit hcalm).keeps (fun _ _ hw hmove => away_step hw hmove) hu

/-- A leg or put-back reel whose reservation has been taken back waits for a position again. -/
theorem takeBack_elsewhere (u : State) (ref : LegRef) (p : Fin 8) : (u.takeBack ref).dstOf ref ≠ some (.station (some p)) := by
  have htaken : (u.takeBack ref).dstOf ref = u.dstOf ref ∨ (u.takeBack ref).dstOf ref = some (.station none) :=
    dstOf_setDst_cases u ref (.station none) ref
  cases hdst : u.dstOf ref with
  | none =>
    rcases htaken with h | h <;> rw [h]
    · rw [hdst]
      exact (Option.some_ne_none _).symm
    · simp
  | some old =>
    have hset : (u.takeBack ref).dstOf ref = some (.station none) := OrderGates.dstOf_setDst hdst
    rw [hset]
    simp

end TakenBack

end Sys2Proof
end

section
/-! PROOFS. A SCAN completion of a supply that has ended: the late result (R141, R146, assumption log 62). -/

namespace Sys2Proof

namespace LateScans

open Machine Safety Upkeep Settling Requests RailMoves PickCommand Raising PollAnswers Posting Picking Flows Onward Events Ending DriveTable Withdrawal ScanResults TakenBack

variable {s t u v : State} {acc : Acc} {col : Nat} {p : Fin 8} {n slot k : Nat} {c : Console} {r : Rec} {ser : Serial} {res : ScanResult} {ref : LegRef}
  {late : Bool}

theorem stationScanned_late (h : late = true ∨ ∀ n, s.station.pos[p].state ≠ .expecting n) (res : ScanResult) :
    s.stationScanned p .supply late res = s.lateScanned p res := by
  unfold State.stationScanned
  cases late with
  | true => rfl
  | false =>
    dsimp only
    rw [if_neg Bool.false_ne_true]
    split
    next n hn => exact absurd hn (h.resolve_left Bool.false_ne_true n)
    next => rfl

theorem scanned_late (h : late = true ∨ ∀ n, s.station.pos[p].state ≠ .expecting n) (res : ScanResult) :
    (scanDone s acc col).scanned acc (.station p .supply late) res = (scanDone s acc col).lateScanned p res :=
  stationScanned_late (by rw [scanDone_station]; exact h) res

/-- A late result without effect. -/
theorem late_nothing (hcalm : calm s) (h : late = true ∨ ∀ n, s.station.pos[p].state ≠ .expecting n)
    (hnothing : (scanDone s acc col).lateScanned p res = scanDone s acc col) :
    lasting ((scanDone s acc col).scanned acc (.station p .supply late) res).commit = lasting (scanBase s acc col) := by
  rw [scanned_late h, hnothing]
  exact commit_of_lasting (lasting_scanDone s acc col) hcalm

theorem lateScanned_holding {z : Serial} (h : s.station.pos[p].state = .holding z) : s.lateScanned p (.label ser) = s := by
  unfold State.lateScanned
  simp only [h]

/-! ## An unowned reel (R146) -/

/-- A position that holds an unowned reel, with its COLLECT prompt raised. -/
def unowned (ser : Serial) (k : Nat) : StationPos := { StationPos.initial with state := .holding ser, flow := some .collect, prompt := .up k }

/-- An unowned reel at a position is to be collected. -/
def collectable (ser : Serial) (c : Console) (k : Nat) (p : Fin 8) (w : State) : State := { w.updPos p (fun _ => unowned ser k) with console := c }

theorem unownedCollect_raises (ser : Serial) (hroom : s.console.queue.length < 16) :
    ∃ c k, s.unownedCollect p ser = collectable ser c k p s ∧ Raises s.console (collectAsk none ser p) c k := by
  have htwice := FirstInLine.updPos_twice s p (fun _ => { StationPos.initial with state := .holding ser, owner := none })
    (fun x => { x with flow := some .collect })
  obtain ⟨held, hheld⟩ : ∃ held, held = ({ StationPos.initial with state := .holding ser, owner := none, flow := some .collect } : StationPos) := ⟨_, rfl⟩
  have hask : (s.updPos p (fun _ => held)).stationAsk p = some (collectAsk none ser p) := by
    have hpos : (s.updPos p (fun _ => held)).station.pos[p] = held := State.updPos_self _ _ _
    rw [stationAsk_collect (ser := ser) (by rw [hpos, hheld]) (by rw [hpos, hheld]), hpos, hheld]
    rfl
  obtain ⟨c, k, hraised, hraises⟩ := askStation_raises hask hroom
  refine ⟨c, k, ?_, hraises⟩
  unfold State.unownedCollect State.stationHolds
  rw [htwice, ← hheld, hraised, hheld]
  exact FirstInLine.updPos_twice ({ s with console := c } : State) p
    (fun _ => { StationPos.initial with state := .holding ser, owner := none, flow := some .collect }) (fun x => { x with prompt := .up k })

theorem lasting_collectable (h : lasting t = lasting u) (hstation : t.station = u.station) :
    lasting (collectable ser c k p t) = lasting (collectable ser c k p u) := by
  have hset (w : State) : lasting (collectable ser c k p w)
      = { lasting w with console := c, station := (lasting { w with station := (w.updPos p (fun _ => unowned ser k)).station }).station } := rfl
  rw [hset, hset, h]
  unfold State.updPos
  rw [hstation]
  rfl

theorem acc_orderEnds_other {who : Acc} (h : who ≠ acc) : (s.orderEnds acc col).acc who = s.acc who := by
  unfold State.orderEnds
  dsimp only
  split
  · exact State.acc_updAcc_other _ _ _ _ h
  · rw [acc_releaseZone]
    exact State.acc_updAcc_other _ _ _ _ h

theorem scanDone_trip (s : State) (acc : Acc) (col : Nat) (who : Acc) : ((scanDone s acc col).acc who).trip = (s.acc who).trip := by
  unfold scanDone
  by_cases hwho : who = acc
  · subst hwho
    rw [State.acc_updAcc_self, acc_orderEnds]
    rfl
  · rw [State.acc_updAcc_other _ _ _ _ hwho, acc_orderEnds_other hwho]
    rfl

theorem scanDone_dstOf (s : State) (acc : Acc) (col : Nat) (ref : LegRef) : (scanDone s acc col).dstOf ref = s.dstOf ref := by
  cases ref with
  | record n =>
    unfold State.dstOf State.leg?
    simp only [scanDone_rec?]
  | putBack who h =>
    unfold State.dstOf
    simp only [scanDone_trip]

/-- The result is a reel to be collected. -/
theorem collectable_commit {w : State} (hcalm : calm s) (hroom : s.console.queue.length < 16) (hw : lasting w = lasting (scanDone s acc col))
    (hstation : w.station = s.station) :
    ∃ c k, w.unownedCollect p ser = collectable ser c k p w
      ∧ lasting (w.unownedCollect p ser).commit = lasting (collectable ser c k p (scanBase s acc col)) ∧ calm (w.unownedCollect p ser)
      ∧ Raises s.console (collectAsk none ser p) c k := by
  have hconsole : w.console = s.console := (console_of_lasting hw).trans (scanDone_console ..)
  obtain ⟨c, k, hcollect, hraises⟩ := unownedCollect_raises (s := w) (p := p) ser (by rw [hconsole]; exact hroom)
  have hlast : lasting (w.unownedCollect p ser) = lasting (collectable ser c k p (scanBase s acc col)) := by
    rw [hcollect]
    exact lasting_collectable (hw.trans (lasting_scanDone s acc col)) hstation
  have hbase : calm (collectable ser c k p (scanBase s acc col)) := hcalm
  exact ⟨c, k, hcollect, commit_of_lasting hlast hbase, calm_of_lasting hlast hbase, hconsole ▸ hraises⟩

theorem lasting_takeBack (hdst : ∀ d, u.dstOf ref = some d → ∃ q, d = .station q) : lasting (u.takeBack ref) = lasting u := by
  cases ref with
  | record n =>
    refine lasting_updLeg u n _ fun l hl => ?_
    obtain ⟨q, hq⟩ := hdst l.dst (congrArg (Option.map Leg.dst) hl)
    simp [lastingLeg, hq, Place.unnamed]
  | putBack who h => exact lasting_updAcc u who _ fun _ => rfl

/-- A label read late at an EMPTY position, or at a RESERVED one, whose leg loses it. -/
theorem late_unowned (hcalm : calm s) (h : late = true ∨ ∀ n, s.station.pos[p].state ≠ .expecting n) (hroom : s.console.queue.length < 16)
    (hat : s.station.pos[p].state = .empty
      ∨ ∃ ref, s.station.pos[p].state = .reserved ref ∧ ∀ d, s.dstOf ref = some d → ∃ q, d = .station q) :
    ∃ t c k, ((scanDone s acc col).scanned acc (.station p .supply late) (.label ser)).commit = t
      ∧ lasting t = lasting (collectable ser c k p (scanBase s acc col)) ∧ Raises s.console (collectAsk none ser p) c k
      ∧ ∀ ref q, s.station.pos[p].state = .reserved ref → t.dstOf ref = some (.station (some q)) → q ≠ p := by
  rw [scanned_late h]
  rcases hat with hempty | ⟨ref, hreserved, hdst⟩
  · have hscan : (scanDone s acc col).lateScanned p (.label ser) = (scanDone s acc col).unownedCollect p ser := by
      have hpos : (scanDone s acc col).station.pos[p].state = .empty := by rw [scanDone_station]; exact hempty
      unfold State.lateScanned
      simp only [hpos]
    obtain ⟨c, k, -, hlast, -, hraises⟩ := collectable_commit (acc := acc) (col := col) (p := p) (ser := ser) hcalm hroom rfl (scanDone_station ..)
    rw [hscan]
    exact ⟨_, c, k, rfl, hlast, hraises, fun ref q href => nomatch hempty.symm.trans href⟩
  · have hscan : (scanDone s acc col).lateScanned p (.label ser) = ((scanDone s acc col).takeBack ref).unownedCollect p ser := by
      have hpos : (scanDone s acc col).station.pos[p].state = .reserved ref := by rw [scanDone_station]; exact hreserved
      unfold State.lateScanned
      simp only [hpos]
    have hbdst : ∀ d, (scanDone s acc col).dstOf ref = some d → ∃ q, d = .station q := by
      rw [scanDone_dstOf]
      exact hdst
    obtain ⟨w, hw⟩ : ∃ w, w = (scanDone s acc col).takeBack ref := ⟨_, rfl⟩
    have hstation : w.station = s.station := by
      rw [hw]
      exact (by cases ref <;> rfl : ((scanDone s acc col).takeBack ref).station = (scanDone s acc col).station).trans (scanDone_station ..)
    obtain ⟨c, k, hcollect, hlast, hvcalm, hraises⟩ := collectable_commit (w := w) (acc := acc) (col := col) (p := p) (ser := ser) hcalm hroom
      (hw ▸ lasting_takeBack hbdst) hstation
    have haway : Away p ref (w.unownedCollect p ser) := by
      have hpos : (collectable ser c k p w).station.pos[p] = unowned ser k := State.updPos_self w p (fun _ => unowned ser k)
      have hdstOf : (collectable ser c k p w).dstOf ref = w.dstOf ref := by cases ref <;> rfl
      rw [hcollect]
      refine ⟨⟨ser, by rw [hpos]; rfl⟩, ?_⟩
      rw [hdstOf, hw]
      exact takeBack_elsewhere _ ref p
    rw [hscan, ← hw]
    obtain ⟨v, hv⟩ : ∃ v, v = w.unownedCollect p ser := ⟨_, rfl⟩
    rw [← hv] at haway hvcalm hlast ⊢
    have helse := (away_commit hvcalm haway).elsewhere
    refine ⟨_, c, k, rfl, hlast, hraises, fun ref' q href hto hq => ?_⟩
    obtain rfl : ref = ref' := by simpa using hreserved.symm.trans href
    subst hq
    exact helse hto

/-! ## A miss of another record (R141) -/

theorem lateScanned_expecting (h : s.station.pos[p].state = .expecting n) : s.lateScanned p (.label ser) = s.supplyMiss n p false := by
  unfold State.lateScanned
  simp only [h]

/-- A first miss, with no new prompt. -/
def missedQuietly (p : Fin 8) (w : State) : State := w.updPos p (fun x => { x with misses := 1 })

theorem late_misses_once (hcalm : calm s) (hexpects : s.station.pos[p].state = .expecting n) (hmisses : s.station.pos[p].misses = 0) :
    lasting ((scanDone s acc col).scanned acc (.station p .supply true) (.label ser)).commit = lasting (missedQuietly p (scanBase s acc col)) := by
  have hpos : (scanDone s acc col).station.pos[p] = s.station.pos[p] := by rw [scanDone_station]
  have hmiss : (scanDone s acc col).supplyMiss n p false = missedQuietly p (scanDone s acc col) := by
    unfold State.supplyMiss
    rw [if_pos (by rw [hpos]; exact hmisses), if_neg Bool.false_ne_true]
    rfl
  rw [scanned_late (.inl rfl), lateScanned_expecting (by rw [hpos]; exact hexpects), hmiss]
  exact commit_of_lasting (lasting_scan (F := missedQuietly p) fun _ _ => rfl) hcalm

/-- The prompt of a position is dropped, and no block owes another. -/
theorem dropStation_eq (howed : nothingOwed (s.updPos p (fun x => { x with prompt := .none }))) :
    ∃ c, s.dropStation p = { s.updPos p (fun x => { x with prompt := .none }) with console := c }
      ∧ (∀ k, s.station.pos[p].prompt = .up k → (∃ y, s.prompt? k = some y ∧ y.block = .stationUnit) →
          c.queue = s.console.queue.filter (fun x => x.num ≠ k))
      ∧ ((∀ k, s.station.pos[p].prompt ≠ .up k) → c = s.console) := by
  unfold State.dropStation State.dropPrompt
  cases hprompt : s.station.pos[p].prompt with
  | none => exact ⟨s.console, rfl, fun k h => (nomatch h), fun _ => rfl⟩
  | owed => exact ⟨s.console, rfl, fun k h => (nomatch h), fun _ => rfl⟩
  | up k =>
    obtain ⟨g, hg⟩ : ∃ g, g = s.updPos p (fun x => { x with prompt := .none }) := ⟨_, rfl⟩
    have hsame : ∀ m, g.prompt? m = s.prompt? m := fun m => by rw [hg]; rfl
    have hconsole : g.console = s.console := by rw [hg]; rfl
    rw [← hg] at howed ⊢
    dsimp only
    unfold State.withdraw
    rw [hsame]
    cases hp : s.prompt? k with
    | none =>
      refine ⟨s.console, by rw [← hconsole], fun m hm hy => ?_, fun hno => absurd rfl (hno k)⟩
      obtain rfl : k = m := by simpa using hm
      obtain ⟨y, hy, -⟩ := hy
      exact nomatch hp.symm.trans hy
    | some y =>
      dsimp only
      split
      next hblock =>
        obtain ⟨lines, hlines⟩ := redisplay_eq { g with console := { g.console with queue := g.console.queue.filter (fun p => p.num ≠ k) } }
        have hremoved : g.removePrompt k = _ := hlines
        have howed' : nothingOwed (g.removePrompt k) := by
          rw [hremoved]
          exact howed
        rw [spaceReport_of_nothingOwed howed', hremoved]
        refine ⟨_, rfl, fun m hm _ => ?_, fun hno => absurd rfl (hno k)⟩
        obtain rfl : k = m := by simpa using hm
        rw [← hconsole]
      next hblock =>
        refine ⟨s.console, by rw [← hconsole], fun m hm hy => ?_, fun hno => absurd rfl (hno k)⟩
        obtain rfl : k = m := by simpa using hm
        obtain ⟨z, hz, hzblock⟩ := hy
        obtain rfl : y = z := by simpa using hp.symm.trans hz
        exact absurd hzblock hblock

/-- A supply whose position has its prompt dropped, no claim standing on it. -/
theorem endSupply_dropped (hclaims : noClaims s) (hq : s.expecting slot = some p)
    (hdrop : s.dropStation p = { s.updPos p (fun x => { x with prompt := .none }) with console := c }) :
    lasting (s.endSupply slot) = lasting { s.updPos p (fun _ => StationPos.initial) with console := c } := by
  obtain ⟨-, hres, hsupply⟩ := hclaims
  have hlist : ({ s with station := { s.station with supplyWait := s.station.supplyWait.filter (fun x => x ≠ slot) } } : State) = s := by
    rw [hsupply]
    exact congrArg (fun l => { s with station := { s.station with supplyWait := l } }) hsupply.symm
  obtain ⟨d, hd⟩ : ∃ d, d = s.dropStation p := ⟨_, rfl⟩
  have hstation : d.station = (s.updPos p (fun x => { x with prompt := .none })).station := by rw [hd, hdrop]
  have hend : s.endSupply slot = ((d.withdrawScan p).markScanLate p).updPos p (fun _ => StationPos.initial) := by
    unfold State.endSupply
    simp only [hlist, hq]
    rw [← hd]
    refine freeStation_nothing (s := (d.withdrawScan p).markScanLate p) ?_ ?_ p
    · rw [station_markScanLate]
      exact (congrArg Station.resWait hstation :).trans hres
    · rw [station_markScanLate]
      exact (congrArg Station.supplyWait hstation :).trans hsupply
  have hset (w : State) : lasting (w.updPos p (fun _ => StationPos.initial)) = (lasting w).updPos p (fun _ => StationPos.initial) := lasting_updPos_set _ rfl
  have hwork : lasting ((d.withdrawScan p).markScanLate p) = lasting d := lasting_markScanLate _ _
  have htwice := FirstInLine.updPos_twice ({ s with console := c } : State) p (fun x => { x with prompt := .none }) (fun _ => StationPos.initial)
  rw [hend, hset, hwork, ← hset, hd, hdrop]
  exact congrArg lasting htwice

/-- The position of a late result without its prompt, and its record's outcome. -/
def promptDropped (p : Fin 8) (q : Rec) (w : State) : State := (w.updRec q.slot (fun _ => q)).updPos p (fun x => { x with prompt := .none })

theorem nothingOwed_over {o : FinalOutcome} (hr : s.rec? r.slot = some r) (howed : nothingOwed (s.updPos p (fun x => { x with prompt := .none }))) :
    nothingOwed (promptDropped p (withOutcome r o) (scanDone s acc col)) := by
  have hacc : nothingOwed ((s.updPos p (fun x => { x with prompt := .none })).updAcc acc (fun x => { x with column := col, faults := 0 })) :=
    nothingOwed_updAcc howed fun k => howed.1 acc k
  have hrec : nothingOwed (promptDropped p (withOutcome r o) (scanBase s acc col)) :=
    nothingOwed_updRec (slot := r.slot) (f := fun _ => withOutcome r o) hacc fun _ _ => howed.2.2.1 r (List.mem_of_find?_eq_some hr)
  refine nothingOwed_of_lasting (lasting_scan (F := promptDropped p (withOutcome r o)) fun _ _ => rfl) ?_ hrec
  exact (congrArg (fun l : Station => ({ s with station := l }.updPos p (fun x => { x with prompt := .none })).station) (scanDone_station s acc col) :)

/-- The second miss of another record ends its supply, and its prompt is dropped. -/
theorem late_misses_again (hcalm : calm s) (hexpects : s.station.pos[p].state = .expecting n) (hr : s.rec? n = some r)
    (hmisses : s.station.pos[p].misses ≠ 0) (hexpecting : s.expecting n = some p) (hclaims : noClaims s) (hroom : s.link.available < 2)
    (howed : nothingOwed (s.updPos p (fun x => { x with prompt := .none }))) :
    ∃ t, ((scanDone s acc col).scanned acc (.station p .supply true) (.label ser)).commit = t
      ∧ endsIn t { (scanBase s acc col).updPos p (fun _ => StationPos.initial) with console := t.console } r .notSupplied
      ∧ (∀ k, s.station.pos[p].prompt = .up k → (∃ y, s.prompt? k = some y ∧ y.block = .stationUnit) →
          t.console.queue = s.console.queue.filter (fun x => x.num ≠ k))
      ∧ ((∀ k, s.station.pos[p].prompt ≠ .up k) → t.console = s.console) := by
  obtain rfl := slot_of_rec? hr
  have hpos : (scanDone s acc col).station.pos[p] = s.station.pos[p] := by rw [scanDone_station]
  obtain ⟨b, hb⟩ : ∃ b, b = (scanDone s acc col).setOutcome r.slot .notSupplied := ⟨_, rfl⟩
  have hset : b = (scanDone s acc col).updRec r.slot (fun _ => withOutcome r .notSupplied) := hb.trans (updRec_const ((scanDone_rec? ..).trans hr))
  have hstation : b.station = s.station := by
    rw [hset]
    exact scanDone_station ..
  have hconsole : b.console = s.console := by
    rw [hset]
    exact scanDone_console ..
  have hbclaims : noClaims b := by
    rw [hset]
    exact scanDone_noClaims hclaims
  have hbexpecting : b.expecting r.slot = some p := by
    unfold State.expecting
    rw [hstation]
    exact hexpecting
  have hbowed : nothingOwed (b.updPos p (fun x => { x with prompt := .none })) := hset ▸ nothingOwed_over hr howed
  obtain ⟨c, hdrop, hgone, hstays⟩ := dropStation_eq hbowed
  have hprompts : ∀ m, b.prompt? m = s.prompt? m := fun m => by
    unfold State.prompt?
    rw [hconsole]
  rw [hstation, hconsole] at hgone hstays
  have hover : lasting (b.endSupply r.slot) = lasting { supplyOver p (withOutcome r .notSupplied) (scanBase s acc col) with console := c } := by
    have hscan : lasting { supplyOver p (withOutcome r .notSupplied) (scanDone s acc col) with console := c }
        = lasting { supplyOver p (withOutcome r .notSupplied) (scanBase s acc col) with console := c } :=
      lasting_scan (F := fun w => { supplyOver p (withOutcome r .notSupplied) w with console := c }) fun _ _ => rfl
    rw [endSupply_dropped hbclaims hbexpecting hdrop, ← hscan, hset]
    rfl
  have hscanned : (scanDone s acc col).scanned acc (.station p .supply true) (.label ser) = (b.endSupply r.slot).enterPosting r.slot := by
    rw [scanned_late (.inl rfl), lateScanned_expecting (n := r.slot) (by rw [hpos]; exact hexpects), hb]
    exact if_neg (by rw [hpos]; exact hmisses)
  have hkept : (withOutcome r .notSupplied).waits = false := hcalm.1 r (List.mem_of_find?_eq_some hr)
  have hwcalm : calm (b.endSupply r.slot) := calm_of_lasting hover
    ⟨noneWaits_updRec (s := (scanBase s acc col).updPos p (fun _ => StationPos.initial)) hcalm.1 hkept, hcalm.2⟩
  have hends := endsIn_commit (u := { (scanBase s acc col).updPos p (fun _ => StationPos.initial) with console := c }) hwcalm
    (by rw [link_of_lasting hover]; exact hroom) (Option.isSome_iff_exists.mpr ⟨r, hr⟩) ⟨withOutcome r .notSupplied, rfl, rfl, hover⟩
  have ht := Expiry.console_of_endsIn hends
  rw [hscanned]
  refine ⟨_, rfl, ?_, fun k hk hy => ?_, fun hno => ?_⟩
  · rw [ht]
    exact hends
  · rw [ht]
    refine hgone k hk ?_
    rw [hprompts]
    exact hy
  · rw [ht]
    exact hstays hno

end LateScans

end Sys2Proof
end

section
/-! PROOFS. A SCAN completion of a collect: the reel has been taken, or is asked for again (R60, R145, R146). -/

namespace Sys2Proof

namespace CollectScans

open Machine Safety Upkeep Settling Requests RailMoves PickCommand Raising PollAnswers Posting Picking Flows Onward Events Ending DriveTable Withdrawal
open ScanResults

variable {s t u v : State} {acc : Acc} {col : Nat} {p : Fin 8} {n slot k : Nat} {c : Console} {r : Rec} {ser : Serial} {res : ScanResult} {late : Bool}

/-- A record that ends by its own course has the outcome it was given, or that of its kind. -/
theorem enterPosting_ownOutcome (hr : s.rec? n = some r) :
    s.enterPosting n = (s.updRec n (fun _ => withOutcome r (r.outcome.getD (kindOutcome r.kind)))).enterPosting n := by
  rw [enterPosting_updRec (q := withOutcome r (r.outcome.getD (kindOutcome r.kind))) (slot_of_rec? hr :) (Option.isSome_iff_exists.mpr ⟨r, hr⟩),
    enterPosting_eq hr]
  rfl

/-! ## The directory when a reel has been taken (R60) -/

/-- Another open record than the collecting one holds the serial. -/
abbrev heldByAnother (s : State) (owner : Option Nat) (ser : Serial) : Prop := ∃ q ∈ s.recs, q.serial = some ser ∧ some q.slot ≠ owner


/-- The directory once a reel has been taken from the station. -/
def dirCollected (s : State) (owner : Option Nat) (ser : Serial) : List Entry :=
  if heldByAnother s owner ser then s.dir else match s.entry? ser with
    | none => s.dir
    | some e =>
      if e.foreign = true then s.dir.filter (fun f => f.serial ≠ ser)
      else s.dir.map (fun f => if f.serial = ser then { f with loc := .outside, verif := .unverified, ring := .unknown } else f)

theorem collectUpdate_eq (s : State) (owner : Option Nat) (ser : Serial) :
    s.collectUpdate owner ser = { s with dir := dirCollected s owner ser } := by
  have hany : (s.recs.any (fun r => r.serial = some ser && some r.slot ≠ owner)) = true ↔ heldByAnother s owner ser := by
    simp [heldByAnother]
  unfold State.collectUpdate dirCollected
  by_cases hheld : heldByAnother s owner ser
  · rw [if_pos (hany.mpr hheld), if_pos hheld]
  · rw [if_neg fun h => hheld (hany.mp h), if_neg hheld]
    unfold State.collected
    cases s.entry? ser with
    | none => rfl
    | some e =>
      dsimp only
      split <;> rfl

/-! ## The position is found empty (R145) -/

/-- A position whose reel has been taken, and the directory then. -/
def taken (p : Fin 8) (dir : List Entry) (w : State) : State := { w.updPos p (fun _ => StationPos.initial) with dir := dir }

theorem collectScanned_empty (hclaims : noClaims s) (hstate : s.station.pos[p].state = .holding ser) :
    s.collectScanned p .empty = match s.station.pos[p].owner with
      | some slot => (taken p (dirCollected s s.station.pos[p].owner ser) s).enterPosting slot
      | none => taken p (dirCollected s s.station.pos[p].owner ser) s := by
  obtain ⟨w, hw⟩ : ∃ w, w = s.updPos p (fun x => { x with scan := .none }) := ⟨_, rfl⟩
  have hfreed : ((w.collectUpdate s.station.pos[p].owner ser).freeStation p) = taken p (dirCollected s s.station.pos[p].owner ser) s := by
    rw [collectUpdate_eq, freeStation_nothing (by rw [hw]; exact hclaims.2.1) (by rw [hw]; exact hclaims.2.2), hw]
    exact congrArg (fun v : State => { v with dir := dirCollected s s.station.pos[p].owner ser })
      (FirstInLine.updPos_twice s p (fun x => { x with scan := .none }) (fun _ => StationPos.initial))
  unfold State.collectScanned
  simp only [hstate, ← hw, hfreed] <;> rfl

theorem scanned_collect (res : ScanResult) :
    (scanDone s acc col).scanned acc (.station p .collect late) res = (scanDone s acc col).collectScanned p res := rfl

theorem dirCollected_scanDone (owner : Option Nat) : dirCollected (scanDone s acc col) owner ser = dirCollected s owner ser := by
  unfold dirCollected heldByAnother
  rw [scanDone_recs, scanDone_dir, scanDone_entry?]

/-- An unowned reel has been taken. -/
theorem collect_unowned (hcalm : calm s) (hclaims : noClaims s) (hstate : s.station.pos[p].state = .holding ser)
    (howner : s.station.pos[p].owner = none) :
    lasting ((scanDone s acc col).scanned acc (.station p .collect late) .empty).commit
      = lasting (taken p (dirCollected s none ser) (scanBase s acc col)) := by
  have hpos : (scanDone s acc col).station.pos[p] = s.station.pos[p] := by rw [scanDone_station]
  have hscanned := collectScanned_empty (s := scanDone s acc col) (p := p) (ser := ser) (scanDone_noClaims hclaims) (by rw [hpos]; exact hstate)
  rw [hpos, howner] at hscanned
  rw [scanned_collect, hscanned, dirCollected_scanDone]
  exact commit_of_lasting (lasting_scan (F := taken p (dirCollected s none ser)) fun _ _ => rfl) hcalm

/-- The reel of a record has been taken, and the record ends. -/
theorem collect_ends (hcalm : calm s) (hclaims : noClaims s) (hstate : s.station.pos[p].state = .holding ser)
    (howner : s.station.pos[p].owner = some n) (hr : s.rec? n = some r) (hroom : s.link.available < 2) :
    endsIn ((scanDone s acc col).scanned acc (.station p .collect late) .empty).commit
      (taken p (dirCollected s (some n) ser) (scanBase s acc col)) r (r.outcome.getD (kindOutcome r.kind)) := by
  obtain rfl := slot_of_rec? hr
  have hpos : (scanDone s acc col).station.pos[p] = s.station.pos[p] := by rw [scanDone_station]
  have hscanned := collectScanned_empty (s := scanDone s acc col) (p := p) (ser := ser) (scanDone_noClaims hclaims) (by rw [hpos]; exact hstate)
  rw [hpos, howner] at hscanned
  rw [scanned_collect, hscanned, dirCollected_scanDone]
  dsimp only
  obtain ⟨o, ho⟩ : ∃ o, o = r.outcome.getD (kindOutcome r.kind) := ⟨_, rfl⟩
  obtain ⟨d, hd⟩ : ∃ d, d = dirCollected s (some r.slot) ser := ⟨_, rfl⟩
  have hrec : (taken p d (scanDone s acc col)).rec? r.slot = some r := (scanDone_rec? ..).trans hr
  rw [← hd, enterPosting_ownOutcome hrec, ← ho]
  have hover : lasting ((taken p d (scanDone s acc col)).updRec r.slot (fun _ => withOutcome r o))
      = lasting ((taken p d (scanBase s acc col)).updRec r.slot (fun _ => withOutcome r o)) :=
    lasting_scan (F := fun w => (taken p d w).updRec r.slot (fun _ => withOutcome r o)) fun _ _ => rfl
  have hkept : (withOutcome r o).waits = false := hcalm.1 r (List.mem_of_find?_eq_some hr)
  have hwcalm := calm_of_lasting hover ⟨noneWaits_updRec (s := taken p d (scanBase s acc col)) hcalm.1 hkept, hcalm.2⟩
  exact endsIn_commit hwcalm (by rw [link_of_lasting hover]; exact hroom) (Option.isSome_iff_exists.mpr ⟨r, hr⟩) ⟨withOutcome r o, rfl, rfl, hover⟩

/-! ## The reel is still there (R145) -/

/-- A position whose reel is asked for again. -/
def askedAgain (c : Console) (k : Nat) (p : Fin 8) (w : State) : State :=
  { w.updPos p (fun x => { x with scan := .none, prompt := .up k }) with console := c }

theorem collectScanned_again (hstate : s.station.pos[p].state = .holding ser) (hflow : s.station.pos[p].flow = some .collect) (hres : res ≠ .empty)
    (hroom : s.console.queue.length < 16) :
    ∃ c k, s.collectScanned p res = askedAgain c k p s
      ∧ Raises s.console (collectAsk (s.station.pos[p].owner.bind s.rec?) ser p) c k := by
  obtain ⟨w, hw⟩ : ∃ w, w = s.updPos p (fun x => { x with scan := .none }) := ⟨_, rfl⟩
  have hpos : w.station.pos[p] = { s.station.pos[p] with scan := .none } := by rw [hw]; exact State.updPos_self ..
  have hask := stationAsk_collect (s := w) (p := p) (ser := ser) (by rw [hpos]; exact hstate) (by rw [hpos]; exact hflow)
  have howner : w.station.pos[p].owner.bind w.rec? = s.station.pos[p].owner.bind s.rec? := by
    rw [hpos, hw]
    rfl
  rw [howner] at hask
  obtain ⟨c, k, hraised, hraises⟩ := askStation_raises hask (by rw [hw]; exact hroom)
  have hscanned : s.collectScanned p res = w.askStation p := by
    unfold State.collectScanned
    cases res with
    | empty => exact absurd rfl hres
    | label y => simp only [hstate, ← hw]
    | unreadable => simp only [hstate, ← hw]
  refine ⟨c, k, ?_, by rw [hw] at hraises; exact hraises⟩
  rw [hscanned, hraised, hw]
  exact FirstInLine.updPos_twice ({ s with console := c } : State) p (fun x => { x with scan := .none }) (fun x => { x with prompt := .up k })

theorem collect_again (hcalm : calm s) (hstate : s.station.pos[p].state = .holding ser) (hflow : s.station.pos[p].flow = some .collect)
    (hres : res ≠ .empty) (hroom : s.console.queue.length < 16) :
    ∃ c k, lasting ((scanDone s acc col).scanned acc (.station p .collect late) res).commit = lasting (askedAgain c k p (scanBase s acc col))
      ∧ Raises s.console (collectAsk (s.station.pos[p].owner.bind s.rec?) ser p) c k := by
  have hpos : (scanDone s acc col).station.pos[p] = s.station.pos[p] := by rw [scanDone_station]
  obtain ⟨c, k, hagain, hraises⟩ := collectScanned_again (s := scanDone s acc col) (p := p) (by rw [hpos]; exact hstate) (by rw [hpos]; exact hflow)
    hres (by rw [scanDone_console]; exact hroom)
  have howner : s.station.pos[p].owner.bind (scanDone s acc col).rec? = s.station.pos[p].owner.bind s.rec? :=
    congrArg (s.station.pos[p].owner.bind ·) (funext fun n => scanDone_rec? ..)
  rw [hpos, scanDone_console, howner] at hraises
  refine ⟨c, k, ?_, hraises⟩
  rw [scanned_collect, hagain]
  exact commit_of_lasting (lasting_scan (F := askedAgain c k p) fun _ _ => rfl) hcalm

end CollectScans

end Sys2Proof
end

section
/-! PROOFS. A SCAN completion of an audit: the counts, the directory and the end of the audit (R61, R62, R126, R128). -/

namespace Sys2Proof

namespace AuditScans

open Machine Safety Upkeep Settling Requests RailMoves PickCommand Picking Events AuditWork AuditCommands ScanResults

variable {s t u v : State} {acc : Acc} {col : Nat} {c : Cell} {ser : Serial} {res : ScanResult} {x y : Audit}

/-! ## What the directory says of a cell and a serial (R53, R55) -/

theorem isExpectedAt_iff (h : directoryLaw s) : s.isExpectedAt ser c = true ↔ ∃ e ∈ s.dir, e.serial = ser ∧ e.expectedAt c = true := by
  unfold State.isExpectedAt
  constructor
  · intro hexpected
    cases he : s.entry? ser with
    | none => simp [he] at hexpected
    | some e =>
      rw [he, Option.map_some, Option.getD_some] at hexpected
      exact ⟨e, List.mem_of_find?_eq_some he, serial_of_entry? he, hexpected⟩
  · rintro ⟨e, he, rfl, hexpected⟩
    rw [entry?_of_mem h he]
    exact hexpected

theorem homeOf_iff (h : directoryLaw s) : s.homeOf ser = some c ↔ ∃ e ∈ s.dir, e.serial = ser ∧ e.home = some c := by
  unfold State.homeOf
  constructor
  · intro hhome
    obtain ⟨e, he, hc⟩ := Option.bind_eq_some_iff.mp hhome
    exact ⟨e, List.mem_of_find?_eq_some he, serial_of_entry? he, hc⟩
  · rintro ⟨e, he, rfl, hc⟩
    rw [entry?_of_mem h he]
    exact hc

theorem expectedAt_isSome : (s.expectedAt c).isSome = true ↔ ∃ e ∈ s.dir, e.expectedAt c = true := by
  unfold State.expectedAt
  rw [List.find?_isSome]

/-- The entry expected at a cell is the only one with its serial, and the only one expected there. -/
theorem expected_unique {w e : Entry} (h : directoryLaw s) (hw : s.expectedAt c = some w) (he : e ∈ s.dir) :
    e.serial = w.serial ↔ e.expectedAt c = true := by
  have hmem := List.mem_of_find?_eq_some hw
  have hexpected : w.expectedAt c = true := (List.find?_some hw :)
  constructor
  · intro hserial
    have hsame := entry?_of_mem h he
    rw [hserial, entry?_of_mem h hmem] at hsame
    cases hsame
    exact hexpected
  · intro hc
    by_contra hne
    have := distinct_symm
    have hdistinct : Distinct e w := List.Pairwise.forall ((directoryLaw_iff s).mp h).2 he hmem fun heq => hne (by rw [heq])
    rw [hdistinct.2.2.2 c hc] at hexpected
    cases hexpected

/-- An update of the entry expected at a cell. -/
theorem updExpected_eq {w : Entry} (h : directoryLaw s) (hw : s.expectedAt c = some w) (f : Entry → Entry) :
    s.updEntry w.serial f = { s with dir := s.dir.map (fun e => if e.expectedAt c = true then f e else e) } := by
  refine congrArg (fun l => { s with dir := l }) (List.map_congr_left fun e he => ?_)
  by_cases hc : e.expectedAt c = true
  · rw [if_pos ((expected_unique h hw he).mpr hc), if_pos hc]
  · rw [if_neg fun hs => hc ((expected_unique h hw he).mp hs), if_neg hc]

theorem updExpected_none (hw : s.expectedAt c = none) (f : Entry → Entry) :
    s = { s with dir := s.dir.map (fun e => if e.expectedAt c = true then f e else e) } := by
  have hno := List.find?_eq_none.mp hw
  have hmap : s.dir.map (fun e => if e.expectedAt c = true then f e else e) = s.dir := by
    conv_rhs => rw [← List.map_id s.dir]
    exact List.map_congr_left fun e he => if_neg (hno e he)
  exact congrArg (fun l => { s with dir := l }) hmap.symm

theorem missingAt_eq (h : directoryLaw s) (c : Cell) :
    s.missingAt c = { s with dir := s.dir.map (fun e => if e.expectedAt c = true then { e with loc := .missing } else e) } := by
  unfold State.missingAt
  cases hw : s.expectedAt c with
  | none => exact updExpected_none hw _
  | some w => exact updExpected_eq h hw _

theorem unreadableAt_eq (h : directoryLaw s) (c : Cell) : s.scanApplied c .unreadable
    = { s with dir := s.dir.map (fun e => if e.expectedAt c = true then { e with verif := .unverified } else e) } := by
  unfold State.scanApplied
  cases hw : s.expectedAt c with
  | none => exact updExpected_none hw _
  | some w => exact updExpected_eq h hw _

/-! ## The result is applied (R61, R62, R126) -/

theorem skips_iff (x : Audit) (c : Cell) (res : ScanResult) : x.skips c res = skipped x c res := by
  cases res with
  | label y => exact List.contains_eq_mem _ _
  | empty => rfl
  | unreadable => rfl

theorem cellPassed_eq (s : State) (c : Cell) : s.cellPassed c = { s with dir := s.dir.map (fun e =>
    if e.verif = .auditPending ∧ e.home = some c then { e with verif := .unverified } else e) } := by
  refine congrArg (fun l => { s with dir := l }) (List.map_congr_left fun e _ => ?_)
  unfold unmark
  cases e.home <;> simp

theorem scanApplied_eq (h : directoryLaw s) (x : Audit) (c : Cell) (res : ScanResult) :
    (if x.skips c res then s else s.scanApplied c res).cellPassed c = { s with dir := dirScanned s.dir x c res } := by
  rw [cellPassed_eq, skips_iff]
  unfold dirScanned
  by_cases hskip : skipped x c res = true
  · rw [if_pos hskip]
    simp only [hskip, if_true]
  · rw [if_neg hskip]
    simp only [hskip, if_false, Bool.false_eq_true]
    cases res with
    | label y =>
      have hexpected := isExpectedAt_iff (ser := y) (c := c) h
      by_cases hat : s.isExpectedAt y c = true
      · have happlied : s.scanApplied c (.label y) = s.setVerif y .verified := if_pos hat
        rw [happlied]
        simp only [if_pos (hexpected.mp hat)]
        rfl
      · have happlied : s.scanApplied c (.label y) = (s.missingAt c).foundAt y c := if_neg hat
        rw [happlied, foundAt_eq, missingAt_eq h]
        simp only [if_neg fun hex => hat (hexpected.mpr hex)]
    | empty =>
      have happlied : s.scanApplied c .empty = s.missingAt c := rfl
      rw [happlied, missingAt_eq h]
    | unreadable => rw [unreadableAt_eq h]

theorem passedAudit_eq (h : directoryLaw s) (x : Audit) (c : Cell) (res : ScanResult) : s.passedAudit x c res = auditPast s.dir x c res := by
  cases res with
  | label y =>
    have hverified : (x.skips c (.label y) || s.isExpectedAt y c || decide (s.homeOf y = some c)) = true
        ↔ skipped x c (.label y) = true ∨ ∃ e ∈ s.dir, e.serial = y ∧ (e.expectedAt c = true ∨ e.home = some c) := by
      rw [Bool.or_eq_true, Bool.or_eq_true, decide_eq_true_eq, isExpectedAt_iff h, homeOf_iff h, skips_iff, or_assoc, ← exists_or]
      simp only [← and_or_left]
    have hcount : s.countScan x c (.label y) = if (x.skips c (.label y) || s.isExpectedAt y c || decide (s.homeOf y = some c)) = true then
        { x with scanned := x.scanned + 1, verified := x.verified + 1 } else { x with scanned := x.scanned + 1, misplaced := x.misplaced + 1 } := rfl
    unfold State.passedAudit auditPast
    rw [hcount]
    by_cases hv : (x.skips c (.label y) || s.isExpectedAt y c || decide (s.homeOf y = some c)) = true
    · rw [if_pos hv]
      exact (if_pos (hverified.mp hv)).symm
    · rw [if_neg hv]
      exact (if_neg fun hex => hv (hverified.mpr hex)).symm
  | empty =>
    have hcount : s.countScan x c .empty = if (s.expectedAt c).isSome then
        { x with scanned := x.scanned + 1, missing := x.missing + 1 } else { x with scanned := x.scanned + 1 } := rfl
    unfold State.passedAudit auditPast
    rw [hcount]
    by_cases hv : (s.expectedAt c).isSome = true
    · rw [if_pos hv]
      exact (if_pos (expectedAt_isSome.mp hv)).symm
    · rw [if_neg hv]
      exact (if_neg fun hex => hv (expectedAt_isSome.mpr hex)).symm
  | unreadable => rfl

/-- What the result leaves of the audit as it was. -/
theorem auditPast_keeps (dir : List Entry) (x : Audit) (c : Cell) (res : ScanResult) : (auditPast dir x c res).state = x.state
    ∧ (auditPast dir x c res).first = x.first ∧ (auditPast dir x c res).last = x.last ∧ (auditPast dir x c res).inFlight = false
    ∧ (auditPast dir x c res).yieldClass = x.yieldClass := by
  unfold auditPast
  cases res with
  | label y =>
    dsimp only
    split <;> exact ⟨rfl, rfl, rfl, rfl, rfl⟩
  | empty =>
    dsimp only
    split <;> exact ⟨rfl, rfl, rfl, rfl, rfl⟩
  | unreadable => exact ⟨rfl, rfl, rfl, rfl, rfl⟩

/-! ## The audit after the result (R126) -/

/-- The state with an audit and a directory given. -/
def passed (acc : Acc) (y : Audit) (dir : List Entry) (w : State) : State := { w with audits := w.audits.set acc (some y), dir := dir }

theorem passed_passed (w : State) (d e : List Entry) : passed acc y e (passed acc x d w) = passed acc y e w := by
  cases acc <;> rfl

theorem auditScanned_eq (h : directoryLaw s) (hx : s.audits.get acc = some x) (hrunning : x.state ≠ .done) :
    s.auditScanned acc c res = (passed acc (auditPast s.dir x c res) (dirScanned s.dir x c res) s).settleAudit acc x c := by
  have hactive : s.activeAudit acc = some x := activeAudit_some.mpr ⟨hx, hrunning⟩
  have hupd (d : List Entry) (y : Audit) : ({ s with dir := d } : State).updAudit acc (fun _ => y) = passed acc y d s := by
    have hget : ({ s with dir := d } : State).audits.get acc = some x := hx
    unfold State.updAudit passed
    rw [hget]
    rfl
  unfold State.auditScanned
  simp only [hactive]
  rw [scanApplied_eq h, passedAudit_eq h, hupd]

/-- An audit that has passed its last cell. -/
def endedAudit (x : Audit) (by' : EndedBy) : Audit := { x with state := .done, endedBy := some by', cursor := none, skip := [], abortPending := false }

theorem endAudit_eq (by' : EndedBy) (hflight : y.inFlight = false) (d : List Entry) (w : State) :
    (passed acc y d w).endAudit acc by' = (passed acc (endedAudit y by') d w).raise .auditDone (.accessor acc) := by
  have hget : (passed acc y d w).audits.get acc = some y := PerAcc.get_set_self _ _ _
  have hset : (passed acc y d w).updAudit acc (fun x =>
      { x with state := .done, endedBy := some by', cursor := none, skip := [], inFlight := false, abortPending := false })
      = passed acc (endedAudit y by') d w := by
    have hsame : ({ y with state := .done, endedBy := some by', cursor := none, skip := [], inFlight := false, abortPending := false } : Audit)
        = endedAudit y by' := by
      unfold endedAudit
      rw [← hflight]
    unfold State.updAudit
    rw [hget, Option.map_some, hsame]
    exact passed_passed w d d
  unfold State.endAudit
  rw [hset]

theorem scanned_cell (h : directoryLaw s) (hx : s.audits.get acc = some x) (hrunning : x.state ≠ .done) :
    (scanDone s acc col).scanned acc (.cell c) res
      = (passed acc (auditPast s.dir x c res) (dirScanned s.dir x c res) (scanDone s acc col)).settleAudit acc x c := by
  have hlaw : directoryLaw (scanDone s acc col) := by
    rw [directoryLaw, scanDone_dir]
    exact h
  have heq := auditScanned_eq (s := scanDone s acc col) (c := c) (res := res) hlaw (by rw [scanDone_audits]; exact hx) hrunning
  rw [scanDone_dir] at heq
  exact heq

/-- The audit ends, by its last cell or by a pending abort. -/
theorem audit_ends {d : List Entry} (hcalm : calm s)
    (hscanned : (scanDone s acc col).scanned acc (.cell c) res = (passed acc y d (scanDone s acc col)).raise .auditDone (.accessor acc)) :
    lasting ((scanDone s acc col).scanned acc (.cell c) res).commit
      = lasting (noticed (passed acc y d (scanBase s acc col)) { kind := .auditDone, subject := .accessor acc }) := by
  have hscan : lasting (passed acc y d (scanDone s acc col)) = lasting (passed acc y d (scanBase s acc col)) :=
    lasting_scan (F := passed acc y d) fun _ _ => by cases acc <;> rfl
  have hraised : lasting ((passed acc y d (scanDone s acc col)).raise .auditDone (.accessor acc))
      = lasting ((passed acc y d (scanBase s acc col)).raise .auditDone (.accessor acc)) :=
    (congrArg (fun w : State => w.raise .auditDone (.accessor acc)) hscan :)
  rw [hscanned]
  exact lasting_commit_raised (u := passed acc y d (scanBase s acc col)) hcalm.2 (noneWaits_of_lasting hraised hcalm.1) hraised

theorem audit_aborted (hcalm : calm s) (h : directoryLaw s) (hx : s.audits.get acc = some x) (hrunning : x.state ≠ .done) (habort : x.abortPending = true) :
    lasting ((scanDone s acc col).scanned acc (.cell c) res).commit
      = lasting (noticed (passed acc (endedAudit (auditPast s.dir x c res) .abort) (unmarked (dirScanned s.dir x c res) x) (scanBase s acc col))
          { kind := .auditDone, subject := .accessor acc }) := by
  obtain ⟨-, hfirst, hlast, hflight, -⟩ := auditPast_keeps s.dir x c res
  refine audit_ends hcalm ?_
  rw [scanned_cell h hx hrunning]
  obtain ⟨y, hy⟩ : ∃ y, y = auditPast s.dir x c res := ⟨_, rfl⟩
  rw [← hy] at hfirst hlast hflight ⊢
  have hget : (passed acc y (dirScanned s.dir x c res) (scanDone s acc col)).audits.get acc = some y := PerAcc.get_set_self _ _ _
  have hsettle (w : State) : w.settleAudit acc x c = w.abortAudit acc := if_pos habort
  have hunmark : (passed acc y (dirScanned s.dir x c res) (scanDone s acc col)).auditAborted y.first y.last
      = passed acc y (unmarked (dirScanned s.dir x c res) x) (scanDone s acc col) := by
    rw [hfirst, hlast, auditAborted_eq]
    rfl
  rw [hsettle]
  unfold State.abortAudit
  rw [hget]
  dsimp only
  rw [hunmark]
  exact endAudit_eq .abort hflight _ _

theorem audit_passes_last (hcalm : calm s) (h : directoryLaw s) (hx : s.audits.get acc = some x) (hrunning : x.state ≠ .done)
    (habort : x.abortPending = false) (hlast : c = x.last) :
    lasting ((scanDone s acc col).scanned acc (.cell c) res).commit
      = lasting (noticed (passed acc (endedAudit (auditPast s.dir x c res) .lastCell) (dirScanned s.dir x c res) (scanBase s acc col))
          { kind := .auditDone, subject := .accessor acc }) := by
  obtain ⟨-, -, -, hflight, -⟩ := auditPast_keeps s.dir x c res
  refine audit_ends hcalm ?_
  have hsettle (w : State) : w.settleAudit acc x c = w.endAudit acc .lastCell := by
    unfold State.settleAudit
    rw [if_neg (by rw [habort]; exact Bool.false_ne_true), if_pos hlast]
  rw [scanned_cell h hx hrunning, hsettle]
  exact endAudit_eq .lastCell hflight _ _

/-- A SUSPENDING audit is SUSPENDED. -/
def goesOn (x : Audit) : Audit := if x.state = .suspending then { x with state := .suspended } else x

theorem audit_goes_on (h : directoryLaw s) (hx : s.audits.get acc = some x) (hrunning : x.state ≠ .done)
    (habort : x.abortPending = false) (hlast : c ≠ x.last) :
    (scanDone s acc col).scanned acc (.cell c) res
      = passed acc (goesOn (auditPast s.dir x c res)) (dirScanned s.dir x c res) (scanDone s acc col) := by
  obtain ⟨y, hy⟩ : ∃ y, y = auditPast s.dir x c res := ⟨_, rfl⟩
  have hget : (passed acc y (dirScanned s.dir x c res) (scanDone s acc col)).audits.get acc = some y := PerAcc.get_set_self _ _ _
  have hsettle (w : State) : w.settleAudit acc x c = w.updAudit acc goesOn := by
    unfold State.settleAudit
    rw [if_neg (by rw [habort]; exact Bool.false_ne_true), if_neg hlast]
    rfl
  rw [scanned_cell h hx hrunning, hsettle, ← hy]
  unfold State.updAudit
  rw [hget]
  exact passed_passed _ _ _

theorem lasting_goes_on (s : State) (x : Audit) (d : List Entry) :
    lasting (passed acc (goesOn (auditPast s.dir x c res)) d (scanDone s acc col)) = lasting (passed acc (auditPast s.dir x c res) d (scanBase s acc col)) := by
  obtain ⟨y, hy⟩ : ∃ y, y = auditPast s.dir x c res := ⟨_, rfl⟩
  rw [← hy]
  have hscan : lasting (passed acc (goesOn y) d (scanDone s acc col)) = lasting (passed acc (goesOn y) d (scanBase s acc col)) :=
    lasting_scan (F := passed acc (goesOn y) d) fun _ _ => by cases acc <;> rfl
  have hsame : lastingAudit (goesOn y) = lastingAudit y := by
    unfold goesOn
    split
    next hsuspending =>
      unfold lastingAudit
      simp [hsuspending]
    next => rfl
  exact hscan.trans (lasting_setAudit hsame { scanBase s acc col with dir := d })

end AuditScans

end Sys2Proof
end

section
/-! PROOFS. The audit whose scan has completed goes on (R126, R129): a SUSPENDED one is SCANNING again when its accessor is idle with no
yielding leg. -/

namespace Sys2Proof

namespace AuditGoesOn

open Machine Safety Upkeep Settling RailMoves AuditWork

variable {s t u v : State} {acc who : Acc} {parking : Prop} {x y : Audit}

/-! ## SCANNING stays SCANNING -/

/-- The accessor's audit is SCANNING. -/
def Scanning (u : State) (acc : Acc) : Prop := ∃ y, u.audits.get acc = some y ∧ y.state = .scanning

theorem scanning_step (hu : Scanning u acc) (h : Step parking u v) : Scanning v acc := by
  obtain ⟨y, hy, hscanning⟩ := hu
  rcases audits_step (acc := acc) h with hsame | ⟨z, hz, hsuspended, -⟩ | ⟨z, c, hz, hstate, -, -, hv, -⟩
  · exact ⟨y, hsame.trans hy, hscanning⟩
  · cases hy.symm.trans hz
    exact nomatch hscanning.symm.trans hsuspended
  · exact ⟨_, hv, hstate⟩

theorem scanning_moves (hs : Scanning s acc) (h : Steps parking s t) : Scanning t acc := h.keeps (fun _ _ => scanning_step) hs

/-! ## An accessor that is not idle and has no trip -/

/-- An accessor without a trip is not idle, so it finds no work. -/
structure Apart (u : State) (acc : Acc) : Prop where
  busy : (u.acc acc).state ≠ .idle
  tripless : (u.acc acc).trip = none

theorem apart_of_accPhase (h : accPhase v acc = accPhase u acc) (hu : Apart u acc) : Apart v acc := by
  refine ⟨fun hidle => hu.busy (idle_of_accPhase h.symm hidle), ?_⟩
  have htrip : (v.acc acc).trip.map (fun t => (t.legs, t.stops.isEmpty, t.window, t.runOut))
      = (u.acc acc).trip.map (fun t => (t.legs, t.stops.isEmpty, t.window, t.runOut)) := congrArg Prod.snd h
  rw [hu.tripless] at htrip
  exact Option.map_eq_none_iff.mp htrip

theorem apart_tripFill (hu : Apart u acc) (who : Acc) : Apart (u.tripFill who) acc := by
  unfold State.tripFill
  refine List.foldlRecOn (motive := fun v : State => Apart v acc) _ _ hu ?_
  intro v hv slot _
  split
  · obtain ⟨w, hw⟩ : ∃ w, w = ((v.setQueue who ((v.rail.queues.get who).filter (fun y => y ≠ slot))).updLeg slot
      (fun l => { l with state := .assigned, front := false })).updAcc who
        (fun y => { y with trip := y.trip.map (fun t => { t with legs := t.legs ++ [slot] }) }) := ⟨_, rfl⟩
    have hwapart : Apart w acc := by
      by_cases hwho : acc = who
      · subst hwho
        have hacc : w.acc acc = { v.acc acc with trip := (v.acc acc).trip.map (fun t => { t with legs := t.legs ++ [slot] }) } := by
          rw [hw, State.acc_updAcc_self]
          rfl
        exact ⟨by rw [hacc]; exact hv.busy, by rw [hacc]; exact Option.map_eq_none_iff.mpr hv.tripless⟩
      · have hacc : w.acc acc = v.acc acc := by
          rw [hw, State.acc_updAcc_other _ _ _ _ hwho]
          rfl
        exact ⟨by rw [hacc]; exact hv.busy, by rw [hacc]; exact hv.tripless⟩
    unfold State.tripJoin
    dsimp only
    rw [← hw]
    cases hreserve : State.reserveFor w (.record slot) with
    | none => exact hwapart
    | some t => exact apart_of_accPhase (accPhase_reserveFor hreserve acc) hwapart
  · exact hv

theorem apart_step (hu : Apart u acc) (h : Step parking u v) : Apart v acc := by
  have hfree {who : Acc} (hidle : (u.acc who).state = .idle) : who ≠ acc := fun heq => hu.busy (heq ▸ hidle)
  cases h with
  | prunes who => exact apart_of_accPhase (accPhase_pruneZone u who acc) hu
  | ends who =>
    by_cases hwho : who = acc
    · subst hwho
      have hsame : u.endTrip who = u := by
        unfold State.endTrip
        dsimp only
        exact if_neg (by simp [hu.tripless])
      rw [hsame]
      exact hu
    · refine apart_of_accPhase ?_ hu
      unfold State.endTrip
      dsimp only
      split
      · exact (accPhase_idleOrPark _ who acc hwho).trans (accPhase_updAcc u who acc _ fun heq => absurd heq hwho)
      · rfl
  | grants => exact apart_of_accPhase (accPhase_zoneGrant u acc) hu
  | brings who => exact apart_of_accPhase (accPhase_bringStop u who acc) hu
  | sends who => exact apart_of_accPhase (accPhase_sendNext u who acc) hu
  | resumes who => exact apart_of_accPhase (accPhase_auditResume u who acc) hu
  | takes who q rest hcan hreqs =>
    have hphase : accPhase (scanBegun u who q rest) acc = accPhase u acc := accPhase_updAcc _ who acc
      (fun x => { x with scan := some (.station q.pos q.kind false), todo := some .scan }) fun _ => rfl
    exact apart_of_accPhase hphase hu
  | scans who x c hfree hnone hx hscanning hcursor =>
    have hphase : accPhase (cellBegun u who c) acc = accPhase u acc := accPhase_updAcc _ who acc
      (fun x => { x with scan := some (.cell c), todo := some .scan }) fun _ => rfl
    exact apart_of_accPhase hphase hu
  | opens who hidle hany =>
    exact apart_of_accPhase (accPhase_updAcc u who acc _ fun heq => absurd heq (hfree (RailWork.of_free hidle).1)) hu
  | fills who hgather => exact apart_tripFill hu who
  | starts who hdue =>
    refine apart_of_accPhase (accPhase_updAcc u who acc _ fun heq => ?_) hu
    subst heq
    simp [State.startDue, hu.tripless] at hdue
  | parks who hidle hscan horder htodo hmiddle hpark => exact apart_of_accPhase (accPhase_idleOrPark u who acc (hfree hidle)) hu

/-- A SUSPENDED audit of an accessor that finds no work. -/
structure HeldUp (u : State) (acc : Acc) (y : Audit) : Prop where
  audit : u.audits.get acc = some y
  suspended : y.state = .suspended
  idles : u.rail.quiesce = true ∨ Apart u acc

theorem heldUp_step (hu : HeldUp u acc y) (h : Step parking u v) : HeldUp v acc y := by
  have hbusy : u.free acc ≠ true := fun hfree => by
    rcases hu.idles with hquiesce | hapart
    · simp [State.free, hquiesce] at hfree
    · exact hapart.busy (RailWork.of_free hfree).1
  refine ⟨?_, hu.suspended, hu.idles.imp (fun hq => (quiesce_of_lasting (lasting_move h)).trans hq) fun ha => apart_step ha h⟩
  rcases audits_step (acc := acc) h with hsame | ⟨z, -, -, hfree, -⟩ | ⟨z, c, -, -, -, hfree, -⟩
  · exact hsame.trans hu.audit
  · exact absurd hfree hbusy
  · exact absurd hfree hbusy

theorem heldUp_moves (hs : HeldUp s acc y) (h : Steps parking s t) : HeldUp t acc y := h.keeps (fun _ _ => heldUp_step) hs

/-! ## An audit that resumes (R129) -/

/-- A SUSPENDED audit of an idle accessor with no yielding leg. -/
structure Rests (u : State) (acc : Acc) (y : Audit) : Prop where
  audit : u.audits.get acc = some y
  suspended : y.state = .suspended
  idle : (u.acc acc).state = .idle
  quiesce : u.rail.quiesce = false
  unyielding : u.hasYielding acc y.yieldClass = false

theorem rests_step (hu : Rests u acc y) (h : Step False u v) : Rests v acc y ∨ Scanning v acc := by
  have hlast := lasting_move h
  have hany : u.anyEligible acc = false := notEligible hu.audit (by rw [hu.suspended]; exact AuditState.noConfusion) hu.unyielding
  rcases audits_step (acc := acc) h with hsame | ⟨z, -, -, -, -, hv⟩ | ⟨z, c, hz, hscanning, -⟩
  · exact .inl ⟨hsame.trans hu.audit, hu.suspended, idle_step h hany hu.idle, (quiesce_of_lasting hlast).trans hu.quiesce,
      hasYielding_back hlast (queue_move h) hu.unyielding⟩
  · exact .inr ⟨_, hv, rfl⟩
  · cases hu.audit.symm.trans hz
    exact nomatch hu.suspended.symm.trans hscanning

theorem rests_moves (hs : Rests s acc y) (h : Steps False s t) : Rests t acc y ∨ Scanning t acc := by
  refine h.keeps (P := fun u => Rests u acc y ∨ Scanning u acc) (fun u v hu hmove => ?_) (.inl hs)
  rcases hu with hu | hu
  · exact rests_step hu hmove
  · exact .inr (scanning_step hu hmove)

theorem restOf_orderSend (u : State) (who acc : Acc) : restOf ((u.orderSend who).acc acc) = restOf (u.acc acc) :=
  (restOf_sendNext _ who acc).trans (restOf_bringStop u who acc)

theorem restOf_ordered (u : State) (acc : Acc) : restOf ((ordered u).acc acc) = restOf (u.acc acc) := by
  unfold ordered granted pruned
  rw [restOf_orderSend, restOf_orderSend, restOf_zoneGrant, restOf_endTrip, restOf_endTrip, restOf_pruneZone, restOf_pruneZone]

/-- An accessor that looks for work gives the other none. -/
theorem restOf_look_other (u : State) (h : acc ≠ who) : restOf ((u.look who).acc acc) = restOf (u.acc acc) := by
  have hother (w : State) (f : AccRec → AccRec) : restOf ((w.updAcc who f).acc acc) = restOf (w.acc acc) := by
    rw [State.acc_updAcc_other _ _ _ _ h]
  have hresume : restOf ((u.auditResume who).acc acc) = restOf (u.acc acc) := by
    unfold State.auditResume
    split
    · split <;> rfl
    · rfl
  have hgather (w : State) : restOf ((w.gather who).acc acc) = restOf (w.acc acc) := by
    unfold State.gather
    split
    · exact restOf_tripFill w who acc
    · rfl
  have hstart (w : State) : restOf ((w.startIfDue who).acc acc) = restOf (w.acc acc) := by
    unfold State.startIfDue
    split
    · exact (restOf_orderSend _ who acc).trans (hother w _)
    · rfl
  have hstation (w : State) : restOf ((w.stationScanTaken who).acc acc) = restOf (w.acc acc) := by
    unfold State.stationScanTaken
    split
    · split
      · rfl
      · exact (restOf_orderSend _ who acc).trans (hother _ _)
    · rfl
  have hopen (w : State) : restOf ((w.tripOpen who).acc acc) = restOf (w.acc acc) := by
    unfold State.tripOpen
    split
    · exact (restOf_tripFill _ who acc).trans (hother _ _)
    · rfl
  have hscan (w : State) : restOf ((w.auditScanSend who).acc acc) = restOf (w.acc acc) := by
    unfold State.auditScanSend
    split
    · split
      · split
        · exact (restOf_orderSend _ who acc).trans (hother _ _)
        · rfl
      · rfl
    · rfl
  rw [look_eq, lookOn, hstart, hgather]
  refine Eq.trans ?_ hresume
  split
  · exact hstation _
  · split
    · exact hopen _
    · exact hscan _

/-- The accessor looks for work, its audit first. -/
theorem looks_commit (hcalm : calm u) (acc : Acc) :
    ∃ a, Steps False u a ∧ restOf (a.acc acc) = restOf (u.acc acc) ∧ Moves (a.auditResume acc) u.commit := by
  have hafter : Moves u.railSettle u.commit := by
    rw [commit_of_calm hcalm]
    exact moves_railSettle _
  cases acc with
  | a => exact ⟨ordered u, moves_ordered u, restOf_ordered u .a, (((moves_lookOn _ .a).trans (moves_look _ .b)).trans
      ((moves_idlePark _ .a).trans (moves_idlePark _ .b))).trans hafter⟩
  | b => exact ⟨(ordered u).look .a, (moves_ordered u).trans (moves_look _ .a),
      (restOf_look_other _ (by decide)).trans (restOf_ordered u .b),
      ((moves_lookOn _ .b).trans ((moves_idlePark _ .a).trans (moves_idlePark _ .b))).trans hafter⟩

theorem resumes_commit (hcalm : calm u) (hu : Rests u acc y) (hscan : (u.acc acc).scan = none) : Scanning u.commit acc := by
  obtain ⟨a, hbefore, hrest, hafter⟩ := looks_commit hcalm acc
  refine scanning_moves ?_ hafter
  rcases rests_moves hu hbefore with ha | ha
  · have hfree : a.free acc = true := by
      have hascan : (a.acc acc).scan = none := (scan_of_restOf hrest).trans hscan
      simp [State.free, ha.idle, hascan, ha.quiesce]
    have hresumed : a.auditResume acc = a.updAudit acc (fun x => { x with state := .scanning }) := by
      unfold State.auditResume
      rw [ha.audit]
      exact if_pos (by simp [ha.suspended, hfree, ha.unyielding])
    rw [hresumed]
    refine ⟨{ y with state := .scanning }, ?_, rfl⟩
    rw [audits_updAudit_self, ha.audit]
    rfl
  · exact scanning_step ha (.resumes (parking := True) a acc)

end AuditGoesOn

end Sys2Proof
end

section
/-! PROOFS. A SCAN completion of an audit, as R126 and R129 give it: the state the audit goes on in. -/

namespace Sys2Proof

namespace AuditResults

open Machine Safety Upkeep Settling RailMoves AuditWork AuditCommands AuditScans AuditGoesOn ScanResults PollAnswers

variable {s : State} {acc : Acc} {col : Nat} {c : Cell} {res : ScanResult} {x : Audit} {cls : Nat}

theorem acc_scanDone (s : State) (acc : Acc) (col : Nat) :
    (scanDone s acc col).acc acc = { s.acc acc with order := none, column := col, scan := none, faults := 0 } := by
  unfold scanDone
  rw [State.acc_updAcc_self, acc_orderEnds]
  rfl

theorem hasYielding_scanDone (s : State) (acc : Acc) (col : Nat) (who : Acc) (cls : Nat) :
    (scanDone s acc col).hasYielding who cls = s.hasYielding who cls := by
  obtain ⟨accs, z, h⟩ := scanDone_frame s acc col
  rw [h]
  rfl

theorem quiesce_scanDone (s : State) (acc : Acc) (col : Nat) : (scanDone s acc col).rail.quiesce = s.rail.quiesce := by
  obtain ⟨accs, z, h⟩ := scanDone_frame s acc col
  rw [h]

/-- The state in which the audit goes on. -/
def auditLeft (s : State) (acc : Acc) (col : Nat) (x : Audit) (c : Cell) (res : ScanResult) : State :=
  passed acc (goesOn (auditPast s.dir x c res)) (dirScanned s.dir x c res) (scanDone s acc col)

theorem audit_auditLeft : (auditLeft s acc col x c res).audits.get acc = some (goesOn (auditPast s.dir x c res)) := PerAcc.get_set_self _ _ _

theorem calm_auditLeft (h : calm s) : calm (auditLeft s acc col x c res) := scanDone_calm h

/-- A SCANNING audit goes on SCANNING. -/
theorem scanning_after (hcalm : calm s) (hscanning : x.state = .scanning) :
    ((auditLeft s acc col x c res).commit.audits.get acc).map (·.state) = some .scanning := by
  obtain ⟨hstate, -⟩ := auditPast_keeps s.dir x c res
  have hgoes : (goesOn (auditPast s.dir x c res)).state = .scanning := by
    unfold goesOn
    rw [if_neg (by rw [hstate, hscanning]; exact AuditState.noConfusion)]
    exact hstate.trans hscanning
  obtain ⟨y, hy, hyscanning⟩ := scanning_moves (acc := acc) ⟨_, audit_auditLeft, hgoes⟩ (moves_commit (calm_auditLeft (acc := acc) (col := col)
    (x := x) (c := c) (res := res) hcalm))
  rw [hy]
  exact congrArg some hyscanning

/-- A SUSPENDING audit is SUSPENDED, or SCANNING again. -/
theorem suspending_after (hcalm : calm s) (hsuspending : x.state = .suspending) (hfound : (s.acc acc).state = .idle ∨ (s.acc acc).trip = none) :
    ((auditLeft s acc col x c res).commit.audits.get acc).map (·.state) = some (
      if (s.acc acc).state = .idle ∧ s.rail.quiesce = false ∧ s.hasYielding acc x.yieldClass = false then .scanning else .suspended) := by
  obtain ⟨hstate, -, -, -, hclass⟩ := auditPast_keeps s.dir x c res
  obtain ⟨y, hydef⟩ : ∃ y, y = goesOn (auditPast s.dir x c res) := ⟨_, rfl⟩
  have hy : y.state = .suspended ∧ y.yieldClass = x.yieldClass := by
    rw [hydef, goesOn, if_pos (hstate.trans hsuspending)]
    exact ⟨rfl, hclass⟩
  obtain ⟨u, hu⟩ : ∃ u, u = auditLeft s acc col x c res := ⟨_, rfl⟩
  have hucalm : calm u := hu ▸ calm_auditLeft hcalm
  have haudit : u.audits.get acc = some y := by
    rw [hu, hydef]
    exact audit_auditLeft
  have hacc : u.acc acc = { s.acc acc with order := none, column := col, scan := none, faults := 0 } := by
    rw [hu]
    exact acc_scanDone s acc col
  have hquiesce : u.rail.quiesce = s.rail.quiesce := by
    rw [hu]
    exact quiesce_scanDone s acc col
  have hyields (cls : Nat) : u.hasYielding acc cls = s.hasYielding acc cls := by
    rw [hu]
    exact hasYielding_scanDone s acc col acc cls
  rw [← hu]
  split
  next hgo =>
    obtain ⟨hidle, hq, hnone⟩ := hgo
    obtain ⟨z, hz, hzscanning⟩ := resumes_commit (acc := acc) hucalm ⟨haudit, hy.1, by rw [hacc]; exact hidle, hquiesce.trans hq,
      by rw [hyields, hy.2]; exact hnone⟩ (by rw [hacc])
    rw [hz]
    exact congrArg some hzscanning
  next hstop =>
    by_cases hheld : s.rail.quiesce = true ∨ (s.acc acc).state ≠ .idle
    · have hup : HeldUp u acc y := by
        refine ⟨haudit, hy.1, hheld.imp (fun hq => hquiesce.trans hq) fun hbusy => ⟨by rw [hacc]; exact hbusy, ?_⟩⟩
        rw [hacc]
        exact hfound.resolve_left hbusy
      have hafter := heldUp_moves hup (moves_commit hucalm)
      rw [hafter.audit]
      exact congrArg some hafter.suspended
    · obtain ⟨hnoq, hidle⟩ := not_or.mp hheld
      have hyielding : s.hasYielding acc x.yieldClass = true := by
        by_contra hno
        exact hstop ⟨not_not.mp hidle, Bool.eq_false_iff.mpr hnoq, Bool.eq_false_iff.mpr hno⟩
      rw [← hyields] at hyielding
      obtain ⟨m, hm, l, hl, hcls⟩ := hasYielding_iff.mp hyielding
      have hwaits : Waits u acc y m := ⟨haudit, hy.1, ⟨l, hl, by rw [hy.2]; exact hcls⟩, .inl hm⟩
      have hafter := waits_moves hwaits (moves_commit hucalm)
      rw [hafter.audit]
      exact congrArg some hafter.suspended

end AuditResults

end Sys2Proof
end

section
/-! PROOFS. A RECOVER completion: the failed order is sent again, or the accessor's holders are empty and it is IDLE or sent to its own side
(R108, R114). -/

namespace Sys2Proof

namespace Recoveries

open Machine Safety Upkeep Settling RailMoves AuditWork PickCommand PollAnswers ParkAside

variable {s t u v : State} {acc who : Acc} {col lim : Nat} {o : Order} {parking : Prop}

/-! ## The order is over (R103, R110) -/

/-- The state with the lock given up by an accessor outside the Middle segment. -/
def lockLeft (s : State) (acc : Acc) (col : Nat) : State :=
  { s with rail := { s.rail with zone := if (80 ≤ col ∧ col ≤ 119) ∨ s.rail.zone ≠ some acc then s.rail.zone else none } }

theorem lockLeft_kept (h : (80 ≤ col ∧ col ≤ 119) ∨ s.rail.zone ≠ some acc) : lockLeft s acc col = s :=
  congrArg (fun z => ({ s with rail := { s.rail with zone := z } } : State)) (if_pos h)

theorem lockLeft_given (h : ¬((80 ≤ col ∧ col ≤ 119) ∨ s.rail.zone ≠ some acc)) :
    lockLeft s acc col = { s with rail := { s.rail with zone := none } } :=
  congrArg (fun z => ({ s with rail := { s.rail with zone := z } } : State)) (if_neg h)

theorem orderEnds_eq (s : State) (acc : Acc) (col : Nat) : s.orderEnds acc col = (lockLeft s acc col).updAcc acc (ended col) := by
  have hmiddle := AuditCommands.inMiddle_iff col
  by_cases hin : inMiddle col = true
  · rw [lockLeft_kept (.inl (hmiddle.mp hin))]
    exact if_pos hin
  · have hout : s.orderEnds acc col = (s.updAcc acc (ended col)).releaseZone acc := if_neg hin
    rw [hout]
    by_cases hzone : s.rail.zone = some acc
    · rw [lockLeft_given (not_or.mpr ⟨fun h => hin (hmiddle.mpr h), not_not.mpr hzone⟩)]
      exact if_pos hzone
    · rw [lockLeft_kept (.inr hzone)]
      exact if_neg hzone

theorem updAcc_at {f g : AccRec → AccRec} (h : f (s.acc acc) = g (s.acc acc)) : s.updAcc acc f = s.updAcc acc g :=
  congrArg (fun x => ({ s with rail := { s.rail with accs := s.rail.accs.set acc x } } : State)) h

theorem exec_recover (horder : (s.acc acc).order = some o) (hop : o.op = .recover) :
    exec (.recoverCompletion acc col) s = .next
      (if (s.acc acc).faults = 1 then (s.start.orderEnds acc col).updAcc acc AccRec.retry else (s.start.orderEnds acc col).recovered acc).commit := by
  obtain ⟨op, ocol, oplace, oholder, otimer⟩ := o
  obtain rfl : op = .recover := hop
  have h : s.order? acc = some _ := horder
  have hfaults : ((s.start.orderEnds acc col).acc acc).faults = (s.acc acc).faults := by
    rw [acc_orderEnds]
    rfl
  show execRecoverCompletion acc col s = _
  unfold execRecoverCompletion
  simp only [h, hfaults]

/-- After a first fault (R114). -/
theorem retried {f : Failed} (hfailed : (s.acc acc).failed = some f) :
    (s.start.orderEnds acc col).updAcc acc AccRec.retry = (lockLeft s.start acc col).updAcc acc (fun x => { x with
      order := none, column := col, failed := none, state := f.was,
      todo := match f.op with
        | .scan => some .scan
        | .park => some .park
        | _ => none }) := by
  rw [orderEnds_eq, updAcc_updAcc]
  refine updAcc_at ?_
  have hfailed' : (ended col (s.acc acc)).failed = some f := hfailed
  show (ended col (s.acc acc)).retry = _
  unfold AccRec.retry
  rw [hfailed']
  rfl

/-! ## The holders are empty (R114) -/

/-- An accessor with empty holders and no faults. -/
def emptied (col : Nat) (x : AccRec) : AccRec :=
  { x with order := none, column := col, holders := Vector.replicate 3 .empty, faults := 0, failed := none }

theorem recovered_eq (s : State) (acc : Acc) (col : Nat) :
    (s.orderEnds acc col).recovered acc = ((lockLeft s acc col).updAcc acc (emptied col)).idleOrPark acc := by
  unfold State.recovered
  rw [orderEnds_eq, updAcc_updAcc]
  rfl

theorem recovered_middle (h : inMiddle col = true) : (s.orderEnds acc col).recovered acc
    = (lockLeft s acc col).updAcc acc (fun x => { emptied col x with state := .running, todo := some .park }) := by
  have hcolumn : inMiddle (((lockLeft s acc col).updAcc acc (emptied col)).acc acc).column = true := by
    rw [State.acc_updAcc_self]
    exact h
  rw [recovered_eq]
  unfold State.idleOrPark
  rw [if_pos hcolumn, updAcc_updAcc]

theorem recovered_outside (h : inMiddle col = false) : (s.orderEnds acc col).recovered acc
    = ((lockLeft s acc col).updAcc acc (fun x => { emptied col x with state := .idle, faults := 0 })).releaseZone acc := by
  have hcolumn : inMiddle (((lockLeft s acc col).updAcc acc (emptied col)).acc acc).column ≠ true := by
    rw [State.acc_updAcc_self]
    exact Bool.eq_false_iff.mp h
  rw [recovered_eq]
  unfold State.idleOrPark
  rw [if_neg hcolumn, updAcc_updAcc]

theorem lasting_lockLeft (s : State) (acc : Acc) (col : Nat) : lasting (lockLeft s acc col) = lasting s := rfl

theorem lasting_recovered (s : State) (acc : Acc) (col : Nat) : lasting ((s.orderEnds acc col).recovered acc) = lasting (s.updAcc acc (fun x =>
    { x with state := .idle, column := col, holders := Vector.replicate 3 .empty, faults := 0, failed := none })) := by
  cases h : inMiddle col with
  | true =>
    rw [recovered_middle h]
    exact lasting_updAcc_congr (lasting_lockLeft s acc col) (by rfl)
  | false =>
    rw [recovered_outside h, lasting_releaseZone]
    exact lasting_updAcc_congr (lasting_lockLeft s acc col) (by rfl)

end Recoveries

end Sys2Proof
end

section
/-! PROOFS. An idle accessor with nothing to do stays as it is while the rail scheduler works, and never takes the zone lock (R98, R110). -/

namespace Sys2Proof

namespace Standstill

open Machine Safety Upkeep Settling RailMoves AuditWork ParkAside

variable {s t u v : State} {acc who : Acc} {parking : Prop}

/-! ## The lock does not come to an accessor of itself (R110) -/

/-- A step gives an accessor neither the lock nor a place in its wait list. -/
structure Passes (u v : State) (acc : Acc) : Prop where
  zone : v.rail.zone = some acc → u.rail.zone = some acc
  wait : acc ∈ v.rail.zoneWait → acc ∈ u.rail.zoneWait

theorem passes_same (hzone : v.rail.zone = u.rail.zone) (hwait : v.rail.zoneWait = u.rail.zoneWait) : Passes u v acc :=
  ⟨fun h => hzone ▸ h, fun h => hwait ▸ h⟩

theorem passes_zonePart (h : zonePart v = zonePart u) : Passes u v acc :=
  passes_same (congrArg (fun p => p.1) h :) (congrArg (fun p => p.2.1) h :)

theorem Passes.trans {w : State} (h : Passes u v acc) (g : Passes v w acc) : Passes u w acc :=
  ⟨fun hz => h.zone (g.zone hz), fun hw => h.wait (g.wait hw)⟩

theorem passes_askZone (u : State) (hne : acc ≠ who) : Passes u (u.askZone who) acc := by
  unfold State.askZone
  split
  · exact passes_same rfl rfl
  · split
    · exact ⟨fun h => absurd (Option.some.inj h).symm hne, fun h => (List.mem_filter.mp h).1⟩
    · dsimp only
      refine Passes.trans (v := if u.rail.zoneWait.contains who then u else { u with rail := { u.rail with zoneWait := u.rail.zoneWait ++ [who] } })
        ?_ (passes_same rfl rfl)
      split
      · exact passes_same rfl rfl
      · exact ⟨id, fun h => (List.mem_append.mp h).resolve_right fun hin => hne (List.mem_singleton.mp hin)⟩

theorem passes_sendOrder (u : State) (who : Acc) (n : NextOrder) : Passes u (u.sendOrder who n) acc := by
  rw [OrderGates.sendOrder_eq]
  refine Passes.trans (v := OrderGates.takesInHand u n.op) ?_ (passes_same rfl rfl)
  exact passes_same (congrArg Rail.zone (OrderGates.takesInHand_rail u n.op)) (congrArg Rail.zoneWait (OrderGates.takesInHand_rail u n.op))

theorem passes_sendNext (u : State) (hne : acc ≠ who) : Passes u (u.sendNext who) acc := by
  have hpass (v : State) (n : NextOrder) : Passes v (v.passGates who n) acc := by
    unfold State.passGates
    split
    · dsimp only
      split
      · exact (passes_same (u := v) (v := v.updAcc who AccRec.unwait) rfl rfl).trans (passes_sendOrder _ who n)
      · exact passes_same rfl rfl
    · exact passes_same rfl rfl
  unfold State.sendNext
  split
  · exact passes_same rfl rfl
  · unfold State.tryOrder
    split
    · exact (passes_askZone u hne).trans (hpass _ _)
    · exact hpass u _

theorem passes_idleOrPark (u : State) (who : Acc) : Passes u (u.idleOrPark who) acc := by
  unfold State.idleOrPark
  split
  · exact passes_same rfl rfl
  · unfold State.releaseZone
    split
    · exact ⟨fun h => (nomatch h), id⟩
    · exact passes_same rfl rfl

/-! ## An accessor at rest -/

/-- An idle accessor outside the Middle segment, without the lock, with nothing to send and nothing to look for. -/
structure AtRest (u : State) (acc : Acc) : Prop where
  idle : (u.acc acc).state = .idle
  order : (u.acc acc).order = none
  todo : (u.acc acc).todo = none
  outside : inMiddle (u.acc acc).column = false
  queue : u.rail.queues.get acc = []
  audits : ∀ x, u.audits.get acc = some x → x.state = .done
  requests : u.station.latchOpen = true ∨ u.rail.scanReqs = []
  zone : u.rail.zone ≠ some acc

theorem AtRest.nextOrder (hu : AtRest u acc) : u.nextOrder acc = none := by
  unfold State.nextOrder
  simp [hu.order, hu.todo, hu.idle]

/-- What a step must leave of the accessor, and of the lock. -/
theorem rest_kept (hu : AtRest u acc) (h : Step parking u v) (hcore : ParkAside.core (v.acc acc) = ParkAside.core (u.acc acc))
    (hrest : restOf (v.acc acc) = restOf (u.acc acc)) (hpasses : Passes u v acc) : AtRest v acc := by
  have hlast := lasting_move h
  refine ⟨(congrArg (fun p => p.1) hcore :).trans hu.idle, (congrArg (fun p => p.2.1) hcore :).trans hu.order,
    (congrArg (fun p => p.2.2) hcore :).trans hu.todo, (congrArg (fun x : AccRec => inMiddle x.column) hrest :).trans hu.outside,
    List.eq_nil_iff_forall_not_mem.mpr fun m hm => ?_, fun x hx => ?_, hu.requests.imp (fun hl => ?_) (scanReqs_step h),
    fun hz => hu.zone (hpasses.zone hz)⟩
  · have hin := queue_move h m hm
    rw [hu.queue] at hin
    cases hin
  · rcases audits_step (acc := acc) h with hsame | ⟨z, hz, hsuspended, -⟩ | ⟨z, c, hz, hscanning, -⟩
    · exact hu.audits x (hsame ▸ hx)
    · exact nomatch hsuspended.symm.trans (hu.audits z hz)
    · exact nomatch hscanning.symm.trans (hu.audits z hz)
  · have hkeeps : v.station.latchOpen = u.station.latchOpen := (congrArg (fun w : State => w.station.latchOpen) hlast :)
    exact hkeeps.trans hl

theorem unwait_of_idle {x : AccRec} (h : x.state = .idle) : x.unwait = x := if_neg (by rw [h]; exact AccState.noConfusion)

theorem rest_prunes (hu : AtRest u acc) (who : Acc) : AtRest (u.pruneZone who) acc ∧ Passes u (u.pruneZone who) acc
    ∧ (who = acc → acc ∉ (u.pruneZone who).rail.zoneWait) := by
  have hpasses : Passes u (u.pruneZone who) acc := by
    unfold State.pruneZone
    split
    · exact ⟨id, fun h => (List.mem_filter.mp h).1⟩
    · exact passes_same rfl rfl
  have hcore : ParkAside.core ((u.pruneZone who).acc acc) = ParkAside.core (u.acc acc) := by
    unfold State.pruneZone
    split
    · by_cases hwho : acc = who
      · subst hwho
        rw [State.acc_updAcc_self]
        exact congrArg ParkAside.core (unwait_of_idle hu.idle)
      · rw [State.acc_updAcc_other _ _ _ _ hwho]
        rfl
    · rfl
  refine ⟨rest_kept (parking := True) hu (.prunes u who) hcore (restOf_pruneZone u who acc) hpasses, hpasses, ?_⟩
  rintro rfl
  unfold State.pruneZone
  split
  · exact fun h => by simpa using (List.mem_filter.mp h).2
  next hdue =>
    intro h
    refine hdue ?_
    rw [hu.nextOrder]
    simpa using h

theorem rest_step (hu : AtRest u acc) (hout : acc ∉ u.rail.zoneWait) (h : Step parking u v) : AtRest v acc ∧ acc ∉ v.rail.zoneWait := by
  have hother {v : State} (hstep : Step parking u v) (haside : Aside u v acc) (hpasses : Passes u v acc) : AtRest v acc ∧ acc ∉ v.rail.zoneWait :=
    ⟨rest_kept hu hstep haside.core haside.rest hpasses, fun hw => hout (hpasses.wait hw)⟩
  have hsame {v : State} (hv : v = u) : AtRest v acc ∧ acc ∉ v.rail.zoneWait := hv ▸ ⟨hu, hout⟩
  have hstep := h
  cases h with
  | prunes who =>
    obtain ⟨hrest, hpasses, -⟩ := rest_prunes hu who
    exact ⟨hrest, fun hw => hout (hpasses.wait hw)⟩
  | ends who =>
    by_cases hwho : acc = who
    · subst hwho
      refine hsame ?_
      unfold State.endTrip
      dsimp only
      exact if_neg (by simp [hu.idle])
    · have haside : Aside u (u.endTrip who) acc ∧ Passes u (u.endTrip who) acc := by
        unfold State.endTrip
        dsimp only
        split
        · exact ⟨(aside_updAcc_other u hwho _).trans (aside_idleOrPark_other _ hwho),
            (passes_same (u := u) (v := u.updAcc who (fun x => { x with trip := none })) rfl rfl).trans (passes_idleOrPark _ who)⟩
        · exact ⟨aside_same rfl rfl rfl rfl, passes_same rfl rfl⟩
      exact hother hstep haside.1 haside.2
  | grants =>
    have hframe : Aside u u.zoneGrant acc ∧ Passes u u.zoneGrant acc := by
      unfold State.zoneGrant
      split
      next => exact ⟨aside_same rfl rfl rfl rfl, passes_same rfl rfl⟩
      next first rest hwait =>
        split
        next hfree =>
          have hne : acc ≠ first := fun heq => hout (by rw [hwait, heq]; exact List.mem_cons_self)
          have hgrant : Aside u { u with rail := { u.rail with zone := some first, zoneWait := rest } } acc :=
            ⟨rfl, rfl, (fun hz => nomatch hz.symm.trans hfree.1), fun hw => absurd hw hout, fun _ h => h⟩
          exact ⟨hgrant.trans (aside_updAcc_other _ hne _), (fun hz => absurd (Option.some.inj hz).symm hne),
            fun hw => by rw [hwait]; exact List.mem_cons_of_mem _ hw⟩
        next => exact ⟨aside_same rfl rfl rfl rfl, passes_same rfl rfl⟩
    exact hother hstep hframe.1 hframe.2
  | brings who =>
    by_cases hwho : acc = who
    · subst hwho
      refine hsame ?_
      unfold State.bringStop
      dsimp only
      exact if_neg (by simp [hu.idle])
    · exact hother hstep (aside_bringStop_other u hwho) (passes_zonePart (zonePart_bringStop u who))
  | sends who =>
    by_cases hwho : acc = who
    · subst hwho
      refine hsame ?_
      unfold State.sendNext
      rw [hu.nextOrder]
    · exact hother hstep (aside_sendNext_other u hwho) (passes_sendNext u hwho)
  | resumes who =>
    have hframe : Aside u (u.auditResume who) acc ∧ Passes u (u.auditResume who) acc := by
      unfold State.auditResume
      split
      · split <;> exact ⟨aside_same rfl rfl rfl rfl, passes_same rfl rfl⟩
      · exact ⟨aside_same rfl rfl rfl rfl, passes_same rfl rfl⟩
    exact hother hstep hframe.1 hframe.2
  | takes who q rest hcan hreqs =>
    rcases hu.requests with hlatch | hnone
    · simp [State.canTakeScan, hlatch] at hcan
    · exact nomatch hnone.symm.trans hreqs
  | scans who x c hfree hany hx hscanning hcursor =>
    have hwho : acc ≠ who := by
      rintro rfl
      exact nomatch hscanning.symm.trans (hu.audits x hx)
    exact hother hstep (aside_same (State.acc_updAcc_other _ _ _ _ hwho) rfl rfl rfl) (passes_same rfl rfl)
  | opens who hfree hany =>
    have hwho : acc ≠ who := by
      rintro rfl
      simp [State.anyEligible, hu.queue] at hany
    exact hother hstep (aside_updAcc_other u hwho _) (passes_same rfl rfl)
  | fills who hgather =>
    have hwho : acc ≠ who := by
      rintro rfl
      exact nomatch hu.idle.symm.trans hgather
    obtain ⟨legs, -, -, hjoins⟩ := tripFill_joins u who
    have hacc : acc = otherAcc who := by cases who <;> cases acc <;> simp_all [otherAcc]
    exact hother hstep (aside_same (hacc ▸ hjoins.other) hjoins.zone hjoins.zoneWait hjoins.sent) (passes_same hjoins.zone hjoins.zoneWait)
  | starts who hdue =>
    have hwho : acc ≠ who := by
      rintro rfl
      exact nomatch hu.idle.symm.trans (Trips.startDue_iff.mp hdue).1
    exact hother hstep (aside_updAcc_other u hwho _) (passes_same rfl rfl)
  | parks who hidle hscan horder htodo hmiddle hpark =>
    have hwho : acc ≠ who := by
      rintro rfl
      exact nomatch hu.outside.symm.trans hmiddle
    exact hother hstep (aside_idleOrPark_other u hwho) (passes_idleOrPark u who)

/-- It rests to the end of the event, and the lock is not its. -/
theorem rest_commit (hcalm : calm u) (hu : AtRest u acc) : AtRest u.commit acc := by
  have hpruned : AtRest (pruned u) acc ∧ acc ∉ (pruned u).rail.zoneWait := by
    obtain ⟨hfirst, -, hgone⟩ := rest_prunes hu .a
    obtain ⟨hsecond, hpasses, hgone'⟩ := rest_prunes hfirst .b
    refine ⟨hsecond, ?_⟩
    cases acc with
    | a => exact fun hw => hgone rfl (hpasses.wait hw)
    | b => exact hgone' rfl
  have hrest : Moves (pruned u) u.commit := by
    rw [commit_of_calm hcalm]
    exact ((moves_pruned_granted u).trans ((moves_granted_ordered u).trans (moves_ordered_settled u))).trans (moves_railSettle _)
  exact (hrest.keeps (P := fun w => AtRest w acc ∧ acc ∉ w.rail.zoneWait) (fun _ _ hw hmove => rest_step hw.1 hw.2 hmove) hpruned).1

end Standstill

end Sys2Proof
end

section
/-! PROOFS. A PARK completion, and the STATUS that an OFFLINE accessor has still to be sent (R103, R108, R119, R189). -/

namespace Sys2Proof

namespace ParkCompletions

open Machine Safety Upkeep Settling RailMoves AuditWork PickCommand PollAnswers ParkAside Standstill

variable {s t u v : State} {acc who : Acc} {col : Nat} {o : Order} {parking : Prop}

/-! ## The PARK is over (R103, R108) -/

theorem exec_park (horder : (s.acc acc).order = some o) (hop : o.op = .park) : exec (.parkCompletion acc col) s = .next
    (((s.start.orderEnds acc col).releaseZone acc).updAcc acc
      (if s.owesStatus acc then fun x => { x with todo := some .status } else AccRec.parked)).commit := by
  obtain ⟨op, ocol, oplace, oholder, otimer⟩ := o
  obtain rfl : op = .park := hop
  have h : s.order? acc = some _ := horder
  show execParkCompletion acc col s = _
  unfold execParkCompletion
  simp only [h]

theorem owesStatus_iff : s.owesStatus acc = true ↔ (s.acc acc).state = .offline ∧ .accessor acc ∈ s.link.poll := by
  unfold State.owesStatus
  rw [Bool.and_eq_true, decide_eq_true_eq, List.contains_iff_mem]

theorem acc_parkedWith (s : State) (acc : Acc) (col : Nat) (f : AccRec → AccRec) :
    ((((s.orderEnds acc col).releaseZone acc).updAcc acc f).acc acc) = f (ended col (s.acc acc)) := by
  rw [State.acc_updAcc_self, acc_releaseZone, acc_orderEnds]

theorem lasting_parkedWith {f g : AccRec → AccRec} (h : lastingAcc (f (ended col (s.acc acc))) = lastingAcc (g (s.acc acc))) :
    lasting (((s.orderEnds acc col).releaseZone acc).updAcc acc f) = lasting (s.updAcc acc g) := by
  have hacc : ((s.orderEnds acc col).releaseZone acc).acc acc = (s.orderEnds acc col).acc acc := acc_releaseZone _ _ _
  rw [lasting_updAcc_congr (f := f) (g := f) (lasting_releaseZone (s.orderEnds acc col) acc) (by rw [hacc])]
  exact lasting_endedWith h

/-! ## A STATUS to be sent (R119, R189) -/

/-- An OFFLINE accessor has a STATUS to be sent or in flight. -/
structure Polled (u : State) (acc : Acc) : Prop where
  offline : (u.acc acc).state = .offline
  next : ((u.acc acc).order = none ∧ (u.acc acc).todo = some .status) ∨ ∃ z, (u.acc acc).order = some z ∧ z.op = .status

theorem polled_core (hu : Polled u acc) (h : ParkAside.core (v.acc acc) = ParkAside.core (u.acc acc)) : Polled v acc := by
  have hstate : (v.acc acc).state = (u.acc acc).state := (congrArg (fun p => p.1) h :)
  have horder : (v.acc acc).order = (u.acc acc).order := (congrArg (fun p => p.2.1) h :)
  have htodo : (v.acc acc).todo = (u.acc acc).todo := (congrArg (fun p => p.2.2) h :)
  refine ⟨hstate.trans hu.offline, ?_⟩
  rw [horder, htodo]
  exact hu.next

theorem unwait_of_offline {x : AccRec} (h : x.state = .offline) : x.unwait = x := if_neg (by rw [h]; exact AccState.noConfusion)

theorem polled_unwait (hu : Polled u acc) (who : Acc) : Polled (u.updAcc who AccRec.unwait) acc := by
  by_cases hwho : acc = who
  · subst hwho
    refine polled_core hu ?_
    rw [State.acc_updAcc_self, unwait_of_offline hu.offline]
  · exact polled_core hu (by rw [State.acc_updAcc_other _ _ _ _ hwho])

theorem polled_askZone (hu : Polled u acc) : Polled (u.askZone acc) acc := by
  have hno : (u.acc acc).state ≠ .running := by rw [hu.offline]; exact AccState.noConfusion
  unfold State.askZone
  split
  · exact hu
  · split
    · exact polled_core (u := u) hu rfl
    · dsimp only
      refine polled_core (u := u) hu ?_
      rw [State.acc_updAcc_self]
      have hsame : (if u.rail.zoneWait.contains acc then u else { u with rail := { u.rail with zoneWait := u.rail.zoneWait ++ [acc] } }).acc acc
          = u.acc acc := by
        split <;> rfl
      rw [hsame, if_neg hno]

theorem acc_sendOrder (u : State) (acc : Acc) (n : NextOrder) :
    (u.sendOrder acc n).acc acc = { u.acc acc with order := some (OrderGates.sentOrder u acc n), todo := none } := by
  have hhand : (OrderGates.takesInHand u n.op).acc acc = u.acc acc :=
    congrArg (fun r : Rail => r.accs.get acc) (OrderGates.takesInHand_rail u n.op)
  have hgiven := State.acc_updAcc_self (OrderGates.takesInHand u n.op) acc
    (fun x => { x with order := some (OrderGates.sentOrder u acc n), todo := none })
  rw [hhand] at hgiven
  rw [OrderGates.sendOrder_eq]
  exact hgiven

theorem polled_sendNext (hu : Polled u acc) : Polled (u.sendNext acc) acc := by
  rcases hu.next with ⟨hnone, htodo⟩ | ⟨z, hz, hop⟩
  · have hnext : u.nextOrder acc = some { op := .status, col := (u.acc acc).column, place := none, needsLock := inMiddle (u.acc acc).column } := by
      unfold State.nextOrder AccRec.todoOrder
      simp only [hnone, htodo, Option.isSome_none, Bool.false_eq_true, if_false]
    have hpass {w : State} (hw : Polled w acc) (n : NextOrder) (hn : n.op = .status) : Polled (w.passGates acc n) acc := by
      unfold State.passGates
      split
      · dsimp only
        have hunwait := polled_unwait hw acc
        split
        · have hsent := acc_sendOrder (w.updAcc acc AccRec.unwait) acc n
          exact ⟨by rw [hsent]; exact hunwait.offline, .inr ⟨_, by rw [hsent], hn⟩⟩
        · exact hunwait
      · exact hw
    rw [OrderGates.sendNext_of_nextOrder hnext]
    unfold State.tryOrder
    split
    · exact hpass (polled_askZone hu) _ rfl
    · exact hpass hu _ rfl
  · have hsame : u.sendNext acc = u := by
      unfold State.sendNext State.nextOrder
      simp only [hz, Option.isSome_some, if_true]
    rw [hsame]
    exact hu

theorem polled_step (hu : Polled u acc) (h : Step parking u v) : Polled v acc := by
  have hne {who : Acc} (hst : (u.acc who).state ≠ .offline) : acc ≠ who := fun heq => hst (heq ▸ hu.offline)
  have hidle {who : Acc} (hst : (u.acc who).state = .idle) : acc ≠ who := hne (by rw [hst]; exact AccState.noConfusion)
  have hgathering {who : Acc} (hst : (u.acc who).state = .gathering) : acc ≠ who := hne (by rw [hst]; exact AccState.noConfusion)
  cases h with
  | prunes who =>
    unfold State.pruneZone
    split
    · exact polled_unwait (u := { u with rail := { u.rail with zoneWait := u.rail.zoneWait.filter (fun x => x ≠ who) } }) ⟨hu.offline, hu.next⟩ who
    · exact hu
  | ends who =>
    unfold State.endTrip
    dsimp only
    split
    next hend =>
      have hwho : acc ≠ who := hne fun hoff => by simp [hoff] at hend
      exact polled_core hu ((aside_updAcc_other u hwho _).trans (aside_idleOrPark_other _ hwho)).core
    next => exact hu
  | grants =>
    unfold State.zoneGrant
    split
    next => exact hu
    next first rest _ =>
      split
      · exact polled_unwait (u := { u with rail := { u.rail with zone := some first, zoneWait := rest } }) ⟨hu.offline, hu.next⟩ first
      · exact hu
  | brings who =>
    by_cases hwho : acc = who
    · subst hwho
      have hsame : u.bringStop acc = u := by
        unfold State.bringStop
        dsimp only
        exact if_neg (by simp [hu.offline])
      rw [hsame]
      exact hu
    · exact polled_core hu (core_bringStop_other u hwho)
  | sends who =>
    by_cases hwho : acc = who
    · exact hwho ▸ polled_sendNext hu
    · exact polled_core hu (aside_sendNext_other u hwho).core
  | resumes who =>
    refine polled_core hu ?_
    unfold State.auditResume
    split
    · split <;> rfl
    · rfl
  | takes who q rest hcan hreqs =>
    have hwho := hidle (RailWork.of_free (RailWork.canTakeScan_free hcan)).1
    exact polled_core hu (congrArg ParkAside.core (State.acc_updAcc_other _ _ _ _ hwho))
  | scans who x c hfree hany hx hscanning hcursor =>
    exact polled_core hu (congrArg ParkAside.core (State.acc_updAcc_other _ _ _ _ (hidle (RailWork.of_free hfree).1)))
  | opens who hfree hany => exact polled_core hu (congrArg ParkAside.core (State.acc_updAcc_other _ _ _ _ (hidle (RailWork.of_free hfree).1)))
  | fills who hgather =>
    have hwho := hgathering hgather
    obtain ⟨legs, -, -, hjoins⟩ := tripFill_joins u who
    have hacc : acc = otherAcc who := by cases who <;> cases acc <;> simp_all [otherAcc]
    exact polled_core hu (congrArg ParkAside.core (hacc ▸ hjoins.other))
  | starts who hdue => exact polled_core hu (congrArg ParkAside.core (State.acc_updAcc_other _ _ _ _ (hgathering (Trips.startDue_iff.mp hdue).1)))
  | parks who hstate hscan horder htodo hmiddle hpark => exact polled_core hu (aside_idleOrPark_other u (hidle hstate)).core

theorem polled_commit (hcalm : calm u) (hu : Polled u acc) : Polled u.commit acc :=
  (moves_commit hcalm).keeps (fun _ _ hw hmove => polled_step hw hmove) hu

end ParkCompletions

end Sys2Proof
end

section
/-! PROOFS. SCAN, RECOVER and PARK completions as the obligation states them. -/

namespace Sys2Proof

namespace ScanObligation

open Machine Safety Upkeep Settling Requests RailMoves PickCommand Raising PollAnswers Posting Picking Flows Onward Events Ending Expiry
open ScanResults TakenBack LateScans CollectScans AuditCommands AuditScans AuditResults ParkAside Recoveries Standstill ParkCompletions

variable {s t u v : State} {acc : Acc} {col n k : Nat} {p : Fin 8} {o : Order} {r : Rec} {ser : Serial} {a : Ask} {b c : Console}

theorem askedFor_of_raises (h : Raises b a c k) : askedFor b.queue c.queue a.kind a.template.val a.subject a.fields k :=
  ⟨_, h.queue, rfl, rfl, rfl, rfl, rfl⟩

/-! ## SCAN (R126, R140, R141, R145) -/

theorem missed_once {res : ScanResult} (hcalm : calm s) (horder : (s.acc acc).order = some o) (hop : o.op = .scan)
    (hscan : (s.acc acc).scan = some (.station p .supply false)) (hexpects : s.station.pos[p].state = .expecting n) (hr : s.rec? n = some r)
    (hmiss : ∀ ser, res = .label ser → r.serial ≠ some ser) (hmisses : s.station.pos[p].misses = 0) (hroom : s.console.queue.length < 16) :
    ∃ t k, exec (.scanCompletion acc res) s = .next t
      ∧ askedFor s.console.queue t.console.queue .supply r.template (.slot n)
          { serial := r.serial, drive := none, position := some p, account := some r.account } k
      ∧ lasting { t with console := s.console }
        = lasting ((scanBase s acc o.col).updPos p (fun x => { x with misses := 1, scan := .none, prompt := .up k })) := by
  obtain ⟨c, k, hlast, hraises⟩ := supply_misses_once (acc := acc) (col := o.col) hcalm hexpects hr hmiss hmisses hroom
  refine ⟨_, k, exec_scan horder hop hscan res, ?_, lasting_setConsole s.console hlast⟩
  rw [console_of_lasting hlast]
  exact askedFor_of_raises hraises

theorem late_collected {late : Bool} (hcalm : calm s) (horder : (s.acc acc).order = some o) (hop : o.op = .scan)
    (hscan : (s.acc acc).scan = some (.station p .supply late)) (hlate : late = true ∨ ∀ n, s.station.pos[p].state ≠ .expecting n)
    (hat : s.station.pos[p].state = .empty
      ∨ ∃ ref, s.station.pos[p].state = .reserved ref ∧ ∀ d, s.dstOf ref = some d → ∃ q, d = .station q)
    (hroom : s.console.queue.length < 16) :
    ∃ t k, exec (.scanCompletion acc (.label ser)) s = .next t
      ∧ askedFor s.console.queue t.console.queue .collect 12 (.position p) { serial := some ser, drive := none, position := some p, account := none } k
      ∧ lasting { t with console := s.console } = lasting ((scanBase s acc o.col).updPos p (fun _ =>
          { StationPos.initial with state := .holding ser, flow := some .collect, prompt := .up k }))
      ∧ ∀ ref q, s.station.pos[p].state = .reserved ref → t.dstOf ref = some (.station (some q)) → q ≠ p := by
  obtain ⟨t, c, k, ht, hlast, hraises, haway⟩ := late_unowned (acc := acc) (col := o.col) (ser := ser) hcalm hlate hroom hat
  have hexec := exec_scan horder hop hscan (.label ser)
  rw [ht] at hexec
  refine ⟨t, k, hexec, ?_, lasting_setConsole s.console hlast, haway⟩
  rw [console_of_lasting hlast]
  exact askedFor_of_raises hraises

theorem collect_asked {late : Bool} {res : ScanResult} {subject : PromptSubject} {account : Option (Fin 128)} (hcalm : calm s)
    (horder : (s.acc acc).order = some o) (hop : o.op = .scan) (hscan : (s.acc acc).scan = some (.station p .collect late))
    (hstate : s.station.pos[p].state = .holding ser) (hres : res ≠ .empty) (hflow : s.station.pos[p].flow = some .collect)
    (hroom : s.console.queue.length < 16)
    (hsubject : (collectAsk (s.station.pos[p].owner.bind s.rec?) ser p).subject = subject)
    (haccount : (collectAsk (s.station.pos[p].owner.bind s.rec?) ser p).fields.account = account) :
    ∃ t k, exec (.scanCompletion acc res) s = .next t
      ∧ askedFor s.console.queue t.console.queue .collect 12 subject { serial := some ser, drive := none, position := some p, account := account } k
      ∧ lasting { t with console := s.console } =
          lasting ((scanBase s acc o.col).updPos p (fun x => { x with scan := .none, prompt := .up k })) := by
  obtain ⟨c, k, hlast, hraises⟩ := collect_again (acc := acc) (col := o.col) (late := late) hcalm hstate hflow hres hroom
  refine ⟨_, k, exec_scan horder hop hscan res, ?_, lasting_setConsole s.console hlast⟩
  rw [console_of_lasting hlast, ← hsubject, ← haccount]
  exact askedFor_of_raises hraises

/-! ## RECOVER (R108, R114) -/

theorem calm_recovered (h : calm s) : calm ((s.start.orderEnds acc col).recovered acc) :=
  calm_of_lasting (lasting_recovered s.start acc col) h

/-- In the Middle segment the accessor is sent to its own side. -/
theorem recovered_aside (hcalm : calm s) (hlow : 80 ≤ col) (hhigh : col ≤ 119) :
    parksAside s ((s.start.orderEnds acc col).recovered acc).commit acc
      ∧ (s.rail.zone = some acc → (((s.start.orderEnds acc col).recovered acc).commit.acc acc).state = .running) := by
  have hmiddle : inMiddle col = true := (inMiddle_iff col).mpr ⟨hlow, hhigh⟩
  have hucalm := calm_recovered (acc := acc) (col := col) hcalm
  obtain ⟨u, hu⟩ : ∃ u, u = (s.start.orderEnds acc col).recovered acc := ⟨_, rfl⟩
  have heq : u = (lockLeft s.start acc col).updAcc acc (fun x => { emptied col x with state := .running, todo := some .park }) :=
    hu.trans (recovered_middle hmiddle)
  have hacc : u.acc acc = { emptied col (s.acc acc) with state := .running, todo := some .park } := by
    rw [heq]
    exact State.acc_updAcc_self (lockLeft s.start acc col) acc (fun x => { emptied col x with state := .running, todo := some .park })
  have hzone : u.rail.zone = s.rail.zone := by
    rw [heq, lockLeft_kept (.inl ⟨hlow, hhigh⟩)]
    rfl
  have hparks : Parks u acc (s.acc acc).limPlace :=
    ⟨.inr (.inl (by rw [hacc])), by rw [hacc]; exact hmiddle, by rw [hacc]; rfl, .inl (by rw [hacc]; exact ⟨rfl, rfl⟩)⟩
  have hnone : (u.acc acc).order = none := by rw [hacc]; rfl
  rw [← hu] at hucalm ⊢
  refine ⟨parksAside_commit hucalm hparks hnone (fun hz => hzone.trans hz) (fun c => by rw [heq]; rfl), fun hz => ?_⟩
  obtain ⟨-, -, hhad⟩ := parks_commit hucalm hparks hnone
  exact (hhad (hzone.trans hz)).2.2.2 (by rw [hacc])

/-- Outside it an accessor that finds no work is IDLE, without the lock. -/
theorem recovered_idle (hcalm : calm s) (hcol : col < 80 ∨ 119 < col) (htodo : (s.acc acc).todo = none) (hqueue : s.rail.queues.get acc = [])
    (hreqs : s.station.latchOpen = true ∨ s.rail.scanReqs = []) (haudits : ∀ x, s.audits.get acc = some x → x.state = .done) :
    (((s.start.orderEnds acc col).recovered acc).commit.acc acc).state = .idle
      ∧ ((s.start.orderEnds acc col).recovered acc).commit.rail.zone ≠ some acc := by
  have houtside : inMiddle col = false := Bool.eq_false_iff.mpr fun h => by
    have := (inMiddle_iff col).mp h
    omega
  have hucalm := calm_recovered (acc := acc) (col := col) hcalm
  have hrest : AtRest ((s.start.orderEnds acc col).recovered acc) acc := by
    obtain ⟨w, hw⟩ : ∃ w, w = (lockLeft s.start acc col).updAcc acc (fun x => { emptied col x with state := .idle, faults := 0 }) := ⟨_, rfl⟩
    have hacc : w.acc acc = { emptied col (s.acc acc) with state := .idle, faults := 0 } := by
      rw [hw]
      exact State.acc_updAcc_self (lockLeft s.start acc col) acc (fun x => { emptied col x with state := .idle, faults := 0 })
    have hgiven : ∃ z, w.releaseZone acc = { w with rail := { w.rail with zone := z } } ∧ z ≠ some acc := by
      unfold State.releaseZone
      split
      · exact ⟨none, rfl, (Option.some_ne_none _).symm⟩
      next hz => exact ⟨w.rail.zone, rfl, hz⟩
    obtain ⟨z, hz, hne⟩ := hgiven
    rw [recovered_outside houtside, ← hw, hz]
    have hwacc : ({ w with rail := { w.rail with zone := z } } : State).acc acc = w.acc acc := rfl
    refine ⟨?_, ?_, ?_, ?_, ?_, ?_, ?_, hne⟩
    · rw [hwacc, hacc]
    · rw [hwacc, hacc]; rfl
    · rw [hwacc, hacc]; exact htodo
    · rw [hwacc, hacc]; exact houtside
    · rw [hw]; exact hqueue
    · rw [hw]; exact haudits
    · rw [hw]; exact hreqs
  have hafter := rest_commit hucalm hrest
  exact ⟨hafter.idle, hafter.zone⟩

/-! ## PARK (R103, R119) -/

theorem calm_parkedWith {f : AccRec → AccRec} (h : calm s) : calm (((s.start.orderEnds acc col).releaseZone acc).updAcc acc f) :=
  calm_of_lasting (lasting_parkedWith (s := s.start) (g := fun x => f (ended col x)) rfl) h

theorem park_over {g : AccRec → AccRec} (hcalm : calm s) (horder : (s.acc acc).order = some o) (hop : o.op = .park)
    (howes : ¬((s.acc acc).state = .offline ∧ .accessor acc ∈ s.link.poll))
    (hg : lastingAcc (AccRec.parked (ended col (s.acc acc))) = lastingAcc (g (s.acc acc))) :
    ∃ t, exec (.parkCompletion acc col) s = .next t ∧ lasting t = lasting (s.updAcc acc g) := by
  refine ⟨_, exec_park horder hop, ?_⟩
  rw [if_neg (mt owesStatus_iff.mp howes)]
  exact (Machine.lasting_commit (calm_parkedWith hcalm)).trans (lasting_parkedWith (s := s.start) hg)

/-- An OFFLINE accessor that has still to answer the online poll is sent its STATUS. -/
theorem park_polled (hcalm : calm s) (horder : (s.acc acc).order = some o) (hop : o.op = .park)
    (howes : (s.acc acc).state = .offline ∧ .accessor acc ∈ s.link.poll) :
    ∃ t, exec (.parkCompletion acc col) s = .next t ∧ (t.acc acc).state = .offline
      ∧ ((t.acc acc).todo = some .status ∨ ∃ z, (t.acc acc).order = some z ∧ z.op = .status)
      ∧ lasting t = lasting (s.updAcc acc (fun x => { x with column := col })) := by
  have hexec := exec_park (col := col) horder hop
  rw [if_pos (owesStatus_iff.mpr howes)] at hexec
  have hacc := acc_parkedWith s.start acc col (fun x => { x with todo := some .status })
  have hpolled : Polled (((s.start.orderEnds acc col).releaseZone acc).updAcc acc fun x => { x with todo := some .status }) acc :=
    ⟨by rw [hacc]; exact howes.1, .inl (by rw [hacc]; exact ⟨rfl, rfl⟩)⟩
  obtain ⟨hoffline, hnext⟩ := polled_commit (calm_parkedWith hcalm) hpolled
  exact ⟨_, hexec, hoffline, hnext.imp_left (fun h => h.2),
    (Machine.lasting_commit (calm_parkedWith hcalm)).trans (lasting_parkedWith (s := s.start) (acc := acc) (col := col)
      (f := fun x => { x with todo := some .status }) (g := fun x => { x with column := col }) rfl)⟩

/-- Settles O51. -/
theorem scanRecoverAndPark : Obligations.ScanRecoverAndPark := by
  intro acc o s hcalm horder base fieldsAt
  refine ⟨fun c x res hop hscan hx hrun hlaw => ?_, fun p n r ser e hop hscan hexpects hr hser he => ⟨fun hkind hfree => ?_, fun c hkind hc => ?_⟩,
    fun p n r res hop hscan hexpects hr hmiss => ⟨fun hmisses hroom => ?_, fun hmisses hprompt hexpecting hclaims hroom => ?_⟩,
    fun p late hop hscan hlate => ⟨fun res hres => ?_, fun ser hat hroom => ?_, fun ser n r hislate hexpects hr => ?_, fun ser z hholds => ?_⟩,
    fun p late ser hop hscan hstate => ⟨fun hclaims => ⟨fun howner => ?_, fun n r howner hr hroom => ?_⟩, fun res hres hflow hroom => ⟨fun howner => ?_,
      fun n r howner hr => ?_⟩⟩,
    fun col f hop hfaults hfailed => ?_, fun col hop hfaults => ?_, fun col hop => ⟨fun howes htrip => ?_, fun howes htrip => ?_, fun howes => ?_⟩⟩
  · refine ⟨_, exec_scan horder hop hscan res, fun habort => audit_aborted hcalm hlaw hx hrun habort,
      fun habort hlast => audit_passes_last hcalm hlaw hx hrun habort hlast, fun habort hlast => ?_⟩
    rw [audit_goes_on hlaw hx hrun habort hlast]
    exact ⟨commit_of_lasting (lasting_goes_on s x _) hcalm, scanning_after hcalm, suspending_after hcalm⟩
  · refine ⟨_, exec_scan horder hop hscan (.label ser), ?_⟩
    rw [supply_queued hcalm hexpects hr hser he hkind hfree]
    exact congrArg lasting (updRec_const (s := reelSupplied ser n p (scanBase s acc o.col)) (f := fun r => { r with state := .queued }) hr).symm
  · refine ⟨_, exec_scan horder hop hscan (.label ser), ?_⟩
    rw [supply_stows hcalm hexpects hr hser he hkind hc]
    exact congrArg lasting (updRec_const (s := reelSupplied ser n p (scanBase s acc o.col)) (f := fun r => { r with
      state := .stowing, leg := some (legOf r (accOfColumn c.col) (.station (some p)) (.cell c)), nextLeg := none }) hr).symm
  · exact missed_once hcalm horder hop hscan hexpects hr hmiss hmisses hroom
  · exact ⟨_, exec_scan horder hop hscan res, supply_misses_again hcalm hexpects hr hmiss hmisses hprompt hexpecting hclaims hroom⟩
  · refine ⟨_, exec_scan horder hop hscan res, late_nothing hcalm hlate ?_⟩
    rcases hres with rfl | rfl <;> rfl
  · exact late_collected hcalm horder hop hscan hlate hat hroom
  · subst hislate
    refine ⟨fun hmisses => ⟨_, exec_scan horder hop hscan (.label ser), late_misses_once hcalm hexpects hmisses⟩,
      fun hmisses hexpecting hclaims hroom howed => ?_⟩
    obtain ⟨t, ht, hends, hgone, hstays⟩ := late_misses_again (acc := acc) (col := o.col) (ser := ser) hcalm hexpects hr hmisses hexpecting hclaims hroom howed
    have hexec := exec_scan horder hop hscan (.label ser)
    rw [ht] at hexec
    refine ⟨fun k hk hy => ⟨t, hexec, hgone k hk hy, hends⟩, fun hno => ⟨t, hexec, ?_⟩⟩
    rw [hstays hno] at hends
    exact hends
  · exact ⟨_, exec_scan horder hop hscan (.label ser), late_nothing hcalm hlate (lateScanned_holding (by rw [scanDone_station]; exact hholds))⟩
  · refine ⟨_, exec_scan horder hop hscan .empty, ?_⟩
    have hempty := collect_unowned (acc := acc) (col := o.col) (late := late) hcalm hclaims hstate howner
    rw [← howner] at hempty
    exact hempty
  · refine ⟨_, exec_scan horder hop hscan .empty, ?_⟩
    have hends := collect_ends (acc := acc) (col := o.col) (late := late) hcalm hclaims hstate howner hr hroom
    rw [← howner] at hends
    exact hends
  · exact collect_asked hcalm horder hop hscan hstate hres hflow hroom (by rw [howner]; rfl) (by rw [howner]; rfl)
  · have hslot := slot_of_rec? hr
    have howned : s.station.pos[p].owner.bind s.rec? = some r := by rw [howner]; exact hr
    exact collect_asked hcalm horder hop hscan hstate hres hflow hroom (by rw [howned, ← hslot]; rfl) (by rw [howned]; rfl)
  · rw [exec_recover horder hop, if_pos hfaults, retried hfailed]
    rfl
  · rw [exec_recover horder hop, if_neg hfaults]
    exact ⟨_, rfl, (Machine.lasting_commit (calm_recovered hcalm)).trans (lasting_recovered s.start acc col), recovered_aside hcalm,
      recovered_idle hcalm⟩
  · exact park_over hcalm horder hop howes (by rw [AccRec.parked, if_neg (by simp [ended, htrip])]; rfl)
  · exact park_over hcalm horder hop howes (by rw [AccRec.parked, if_pos (by simpa [ended, Option.isSome_iff_ne_none] using htrip)]; rfl)
  · exact park_polled hcalm horder hop howes

end ScanObligation

end Sys2Proof
end
